-- ==== Sys2Proof/Word.lean ====
section
/-! DEFINITION. The word types of the device (R11, R12, R13): registers are 32 bits wide, memory is bytes. -/
namespace Sys2Proof

abbrev Byte := BitVec 8
abbrev W32 := BitVec 32

end Sys2Proof
end

