-- ==== Sys2Proof/Syntax.lean ====
section
/-! DEFINITION. The commands of the device and their operands. The table of operations and events gives its rows no bits
and no operands, so the operands are the model's: what the environment supplies at that step (log entry 3). The sections
of the block whose byte layout the spec does not give come decoded beside the raw bytes (log entry 4). -/
namespace Sys2Proof

/-- The masters that reach registers (R430), numbered as SYS_ACC_ERR_LAST numbers them (R431). -/
inductive Master where
  | host | pair0 | pair1 | peer2 | peer3 | debug | boot
deriving DecidableEq, Repr

/-- What the device section of the block holds (R374), and the fields other chapters mark "block". -/
structure BlockDevice where
  chain : Nat := 0
  position : Nat := 0
  size : Nat := 1
  roles : List Nat := []
  timSrc : Nat := 0
  profile : Nat := 0
  ptpDomain : Nat := 0
  ptpPorts : Nat := 0
  refBEn : Bool := false
  pcieIds : Nat := 0
  intPath : List Nat := []
  macs : List Nat := []
  ethModes : List Nat := []
  pairModes : List Nat := []
  ethSpeeds : List Nat := []
  mgmtVid : Nat := 0
  mgmtType : Nat := 0
  mgmtMacs : List Nat := []
  bootType : Nat := 0
  bootVid : Nat := 0
  bootPort : Nat := 0
  bootServer : Nat := 0
  memCfg : Nat := 0
  lp5x : Bool := false
  pcieWidth : Nat := 4
deriving DecidableEq, Repr

/-- A tapped channel of a zone (R26, R338, R340): its zone gate, the start of its floor band, and the RCV words loaded for
it (R69). -/
structure SafTap where
  ch : Nat
  zgOpen : Nat := 0
  zgClose : Nat := 0
  floorNear : Nat := 0
  ctl : Nat := 0
  thr : Nat := 0
  gate : Nat := 0
deriving DecidableEq, Repr

/-- A zone of a safety parameter set (R338); `emitters` and `drives` are masks. -/
structure SafZoneSet where
  taps : List SafTap := []
  frameMs : Nat := 10
  hitMin : Nat := 1
  chMin : Nat := 1
  floorMin : Nat := 0
  shotsMin : Nat := 1
  emitters : Nat := 0
  drives : Nat := 0
deriving DecidableEq, Repr

/-- A drive of a safety parameter set (R338), with the band connection its permit comes from (R346, R354). -/
structure SafDriveSet where
  supervised : Bool := false
  scale : Nat := 0
  vMax : Nat := 0
  vCreep : Nat := 0
  vStill : Nat := 0
  spdTol : Nat := 0
  aDec : Nat := 0
  vTol : Nat := 0
  tDelay : Nat := 0
  tMax : Nat := 0
  spdCyc : Nat := 1
  testCnt : Nat := 0
  band : Option Nat := none
deriving DecidableEq, Repr

/-- A band connection of a safety parameter set (R338): direction 0 unused, 1 receive, 2 transmit. -/
structure SafBandSet where
  dir : Nat := 0
  ident : Nat := 0
  window : Nat := 4
  seqGap : Nat := 1
  txMs : Nat := 4
deriving DecidableEq, Repr

/-- A discrete pair of a safety parameter set (R350); `drives` is a mask. -/
structure SafDiscSet where
  fn : Nat := 0
  anti : Bool := false
  discMs : Nat := 10
  drives : Nat := 0
deriving DecidableEq, Repr

/-- A safety parameter set (R338), the CRC-32C it carries and whether its contents agree with it. -/
structure SafSet where
  number : Nat
  crc : Nat
  crcOk : Bool := true
  zones : List SafZoneSet := []
  drives : List SafDriveSet := []
  bands : List SafBandSet := []
  discs : List SafDiscSet := []
  scanMax : Nat := 0
  fixedOptics : Bool := false
  coverLevel : Bool := true
deriving DecidableEq, Repr

/-- A feature of the block (R52, R374): its id, whether it is enabled, the resources it owns and those it marks as pool. -/
structure BlockFeature where
  id : Nat
  enabled : Bool
  owns : List Nat := []
  pool : List Nat := []
deriving DecidableEq, Repr

/-- A quota slot of the block (R266): its owner, its quota. -/
structure BlockQuota where
  slot : Nat
  owner : Nat
  quota : Nat
deriving DecidableEq, Repr

/-- The sections of a block beside its protection section, its firmware keys and its trailer, decoded (R374): the device
section, the features, the shared balls that are given their second function (R446), the settings pairs in order, the
safety parameter sets, the quotas. -/
structure BlockBody where
  device : BlockDevice := {}
  features : List BlockFeature := []
  balls : List Nat := []
  settings : List (Nat × Nat) := []
  sets : List SafSet := []
  quotas : List BlockQuota := []
deriving DecidableEq, Repr

/-- The commands of the device: one constructor per row of the table of operations and events. -/
inductive Instr where
  /-- SUPPLIES_GOOD: All six rails have been good for 10 ms, so the device leaves OFF and enters RESET -/
  | suppliesGood
  /-- SUPPLY_OUT_OF_RANGE: A rail lies outside its trip limits for more than 2 µs, which forces a cold reset; for VDD_CORE or VDDIO_3V3 the safety clamps also drive the safety outputs low -/
  | supplyOutOfRange (rail : Fin 6)
  /-- RESET_BALL: RESET_BALL_L held low for at least 1 µs causes a warm reset -/
  | resetBall
  /-- SRAM_OVERWRITE_COMPLETE: The SRAM wipe in RESET completes, and the device passes to BLOCK_LOAD, or to FAULT if a cause 0x23 was found -/
  | sramOverwriteComplete
  /-- BLOCK_COPY_READ: A copy of the block has been read from the boot flash and is checked; it is then applied, or copy 1 is read, or FAULT is entered with cause 0x11 -/
  | blockCopyRead (bytes : List Byte) (body : BlockBody)
  /-- DRAM_WIPE_COMPLETE: Every populated DRAM channel has been trained and overwritten, and the device enters AWAIT_FIRMWARE -/
  | dramWipeComplete
  /-- HELLO: The one-second timer of the Ethernet boot fetch expires and the device sends HELLO -/
  | hello
  /-- OFFER: A boot OFFER frame arrives; if its LENGTH is allowed, its sender becomes the server and reading begins -/
  | offer (src : BitVec 48) (serial : BitVec 64) (len : BitVec 32)
  /-- DATA: A boot DATA frame arrives and its chunk is written into the firmware region; when every chunk is held, the fetch is complete and VERIFY is entered -/
  | data (src : BitVec 48) (serial : BitVec 64) (off : BitVec 32) (bytes : List Byte)
  /-- READ_RETRY: A chunk is still missing 50 ms after its READ and is requested again -/
  | readRetry (chunk : Fin 16384)
  /-- SERVER_LOST: Two seconds pass with no DATA; the device forgets the server and resumes HELLO, keeping the chunks it holds -/
  | serverLost
  /-- VERIFY_COMPLETE: The signature check of the image ends, with INIT on success or AWAIT_FIRMWARE with BAD_IMAGE on failure -/
  | verifyComplete
  /-- INIT_COMPLETE: Firmware reports initialisation complete and the device moves from INIT to READY -/
  | initComplete
  /-- WAKE_EVENT: A wake event enabled in the block starts the wake sequence out of STABLED -/
  | wakeEvent
  /-- WAKE_FIRMWARE_READY: During a wake, firmware has restored its state and reports ready; the device enters READY and WAKE completes with OK -/
  | wakeFirmwareReady
  /-- WAKE_TIMEOUT: Firmware has not reported ready within 500 ms of starting a wake, and the device enters FAULT with cause 0x21 -/
  | wakeTimeout
  /-- FIRMWARE_WATCHDOG: The firmware watchdog expires and the device enters FAULT with cause 0x21 -/
  | firmwareWatchdog
  /-- INTERNAL_CONSISTENCY_CHECK: An internal consistency check fails and the device enters FAULT with cause 0x23 -/
  | internalConsistencyCheck
  /-- THERMAL_CAUSE_CLEAR: The hottest junction has stayed below 110 °C for 10 s, so hold cause 0x10 clears -/
  | thermalCauseClear
  /-- NOP: Command NOP completes with no effect -/
  | nop (m : Fin 2) (tag : BitVec 8)
  /-- FW_COMMIT: Command that checks the committed image length and offset and enters VERIFY -/
  | fwCommit (m : Fin 2) (tag : BitVec 8) (len : BitVec 32) (off : BitVec 32)
  /-- START: Command that moves the device from READY to RUN, restarting schedules, dither generators, grids and predictions -/
  | start (m : Fin 2) (tag : BitVec 8)
  /-- STOP: Command that moves the device from RUN to READY and closes the open streams -/
  | stop (m : Fin 2) (tag : BitVec 8)
  /-- STABLE: Command that enters STABLED: switched domains go off, DRAM enters self-refresh and the time tag moves to AON_REF -/
  | stable (m : Fin 2) (tag : BitVec 8)
  /-- WAKE: Command that starts the wake sequence out of STABLED -/
  | wake (m : Fin 2) (tag : BitVec 8)
  /-- HOLD: Command that enters SAFE_HOLD with the command hold cause -/
  | hold (m : Fin 2) (tag : BitVec 8)
  /-- RELEASE: Command that returns the device from SAFE_HOLD to READY when no other hold cause stands, and otherwise ends with HELD -/
  | release (m : Fin 2) (tag : BitVec 8)
  /-- STREAM_ON: Command that checks a stream's ring, watermarks and quota and turns the stream on with an empty ring -/
  | streamOn (m : Fin 2) (tag : BitVec 8) (stream : BitVec 32)
  /-- STREAM_OFF: Command that writes a stream's pending gaps, closing header and pending values, and then stops the stream -/
  | streamOff (m : Fin 2) (tag : BitVec 8) (stream : BitVec 32)
  /-- TIME_STEP: Command that adds a signed step to the time offset O, or steps it to the source -/
  | timeStep (m : Fin 2) (tag : BitVec 8) (ns : BitVec 64)
  /-- CLAIM: Command that gives a pool resource to a feature -/
  | claim (m : Fin 2) (tag : BitVec 8) (res : BitVec 32) (who : BitVec 32)
  /-- UNCLAIM: Command by which the current owner returns a resource -/
  | unclaim (m : Fin 2) (tag : BitVec 8) (res : BitVec 32) (who : BitVec 32)
  /-- ATTEST: Command that writes a 704-byte attestation report signed by the identity key -/
  | attest (m : Fin 2) (tag : BitVec 8) (nonce : BitVec 256)
  /-- LC_CHANGE: PROT_CHANGE operation that burns a life-cycle fuse and then resets the device with cause 0x30 -/
  | lcChange (m : Fin 2) (tag : BitVec 8) (slot : BitVec 32)
  /-- SLOT_PROGRAM: PROT_CHANGE operation that burns a key hash into a key slot -/
  | slotProgram (m : Fin 2) (tag : BitVec 8) (slot : BitVec 32)
  /-- SLOT_REVOKE: PROT_CHANGE operation that burns the REVOKED fuse of a key slot -/
  | slotRevoke (m : Fin 2) (tag : BitVec 8) (slot : BitVec 32)
  /-- GEN_ADVANCE: PROT_CHANGE operation that raises GEN_MIN by burning generation fuses -/
  | genAdvance (m : Fin 2) (tag : BitVec 8) (slot : BitVec 32)
  /-- DEBUG_OPEN: PROT_CHANGE operation that raises the debug level in FIELD until the next reset -/
  | debugOpen (m : Fin 2) (tag : BitVec 8) (slot : BitVec 32)
  /-- RESET_WARM: Command that causes a warm reset -/
  | resetWarm (m : Fin 2) (tag : BitVec 8)
  /-- RESET_COLD: Command that causes a cold reset -/
  | resetCold (m : Fin 2) (tag : BitVec 8)
  /-- MANAGEMENT_FRAME: A management frame arrives; if accepted, it is written into mailbox 1 and rung, and the reply is sent when DONE sets -/
  | managementFrame (port : Fin 4) (vid : BitVec 12) (etype : BitVec 16) (src : BitVec 48) (payload : List Byte)
  /-- DC_ARM: ARM written to a dual-control slot draws a fresh nonce and sets VALID -/
  | dcArm (slot : Fin 4)
  /-- NONCE_EXPIRY: A dual-control nonce reaches 600 s of age and is cleared together with VALID -/
  | nonceExpiry (slot : Fin 4)
  /-- APPLY: A write of APPLY to the emitter PLL arms the copy of the shadow at the next aligned instant, or is refused -/
  | apply (m : Master)
  /-- APPLY_ALIGNED_INSTANT: At the next edge of the safe clock, the shadow is re-checked and copied into the active copy; dividers restart, or a re-lock starts -/
  | applyAlignedInstant
  /-- LOCK_DECLARED: The phase error has stayed inside the window for LOCK_CNT cycles; lock is declared and the outputs return at the next safe-clock edge -/
  | lockDeclared
  /-- LOSS_OF_LOCK: Four detector cycles in succession fall outside the window; loss of lock is counted and logged, and a re-lock starts -/
  | lossOfLock
  /-- LOCK_FAIL: No lock has been declared within 1 ms of a re-lock; LOCK_FAIL sets -/
  | lockFail
  /-- SHOT_DRAW: The dither generator shifts 16 times for a scheduled shot, at least 400 ns before its nominal time, to set its offset and phase -/
  | shotDraw (n : Fin 32)
  /-- PERMIT_SAMPLE: A port samples both emission permits 160 ns before a scheduled fire edge, and withdraws the shot if either is false -/
  | permitSample (n : Fin 32)
  /-- CALIBRATION_SLOT: An engine's calibration slot starts 150 ns before the scheduled fire edge; it forms N1 and N2, checks g and s, applies tables and trims, and swaps in spares -/
  | calibrationSlot (u : Fin 2112) (n1 : Fin 320) (n2 : Fin 320)
  /-- RING_TRIM_STEP: After 64 successive slots on one side of g = 128, the stop ring is trimmed by one step -/
  | ringTrimStep (u : Fin 2112)
  /-- ADAPT_WINDOW_END: A window of 2^ADAPT_WIN shots ends and a channel's sunlight offset is updated -/
  | adaptWindowEnd (ch : Fin 768)
  /-- FIRE_EDGE: The scheduled fire edge of an enabled port: the trigger is driven and the coarse counters of its clusters are zeroed -/
  | fireEdge (n : Fin 32)
  /-- PERMIT_WITHDRAWN: A safety channel withdraws its emission permit, which blocks the triggers within 10 µs -/
  | permitWithdrawn
  /-- START_SENSE_EDGE: A rising crossing at a start-sense input is converted as the shot's t_ref if it falls inside the window, and otherwise sets SPURIOUS -/
  | startSenseEdge (n : Fin 32) (t : BitVec 24)
  /-- SENSE_WINDOW_END: The start-sense window closes with no edge; the shot is void and NOSENSE_CNT counts it, and SENSE_LOST sets after SENSE_LOST_LIMIT such shots -/
  | senseWindowEnd (n : Fin 32)
  /-- GATE_CLOSE: A channel's range gate closes, which starts its idle window for threshold probing -/
  | gateClose (ch : Fin 768) (stuck : Bool)
  /-- HIT: A leading edge at a return channel is judged by the range gate, the buckets and engine availability, and conversion starts -/
  | hit (c : Fin 48) (edges : List (Fin 16 × BitVec 23 × Option (BitVec 24) × BitVec 24 × Bool))
  /-- CONVERSION_COMPLETE: An engine's rings reach coincidence and the hit becomes a walk-corrected timestamp, which goes to coincidence, felting, the tap and the bow -/
  | conversionComplete (u : Fin 2112) (k : Fin 160) (fix : Bool) (fixWord : BitVec 20) (bad : Bool) (badWord : BitVec 20)
  /-- CONVERSION_TIMEOUT: Coincidence has not occurred by cycle 159; the hit is dropped and the engine is declared failed -/
  | conversionTimeout (u : Fin 2112)
  /-- REF_FAULT: A cluster reference ball has deviated by more than ±50 mV for 1 µs; REF_FAULT sets and a fault is logged -/
  | refFault (c : Fin 48)
  /-- TRIM_DECISION: Both probe codes have collected TRIM_SAMPLES samples and the comparator trim x is decided -/
  | trimDecision (ch : Fin 768) (high : Bool) (n0 : BitVec 21) (n1 : BitVec 21)
  /-- STARVED: One second passes in RUN without a trim decision; STARVED sets -/
  | starved (ch : Fin 768)
  /-- INTERNAL_BOUNDARY: Outside RUN, every 65,536 ns, an internal boundary runs the calibration slots and applies tables, trims and spares -/
  | internalBoundary (counts : List (Fin 2112 × Fin 320 × Fin 320))
  /-- BOW_TABLE_BUILD: An engine's bow counts reach 2^20; a table is built, checked and accepted or rejected -/
  | bowTableBuild (u : Fin 2112)
  /-- UTILITY_GATE_END: A utility engine's gate interval ends and it writes its period, frequency or interval result -/
  | utilityGateEnd (n : Fin 12) (edges : BitVec 32) (first : BitVec 64 × Fin 160) (last : BitVec 64 × Fin 160) (pairs : List ((BitVec 64 × Fin 160) × (BitVec 64 × Fin 160))) (ovr : Bool)
  /-- WALK_COMMIT: WALK_COMMIT copies a tile's shadow walk table into each cluster at that cluster's next boundary -/
  | walkCommit (m : Master) (t : Fin 12)
  /-- HISTOGRAM_BOUNDARY: A cluster reaches SHOTS shots; the buffers swap, held settings and windows take effect, and the closed buffer goes to the extractor -/
  | histogramBoundary (c : Fin 48)
  /-- HISTOGRAM_SILENCE: A cluster receives no shot for 4 × PERIOD, so its histogram closes short -/
  | histogramSilence (c : Fin 48)
  /-- CHANNEL_EXTRACTED: The extractor finishes a channel; echoes are classified and reduced, records are made and windows are predicted -/
  | channelExtracted (tile : Fin 12 × List (BitVec 20 × Bool))
  /-- SNAPSHOT_ARM: ARM arms the capture of a channel's next extracted histogram into the snapshot area -/
  | snapshotArm (m : Master) (t : Fin 12) (pos : Fin 64)
  /-- FRAME_START: A schedule frame starts; the keeper forms e, may slip the fire times by 1 ns and send a slip notice, and may raise ALARM -/
  | frameStart
  /-- ANNOUNCEMENT_SEND: The 1 ms timer in RUN expires and a schedule announcement is sent on the ring -/
  | announcementSend
  /-- ANNOUNCEMENT: A schedule announcement frame arrives and makes its bistatic sources live, or withdraws them -/
  | announcement (src : Fin 8) (payload : List Byte)
  /-- SLIP_NOTICE: A slip notice arrives and applies to the predicted shots from the frame it names -/
  | slipNotice (src : Fin 8) (payload : List Byte)
  /-- SHOT_NOTICE: A shot notice arrives and confirms or withdraws predicted bistatic shots -/
  | shotNotice (src : Fin 8) (payload : List Byte)
  /-- SOURCE_EXPIRED: No announcement has arrived for a bistatic source for 2 ms, so it is no longer live -/
  | sourceExpired (n : Fin 8)
  /-- BISTATIC_SHOT: The predicted fire edge of a bistatic source opens a shot for the cluster that follows it -/
  | bistaticShot (n : Fin 8)
  /-- LOOP_SLOT: A loop's sample instant: it applies its previous output, latches feedback and computes its next output -/
  | loopSlot (n : Fin 32)
  /-- ENCODER_EDGE: A taken encoder transition updates the count, or sets ENC_ERR for an illegal transition -/
  | encoderEdge (port : Fin 4) (a : Bool) (b : Bool)
  /-- ENCODER_INDEX: A rising edge of ENC_Z resets the revolution position and sets INDEXED, or INDEX_ERR -/
  | encoderIndex (port : Fin 4)
  /-- HALL_CHANGE: The Hall state changes and commutation follows, with HALL_ERR for an invalid state -/
  | hallChange (port : Fin 4) (h : Fin 8)
  /-- NOTCH_COMMIT: COMMIT copies both notch shadows into use at the loop's next sample instant -/
  | notchCommit (m : Master) (n : Fin 32) (v : BitVec 32)
  /-- LOOP_SCHEDULE_WRITE: A write to DIV, PHASE, EN or a group field is checked against the slot schedule, and the loop restarts or the write is refused -/
  | loopScheduleWrite (m : Master) (n : Fin 32) (sched : Bool) (v : BitVec 32)
  /-- ODOMETRY_COUNT: A prescaled count of the motion source moves the position and speed, and drives direction declaration, suppression, overspeed and the carriage turn -/
  | odometryCount (n : Fin 4) (a : Bool) (b : Bool)
  /-- SLIP_CHECK: Every 100 ms the distances of the primary and check inputs are compared, and SLIP may set -/
  | slipCheck
  /-- STANDSTILL: STILL_MS pass with no count; speed becomes 0 and STANDSTILL sets -/
  | standstill
  /-- LINE_TRIGGER: A grid position falls due and a line trigger starts the exposure cycle, or the trigger is held or dropped -/
  | lineTrigger
  /-- TRIGGER_RELEASE: A trigger held for T_min is released at the position reached -/
  | triggerRelease
  /-- START_PULSE: The exposure ends at the first segment-clock edge after it; SEG_SP and the readout start, the strobe ends and staged settings and tables apply -/
  | startPulse (seg : Fin 24) (cur : List (Fin 12 × BitVec 21))
  /-- READOUT_COMPLETE: A segment's readout completes and its corrected, aligned row values go to the stitcher -/
  | readoutComplete (seg : Fin 24) (r : List (BitVec 12)) (g : List (BitVec 12)) (b : List (BitVec 12)) (bad : List (Fin 6144)) (hist : Bool × BitVec 14)
  /-- STITCHED_LINE: A stitched line leaves the stitcher; trackers, binning, flags, hoods and the line record or gap record follow -/
  | stitchedLine (lag : Bool) (bad : Bool)
  /-- CAPTURE: CAP starts a dark or white reference capture for a bank in READY, or is refused -/
  | capture (m : Master) (bank : Fin 12) (v : BitVec 32)
  /-- CAPTURE_LINE: The capture timer takes the next capture line; after the last one the tables are written and CAP_DONE sets -/
  | captureLine (bank : Fin 12)
  /-- SHADE_WRITE: A write to a live shading table goes to the table, or claims and fills the staging buffer -/
  | shadeWrite (m : Master) (seg : Fin 24) (word : Fin 6144) (v : BitVec 32)
  /-- SHADE_COMMIT: COMMIT queues the staging buffer for copy at the owner's next start pulse -/
  | shadeCommit (m : Master)
  /-- WARMUP_INTERVAL: Every 100 ms a bank forms the drift of its lamps and updates WARM -/
  | warmupInterval (bank : Fin 12)
  /-- MONITOR_LINE: Outside RUN, with its lamps on, a bank takes a monitor line every 1 ms -/
  | monitorLine (bank : Fin 12)
  /-- ACQ_RD_WRITE: The host advances a stream's RD, freeing room; watermarks, STALL, carriage restart and waiting gap records follow -/
  | acqRdWrite (m : Master) (n : Fin 64) (v : BitVec 32)
  /-- MEASUREMENT_TIMER: A measurement stream's timer expires and records the newest result of every selected slot -/
  | measurementTimer (n : Fin 64)
  /-- STATE_REFRESH: A state stream's refresh interval expires and every selected source is rewritten with REFRESH -/
  | stateRefresh (n : Fin 64)
  /-- DOORBELL: A write to DMA_Q_DB starts an IDLE chain, sets DB_PEND, wakes a PARKED chain or resumes a HALTED one -/
  | doorbell (m : Master) (chain : Fin 4096) (v : BitVec 32)
  /-- CHAIN_EN_WRITE: EN written to a chain enables it, or ends fetching so the chain goes IDLE -/
  | chainEnWrite (m : Master) (chain : Fin 4096) (v : BitVec 32)
  /-- HEAD_WRITE: HEAD is written in IDLE or HALTED, or the write is ignored and counted -/
  | headWrite (m : Master) (chain : Fin 4096) (lo : BitVec 32) (hi : BitVec 32)
  /-- DESCRIPTOR_FETCHED: A descriptor fetch returns; it is checked and segments are issued, or the chain halts with FETCH_ERR -/
  | descriptorFetched (chain : Fin 4096) (host : List Byte) (err : Bool)
  /-- SEGMENT_READ_DONE: A segment's reads return into its buffer slot and are reshuffled for writing -/
  | segmentReadDone (chain : Fin 4096) (off : BitVec 24) (host : List Byte) (err : Fin 3 × BitVec 10)
  /-- SEGMENT_WRITE_ACCEPTED: A segment's last write is accepted; when the descriptor is finished, STATUS and the completion record are written -/
  | segmentWriteAccepted (chain : Fin 4096) (off : BitVec 24) (err : Bool)
  /-- CONTROL_REREAD: The re-read of a tail's control word returns; the chain follows NEXT, re-reads again or parks -/
  | controlReread (chain : Fin 4096) (host : List Byte) (err : Bool)
  /-- CQ_RD_WRITE: The host advances a completion queue's RD, and waiting completion and event records are written -/
  | cqRdWrite (m : Master) (queue : Fin 4096) (v : BitVec 32)
  /-- CQ_EN_WRITE: EN written to a completion queue is checked against the owner's quota -/
  | cqEnWrite (m : Master) (queue : Fin 4096) (v : BitVec 32)
  /-- COALESCING_TIMEOUT: COAL_US passes since the first pending record and the queue posts its interrupt -/
  | coalescingTimeout (queue : Fin 4096)
  /-- QUOTA_WRITE: A new QUOTA applies at once and may block new fetches and DRAM-bound segments -/
  | quotaWrite (m : Master) (n : Fin 64) (v : BitVec 32)
  /-- SCRUB: A scrubber reads the next word of its macro, correcting it or reporting an uncorrectable error -/
  | scrub (region : Fin 4) (unit : BitVec 8) (word : BitVec 20) (pos : Fin 32) (found : Fin 3) (passed : Bool)
  /-- DRAM_READ: A DRAM read returns, with correction and write-back or an error response and event -/
  | dramRead (burst : BitVec 29) (found : Fin 3) (mirror : Fin 3)
  /-- PATROL: A channel patrols one burst in an idle refresh interval -/
  | patrol (ch : Fin 4) (burst : BitVec 29) (found : Fin 3)
  /-- DRAM_TRACKING: Every 100 ms a channel runs WCK-to-DQ oscillator tracking and checks its margin -/
  | dramTracking (ch : Fin 4) (margin : Fin 3)
  /-- REFRESH_DERATE: Every 16 ms the controller reads MR4 and derates the refresh rate -/
  | refreshDerate (ch : Fin 4) (mr4 : BitVec 5)
  /-- IMBALANCE_WINDOW: A 1 ms request-count window ends and may be flagged as imbalanced -/
  | imbalanceWindow (r0 : BitVec 32) (r1 : BitVec 32) (r2 : BitVec 32) (r3 : BitVec 32)
  /-- MIGRATE: MIGRATE marks a channel degraded and starts its migration, or is refused -/
  | migrate (m : Master) (ch : Fin 4)
  /-- GRAIN_COPIED: A grain's last burst is stored in its target; the map entry flips, held writes apply, and retirement follows after the last grain -/
  | grainCopied (ch : Fin 4) (bad : List (Fin 1024))
  /-- CHANNEL_LOST: A DRAM channel is lost; its grains flip or fail, and loss of channel 0 enters SAFE_HOLD with cause 0x12 -/
  | channelLost (ch : Fin 4)
  /-- DRAM_NO_RESPONSE: A DRAM channel has given no response for 10 µs and is declared lost -/
  | dramNoResponse (ch : Fin 4)
  /-- LINK_CDR_LOCK: CDR lock holds on at least three lanes, and the link passes from DETECT to TRAIN -/
  | linkCdrLock (link : Fin 4) (lock : BitVec 4) (inv : BitVec 4)
  /-- LINK_TRAINED: Three lanes have passed 2^20 blocks without error at both ends, and the link enters ALIGN -/
  | linkTrained (link : Fin 4)
  /-- TRAIN_FAIL: TRAIN lasts 10 ms, so the link returns to DETECT with TRAIN_FAIL -/
  | trainFail (link : Fin 4)
  /-- RECOVER_TIMEOUT: RECOVER lasts 1 ms, so the link returns to DETECT -/
  | recoverTimeout (link : Fin 4)
  /-- DESKEW_MARKER: A deskew marker is received; it completes alignment to UP, completes a spare switch, or detects loss of deskew -/
  | deskewMarker (link : Fin 4) (good : BitVec 4) (spare : BitVec 8)
  /-- DESKEW_MARKER_SEND: Every 4,096 columns a deskew marker is sent on all four lanes, where a pending spare swap takes effect -/
  | deskewMarkerSend (link : Fin 4)
  /-- RETRAIN: RETRAIN moves an UP link to RECOVER -/
  | retrain (m : Master) (link : Fin 4) (v : BitVec 32)
  /-- TEST: TEST written while DOWN takes the link into PRBS test, and writing 0 returns it to DOWN -/
  | test (m : Master) (link : Fin 4) (v : BitVec 32) (errs : List (BitVec 32))
  /-- LINK_FRAME: A Krevan frame arrives and is accepted in LSEQ order or NAKed, then delivered, forwarded or removed on the ring -/
  | linkFrame (link : Fin 4) (bytes : List Byte) (host : List Byte) (err : Bool)
  /-- ACK: A link-control ACK frees acknowledged frames from the replay buffer -/
  | ack (link : Fin 4) (lseq : BitVec 12)
  /-- NAK: A link-control NAK makes the sender resend from the named LSEQ -/
  | nak (link : Fin 4) (lseq : BitVec 12)
  /-- SPARE: A link-control SPARE makes the sender move a logical lane onto the spare at its next deskew marker -/
  | spare (link : Fin 4) (lane : Fin 3)
  /-- REPLAY_TIMEOUT: Four µs pass without an ACK; unacknowledged frames are resent, and the eighth resend moves the link to RECOVER -/
  | replayTimeout (link : Fin 4)
  /-- LANE_FAILED: A receiving lane loses CDR lock or exceeds its error limit in a 1 ms window; it is logged and SPARE is sent -/
  | laneFailed (link : Fin 4) (lane : Fin 4) (errs : BitVec 16)
  /-- RING_SINGLE_TIMEOUT: A ring frame's second copy has not arrived within 10 µs; LNK_RING_SINGLE_CNT counts it -/
  | ringSingleTimeout (src : Fin 8) (rseq : BitVec 16)
  /-- MEM_WR: A bridge MEM_WR frame writes data at a DMA address of the receiving device -/
  | memWr (link : Fin 4) (addr : BitVec 64) (bytes : List Byte)
  /-- MEM_RD: A bridge MEM_RD frame reads memory and is answered with MEM_CPL -/
  | memRd (link : Fin 4) (addr : BitVec 64) (len : BitVec 16) (rtag : BitVec 16) (host : List Byte) (err : Bool)
  /-- MEM_CPL: A bridge MEM_CPL frame completes an outstanding read, giving RD_ERR on STATUS 1 -/
  | memCpl (link : Fin 4) (rtag : BitVec 16) (sts : BitVec 16) (off : BitVec 16) (bytes : List Byte)
  /-- REG_WR: A REG_WR frame from a host-bridge peer writes a BAR0 register -/
  | regWr (link : Fin 4) (addr : BitVec 32) (value : BitVec 32)
  /-- REG_RD: A REG_RD frame from a host-bridge peer reads a BAR0 register and is answered with REG_CPL -/
  | regRd (link : Fin 4) (addr : BitVec 32) (rtag : BitVec 16)
  /-- REG_CPL: A REG_CPL frame completes a register read issued to the peer -/
  | regCpl (link : Fin 4) (rtag : BitVec 16) (sts : BitVec 16) (value : BitVec 32)
  /-- INT: An INT frame delivers an MSI-X vector across a host-bridge link -/
  | int (link : Fin 4) (vector : BitVec 16)
  /-- EYE_SCAN_START: START begins an offset-sampler eye scan on a lane -/
  | eyeScanStart (m : Master) (lane : Fin 16) (v : BitVec 32)
  /-- EYE_SCAN_DONE: The eye scan has counted 2^BITS_LOG2 bits, and DONE sets -/
  | eyeScanDone (lane : Fin 16) (count : BitVec 41)
  /-- TIME_MARKER: A time marker arrives and gives one offset theta and path delay d for its link -/
  | timeMarker (link : Fin 2) (count : BitVec 8) (departure : BitVec 64)
  /-- TIME_MARKER_SEND: Every 1,024 columns a time marker is sent carrying the previous marker's departure instant -/
  | timeMarkerSend (link : Fin 4)
  /-- CHAIN_UPDATE: After 2^AVG_LOG2 markers on the upstream link, the servo makes one update of s and r -/
  | chainUpdate
  /-- TIME_STATUS: A type 0x40 time-status frame arrives, and the upstream link and TDIST are chosen from it -/
  | timeStatus (link : Fin 2) (payload : List Byte)
  /-- TIME_STATUS_SEND: Every 64 markers a type 0x40 time-status frame is sent on each ring link -/
  | timeStatusSend (link : Fin 2)
  /-- TIM_MEAS_WRITE: A write to TIM_MEAS_HI is one PTP servo update, or the first load, or is refused -/
  | timMeasWrite (m : Master) (lo : BitVec 32) (hi : BitVec 32)
  /-- HOLDOVER: No valid measurement for LOSS_MS: the time base enters HOLDOVER with r frozen and s zero, and it is logged -/
  | holdover
  /-- REFERENCE_LOST: A timing reference is lost; the reference PLL switches to the other reference or holds over -/
  | referenceLost (b : Bool)
  /-- REFERENCE_PRESENT: A 1 ms window finds a reference inside ±100 ppm, so it becomes present -/
  | referencePresent (b : Bool)
  /-- RETURN_TO_A: Reference A has been present for 10 s, so the PLL returns to it by phase build-out -/
  | returnToA
  /-- LOCAL_OSCILLATOR_FAILED: Reference input 1 fails; it is logged and the device enters FAULT with cause 0x23 -/
  | localOscillatorFailed
  /-- CONFIG_REQUEST: A PCIe configuration request is answered with retry status, the block identity or the fallback identity -/
  | configRequest (write : Bool) (off : BitVec 12) (value : BitVec 32)
  /-- BAR2_WRITE: A host write through BAR2 reaches MAP + offset, or is discarded and counted -/
  | bar2Write (off : BitVec 26) (bytes : List Byte)
  /-- BAR2_READ: A host read through BAR2 completes with data, Completer Abort or a poisoned TLP -/
  | bar2Read (off : BitVec 26) (len : BitVec 13)
  /-- BAR2_MAP_WRITE: A write to PCI_BAR2_MAP moves the BAR2 window, or is refused while MAP is held -/
  | bar2MapWrite (m : Master) (lo : BitVec 32) (hi : BitVec 32)
  /-- PCIE_RESET: A hot reset, FLR or PCI_PERST_L resets the configuration space and MSI-X table and halts chains with host addresses -/
  | pcieReset (kind : Fin 3)
  /-- PCIE_LINK_DOWN: The PCIe data link goes down and transfers to host memory wait -/
  | pcieLinkDown
  /-- COMPLETION_TIMEOUT: A host-memory read has not completed within CPL_TO and gives RD_ERR -/
  | completionTimeout (chain : Fin 4096) (off : BitVec 24)
  /-- ETH_FRAME_RECEIVED: An Ethernet frame passes FCS, duplicate discard and the classifier, and is dropped or routed -/
  | ethFrameReceived (port : Fin 4) (age : BitVec 40) (fcsOk : Bool) (frame : List Byte)
  /-- ETH_LINK_CHANGE: An Ethernet port's link changes state and LINK_EVT sets -/
  | ethLinkChange (port : Fin 4) (up : Bool) (speed : BitVec 3)
  /-- SUPERVISION_FRAME: Every 2,000 ms a PRP or HSR supervision frame is sent -/
  | supervisionFrame (pair : Fin 2)
  /-- RED_SINGLE_TIMEOUT: A redundant frame's partner copy has not come within 400 ms and is counted -/
  | redSingleTimeout (pair : Fin 2) (src : BitVec 48) (seq : BitVec 16)
  /-- TS_HEAD_READ: A read of ETH_TS_HI removes the head of the PTP transmit timestamp FIFO -/
  | tsHeadRead (m : Master) (port : Fin 4)
  /-- SAFETY_POWER_GOOD: VDD_CORE and VDDIO_3V3 have been good for 10 ms, and both safety channels start in START -/
  | safetyPowerGood (swA : BitVec 12) (swB : BitVec 12)
  /-- TAP_WORD: A safety channel accepts a tap word and classifies it as intruding, floor or not counted -/
  | tapWord (ch : Fin 768) (code : BitVec 23) (dropped : Bool) (parityOk : Bool) (second : Bool) (overflow : Bool)
  /-- SAFETY_CYCLE_END: At the end of each 2 ms cycle a channel cross-compares images, evaluates zones, updates drive states and the mirror -/
  | safetyCycleEnd (b : Bool) (sw : BitVec 12)
  /-- SELF_TEST: Once per 64 cycles a channel tests its core, memory and timers, and a failure is cause 0x02 -/
  | selfTest (b : Bool) (pass : Bool)
  /-- SET_CRC_CHECK: Once per 64 cycles a channel checks the CRC-32C of the set in force, and a failure is cause 0x06 -/
  | setCrcCheck (b : Bool) (good : Bool)
  /-- STO_PULSE_TEST: Once every 128 cycles a high torque-off output is pulsed low for 200 µs and read back -/
  | stoPulseTest (b : Bool)
  /-- READBACK_MISMATCH: An output's readback has differed from its driven level for 1 ms, which is cause 0x05 -/
  | readbackMismatch (b : Bool)
  /-- GUARD_SWITCH_INPUT: A closed or locked input changes, advancing the start-up test toward TEST_DONE -/
  | guardSwitchInput (b : Bool) (drive : Fin 8) (closed : Bool) (locked : Bool)
  /-- SWITCH_DISAGREE: Channel A and B closed or locked inputs have differed for 100 ms, which is stop cause 0x0B -/
  | switchDisagree (drive : Fin 8)
  /-- DISCRETE_INPUT: A safe discrete input changes and acts as stop, permit or general input, reaching outputs within 4 ms -/
  | discreteInput (b : Bool) (pair : Fin 8) (level : Bool)
  /-- DISC_ERR: A discrete pair has disagreed with its mode for DISC_MS, so its reading is forced to 0 -/
  | discErr (pair : Fin 8)
  /-- COVER_INPUT: A window-cover input reports the cover closed and the channel withdraws its emission permit -/
  | coverInput (b : Bool) (level : Bool)
  /-- SCAN_SENSE_TIMEOUT: The interval since the last scan-sense pulse exceeds SCAN_MAX, and the permit is withdrawn -/
  | scanSenseTimeout (b : Bool)
  /-- BAND_MESSAGE: A band message reaches both channels and is checked for format, code and sequence, then accepted or discarded -/
  | bandMessage (bytes : List Byte)
  /-- BAND_TIMEOUT: No message has been accepted on a receive connection for WINDOW ms, which is stop cause 0x04 -/
  | bandTimeout (b : Bool) (conn : Fin 4)
  /-- BAND_TRANSMIT: Every TX_MS both channels form the next status message in SAF_TX -/
  | bandTransmit (conn : Fin 4)
  /-- LOCKSTEP_MISMATCH: A lockstep comparator finds a mismatch; held writes are discarded and recovery begins, or FAULT with cause 0x20 -/
  | lockstepMismatch (pair : Bool)
  /-- LOCKSTEP_RESUME: The undo log has been restored and both cores resume from the checkpoint -/
  | lockstepResume (pair : Bool)
  /-- CHECKPOINT_COMMIT: A lockstep pair commits a checkpoint and releases its held writes in program order -/
  | checkpointCommit (pair : Bool)
  /-- LOG_TAIL_WRITE: A write to FMK_LOG_TAIL advances the fault log's read point -/
  | logTailWrite (m : Master) (v : BitVec 32)
  /-- MEA_CONVERSION: A converter's sinc3 window completes and the result passes the chain to slots, detectors, loops and records -/
  | meaConversion (k : Fin 4) (code : BitVec 24) (lead : BitVec 24) (outs : List Nat)
  /-- SEQUENCE_PERIOD: A sequence converter's period starts and it converts its enabled slots in turn -/
  | sequencePeriod (k : Fin 4)
  /-- URG: A write with GO requests an urgent conversion, which starts if the converter is idle and is dropped otherwise -/
  | urg (m : Master) (v : BitVec 32)
  /-- TEMPERATURE_SAMPLE: All 64 sensors are sampled; broken sensors, the hottest value, throttle level and thermal shutdown are judged -/
  | temperatureSample (raws : List (BitVec 16))
  /-- DOMAIN_SWITCH: A PWR_DOM_CTL write switches domains on or off, or is refused -/
  | domainSwitch (m : Master) (n : Fin 5) (v : BitVec 32)
  /-- PGOOD: A switched-on domain has powered and zeroed its SRAM, and PGOOD sets -/
  | pgood (d : Fin 140)
  /-- EVENT_ROUTE_WRITE: A write to SYS_EVT_ROUTE sets routing, and a 0-to-1 change of IRQ_EN while the event bit is set sends the vector -/
  | eventRouteWrite (m : Master) (e : Fin 64) (v : BitVec 32)
  /-- SPLIT_LO_READ: An aligned read of a _LO register copies its _HI half into the master's shadow -/
  | splitLoRead (m : Master) (addr : BitVec 28)
  /-- SPLIT_HI_WRITE: A write to a _HI register applies it together with a held _LO write, or alone -/
  | splitHiWrite (m : Master) (addr : BitVec 28) (v : BitVec 32)
  /-- REGISTER_WRITE: A write to any register without a row of its own, checked for size, power, range, state and access, then applied or discarded and counted -/
  | registerWrite (m : Master) (addr : BitVec 28) (size : Fin 9) (v : BitVec 64)
  /-- SCAN_SENSE_PULSE: A pulse on a safety channel's scan-sense input restarts the interval that the scan-speed check measures -/
  | scanSensePulse (b : Bool)
  /-- DRIVE_ENCODER_EDGE: A quadrature transition on an access-drive encoder input is counted by its safety channel for drive speed and the start-up test travel -/
  | driveEncoderEdge (b : Bool) (drive : Fin 8) (back : Bool)
  /-- PCIE_LINK_UP: The PCIe data link comes up again, DL_UP sets, and transfers toward host memory that were waiting resume -/
  | pcieLinkUp (speed : Fin 4) (width : Fin 9)
  /-- ETH_FRAME_SENT: A queued frame finishes leaving an Ethernet port: queue space frees, shaper tokens are spent, and a PTP frame's transmit timestamp enters the FIFO and may post event 18 -/
  | ethFrameSent (port : Fin 4) (age : BitVec 40)
  /-- SUPPLY_SLOT_SILENT: A judged rail's measurement slot has given no result for 1 s, so the rail's state is judged UNKNOWN -/
  | supplySlotSilent (rail : Fin 6)
  /-- DC_SAT: A channel's steady input current exceeds 655.35 µA, so the baseline servo clamps and DC_SAT sets -/
  | dcSat (servo : Fin 768 × Bool)
  /-- UNASSIGNED_OPCODE: A mailbox GO carries an opcode that is not assigned and the command ends with BAD_OPCODE in every state -/
  | unassignedOpcode (m : Fin 2) (tag : BitVec 8) (opcode : BitVec 8)
  /-- SHOT_BATCH_SEND: A batch of shot entries is sent on the ring no later than 1 µs after its first entry -/
  | shotBatchSend
deriving DecidableEq, Repr

end Sys2Proof
end

