-- ==== Sys2Proof/Config.lean ====
section
/-! DEFINITION. What the spec leaves open and the model keeps free: opaque constants without a body, so that no proof can
see a value of them (log entry 6). A drawn value takes the draw's number; a value burned at manufacture takes none. -/
namespace Sys2Proof.Config

/-- The on-die random source: the 64-bit word of the n-th draw (hash seed R278, nonces R390, salts R375). -/
opaque random : Nat → BitVec 64

/-- The 64-bit serial burned at manufacture (R393). -/
opaque serial : BitVec 64

/-- The key hash of slot 8 or 9, burned at manufacture (R376), one byte at a time. -/
opaque vendorHash : Nat → Nat → Byte

/-- The RSA-4096 modulus the n-th identity generation yields (R393), as a number below 2^4096. -/
opaque identityModulus : Nat → BitVec 4096

/-- The private exponent that belongs to the n-th generated modulus (R393). -/
opaque identityExponent : Nat → BitVec 4096

/-- The vendor ID and the subsystem IDs burned into the fuses at manufacture (R303). -/
opaque fallbackIds : BitVec 48

/-- A quotient by the number of valid shots of a histogram that has none: the spec states no result (R145, R147). The
argument is the dividend. -/
opaque perNoShots : Int → Nat

/-- The n-th draw of a result for which the spec states no value (log entry 6): a resampler output, a median not yet
filled, a lost distance with no line before it. -/
opaque unstated : Nat → BitVec 64

/-- The steady input current of a channel at an instant of C, in 10 nA, as the baseline servo absorbs it (R57): what the
photodiode delivers is no command. -/
opaque dcCurrent : Nat → Nat → BitVec 16

/-- The five equaliser taps of a receiving lane at an instant of C, as its adaption has set them (R294): what the lane receives
is no command. -/
opaque dfeTaps : Nat → Nat → BitVec 30

/-- How many frames an Ethernet transmit queue holds: the spec says that a full queue stalls its writer (R308) and gives no
size. -/
opaque txQueueFrames : Nat

end Sys2Proof.Config
end

