-- ==== Sys2Proof/Machine/Bits.lean ====
section
/-! DEFINITION. Bit-field, sign, byte-order and rounding helpers (R11, R12), and the sparse map that holds registers,
memory and per-unit records. -/
namespace Sys2Proof

/-- Bits [hi:lo] of a number. -/
def bitsOf (v hi lo : Nat) : Nat := v / 2 ^ lo % 2 ^ (hi - lo + 1)

/-- A 32-bit word with bits [hi:lo] replaced. -/
def putBits (w hi lo v : Nat) : Nat :=
  w - bitsOf w hi lo * 2 ^ lo + v % 2 ^ (hi - lo + 1) * 2 ^ lo

/-- Bit `i` of a number, as a Bool. -/
def bitOf (v i : Nat) : Bool := v / 2 ^ i % 2 = 1

/-- 1 for true. -/
def b2n (b : Bool) : Nat := if b then 1 else 0

/-- The two's complement reading of a `w`-bit field. -/
def signed (w v : Nat) : Int :=
  let u := v % 2 ^ w
  if 2 * u < 2 ^ w then (u : Int) else (u : Int) - 2 ^ w

/-- The `w`-bit two's complement field of an integer, wrapping. -/
def unsigned (w : Nat) (i : Int) : Nat := (i % (2 ^ w : Int)).toNat

/-- An integer held inside [lo, hi]. -/
def clampI (lo hi i : Int) : Int := if i < lo then lo else if hi < i then hi else i

/-- A natural number held at or below its greatest value. -/
def satN (w v : Nat) : Nat := if v < 2 ^ w then v else 2 ^ w - 1

/-- Division rounding toward zero (the manual's div). -/
def divZ (a : Int) (b : Nat) : Int := Int.tdiv a b

/-- Division rounded to the nearest, halves up. -/
def divRound (a : Int) (b : Nat) : Int := Int.fdiv (2 * a + b) (2 * b)

/-- Nearest, halves away from zero. -/
def divAway (a : Int) (b : Nat) : Int :=
  if 0 ≤ a then Int.fdiv (2 * a + b) (2 * b) else - Int.fdiv (2 * (-a) + b) (2 * b)

/-- Division rounding toward minus infinity (an arithmetic right shift when b is a power of two). -/
def divFloor (a : Int) (b : Nat) : Int := Int.fdiv a b

/-- Little-endian bytes of a number (R12), `n` of them. -/
def leBytes : Nat → Nat → List Byte
  | 0, _ => []
  | n + 1, v => BitVec.ofNat 8 v :: leBytes n (v / 256)

/-- The number a little-endian byte string stands for. -/
def leNat : List Byte → Nat
  | [] => 0
  | b :: bs => b.toNat + 256 * leNat bs

/-- Big-endian bytes of a number. -/
def beBytes (n v : Nat) : List Byte := (leBytes n v).reverse

/-- The number a big-endian byte string stands for. -/
def beNat (l : List Byte) : Nat := leNat l.reverse

/-- `n` bytes of a string from byte `off`, zero past its end. -/
def sliceB (l : List Byte) (off n : Nat) : List Byte :=
  let t := (l.drop off).take n
  t ++ List.replicate (n - t.length) 0#8

/-- Bytes [off, off + n) of a string as a little-endian number. -/
def leAt (l : List Byte) (off n : Nat) : Nat := leNat (sliceB l off n)

/-- Bits packed from the least significant upward: (width, value) fields, lowest first, as one number. -/
def packBits : List (Nat × Nat) → Nat
  | [] => 0
  | (w, v) :: fs => v % 2 ^ w + 2 ^ w * packBits fs

/-- Newton steps toward the integer square root. -/
def isqrtGo (n : Nat) : Nat → Nat → Nat
  | 0, x => x
  | f + 1, x =>
    let y := (x + n / x) / 2
    if y < x then isqrtGo n f y else x

/-- The integer part of the square root. -/
def isqrt (n : Nat) : Nat := if n = 0 then 0 else isqrtGo n 200 (2 ^ (Nat.log2 n / 2 + 1))

/-- The median of a list of integers of odd length (insertion sort, middle element); 0 for the empty list. -/
def insertSorted (x : Int) : List Int → List Int
  | [] => [x]
  | y :: ys => if x ≤ y then x :: y :: ys else y :: insertSorted x ys

/-- Rising order. -/
def sortInts : List Int → List Int
  | [] => []
  | x :: xs => insertSorted x (sortInts xs)

/-- The greatest of a list, from a start. -/
def maxFrom (d : Int) (l : List Int) : Int := l.foldl max d

/-- Replace element `i` of a list; a list too short is unchanged. -/
def setAt {α : Type} (l : List α) (i : Nat) (v : α) : List α := l.set i v

/-! The sparse map: a list of (key, value) pairs, keys strictly rising, no value equal to the default. -/

/-- The value at a key: the default where the key is not listed. -/
def smGet {α : Type} (d : α) : List (Nat × α) → Nat → α
  | [], _ => d
  | (k, v) :: m, a => if k = a then v else smGet d m a

/-- The map without a key. -/
def smErase {α : Type} : List (Nat × α) → Nat → List (Nat × α)
  | [], _ => []
  | (k, v) :: m, a => if k = a then smErase m a else (k, v) :: smErase m a

/-- The map with an entry put in key order. -/
def smInsert {α : Type} (a : Nat) (v : α) : List (Nat × α) → List (Nat × α)
  | [] => [(a, v)]
  | (k, w) :: m => if a < k then (a, v) :: (k, w) :: m else (k, w) :: smInsert a v m

/-- Write one entry: the default is never listed. -/
def smPut {α : Type} [DecidableEq α] (d : α) (m : List (Nat × α)) (a : Nat) (v : α) : List (Nat × α) :=
  if v = d then smErase m a else smInsert a v (smErase m a)

/-- The canonical form: keys strictly rising from at least `lo`, no default value. -/
def smWfFrom {α : Type} [DecidableEq α] (d : α) (lo : Nat) : List (Nat × α) → Bool
  | [] => true
  | (k, v) :: m => decide (lo ≤ k) && decide (v ≠ d) && smWfFrom d (k + 1) m

/-- The canonical form of a map. -/
def smWf {α : Type} [DecidableEq α] (d : α) (m : List (Nat × α)) : Bool := smWfFrom d 0 m

/-- Erase the keys in [a, a + n). -/
def smEraseRange {α : Type} (m : List (Nat × α)) (a n : Nat) : List (Nat × α) :=
  m.filter (fun p => decide (p.1 < a ∨ a + n ≤ p.1))

end Sys2Proof
end

