-- ==== Sys2Proof/RegName.lean ====
section
/-! DEFINITION. The names of the registers of BAR0 (R429): one constructor per register name of the register tables
of chapters 02 to 21, in the tables' order. An instance of a register is a constructor together with an index. -/
namespace Sys2Proof

inductive Reg where
  | sysState
  | sysMbxCmd
  | sysMbxSts
  | sysCmdCnt
  | sysOwnConflict0
  | sysOwnConflict1
  | sysOwnLast0
  | sysOwnLast1
  | sysOwnRefusedCnt
  | rcvChCtl
  | rcvChThr
  | rcvChThrEff
  | rcvChGate
  | rcvChDc
  | rcvChOvlCnt
  | rcvChOogCnt
  | rcvChSts
  | rcvClCtl
  | rcvClDropCnt
  | rcvClNorefCnt
  | rcvClBlankCnt
  | rcvClSts
  | rcvTileCtl
  | rcvWalk
  | tdcEngCal
  | tdcEngSts
  | tdcEngGbow
  | tdcEngBowCnt
  | tdcEngBowTimeLo
  | tdcEngBowTimeHi
  | tdcEngSkipCnt
  | tdcEngRejCnt
  | tdcTrim
  | tdcTileCtl
  | tdcTabSel
  | tdcTab
  | tdcUtilCtl
  | tdcUtilSts
  | tdcUtilResLo
  | tdcUtilResHi
  | emtSts
  | emtAgg
  | emtSseSpare
  | emtPllDiv
  | emtPllLock
  | emtPllCtl
  | emtPllSts
  | emtPllOut
  | emtClSrc
  | emtPortCtl
  | emtPortPeriod
  | emtPortOffset
  | emtPortDither
  | emtPortSeed
  | emtPortSense
  | emtPortSts
  | emtPortLast
  | emtPortFireCnt
  | emtPortNosenseCnt
  | emtPortWithdrawnCnt
  | felClCtl
  | felClBg
  | felClDet
  | felClWin
  | felClOut
  | felClSts
  | felClHistCnt
  | felClMissCnt
  | felClCoarseCnt
  | felClShortCnt
  | felWin
  | felExtLoad
  | felExtAbandonCnt
  | felSnap
  | felKern
  | felKpar
  | felKsel
  | rejSchedCtl
  | rejSchedPeriod
  | rejSchedSlotsLo
  | rejSchedSlotsHi
  | rejSchedEpochLo
  | rejSchedEpochHi
  | rejSchedGuard
  | rejSchedSts
  | rejSchedSlipCnt
  | rejSchedFrameLo
  | rejSchedFrameHi
  | rejBiCtl
  | rejBiDelay
  | rejBiSts
  | rejBiUnconfCnt
  | rejClAdapt
  | rejClCoinc
  | rejClWx
  | rejClXs
  | rejClBi
  | rejClLoneCnt
  | rejClWxCnt
  | rejClXsCnt
  | rejChStat
  | loopSaxCtl
  | loopSaxPwm
  | loopSaxCpr
  | loopSaxAz
  | loopSaxSts
  | loopSaxPos
  | loopSaxSpeed
  | loopSaxErrCnt
  | loopSp
  | loopKp
  | loopKi
  | loopKf
  | loopOutMin
  | loopOutMax
  | loopFailOut
  | loopVlim
  | loopAlim
  | loopJlim
  | loopTc
  | loopTref
  | loopOut
  | loopX
  | loopFb
  | loopNotch
  | loopCtl
  | loopSched
  | loopSrc
  | loopSts
  | loopEngSts
  | linSegCtl
  | linSegPix
  | linSegAdc
  | linSegCol
  | linSegRow
  | linSegCover
  | linSegSts
  | linSegOvrCnt
  | linSegWeak
  | linSegRefdark
  | linShade
  | linBankExp
  | linBankIll
  | linBankWref
  | linBankCap
  | linBankCap2
  | linBankSts
  | linBankTmin
  | linIllCtl
  | linIllSts
  | linDevSts
  | linDevWidth
  | linShadeStg
  | linTrigDropCnt
  | odoInCtl
  | odoInScale
  | odoInCnt
  | odoInSts
  | odoSrc
  | odoMotion
  | odoSts
  | odoPitch
  | odoRevHyst
  | odoPosLo
  | odoPosHi
  | odoSpeed
  | odoHighLo
  | odoHighHi
  | odoSuppressCnt
  | odoSeamCnt
  | odoCarCtl
  | odoCarScale
  | odoCarSpeed
  | odoCarBack
  | odoCarOver
  | linAsmCtl
  | linHoodLen
  | linAsmPix
  | linHoodNum
  | linLineCnt
  | linGapLines
  | linTrkCtl
  | linTrkWin
  | linTrkDead
  | linTrkPos
  | linTrkAng
  | linTrkSts
  | acqStrCtl
  | acqStrBaseLo
  | acqStrBaseHi
  | acqStrSize
  | acqStrWm
  | acqStrWr
  | acqStrRd
  | acqStrSelLo
  | acqStrSelHi
  | acqStrRecCnt
  | acqStrLostCnt
  | acqStrCoalCnt
  | acqStrSts
  | acqEchoRate
  | acqRateDropCnt
  | dmaQCtl
  | dmaQDb
  | dmaQHeadLo
  | dmaQHeadHi
  | dmaQCurLo
  | dmaQCurHi
  | dmaQDescCnt
  | dmaQSuspectCnt
  | dmaQSts
  | dmaCqCtl
  | dmaCqBaseLo
  | dmaCqBaseHi
  | dmaCqWr
  | dmaCqRd
  | dmaCqSts
  | dmaCqCoal
  | dmaQuotaOwn
  | dmaQuota
  | dmaUse
  | dmaOverCnt
  | memCfg
  | memCap
  | memHash
  | memWq
  | memPatrol
  | memImbal
  | memImbalCnt
  | memSramSts
  | memSramCeCnt
  | memSramUeCnt
  | memSramPassCnt
  | memChSts
  | memChCeCnt
  | memChUeCnt
  | memChUeAddrLo
  | memChUeAddrHi
  | memChReq
  | memChCtl
  | lnkRing
  | lnkRingSingleCnt
  | lnkRingDropCnt
  | lnkCtl
  | lnkSts
  | lnkMap
  | lnkCrcCnt
  | lnkReplayCnt
  | lnkRetrainCnt
  | lnkBrBaseLo
  | lnkBrBaseHi
  | lnkLaneSts
  | lnkDfe
  | lnkEyeCtl
  | lnkEyeRes
  | lnkPrbsCnt
  | pciSts
  | pciBar2MapLo
  | pciBar2MapHi
  | pciCplTo
  | pciCplToCnt
  | pciBar2ErrCnt
  | pciIntPath
  | ethPortCtl
  | ethPortSts
  | ethMacLo
  | ethMacHi
  | ethAsym
  | ethTsInfo
  | ethTsLo
  | ethTsHi
  | ethRxCnt
  | ethRxErrCnt
  | ethRxDropCnt
  | ethTxCnt
  | ethTxDropCnt
  | ethTxqDstLo
  | ethTxqDstHi
  | ethTxqTag
  | ethTxqRate
  | ethRedCtl
  | ethRedDupCnt
  | ethRedSingleCnt
  | ethRedLanerrCnt
  | ethClsMatch
  | ethClsAct
  | ethRxrBase
  | ethRxrSize
  | ethRxrWr
  | ethRxrRd
  | ethRxrDropCnt
  | ethMgmtLo
  | ethMgmtHi
  | ethMgmtCfg
  | ethMgmtCnt
  | timCtl
  | timServo
  | timSts
  | timNowLo
  | timNowHi
  | timNowFrac
  | timErr
  | timRate
  | timSlew
  | timRetErrLo
  | timRetErrHi
  | timAlign
  | timMeasLo
  | timMeasHi
  | timPtp
  | timLinkAsym
  | timLinkDelay
  | timRefSts
  | timHoldCnt
  | timStepCnt
  | timRefHoldCnt
  | safSts
  | safCycle
  | safSeal
  | safDisc
  | safZone
  | safDrv
  | safDrvStop
  | safBand
  | safBandSts
  | safCnt
  | safTxCtl
  | safTxData
  | fmkCtl
  | fmkSts
  | fmkPair
  | fmkLogHead
  | fmkLogTail
  | fmkLogOvfCnt
  | fmkMapDead
  | fmkMapEng
  | fmkMapPort
  | fmkMapMisc
  | fmkBank
  | fmkEng
  | fmkLog
  | bootSts
  | bootCode
  | bootFetch
  | bootFwFailCnt
  | bootBuildLo
  | bootBuildHi
  | protLc
  | protGen
  | protSlotSts
  | protSpoiled
  | protDebug
  | protSerialLo
  | protSerialHi
  | protSlotHash
  | protIdpub
  | protAtt
  | protDcCtl
  | protDcBuf
  | meaConvCtl
  | meaConvSts
  | meaConvLateCnt
  | meaExc
  | meaTdac
  | meaUrg
  | meaUrgDropCnt
  | meaSlotIn
  | meaSlotExc
  | meaSlotRef
  | meaSlotConv
  | meaSlotRate
  | meaSlotDet
  | meaSlotT
  | meaSlotMin
  | meaSlotMax
  | meaSlotVal
  | meaSlotSts
  | meaSlotLead
  | meaPoly
  | pwrDomCtl
  | pwrDomSts
  | pwrDomOwn
  | pwrSupSts
  | pwrRefusedCnt
  | pwrSupCfg
  | thmCtl
  | thmSts
  | thmBrokenLo
  | thmBrokenHi
  | thmSkipCnt
  | thmThrMs
  | thmSens
  | sysId
  | sysRev
  | sysRst
  | sysAccErrCnt
  | sysAccErrLast
  | sysEvtSts
  | sysEvtErr
  | sysEvtRoute
  | sysMbxArg
  | sysMbxRes
  | pciMsixTab
  | pciMsixPba
deriving DecidableEq, Repr


/-- Registers of the map, part 0. -/
def Reg.part0 : List Reg :=
  [.sysState, .sysMbxCmd, .sysMbxSts, .sysCmdCnt, .sysOwnConflict0,
   .sysOwnConflict1, .sysOwnLast0, .sysOwnLast1, .sysOwnRefusedCnt, .rcvChCtl,
   .rcvChThr, .rcvChThrEff, .rcvChGate, .rcvChDc, .rcvChOvlCnt,
   .rcvChOogCnt, .rcvChSts, .rcvClCtl, .rcvClDropCnt, .rcvClNorefCnt,
   .rcvClBlankCnt, .rcvClSts, .rcvTileCtl, .rcvWalk, .tdcEngCal,
   .tdcEngSts, .tdcEngGbow, .tdcEngBowCnt, .tdcEngBowTimeLo, .tdcEngBowTimeHi,
   .tdcEngSkipCnt, .tdcEngRejCnt, .tdcTrim, .tdcTileCtl, .tdcTabSel,
   .tdcTab, .tdcUtilCtl, .tdcUtilSts, .tdcUtilResLo, .tdcUtilResHi,
   .emtSts, .emtAgg, .emtSseSpare, .emtPllDiv, .emtPllLock,
   .emtPllCtl, .emtPllSts, .emtPllOut, .emtClSrc, .emtPortCtl]

/-- Registers of the map, part 1. -/
def Reg.part1 : List Reg :=
  [.emtPortPeriod, .emtPortOffset, .emtPortDither, .emtPortSeed, .emtPortSense,
   .emtPortSts, .emtPortLast, .emtPortFireCnt, .emtPortNosenseCnt, .emtPortWithdrawnCnt,
   .felClCtl, .felClBg, .felClDet, .felClWin, .felClOut,
   .felClSts, .felClHistCnt, .felClMissCnt, .felClCoarseCnt, .felClShortCnt,
   .felWin, .felExtLoad, .felExtAbandonCnt, .felSnap, .felKern,
   .felKpar, .felKsel, .rejSchedCtl, .rejSchedPeriod, .rejSchedSlotsLo,
   .rejSchedSlotsHi, .rejSchedEpochLo, .rejSchedEpochHi, .rejSchedGuard, .rejSchedSts,
   .rejSchedSlipCnt, .rejSchedFrameLo, .rejSchedFrameHi, .rejBiCtl, .rejBiDelay,
   .rejBiSts, .rejBiUnconfCnt, .rejClAdapt, .rejClCoinc, .rejClWx,
   .rejClXs, .rejClBi, .rejClLoneCnt, .rejClWxCnt, .rejClXsCnt]

/-- Registers of the map, part 2. -/
def Reg.part2 : List Reg :=
  [.rejChStat, .loopSaxCtl, .loopSaxPwm, .loopSaxCpr, .loopSaxAz,
   .loopSaxSts, .loopSaxPos, .loopSaxSpeed, .loopSaxErrCnt, .loopSp,
   .loopKp, .loopKi, .loopKf, .loopOutMin, .loopOutMax,
   .loopFailOut, .loopVlim, .loopAlim, .loopJlim, .loopTc,
   .loopTref, .loopOut, .loopX, .loopFb, .loopNotch,
   .loopCtl, .loopSched, .loopSrc, .loopSts, .loopEngSts,
   .linSegCtl, .linSegPix, .linSegAdc, .linSegCol, .linSegRow,
   .linSegCover, .linSegSts, .linSegOvrCnt, .linSegWeak, .linSegRefdark,
   .linShade, .linBankExp, .linBankIll, .linBankWref, .linBankCap,
   .linBankCap2, .linBankSts, .linBankTmin, .linIllCtl, .linIllSts]

/-- Registers of the map, part 3. -/
def Reg.part3 : List Reg :=
  [.linDevSts, .linDevWidth, .linShadeStg, .linTrigDropCnt, .odoInCtl,
   .odoInScale, .odoInCnt, .odoInSts, .odoSrc, .odoMotion,
   .odoSts, .odoPitch, .odoRevHyst, .odoPosLo, .odoPosHi,
   .odoSpeed, .odoHighLo, .odoHighHi, .odoSuppressCnt, .odoSeamCnt,
   .odoCarCtl, .odoCarScale, .odoCarSpeed, .odoCarBack, .odoCarOver,
   .linAsmCtl, .linHoodLen, .linAsmPix, .linHoodNum, .linLineCnt,
   .linGapLines, .linTrkCtl, .linTrkWin, .linTrkDead, .linTrkPos,
   .linTrkAng, .linTrkSts, .acqStrCtl, .acqStrBaseLo, .acqStrBaseHi,
   .acqStrSize, .acqStrWm, .acqStrWr, .acqStrRd, .acqStrSelLo,
   .acqStrSelHi, .acqStrRecCnt, .acqStrLostCnt, .acqStrCoalCnt, .acqStrSts]

/-- Registers of the map, part 4. -/
def Reg.part4 : List Reg :=
  [.acqEchoRate, .acqRateDropCnt, .dmaQCtl, .dmaQDb, .dmaQHeadLo,
   .dmaQHeadHi, .dmaQCurLo, .dmaQCurHi, .dmaQDescCnt, .dmaQSuspectCnt,
   .dmaQSts, .dmaCqCtl, .dmaCqBaseLo, .dmaCqBaseHi, .dmaCqWr,
   .dmaCqRd, .dmaCqSts, .dmaCqCoal, .dmaQuotaOwn, .dmaQuota,
   .dmaUse, .dmaOverCnt, .memCfg, .memCap, .memHash,
   .memWq, .memPatrol, .memImbal, .memImbalCnt, .memSramSts,
   .memSramCeCnt, .memSramUeCnt, .memSramPassCnt, .memChSts, .memChCeCnt,
   .memChUeCnt, .memChUeAddrLo, .memChUeAddrHi, .memChReq, .memChCtl,
   .lnkRing, .lnkRingSingleCnt, .lnkRingDropCnt, .lnkCtl, .lnkSts,
   .lnkMap, .lnkCrcCnt, .lnkReplayCnt, .lnkRetrainCnt, .lnkBrBaseLo]

/-- Registers of the map, part 5. -/
def Reg.part5 : List Reg :=
  [.lnkBrBaseHi, .lnkLaneSts, .lnkDfe, .lnkEyeCtl, .lnkEyeRes,
   .lnkPrbsCnt, .pciSts, .pciBar2MapLo, .pciBar2MapHi, .pciCplTo,
   .pciCplToCnt, .pciBar2ErrCnt, .pciIntPath, .ethPortCtl, .ethPortSts,
   .ethMacLo, .ethMacHi, .ethAsym, .ethTsInfo, .ethTsLo,
   .ethTsHi, .ethRxCnt, .ethRxErrCnt, .ethRxDropCnt, .ethTxCnt,
   .ethTxDropCnt, .ethTxqDstLo, .ethTxqDstHi, .ethTxqTag, .ethTxqRate,
   .ethRedCtl, .ethRedDupCnt, .ethRedSingleCnt, .ethRedLanerrCnt, .ethClsMatch,
   .ethClsAct, .ethRxrBase, .ethRxrSize, .ethRxrWr, .ethRxrRd,
   .ethRxrDropCnt, .ethMgmtLo, .ethMgmtHi, .ethMgmtCfg, .ethMgmtCnt,
   .timCtl, .timServo, .timSts, .timNowLo, .timNowHi]

/-- Registers of the map, part 6. -/
def Reg.part6 : List Reg :=
  [.timNowFrac, .timErr, .timRate, .timSlew, .timRetErrLo,
   .timRetErrHi, .timAlign, .timMeasLo, .timMeasHi, .timPtp,
   .timLinkAsym, .timLinkDelay, .timRefSts, .timHoldCnt, .timStepCnt,
   .timRefHoldCnt, .safSts, .safCycle, .safSeal, .safDisc,
   .safZone, .safDrv, .safDrvStop, .safBand, .safBandSts,
   .safCnt, .safTxCtl, .safTxData, .fmkCtl, .fmkSts,
   .fmkPair, .fmkLogHead, .fmkLogTail, .fmkLogOvfCnt, .fmkMapDead,
   .fmkMapEng, .fmkMapPort, .fmkMapMisc, .fmkBank, .fmkEng,
   .fmkLog, .bootSts, .bootCode, .bootFetch, .bootFwFailCnt,
   .bootBuildLo, .bootBuildHi, .protLc, .protGen, .protSlotSts]

/-- Registers of the map, part 7. -/
def Reg.part7 : List Reg :=
  [.protSpoiled, .protDebug, .protSerialLo, .protSerialHi, .protSlotHash,
   .protIdpub, .protAtt, .protDcCtl, .protDcBuf, .meaConvCtl,
   .meaConvSts, .meaConvLateCnt, .meaExc, .meaTdac, .meaUrg,
   .meaUrgDropCnt, .meaSlotIn, .meaSlotExc, .meaSlotRef, .meaSlotConv,
   .meaSlotRate, .meaSlotDet, .meaSlotT, .meaSlotMin, .meaSlotMax,
   .meaSlotVal, .meaSlotSts, .meaSlotLead, .meaPoly, .pwrDomCtl,
   .pwrDomSts, .pwrDomOwn, .pwrSupSts, .pwrRefusedCnt, .pwrSupCfg,
   .thmCtl, .thmSts, .thmBrokenLo, .thmBrokenHi, .thmSkipCnt,
   .thmThrMs, .thmSens, .sysId, .sysRev, .sysRst,
   .sysAccErrCnt, .sysAccErrLast, .sysEvtSts, .sysEvtErr, .sysEvtRoute]

/-- Registers of the map, part 8. -/
def Reg.part8 : List Reg :=
  [.sysMbxArg, .sysMbxRes, .pciMsixTab, .pciMsixPba]

/-- Every register name of the map, in the order of the tables. -/
def Reg.all : List Reg :=
  Reg.part0 ++ Reg.part1 ++ Reg.part2 ++ Reg.part3 ++ Reg.part4 ++ Reg.part5 ++ Reg.part6 ++ Reg.part7 ++ Reg.part8

end Sys2Proof
end

