-- ==== Sys2Proof/Machine/Fields.lean ====
section
/-! DEFINITION. The named fields of the registers: a register name with the bits [hi:lo] of one field, under the name the
register table gives it. Transcribed from the register tables of chapters 02 to 21. -/
namespace Sys2Proof.Machine

/-- A field of a register. -/
structure RegField where
  reg : Reg
  hi : Nat
  lo : Nat
deriving DecidableEq, Repr

namespace F

abbrev sysStateHoldDram : RegField := ⟨.sysState, 26, 26⟩
abbrev sysStateHoldThermal : RegField := ⟨.sysState, 25, 25⟩
abbrev sysStateHoldCmd : RegField := ⟨.sysState, 24, 24⟩
abbrev sysStateCause : RegField := ⟨.sysState, 23, 16⟩
abbrev sysStatePrev : RegField := ⟨.sysState, 11, 8⟩
abbrev sysStateState : RegField := ⟨.sysState, 3, 0⟩
abbrev sysMbxCmdGo : RegField := ⟨.sysMbxCmd, 31, 31⟩
abbrev sysMbxCmdTag : RegField := ⟨.sysMbxCmd, 23, 16⟩
abbrev sysMbxCmdOpcode : RegField := ⟨.sysMbxCmd, 7, 0⟩
abbrev sysMbxStsBusy : RegField := ⟨.sysMbxSts, 31, 31⟩
abbrev sysMbxStsDone : RegField := ⟨.sysMbxSts, 30, 30⟩
abbrev sysMbxStsStateAtExec : RegField := ⟨.sysMbxSts, 27, 24⟩
abbrev sysMbxStsTag : RegField := ⟨.sysMbxSts, 23, 16⟩
abbrev sysMbxStsResult : RegField := ⟨.sysMbxSts, 7, 0⟩
abbrev sysCmdCntStateRefusedCnt : RegField := ⟨.sysCmdCnt, 31, 16⟩
abbrev sysCmdCntBusyDiscards : RegField := ⟨.sysCmdCnt, 15, 0⟩
abbrev sysOwnConflict0Feature2 : RegField := ⟨.sysOwnConflict0, 31, 16⟩
abbrev sysOwnConflict0Feature1 : RegField := ⟨.sysOwnConflict0, 15, 0⟩
abbrev sysOwnConflict1Resource : RegField := ⟨.sysOwnConflict1, 31, 0⟩
abbrev sysOwnLast0Holder : RegField := ⟨.sysOwnLast0, 31, 16⟩
abbrev sysOwnLast0Requester : RegField := ⟨.sysOwnLast0, 15, 0⟩
abbrev sysOwnLast1Resource : RegField := ⟨.sysOwnLast1, 31, 0⟩
abbrev sysOwnRefusedCntCount : RegField := ⟨.sysOwnRefusedCnt, 15, 0⟩
abbrev rcvChCtlMask : RegField := ⟨.rcvChCtl, 7, 7⟩
abbrev rcvChCtlAdaptEn : RegField := ⟨.rcvChCtl, 6, 6⟩
abbrev rcvChCtlWalkMode : RegField := ⟨.rcvChCtl, 3, 2⟩
abbrev rcvChCtlGain : RegField := ⟨.rcvChCtl, 1, 0⟩
abbrev rcvChThrHighBase : RegField := ⟨.rcvChThr, 25, 16⟩
abbrev rcvChThrLowBase : RegField := ⟨.rcvChThr, 9, 0⟩
abbrev rcvChThrEffHighEff : RegField := ⟨.rcvChThrEff, 25, 16⟩
abbrev rcvChThrEffLowEff : RegField := ⟨.rcvChThrEff, 9, 0⟩
abbrev rcvChGateClose : RegField := ⟨.rcvChGate, 29, 16⟩
abbrev rcvChGateOpen : RegField := ⟨.rcvChGate, 12, 0⟩
abbrev rcvChDcDcCurrent : RegField := ⟨.rcvChDc, 15, 0⟩
abbrev rcvChOvlCntCount : RegField := ⟨.rcvChOvlCnt, 31, 0⟩
abbrev rcvChOogCntCount : RegField := ⟨.rcvChOogCnt, 31, 0⟩
abbrev rcvChStsPending : RegField := ⟨.rcvChSts, 7, 7⟩
abbrev rcvChStsSafetyLocked : RegField := ⟨.rcvChSts, 6, 6⟩
abbrev rcvChStsGateErr : RegField := ⟨.rcvChSts, 5, 5⟩
abbrev rcvChStsWidthSat : RegField := ⟨.rcvChSts, 4, 4⟩
abbrev rcvChStsTiaOverload : RegField := ⟨.rcvChSts, 3, 3⟩
abbrev rcvChStsDcSat : RegField := ⟨.rcvChSts, 2, 2⟩
abbrev rcvChStsEngineBusyDrop : RegField := ⟨.rcvChSts, 1, 1⟩
abbrev rcvChStsRateDrop : RegField := ⟨.rcvChSts, 0, 0⟩
abbrev rcvClCtlBiasWatchEn : RegField := ⟨.rcvClCtl, 23, 23⟩
abbrev rcvClCtlBiasLoop : RegField := ⟨.rcvClCtl, 20, 16⟩
abbrev rcvClCtlBiasBlankShots : RegField := ⟨.rcvClCtl, 11, 8⟩
abbrev rcvClCtlBiasStepLimit : RegField := ⟨.rcvClCtl, 7, 0⟩
abbrev rcvClDropCntCount : RegField := ⟨.rcvClDropCnt, 31, 0⟩
abbrev rcvClNorefCntCount : RegField := ⟨.rcvClNorefCnt, 31, 0⟩
abbrev rcvClBlankCntCount : RegField := ⟨.rcvClBlankCnt, 31, 0⟩
abbrev rcvClStsBlanking : RegField := ⟨.rcvClSts, 1, 1⟩
abbrev rcvClStsRefFault : RegField := ⟨.rcvClSts, 0, 0⟩
abbrev rcvTileCtlWalkCommit : RegField := ⟨.rcvTileCtl, 0, 0⟩
abbrev rcvWalkCorr : RegField := ⟨.rcvWalk, 11, 0⟩
abbrev tdcEngCalN2 : RegField := ⟨.tdcEngCal, 24, 16⟩
abbrev tdcEngCalN1 : RegField := ⟨.tdcEngCal, 8, 0⟩
abbrev tdcEngStsRingTrim : RegField := ⟨.tdcEngSts, 21, 16⟩
abbrev tdcEngStsService : RegField := ⟨.tdcEngSts, 11, 10⟩
abbrev tdcEngStsBowValid : RegField := ⟨.tdcEngSts, 9, 9⟩
abbrev tdcEngStsTable : RegField := ⟨.tdcEngSts, 8, 8⟩
abbrev tdcEngStsTimeout : RegField := ⟨.tdcEngSts, 2, 2⟩
abbrev tdcEngStsGainRange : RegField := ⟨.tdcEngSts, 1, 1⟩
abbrev tdcEngStsBowReject : RegField := ⟨.tdcEngSts, 0, 0⟩
abbrev tdcEngGbowGBow : RegField := ⟨.tdcEngGbow, 15, 0⟩
abbrev tdcEngBowCntCount : RegField := ⟨.tdcEngBowCnt, 31, 0⟩
abbrev tdcEngBowTimeLoTime : RegField := ⟨.tdcEngBowTimeLo, 31, 0⟩
abbrev tdcEngBowTimeHiTime : RegField := ⟨.tdcEngBowTimeHi, 31, 0⟩
abbrev tdcEngSkipCntCount : RegField := ⟨.tdcEngSkipCnt, 31, 0⟩
abbrev tdcEngRejCntCount : RegField := ⟨.tdcEngRejCnt, 31, 0⟩
abbrev tdcTrimStarved : RegField := ⟨.tdcTrim, 25, 25⟩
abbrev tdcTrimLimit : RegField := ⟨.tdcTrim, 24, 24⟩
abbrev tdcTrimHighTrim : RegField := ⟨.tdcTrim, 22, 16⟩
abbrev tdcTrimLowTrim : RegField := ⟨.tdcTrim, 6, 0⟩
abbrev tdcTileCtlTrimSamples : RegField := ⟨.tdcTileCtl, 11, 10⟩
abbrev tdcTileCtlTrimEn : RegField := ⟨.tdcTileCtl, 9, 9⟩
abbrev tdcTileCtlBowSwitch : RegField := ⟨.tdcTileCtl, 8, 8⟩
abbrev tdcTileCtlBowSrc : RegField := ⟨.tdcTileCtl, 7, 7⟩
abbrev tdcTileCtlBowEn : RegField := ⟨.tdcTileCtl, 6, 6⟩
abbrev tdcTabSelEngine : RegField := ⟨.tdcTabSel, 7, 0⟩
abbrev tdcTabCentreOdd : RegField := ⟨.tdcTab, 31, 16⟩
abbrev tdcTabCentreEven : RegField := ⟨.tdcTab, 15, 0⟩
abbrev tdcUtilCtlEn : RegField := ⟨.tdcUtilCtl, 31, 31⟩
abbrev tdcUtilCtlMode : RegField := ⟨.tdcUtilCtl, 30, 29⟩
abbrev tdcUtilCtlPrescale : RegField := ⟨.tdcUtilCtl, 28, 27⟩
abbrev tdcUtilCtlGate : RegField := ⟨.tdcUtilCtl, 19, 0⟩
abbrev tdcUtilStsFailed : RegField := ⟨.tdcUtilSts, 2, 2⟩
abbrev tdcUtilStsOverrun : RegField := ⟨.tdcUtilSts, 1, 1⟩
abbrev tdcUtilStsValid : RegField := ⟨.tdcUtilSts, 0, 0⟩
abbrev tdcUtilResLoResult : RegField := ⟨.tdcUtilResLo, 31, 0⟩
abbrev tdcUtilResHiResult : RegField := ⟨.tdcUtilResHi, 31, 0⟩
abbrev emtStsPermitB : RegField := ⟨.emtSts, 3, 3⟩
abbrev emtStsPermitA : RegField := ⟨.emtSts, 2, 2⟩
abbrev emtStsRateErr : RegField := ⟨.emtSts, 0, 0⟩
abbrev emtAggRate : RegField := ⟨.emtAgg, 22, 0⟩
abbrev emtSseSpareService : RegField := ⟨.emtSseSpare, 7, 0⟩
abbrev emtPllDivM : RegField := ⟨.emtPllDiv, 15, 8⟩
abbrev emtPllDivP : RegField := ⟨.emtPllDiv, 2, 0⟩
abbrev emtPllLockLockCnt : RegField := ⟨.emtPllLock, 28, 16⟩
abbrev emtPllLockLockWin : RegField := ⟨.emtPllLock, 5, 0⟩
abbrev emtPllCtlApply : RegField := ⟨.emtPllCtl, 0, 0⟩
abbrev emtPllStsLossCnt : RegField := ⟨.emtPllSts, 31, 16⟩
abbrev emtPllStsApplyErr : RegField := ⟨.emtPllSts, 5, 5⟩
abbrev emtPllStsLockFail : RegField := ⟨.emtPllSts, 4, 4⟩
abbrev emtPllStsApplyPend : RegField := ⟨.emtPllSts, 3, 3⟩
abbrev emtPllStsSafeClk : RegField := ⟨.emtPllSts, 2, 2⟩
abbrev emtPllStsLocked : RegField := ⟨.emtPllSts, 0, 0⟩
abbrev emtPllOutEn : RegField := ⟨.emtPllOut, 31, 31⟩
abbrev emtPllOutDelay : RegField := ⟨.emtPllOut, 21, 16⟩
abbrev emtPllOutDiv : RegField := ⟨.emtPllOut, 8, 0⟩
abbrev emtClSrcEn : RegField := ⟨.emtClSrc, 31, 31⟩
abbrev emtClSrcEmitter : RegField := ⟨.emtClSrc, 4, 0⟩
abbrev emtPortCtlEn : RegField := ⟨.emtPortCtl, 31, 31⟩
abbrev emtPortCtlPhaseEn : RegField := ⟨.emtPortCtl, 30, 30⟩
abbrev emtPortCtlSenseLostLimit : RegField := ⟨.emtPortCtl, 15, 8⟩
abbrev emtPortCtlTrigWidth : RegField := ⟨.emtPortCtl, 7, 0⟩
abbrev emtPortPeriodValue : RegField := ⟨.emtPortPeriod, 19, 0⟩
abbrev emtPortOffsetValue : RegField := ⟨.emtPortOffset, 19, 0⟩
abbrev emtPortDitherSpan : RegField := ⟨.emtPortDither, 6, 0⟩
abbrev emtPortSeedSeed : RegField := ⟨.emtPortSeed, 30, 0⟩
abbrev emtPortSenseSenseMax : RegField := ⟨.emtPortSense, 23, 16⟩
abbrev emtPortSenseSenseMin : RegField := ⟨.emtPortSense, 7, 0⟩
abbrev emtPortStsSseService : RegField := ⟨.emtPortSts, 9, 8⟩
abbrev emtPortStsSseBowValid : RegField := ⟨.emtPortSts, 7, 7⟩
abbrev emtPortStsWdCause : RegField := ⟨.emtPortSts, 6, 5⟩
abbrev emtPortStsSenseLost : RegField := ⟨.emtPortSts, 3, 3⟩
abbrev emtPortStsSpurious : RegField := ⟨.emtPortSts, 2, 2⟩
abbrev emtPortStsInhibitLate : RegField := ⟨.emtPortSts, 1, 1⟩
abbrev emtPortLastPhase : RegField := ⟨.emtPortLast, 13, 8⟩
abbrev emtPortLastOffset : RegField := ⟨.emtPortLast, 7, 0⟩
abbrev emtPortFireCntCount : RegField := ⟨.emtPortFireCnt, 31, 0⟩
abbrev emtPortNosenseCntCount : RegField := ⟨.emtPortNosenseCnt, 31, 0⟩
abbrev emtPortWithdrawnCntCount : RegField := ⟨.emtPortWithdrawnCnt, 31, 0⟩
abbrev felClCtlPredEn : RegField := ⟨.felClCtl, 30, 30⟩
abbrev felClCtlPredMode : RegField := ⟨.felClCtl, 29, 29⟩
abbrev felClCtlReduce : RegField := ⟨.felClCtl, 28, 24⟩
abbrev felClCtlShots : RegField := ⟨.felClCtl, 23, 12⟩
abbrev felClBgBgSkip : RegField := ⟨.felClBg, 15, 8⟩
abbrev felClBgBgBins : RegField := ⟨.felClBg, 1, 0⟩
abbrev felClDetDetK : RegField := ⟨.felClDet, 23, 16⟩
abbrev felClDetMinCount : RegField := ⟨.felClDet, 11, 0⟩
abbrev felClWinSnipLead : RegField := ⟨.felClWin, 20, 16⟩
abbrev felClWinCentHalf : RegField := ⟨.felClWin, 12, 8⟩
abbrev felClWinWinLead : RegField := ⟨.felClWin, 5, 0⟩
abbrev felClOutAzEn : RegField := ⟨.felClOut, 31, 31⟩
abbrev felClOutAzAxis : RegField := ⟨.felClOut, 17, 16⟩
abbrev felClOutZeroOfs : RegField := ⟨.felClOut, 15, 0⟩
abbrev felClStsPending : RegField := ⟨.felClSts, 31, 31⟩
abbrev felClStsBuf : RegField := ⟨.felClSts, 30, 30⟩
abbrev felClStsSat : RegField := ⟨.felClSts, 29, 29⟩
abbrev felClStsShort : RegField := ⟨.felClSts, 28, 28⟩
abbrev felClStsUncorr : RegField := ⟨.felClSts, 27, 27⟩
abbrev felClStsSvLast : RegField := ⟨.felClSts, 11, 0⟩
abbrev felClHistCntCount : RegField := ⟨.felClHistCnt, 31, 0⟩
abbrev felClMissCntCount : RegField := ⟨.felClMissCnt, 31, 0⟩
abbrev felClCoarseCntCount : RegField := ⟨.felClCoarseCnt, 31, 0⟩
abbrev felClShortCntCount : RegField := ⟨.felClShortCnt, 31, 0⟩
abbrev felWinValid : RegField := ⟨.felWin, 31, 31⟩
abbrev felWinFineSrc : RegField := ⟨.felWin, 30, 30⟩
abbrev felWinStart : RegField := ⟨.felWin, 16, 0⟩
abbrev felExtLoadLoadErr : RegField := ⟨.felExtLoad, 31, 31⟩
abbrev felExtLoadLoad : RegField := ⟨.felExtLoad, 9, 0⟩
abbrev felExtAbandonCntCount : RegField := ⟨.felExtAbandonCnt, 31, 0⟩
abbrev felSnapArm : RegField := ⟨.felSnap, 31, 31⟩
abbrev felSnapDone : RegField := ⟨.felSnap, 30, 30⟩
abbrev felSnapChannel : RegField := ⟨.felSnap, 5, 0⟩
abbrev felKernTap3 : RegField := ⟨.felKern, 31, 24⟩
abbrev felKernTap2 : RegField := ⟨.felKern, 23, 16⟩
abbrev felKernTap1 : RegField := ⟨.felKern, 15, 8⟩
abbrev felKernTap0 : RegField := ⟨.felKern, 7, 0⟩
abbrev felKparNomWidth : RegField := ⟨.felKpar, 27, 16⟩
abbrev felKparCentre : RegField := ⟨.felKpar, 11, 8⟩
abbrev felKparLen : RegField := ⟨.felKpar, 4, 0⟩
abbrev felKselKernel : RegField := ⟨.felKsel, 2, 0⟩
abbrev rejSchedCtlSchedEn : RegField := ⟨.rejSchedCtl, 31, 31⟩
abbrev rejSchedCtlCodeset : RegField := ⟨.rejSchedCtl, 22, 16⟩
abbrev rejSchedCtlNslots : RegField := ⟨.rejSchedCtl, 6, 0⟩
abbrev rejSchedPeriodPeriod : RegField := ⟨.rejSchedPeriod, 19, 0⟩
abbrev rejSchedSlotsLoSlots : RegField := ⟨.rejSchedSlotsLo, 31, 0⟩
abbrev rejSchedSlotsHiSlots : RegField := ⟨.rejSchedSlotsHi, 31, 0⟩
abbrev rejSchedEpochLoEpoch : RegField := ⟨.rejSchedEpochLo, 31, 0⟩
abbrev rejSchedEpochHiEpoch : RegField := ⟨.rejSchedEpochHi, 31, 0⟩
abbrev rejSchedGuardTol : RegField := ⟨.rejSchedGuard, 23, 16⟩
abbrev rejSchedGuardGuard : RegField := ⟨.rejSchedGuard, 7, 0⟩
abbrev rejSchedStsAlarm : RegField := ⟨.rejSchedSts, 31, 31⟩
abbrev rejSchedStsSchedErr : RegField := ⟨.rejSchedSts, 30, 30⟩
abbrev rejSchedStsRunning : RegField := ⟨.rejSchedSts, 29, 29⟩
abbrev rejSchedStsError : RegField := ⟨.rejSchedSts, 15, 0⟩
abbrev rejSchedSlipCntCount : RegField := ⟨.rejSchedSlipCnt, 31, 0⟩
abbrev rejSchedFrameLoFrame : RegField := ⟨.rejSchedFrameLo, 31, 0⟩
abbrev rejSchedFrameHiFrame : RegField := ⟨.rejSchedFrameHi, 31, 0⟩
abbrev rejBiCtlEn : RegField := ⟨.rejBiCtl, 31, 31⟩
abbrev rejBiCtlDevice : RegField := ⟨.rejBiCtl, 10, 8⟩
abbrev rejBiCtlPort : RegField := ⟨.rejBiCtl, 4, 0⟩
abbrev rejBiDelayDelay : RegField := ⟨.rejBiDelay, 15, 0⟩
abbrev rejBiStsLive : RegField := ⟨.rejBiSts, 31, 31⟩
abbrev rejBiStsLate : RegField := ⟨.rejBiSts, 30, 30⟩
abbrev rejBiUnconfCntCount : RegField := ⟨.rejBiUnconfCnt, 31, 0⟩
abbrev rejClAdaptAdaptWin : RegField := ⟨.rejClAdapt, 31, 29⟩
abbrev rejClAdaptStepUp : RegField := ⟨.rejClAdapt, 26, 24⟩
abbrev rejClAdaptAdaptMax : RegField := ⟨.rejClAdapt, 23, 16⟩
abbrev rejClAdaptRateHi : RegField := ⟨.rejClAdapt, 15, 8⟩
abbrev rejClAdaptRateLo : RegField := ⟨.rejClAdapt, 7, 0⟩
abbrev rejClCoincCoincEn : RegField := ⟨.rejClCoinc, 31, 31⟩
abbrev rejClCoincTopo : RegField := ⟨.rejClCoinc, 30, 30⟩
abbrev rejClCoincRadius : RegField := ⟨.rejClCoinc, 29, 29⟩
abbrev rejClCoincK : RegField := ⟨.rejClCoinc, 19, 16⟩
abbrev rejClCoincWin : RegField := ⟨.rejClCoinc, 12, 8⟩
abbrev rejClCoincCoincW : RegField := ⟨.rejClCoinc, 3, 2⟩
abbrev rejClCoincLoneW : RegField := ⟨.rejClCoinc, 1, 0⟩
abbrev rejClWxWxAction : RegField := ⟨.rejClWx, 31, 30⟩
abbrev rejClWxLastPref : RegField := ⟨.rejClWx, 29, 29⟩
abbrev rejClWxNearNs : RegField := ⟨.rejClWx, 25, 16⟩
abbrev rejClWxWwProb : RegField := ⟨.rejClWx, 15, 8⟩
abbrev rejClWxWwWidth : RegField := ⟨.rejClWx, 5, 0⟩
abbrev rejClXsNearProb : RegField := ⟨.rejClXs, 31, 24⟩
abbrev rejClXsInterfLimit : RegField := ⟨.rejClXs, 11, 0⟩
abbrev rejClBiBiEn : RegField := ⟨.rejClBi, 31, 31⟩
abbrev rejClBiBiSrc : RegField := ⟨.rejClBi, 6, 4⟩
abbrev rejClBiBiKernel : RegField := ⟨.rejClBi, 2, 0⟩
abbrev rejClLoneCntCount : RegField := ⟨.rejClLoneCnt, 31, 0⟩
abbrev rejClWxCntCount : RegField := ⟨.rejClWxCnt, 31, 0⟩
abbrev rejClXsCntCount : RegField := ⟨.rejClXsCnt, 31, 0⟩
abbrev rejChStatAdaptLimit : RegField := ⟨.rejChStat, 25, 25⟩
abbrev rejChStatRate : RegField := ⟨.rejChStat, 23, 16⟩
abbrev rejChStatExcess : RegField := ⟨.rejChStat, 15, 8⟩
abbrev rejChStatAdapt : RegField := ⟨.rejChStat, 7, 0⟩
abbrev loopSaxCtlMode : RegField := ⟨.loopSaxCtl, 31, 29⟩
abbrev loopSaxCtlAzFmt : RegField := ⟨.loopSaxCtl, 27, 27⟩
abbrev loopSaxCtlDirInv : RegField := ⟨.loopSaxCtl, 26, 26⟩
abbrev loopSaxCtlFilt : RegField := ⟨.loopSaxCtl, 18, 16⟩
abbrev loopSaxCtlDirSetup : RegField := ⟨.loopSaxCtl, 15, 8⟩
abbrev loopSaxCtlDeadtime : RegField := ⟨.loopSaxCtl, 7, 0⟩
abbrev loopSaxPwmStepW : RegField := ⟨.loopSaxPwm, 31, 24⟩
abbrev loopSaxPwmPwmPer : RegField := ⟨.loopSaxPwm, 15, 0⟩
abbrev loopSaxCprIndexTol : RegField := ⟨.loopSaxCpr, 27, 20⟩
abbrev loopSaxCprCpr : RegField := ⟨.loopSaxCpr, 19, 0⟩
abbrev loopSaxAzIndexed : RegField := ⟨.loopSaxAz, 31, 31⟩
abbrev loopSaxAzAz : RegField := ⟨.loopSaxAz, 19, 0⟩
abbrev loopSaxStsStepLim : RegField := ⟨.loopSaxSts, 7, 7⟩
abbrev loopSaxStsIndexMiss : RegField := ⟨.loopSaxSts, 6, 6⟩
abbrev loopSaxStsIndexErr : RegField := ⟨.loopSaxSts, 5, 5⟩
abbrev loopSaxStsEncErr : RegField := ⟨.loopSaxSts, 4, 4⟩
abbrev loopSaxStsHallErr : RegField := ⟨.loopSaxSts, 3, 3⟩
abbrev loopSaxStsHall : RegField := ⟨.loopSaxSts, 2, 0⟩
abbrev loopSaxPosPos : RegField := ⟨.loopSaxPos, 31, 0⟩
abbrev loopSaxSpeedSpeed : RegField := ⟨.loopSaxSpeed, 31, 0⟩
abbrev loopSaxErrCntCount : RegField := ⟨.loopSaxErrCnt, 31, 0⟩
abbrev loopSpSp : RegField := ⟨.loopSp, 31, 0⟩
abbrev loopKpKp : RegField := ⟨.loopKp, 31, 0⟩
abbrev loopKiKi : RegField := ⟨.loopKi, 31, 0⟩
abbrev loopKfKf : RegField := ⟨.loopKf, 31, 0⟩
abbrev loopOutMinOutMin : RegField := ⟨.loopOutMin, 31, 0⟩
abbrev loopOutMaxOutMax : RegField := ⟨.loopOutMax, 31, 0⟩
abbrev loopFailOutFailOut : RegField := ⟨.loopFailOut, 31, 0⟩
abbrev loopVlimVlim : RegField := ⟨.loopVlim, 31, 0⟩
abbrev loopAlimAlim : RegField := ⟨.loopAlim, 31, 0⟩
abbrev loopJlimJlim : RegField := ⟨.loopJlim, 31, 0⟩
abbrev loopTcTc : RegField := ⟨.loopTc, 31, 0⟩
abbrev loopTrefTref : RegField := ⟨.loopTref, 31, 0⟩
abbrev loopOutOut : RegField := ⟨.loopOut, 31, 0⟩
abbrev loopXX : RegField := ⟨.loopX, 31, 0⟩
abbrev loopFbFb : RegField := ⟨.loopFb, 31, 0⟩
abbrev loopNotchCoef : RegField := ⟨.loopNotch, 31, 0⟩
abbrev loopCtlEn : RegField := ⟨.loopCtl, 31, 31⟩
abbrev loopCtlRampMode : RegField := ⟨.loopCtl, 30, 29⟩
abbrev loopCtlNotch1En : RegField := ⟨.loopCtl, 28, 28⟩
abbrev loopCtlNotch0En : RegField := ⟨.loopCtl, 27, 27⟩
abbrev loopCtlGrpEn : RegField := ⟨.loopCtl, 26, 26⟩
abbrev loopCtlSpMode : RegField := ⟨.loopCtl, 25, 25⟩
abbrev loopCtlGrpLead : RegField := ⟨.loopCtl, 20, 16⟩
abbrev loopCtlStale : RegField := ⟨.loopCtl, 15, 8⟩
abbrev loopCtlCommit : RegField := ⟨.loopCtl, 7, 7⟩
abbrev loopSchedPhase : RegField := ⟨.loopSched, 31, 16⟩
abbrev loopSchedDiv : RegField := ⟨.loopSched, 15, 0⟩
abbrev loopSrcFbKind : RegField := ⟨.loopSrc, 31, 28⟩
abbrev loopSrcFbIdx : RegField := ⟨.loopSrc, 21, 16⟩
abbrev loopSrcTgtKind : RegField := ⟨.loopSrc, 15, 12⟩
abbrev loopSrcTgtIdx : RegField := ⟨.loopSrc, 11, 8⟩
abbrev loopSrcTcSrc : RegField := ⟨.loopSrc, 5, 0⟩
abbrev loopStsActive : RegField := ⟨.loopSts, 31, 31⟩
abbrev loopStsWinner : RegField := ⟨.loopSts, 30, 30⟩
abbrev loopStsAtTarget : RegField := ⟨.loopSts, 29, 29⟩
abbrev loopStsSat : RegField := ⟨.loopSts, 28, 28⟩
abbrev loopStsStale : RegField := ⟨.loopSts, 27, 27⟩
abbrev loopStsSensorFault : RegField := ⟨.loopSts, 26, 26⟩
abbrev loopEngStsSchedErr : RegField := ⟨.loopEngSts, 31, 31⟩
abbrev loopEngStsAgg : RegField := ⟨.loopEngSts, 17, 0⟩
abbrev linSegCtlEn : RegField := ⟨.linSegCtl, 31, 31⟩
abbrev linSegCtlReverse : RegField := ⟨.linSegCtl, 30, 30⟩
abbrev linSegCtlShadeEn : RegField := ⟨.linSegCtl, 29, 29⟩
abbrev linSegCtlOrder : RegField := ⟨.linSegCtl, 28, 24⟩
abbrev linSegCtlBank : RegField := ⟨.linSegCtl, 19, 16⟩
abbrev linSegCtlPixsrc : RegField := ⟨.linSegCtl, 13, 12⟩
abbrev linSegCtlSclkDiv : RegField := ⟨.linSegCtl, 10, 8⟩
abbrev linSegCtlVrange : RegField := ⟨.linSegCtl, 0, 0⟩
abbrev linSegPixGap : RegField := ⟨.linSegPix, 31, 28⟩
abbrev linSegPixActPix : RegField := ⟨.linSegPix, 27, 16⟩
abbrev linSegPixRefPix : RegField := ⟨.linSegPix, 12, 8⟩
abbrev linSegPixLead : RegField := ⟨.linSegPix, 5, 0⟩
abbrev linSegAdcSamplePhase : RegField := ⟨.linSegAdc, 4, 0⟩
abbrev linSegColGain : RegField := ⟨.linSegCol, 31, 16⟩
abbrev linSegColOfs : RegField := ⟨.linSegCol, 11, 0⟩
abbrev linSegRowDelay : RegField := ⟨.linSegRow, 28, 16⟩
abbrev linSegRowRowPos : RegField := ⟨.linSegRow, 15, 0⟩
abbrev linSegCoverCoverLim : RegField := ⟨.linSegCover, 31, 16⟩
abbrev linSegCoverCoverLines : RegField := ⟨.linSegCover, 7, 0⟩
abbrev linSegStsCoverOpen : RegField := ⟨.linSegSts, 31, 31⟩
abbrev linSegStsPriming : RegField := ⟨.linSegSts, 30, 30⟩
abbrev linSegStsNoClk : RegField := ⟨.linSegSts, 29, 29⟩
abbrev linSegStsCoverEvt : RegField := ⟨.linSegSts, 3, 3⟩
abbrev linSegStsOvr : RegField := ⟨.linSegSts, 2, 2⟩
abbrev linSegOvrCntCount : RegField := ⟨.linSegOvrCnt, 31, 0⟩
abbrev linSegWeakWeak : RegField := ⟨.linSegWeak, 12, 0⟩
abbrev linSegRefdarkRefDark : RegField := ⟨.linSegRefdark, 15, 0⟩
abbrev linShadeW : RegField := ⟨.linShade, 31, 16⟩
abbrev linShadeD : RegField := ⟨.linShade, 15, 0⟩
abbrev linBankExpIllLead : RegField := ⟨.linBankExp, 28, 24⟩
abbrev linBankExpExp : RegField := ⟨.linBankExp, 15, 0⟩
abbrev linBankIllIllMask : RegField := ⟨.linBankIll, 11, 0⟩
abbrev linBankWrefWrefEn : RegField := ⟨.linBankWref, 31, 31⟩
abbrev linBankWrefWrefSeg : RegField := ⟨.linBankWref, 28, 24⟩
abbrev linBankWrefFirst : RegField := ⟨.linBankWref, 22, 12⟩
abbrev linBankWrefLast : RegField := ⟨.linBankWref, 10, 0⟩
abbrev linBankCapCap : RegField := ⟨.linBankCap, 31, 31⟩
abbrev linBankCapKind : RegField := ⟨.linBankCap, 30, 30⟩
abbrev linBankCapLinesLog2 : RegField := ⟨.linBankCap, 27, 24⟩
abbrev linBankCapTarget : RegField := ⟨.linBankCap, 15, 0⟩
abbrev linBankCap2Wmin : RegField := ⟨.linBankCap2, 31, 16⟩
abbrev linBankCap2CapPeriod : RegField := ⟨.linBankCap2, 15, 0⟩
abbrev linBankStsWarm : RegField := ⟨.linBankSts, 31, 31⟩
abbrev linBankStsCapBusy : RegField := ⟨.linBankSts, 30, 30⟩
abbrev linBankStsCapDone : RegField := ⟨.linBankSts, 29, 29⟩
abbrev linBankStsCapErr : RegField := ⟨.linBankSts, 28, 28⟩
abbrev linBankStsDriftHi : RegField := ⟨.linBankSts, 27, 27⟩
abbrev linBankStsDrift : RegField := ⟨.linBankSts, 15, 0⟩
abbrev linBankTminTmin : RegField := ⟨.linBankTmin, 19, 0⟩
abbrev linIllCtlImax : RegField := ⟨.linIllCtl, 20, 0⟩
abbrev linIllStsOpen : RegField := ⟨.linIllSts, 31, 31⟩
abbrev linIllStsLim : RegField := ⟨.linIllSts, 30, 30⟩
abbrev linIllStsISense : RegField := ⟨.linIllSts, 20, 0⟩
abbrev linDevStsTmin : RegField := ⟨.linDevSts, 19, 0⟩
abbrev linDevWidthWidth : RegField := ⟨.linDevWidth, 15, 0⟩
abbrev linShadeStgCommit : RegField := ⟨.linShadeStg, 31, 31⟩
abbrev linShadeStgPend : RegField := ⟨.linShadeStg, 30, 30⟩
abbrev linShadeStgHeld : RegField := ⟨.linShadeStg, 29, 29⟩
abbrev linShadeStgOwner : RegField := ⟨.linShadeStg, 4, 0⟩
abbrev linTrigDropCntCount : RegField := ⟨.linTrigDropCnt, 31, 0⟩
abbrev odoInCtlEn : RegField := ⟨.odoInCtl, 31, 31⟩
abbrev odoInCtlMode : RegField := ⟨.odoInCtl, 30, 30⟩
abbrev odoInCtlDirInv : RegField := ⟨.odoInCtl, 29, 29⟩
abbrev odoInCtlPresc : RegField := ⟨.odoInCtl, 28, 27⟩
abbrev odoInCtlFilt : RegField := ⟨.odoInCtl, 18, 16⟩
abbrev odoInScaleScale : RegField := ⟨.odoInScale, 31, 0⟩
abbrev odoInCntCount : RegField := ⟨.odoInCnt, 31, 0⟩
abbrev odoInStsErrCnt : RegField := ⟨.odoInSts, 17, 2⟩
abbrev odoInStsOverrun : RegField := ⟨.odoInSts, 1, 1⟩
abbrev odoInStsErr : RegField := ⟨.odoInSts, 0, 0⟩
abbrev odoSrcKind : RegField := ⟨.odoSrc, 31, 31⟩
abbrev odoSrcChkEn : RegField := ⟨.odoSrc, 30, 30⟩
abbrev odoSrcChk : RegField := ⟨.odoSrc, 21, 20⟩
abbrev odoSrcPrim : RegField := ⟨.odoSrc, 17, 16⟩
abbrev odoSrcDisPct : RegField := ⟨.odoSrc, 7, 0⟩
abbrev odoMotionDir : RegField := ⟨.odoMotion, 31, 31⟩
abbrev odoMotionSpdWin : RegField := ⟨.odoMotion, 23, 16⟩
abbrev odoMotionStillMs : RegField := ⟨.odoMotion, 15, 0⟩
abbrev odoStsStandstill : RegField := ⟨.odoSts, 31, 31⟩
abbrev odoStsBackward : RegField := ⟨.odoSts, 30, 30⟩
abbrev odoStsSuppress : RegField := ⟨.odoSts, 29, 29⟩
abbrev odoStsOverspeed : RegField := ⟨.odoSts, 28, 28⟩
abbrev odoStsAlong2 : RegField := ⟨.odoSts, 27, 27⟩
abbrev odoStsStall : RegField := ⟨.odoSts, 26, 26⟩
abbrev odoStsRestart : RegField := ⟨.odoSts, 25, 25⟩
abbrev odoStsSlip : RegField := ⟨.odoSts, 24, 24⟩
abbrev odoPitchPitch : RegField := ⟨.odoPitch, 14, 0⟩
abbrev odoRevHystRevHyst : RegField := ⟨.odoRevHyst, 19, 0⟩
abbrev odoPosLoPos : RegField := ⟨.odoPosLo, 31, 0⟩
abbrev odoPosHiPos : RegField := ⟨.odoPosHi, 31, 0⟩
abbrev odoSpeedSpeed : RegField := ⟨.odoSpeed, 31, 0⟩
abbrev odoHighLoH : RegField := ⟨.odoHighLo, 31, 0⟩
abbrev odoHighHiH : RegField := ⟨.odoHighHi, 31, 0⟩
abbrev odoSuppressCntCount : RegField := ⟨.odoSuppressCnt, 31, 0⟩
abbrev odoSeamCntCount : RegField := ⟨.odoSeamCnt, 31, 0⟩
abbrev odoCarCtlCarLoop : RegField := ⟨.odoCarCtl, 12, 8⟩
abbrev odoCarCtlCarAxis : RegField := ⟨.odoCarCtl, 1, 0⟩
abbrev odoCarScaleCarScale : RegField := ⟨.odoCarScale, 31, 0⟩
abbrev odoCarSpeedCarSpeed : RegField := ⟨.odoCarSpeed, 31, 0⟩
abbrev odoCarBackBackSpeed : RegField := ⟨.odoCarBack, 31, 0⟩
abbrev odoCarOverOvertravel : RegField := ⟨.odoCarOver, 31, 0⟩
abbrev linAsmCtlPolicy : RegField := ⟨.linAsmCtl, 31, 31⟩
abbrev linAsmCtlFormat : RegField := ⟨.linAsmCtl, 17, 16⟩
abbrev linAsmCtlBinX : RegField := ⟨.linAsmCtl, 1, 0⟩
abbrev linHoodLenLen : RegField := ⟨.linHoodLen, 12, 0⟩
abbrev linAsmPixPixPitch : RegField := ⟨.linAsmPix, 15, 0⟩
abbrev linHoodNumCount : RegField := ⟨.linHoodNum, 31, 0⟩
abbrev linLineCntCount : RegField := ⟨.linLineCnt, 31, 0⟩
abbrev linGapLinesCount : RegField := ⟨.linGapLines, 31, 0⟩
abbrev linTrkCtlEn : RegField := ⟨.linTrkCtl, 31, 31⟩
abbrev linTrkCtlPol : RegField := ⟨.linTrkCtl, 30, 30⟩
abbrev linTrkCtlFollow : RegField := ⟨.linTrkCtl, 29, 29⟩
abbrev linTrkCtlLostLines : RegField := ⟨.linTrkCtl, 23, 16⟩
abbrev linTrkCtlEdgeTh : RegField := ⟨.linTrkCtl, 15, 0⟩
abbrev linTrkWinHi : RegField := ⟨.linTrkWin, 31, 16⟩
abbrev linTrkWinLo : RegField := ⟨.linTrkWin, 15, 0⟩
abbrev linTrkDeadNAng : RegField := ⟨.linTrkDead, 31, 24⟩
abbrev linTrkDeadDeadAng : RegField := ⟨.linTrkDead, 23, 16⟩
abbrev linTrkDeadDeadPos : RegField := ⟨.linTrkDead, 15, 0⟩
abbrev linTrkPosPos : RegField := ⟨.linTrkPos, 31, 0⟩
abbrev linTrkAngAng : RegField := ⟨.linTrkAng, 31, 0⟩
abbrev linTrkStsLost : RegField := ⟨.linTrkSts, 31, 31⟩
abbrev acqStrCtlOn : RegField := ⟨.acqStrCtl, 31, 31⟩
abbrev acqStrCtlClass : RegField := ⟨.acqStrCtl, 27, 26⟩
abbrev acqStrCtlTimer : RegField := ⟨.acqStrCtl, 25, 25⟩
abbrev acqStrCtlReduce : RegField := ⟨.acqStrCtl, 24, 20⟩
abbrev acqStrCtlParam : RegField := ⟨.acqStrCtl, 15, 0⟩
abbrev acqStrBaseLoBase : RegField := ⟨.acqStrBaseLo, 31, 12⟩
abbrev acqStrBaseHiBase : RegField := ⟨.acqStrBaseHi, 31, 0⟩
abbrev acqStrSizeSizeLog2 : RegField := ⟨.acqStrSize, 4, 0⟩
abbrev acqStrWmHwm : RegField := ⟨.acqStrWm, 25, 16⟩
abbrev acqStrWmLwm : RegField := ⟨.acqStrWm, 9, 0⟩
abbrev acqStrWrWr : RegField := ⟨.acqStrWr, 31, 0⟩
abbrev acqStrRdRd : RegField := ⟨.acqStrRd, 31, 0⟩
abbrev acqStrSelLoSel : RegField := ⟨.acqStrSelLo, 31, 0⟩
abbrev acqStrSelHiSel : RegField := ⟨.acqStrSelHi, 31, 0⟩
abbrev acqStrRecCntCount : RegField := ⟨.acqStrRecCnt, 31, 0⟩
abbrev acqStrLostCntCount : RegField := ⟨.acqStrLostCnt, 31, 0⟩
abbrev acqStrCoalCntCount : RegField := ⟨.acqStrCoalCnt, 31, 0⟩
abbrev acqStrStsFull : RegField := ⟨.acqStrSts, 31, 31⟩
abbrev acqStrStsHigh : RegField := ⟨.acqStrSts, 30, 30⟩
abbrev acqStrStsLoss : RegField := ⟨.acqStrSts, 29, 29⟩
abbrev acqStrStsRdErr : RegField := ⟨.acqStrSts, 28, 28⟩
abbrev acqEchoRateRate : RegField := ⟨.acqEchoRate, 24, 0⟩
abbrev acqRateDropCntCount : RegField := ⟨.acqRateDropCnt, 31, 0⟩
abbrev dmaQCtlEn : RegField := ⟨.dmaQCtl, 31, 31⟩
abbrev dmaQCtlPrio : RegField := ⟨.dmaQCtl, 27, 26⟩
abbrev dmaQCtlOwner : RegField := ⟨.dmaQCtl, 21, 16⟩
abbrev dmaQCtlFbCq : RegField := ⟨.dmaQCtl, 11, 0⟩
abbrev dmaQDbDb : RegField := ⟨.dmaQDb, 31, 0⟩
abbrev dmaQHeadLoHead : RegField := ⟨.dmaQHeadLo, 31, 5⟩
abbrev dmaQHeadHiHead : RegField := ⟨.dmaQHeadHi, 31, 0⟩
abbrev dmaQCurLoCur : RegField := ⟨.dmaQCurLo, 31, 0⟩
abbrev dmaQCurHiCur : RegField := ⟨.dmaQCurHi, 31, 0⟩
abbrev dmaQDescCntCount : RegField := ⟨.dmaQDescCnt, 31, 0⟩
abbrev dmaQSuspectCntCount : RegField := ⟨.dmaQSuspectCnt, 31, 0⟩
abbrev dmaQStsState : RegField := ⟨.dmaQSts, 31, 30⟩
abbrev dmaQStsDbPend : RegField := ⟨.dmaQSts, 29, 29⟩
abbrev dmaQStsHaltCause : RegField := ⟨.dmaQSts, 23, 16⟩
abbrev dmaQStsDbIgn : RegField := ⟨.dmaQSts, 15, 0⟩
abbrev dmaCqCtlEn : RegField := ⟨.dmaCqCtl, 31, 31⟩
abbrev dmaCqCtlVector : RegField := ⟨.dmaCqCtl, 26, 16⟩
abbrev dmaCqCtlOwner : RegField := ⟨.dmaCqCtl, 13, 8⟩
abbrev dmaCqCtlSizeLog2 : RegField := ⟨.dmaCqCtl, 4, 0⟩
abbrev dmaCqBaseLoBase : RegField := ⟨.dmaCqBaseLo, 31, 4⟩
abbrev dmaCqBaseHiBase : RegField := ⟨.dmaCqBaseHi, 31, 0⟩
abbrev dmaCqWrWr : RegField := ⟨.dmaCqWr, 31, 0⟩
abbrev dmaCqRdRd : RegField := ⟨.dmaCqRd, 31, 0⟩
abbrev dmaCqStsFull : RegField := ⟨.dmaCqSts, 31, 31⟩
abbrev dmaCqStsPhase : RegField := ⟨.dmaCqSts, 30, 30⟩
abbrev dmaCqCoalCoalCnt : RegField := ⟨.dmaCqCoal, 23, 16⟩
abbrev dmaCqCoalCoalUs : RegField := ⟨.dmaCqCoal, 15, 0⟩
abbrev dmaQuotaOwnFeature : RegField := ⟨.dmaQuotaOwn, 15, 0⟩
abbrev dmaQuotaQuota : RegField := ⟨.dmaQuota, 22, 0⟩
abbrev dmaUseOver : RegField := ⟨.dmaUse, 31, 31⟩
abbrev dmaUseOverSeen : RegField := ⟨.dmaUse, 30, 30⟩
abbrev dmaUseUse : RegField := ⟨.dmaUse, 22, 0⟩
abbrev dmaOverCntCount : RegField := ⟨.dmaOverCnt, 31, 0⟩
abbrev memCfgRemapEn : RegField := ⟨.memCfg, 31, 31⟩
abbrev memCfgGrainLog2 : RegField := ⟨.memCfg, 27, 24⟩
abbrev memCfgRate : RegField := ⟨.memCfg, 23, 20⟩
abbrev memCfgDensity : RegField := ⟨.memCfg, 13, 12⟩
abbrev memCfgFwSize : RegField := ⟨.memCfg, 11, 8⟩
abbrev memCfgPop : RegField := ⟨.memCfg, 3, 0⟩
abbrev memCapCap : RegField := ⟨.memCap, 14, 0⟩
abbrev memHashSeed : RegField := ⟨.memHash, 31, 0⟩
abbrev memWqHwm : RegField := ⟨.memWq, 23, 16⟩
abbrev memWqLwm : RegField := ⟨.memWq, 7, 0⟩
abbrev memPatrolDegCe : RegField := ⟨.memPatrol, 23, 8⟩
abbrev memPatrolPatrolH : RegField := ⟨.memPatrol, 7, 0⟩
abbrev memImbalImbal : RegField := ⟨.memImbal, 31, 31⟩
abbrev memImbalCh : RegField := ⟨.memImbal, 17, 16⟩
abbrev memImbalPct : RegField := ⟨.memImbal, 6, 0⟩
abbrev memImbalCntCount : RegField := ⟨.memImbalCnt, 31, 0⟩
abbrev memSramStsUe : RegField := ⟨.memSramSts, 31, 31⟩
abbrev memSramStsPassMs : RegField := ⟨.memSramSts, 15, 0⟩
abbrev memSramCeCntCount : RegField := ⟨.memSramCeCnt, 31, 0⟩
abbrev memSramUeCntCount : RegField := ⟨.memSramUeCnt, 31, 0⟩
abbrev memSramPassCntCount : RegField := ⟨.memSramPassCnt, 31, 0⟩
abbrev memChStsState : RegField := ⟨.memChSts, 31, 28⟩
abbrev memChStsFwMirror : RegField := ⟨.memChSts, 27, 27⟩
abbrev memChStsFastExit : RegField := ⟨.memChSts, 26, 26⟩
abbrev memChStsMigPct : RegField := ⟨.memChSts, 22, 16⟩
abbrev memChStsRateTrained : RegField := ⟨.memChSts, 3, 0⟩
abbrev memChCeCntCount : RegField := ⟨.memChCeCnt, 31, 0⟩
abbrev memChUeCntCount : RegField := ⟨.memChUeCnt, 31, 0⟩
abbrev memChUeAddrLoAddr : RegField := ⟨.memChUeAddrLo, 31, 0⟩
abbrev memChUeAddrHiAddr : RegField := ⟨.memChUeAddrHi, 31, 0⟩
abbrev memChReqCount : RegField := ⟨.memChReq, 31, 0⟩
abbrev memChCtlMigrate : RegField := ⟨.memChCtl, 31, 31⟩
abbrev lnkRingEastOk : RegField := ⟨.lnkRing, 31, 31⟩
abbrev lnkRingWestOk : RegField := ⟨.lnkRing, 30, 30⟩
abbrev lnkRingSize : RegField := ⟨.lnkRing, 19, 16⟩
abbrev lnkRingPos : RegField := ⟨.lnkRing, 10, 8⟩
abbrev lnkRingChain : RegField := ⟨.lnkRing, 6, 0⟩
abbrev lnkRingSingleCntCount : RegField := ⟨.lnkRingSingleCnt, 31, 0⟩
abbrev lnkRingDropCntCount : RegField := ⟨.lnkRingDropCnt, 31, 0⟩
abbrev lnkCtlRole : RegField := ⟨.lnkCtl, 31, 29⟩
abbrev lnkCtlEn : RegField := ⟨.lnkCtl, 28, 28⟩
abbrev lnkCtlLoop : RegField := ⟨.lnkCtl, 27, 26⟩
abbrev lnkCtlTest : RegField := ⟨.lnkCtl, 25, 25⟩
abbrev lnkCtlPat : RegField := ⟨.lnkCtl, 24, 23⟩
abbrev lnkCtlRetrain : RegField := ⟨.lnkCtl, 22, 22⟩
abbrev lnkCtlLaneErrLim : RegField := ⟨.lnkCtl, 7, 0⟩
abbrev lnkStsState : RegField := ⟨.lnkSts, 31, 28⟩
abbrev lnkStsSpareUsed : RegField := ⟨.lnkSts, 27, 27⟩
abbrev lnkStsTrainFail : RegField := ⟨.lnkSts, 26, 26⟩
abbrev lnkMapTxMap : RegField := ⟨.lnkMap, 27, 16⟩
abbrev lnkMapRxMap : RegField := ⟨.lnkMap, 11, 0⟩
abbrev lnkCrcCntCount : RegField := ⟨.lnkCrcCnt, 31, 0⟩
abbrev lnkReplayCntCount : RegField := ⟨.lnkReplayCnt, 31, 0⟩
abbrev lnkRetrainCntCount : RegField := ⟨.lnkRetrainCnt, 31, 0⟩
abbrev lnkBrBaseLoBrBase : RegField := ⟨.lnkBrBaseLo, 31, 0⟩
abbrev lnkBrBaseHiBrBase : RegField := ⟨.lnkBrBaseHi, 31, 0⟩
abbrev lnkLaneStsCdrLock : RegField := ⟨.lnkLaneSts, 31, 31⟩
abbrev lnkLaneStsFailed : RegField := ⟨.lnkLaneSts, 30, 30⟩
abbrev lnkLaneStsInverted : RegField := ⟨.lnkLaneSts, 29, 29⟩
abbrev lnkLaneStsErr : RegField := ⟨.lnkLaneSts, 15, 0⟩
abbrev lnkDfeFreeze : RegField := ⟨.lnkDfe, 31, 31⟩
abbrev lnkDfeTaps : RegField := ⟨.lnkDfe, 29, 0⟩
abbrev lnkEyeCtlStart : RegField := ⟨.lnkEyeCtl, 31, 31⟩
abbrev lnkEyeCtlDone : RegField := ⟨.lnkEyeCtl, 30, 30⟩
abbrev lnkEyeCtlV : RegField := ⟨.lnkEyeCtl, 23, 16⟩
abbrev lnkEyeCtlH : RegField := ⟨.lnkEyeCtl, 13, 8⟩
abbrev lnkEyeCtlBitsLog2 : RegField := ⟨.lnkEyeCtl, 5, 0⟩
abbrev lnkEyeResCount : RegField := ⟨.lnkEyeRes, 31, 0⟩
abbrev lnkPrbsCntCount : RegField := ⟨.lnkPrbsCnt, 31, 0⟩
abbrev pciStsDlUp : RegField := ⟨.pciSts, 31, 31⟩
abbrev pciStsSpeed : RegField := ⟨.pciSts, 19, 16⟩
abbrev pciStsWidth : RegField := ⟨.pciSts, 13, 8⟩
abbrev pciStsFlrEvt : RegField := ⟨.pciSts, 2, 2⟩
abbrev pciStsHotRstEvt : RegField := ⟨.pciSts, 1, 1⟩
abbrev pciStsDownEvt : RegField := ⟨.pciSts, 0, 0⟩
abbrev pciBar2MapLoMap : RegField := ⟨.pciBar2MapLo, 31, 26⟩
abbrev pciBar2MapHiMap : RegField := ⟨.pciBar2MapHi, 31, 0⟩
abbrev pciCplToCplTo : RegField := ⟨.pciCplTo, 7, 0⟩
abbrev pciCplToCntCount : RegField := ⟨.pciCplToCnt, 31, 0⟩
abbrev pciBar2ErrCntCount : RegField := ⟨.pciBar2ErrCnt, 31, 0⟩
abbrev pciIntPathPath : RegField := ⟨.pciIntPath, 31, 0⟩
abbrev ethPortCtlEn : RegField := ⟨.ethPortCtl, 31, 31⟩
abbrev ethPortCtlMode : RegField := ⟨.ethPortCtl, 30, 29⟩
abbrev ethPortCtlJumbo : RegField := ⟨.ethPortCtl, 23, 23⟩
abbrev ethPortCtlFlushDown : RegField := ⟨.ethPortCtl, 22, 22⟩
abbrev ethPortStsLink : RegField := ⟨.ethPortSts, 31, 31⟩
abbrev ethPortStsSpeed : RegField := ⟨.ethPortSts, 30, 28⟩
abbrev ethPortStsLinkEvt : RegField := ⟨.ethPortSts, 0, 0⟩
abbrev ethMacLoMac : RegField := ⟨.ethMacLo, 31, 0⟩
abbrev ethMacHiMac : RegField := ⟨.ethMacHi, 31, 0⟩
abbrev ethAsymTxLat : RegField := ⟨.ethAsym, 31, 16⟩
abbrev ethAsymRxLat : RegField := ⟨.ethAsym, 15, 0⟩
abbrev ethTsInfoValid : RegField := ⟨.ethTsInfo, 31, 31⟩
abbrev ethTsInfoOvf : RegField := ⟨.ethTsInfo, 30, 30⟩
abbrev ethTsInfoMsgtype : RegField := ⟨.ethTsInfo, 27, 24⟩
abbrev ethTsInfoFrac : RegField := ⟨.ethTsInfo, 23, 16⟩
abbrev ethTsInfoSeqid : RegField := ⟨.ethTsInfo, 15, 0⟩
abbrev ethTsLoTime : RegField := ⟨.ethTsLo, 31, 0⟩
abbrev ethTsHiTime : RegField := ⟨.ethTsHi, 31, 0⟩
abbrev ethRxCntCount : RegField := ⟨.ethRxCnt, 31, 0⟩
abbrev ethRxErrCntCount : RegField := ⟨.ethRxErrCnt, 31, 0⟩
abbrev ethRxDropCntCount : RegField := ⟨.ethRxDropCnt, 31, 0⟩
abbrev ethTxCntCount : RegField := ⟨.ethTxCnt, 31, 0⟩
abbrev ethTxDropCntCount : RegField := ⟨.ethTxDropCnt, 31, 0⟩
abbrev ethTxqDstLoDst : RegField := ⟨.ethTxqDstLo, 31, 0⟩
abbrev ethTxqDstHiDst : RegField := ⟨.ethTxqDstHi, 31, 0⟩
abbrev ethTxqTagVlanEn : RegField := ⟨.ethTxqTag, 31, 31⟩
abbrev ethTxqTagPcp : RegField := ⟨.ethTxqTag, 30, 28⟩
abbrev ethTxqTagVid : RegField := ⟨.ethTxqTag, 27, 16⟩
abbrev ethTxqTagEtype : RegField := ⟨.ethTxqTag, 15, 0⟩
abbrev ethTxqRateRate : RegField := ⟨.ethTxqRate, 13, 0⟩
abbrev ethRedCtlMode : RegField := ⟨.ethRedCtl, 31, 30⟩
abbrev ethRedCtlBOk : RegField := ⟨.ethRedCtl, 1, 1⟩
abbrev ethRedCtlAOk : RegField := ⟨.ethRedCtl, 0, 0⟩
abbrev ethRedDupCntCount : RegField := ⟨.ethRedDupCnt, 31, 0⟩
abbrev ethRedSingleCntCount : RegField := ⟨.ethRedSingleCnt, 31, 0⟩
abbrev ethRedLanerrCntCount : RegField := ⟨.ethRedLanerrCnt, 31, 0⟩
abbrev ethClsMatchEn : RegField := ⟨.ethClsMatch, 31, 31⟩
abbrev ethClsMatchVidAny : RegField := ⟨.ethClsMatch, 28, 28⟩
abbrev ethClsMatchVid : RegField := ⟨.ethClsMatch, 27, 16⟩
abbrev ethClsMatchEtype : RegField := ⟨.ethClsMatch, 15, 0⟩
abbrev ethClsActAct : RegField := ⟨.ethClsAct, 31, 29⟩
abbrev ethClsActRing : RegField := ⟨.ethClsAct, 2, 0⟩
abbrev ethRxrBaseBase : RegField := ⟨.ethRxrBase, 22, 12⟩
abbrev ethRxrSizeSizeLog2 : RegField := ⟨.ethRxrSize, 4, 0⟩
abbrev ethRxrWrWr : RegField := ⟨.ethRxrWr, 31, 0⟩
abbrev ethRxrRdRd : RegField := ⟨.ethRxrRd, 31, 0⟩
abbrev ethRxrDropCntCount : RegField := ⟨.ethRxrDropCnt, 31, 0⟩
abbrev ethMgmtLoMac : RegField := ⟨.ethMgmtLo, 31, 0⟩
abbrev ethMgmtHiMac : RegField := ⟨.ethMgmtHi, 31, 0⟩
abbrev ethMgmtCfgVid : RegField := ⟨.ethMgmtCfg, 27, 16⟩
abbrev ethMgmtCfgEtype : RegField := ⟨.ethMgmtCfg, 15, 0⟩
abbrev ethMgmtCntCount : RegField := ⟨.ethMgmtCnt, 31, 0⟩
abbrev timCtlSrc : RegField := ⟨.timCtl, 31, 30⟩
abbrev timCtlProfile : RegField := ⟨.timCtl, 29, 29⟩
abbrev timCtlSlewMax : RegField := ⟨.timCtl, 23, 20⟩
abbrev timCtlAvgLog2 : RegField := ⟨.timCtl, 19, 16⟩
abbrev timCtlLossMs : RegField := ⟨.timCtl, 15, 0⟩
abbrev timServoFiLog2 : RegField := ⟨.timServo, 27, 24⟩
abbrev timServoFpLog2 : RegField := ⟨.timServo, 19, 16⟩
abbrev timServoLockThr : RegField := ⟨.timServo, 15, 0⟩
abbrev timStsState : RegField := ⟨.timSts, 31, 28⟩
abbrev timStsLoaded : RegField := ⟨.timSts, 27, 27⟩
abbrev timStsLoadPend : RegField := ⟨.timSts, 26, 26⟩
abbrev timStsAligned : RegField := ⟨.timSts, 25, 25⟩
abbrev timStsClamped : RegField := ⟨.timSts, 24, 24⟩
abbrev timStsUpLink : RegField := ⟨.timSts, 16, 16⟩
abbrev timStsTdist : RegField := ⟨.timSts, 15, 8⟩
abbrev timNowLoTime : RegField := ⟨.timNowLo, 31, 0⟩
abbrev timNowHiTime : RegField := ⟨.timNowHi, 31, 0⟩
abbrev timNowFracFrac : RegField := ⟨.timNowFrac, 7, 0⟩
abbrev timErrE : RegField := ⟨.timErr, 31, 0⟩
abbrev timRateR : RegField := ⟨.timRate, 31, 0⟩
abbrev timSlewS : RegField := ⟨.timSlew, 31, 0⟩
abbrev timRetErrLoE : RegField := ⟨.timRetErrLo, 31, 0⟩
abbrev timRetErrHiE : RegField := ⟨.timRetErrHi, 31, 0⟩
abbrev timAlignAlignTol : RegField := ⟨.timAlign, 15, 0⟩
abbrev timMeasLoE : RegField := ⟨.timMeasLo, 31, 0⟩
abbrev timMeasHiE : RegField := ⟨.timMeasHi, 31, 0⟩
abbrev timPtpPtpDomain : RegField := ⟨.timPtp, 31, 24⟩
abbrev timPtpPorts : RegField := ⟨.timPtp, 3, 0⟩
abbrev timLinkAsymAsym : RegField := ⟨.timLinkAsym, 31, 0⟩
abbrev timLinkDelayD : RegField := ⟨.timLinkDelay, 31, 0⟩
abbrev timRefStsAOk : RegField := ⟨.timRefSts, 31, 31⟩
abbrev timRefStsBOk : RegField := ⟨.timRefSts, 30, 30⟩
abbrev timRefStsSel : RegField := ⟨.timRefSts, 29, 29⟩
abbrev timRefStsHold : RegField := ⟨.timRefSts, 28, 28⟩
abbrev timRefStsBEn : RegField := ⟨.timRefSts, 27, 27⟩
abbrev timRefStsLostEvt : RegField := ⟨.timRefSts, 0, 0⟩
abbrev timHoldCntCount : RegField := ⟨.timHoldCnt, 31, 0⟩
abbrev timStepCntCount : RegField := ⟨.timStepCnt, 31, 0⟩
abbrev timRefHoldCntCount : RegField := ⟨.timRefHoldCnt, 31, 0⟩
abbrev safStsState : RegField := ⟨.safSts, 31, 28⟩
abbrev safStsSet : RegField := ⟨.safSts, 27, 24⟩
abbrev safStsSealOk : RegField := ⟨.safSts, 23, 23⟩
abbrev safStsSetMismatch : RegField := ⟨.safSts, 22, 22⟩
abbrev safStsPermit : RegField := ⟨.safSts, 21, 21⟩
abbrev safStsPartnerOk : RegField := ⟨.safSts, 20, 20⟩
abbrev safStsCause : RegField := ⟨.safSts, 15, 8⟩
abbrev safCycleCount : RegField := ⟨.safCycle, 31, 0⟩
abbrev safSealChkExp : RegField := ⟨.safSeal, 23, 16⟩
abbrev safSealSw : RegField := ⟨.safSeal, 11, 0⟩
abbrev safDiscDiscErr : RegField := ⟨.safDisc, 23, 16⟩
abbrev safDiscOut : RegField := ⟨.safDisc, 15, 8⟩
abbrev safDiscIn : RegField := ⟨.safDisc, 7, 0⟩
abbrev safZoneOccupied : RegField := ⟨.safZone, 31, 31⟩
abbrev safZoneVerified : RegField := ⟨.safZone, 30, 30⟩
abbrev safZoneIntruded : RegField := ⟨.safZone, 21, 16⟩
abbrev safZoneBlind : RegField := ⟨.safZone, 13, 8⟩
abbrev safDrvState : RegField := ⟨.safDrv, 31, 28⟩
abbrev safDrvTestDone : RegField := ⟨.safDrv, 27, 27⟩
abbrev safDrvClosed : RegField := ⟨.safDrv, 26, 26⟩
abbrev safDrvLocked : RegField := ⟨.safDrv, 25, 25⟩
abbrev safDrvTorque : RegField := ⟨.safDrv, 24, 24⟩
abbrev safDrvDecel : RegField := ⟨.safDrv, 23, 23⟩
abbrev safDrvSpeed : RegField := ⟨.safDrv, 15, 0⟩
abbrev safDrvStopCause : RegField := ⟨.safDrvStop, 31, 24⟩
abbrev safDrvStopEnd : RegField := ⟨.safDrvStop, 23, 22⟩
abbrev safDrvStopDuration : RegField := ⟨.safDrvStop, 15, 0⟩
abbrev safBandSeq : RegField := ⟨.safBand, 31, 0⟩
abbrev safBandStsTimeout : RegField := ⟨.safBandSts, 31, 31⟩
abbrev safBandStsCrcCnt : RegField := ⟨.safBandSts, 15, 8⟩
abbrev safBandStsSeqCnt : RegField := ⟨.safBandSts, 7, 0⟩
abbrev safCntUnverified : RegField := ⟨.safCnt, 31, 16⟩
abbrev safCntTestdisc : RegField := ⟨.safCnt, 15, 8⟩
abbrev safCntXcmp : RegField := ⟨.safCnt, 7, 0⟩
abbrev safTxCtlLen : RegField := ⟨.safTxCtl, 23, 16⟩
abbrev safTxCtlGen : RegField := ⟨.safTxCtl, 15, 0⟩
abbrev safTxDataData : RegField := ⟨.safTxData, 31, 0⟩
abbrev fmkCtlDeadPeers : RegField := ⟨.fmkCtl, 27, 24⟩
abbrev fmkCtlDeadHits : RegField := ⟨.fmkCtl, 23, 16⟩
abbrev fmkCtlCkptUs : RegField := ⟨.fmkCtl, 9, 0⟩
abbrev fmkStsMapAny : RegField := ⟨.fmkSts, 31, 31⟩
abbrev fmkStsRecovering : RegField := ⟨.fmkSts, 30, 29⟩
abbrev fmkStsRef : RegField := ⟨.fmkSts, 1, 0⟩
abbrev fmkPairLastUs : RegField := ⟨.fmkPair, 31, 16⟩
abbrev fmkPairRecCnt : RegField := ⟨.fmkPair, 15, 0⟩
abbrev fmkLogHeadHead : RegField := ⟨.fmkLogHead, 8, 0⟩
abbrev fmkLogTailTail : RegField := ⟨.fmkLogTail, 8, 0⟩
abbrev fmkLogOvfCntCount : RegField := ⟨.fmkLogOvfCnt, 31, 0⟩
abbrev fmkMapDeadStuck : RegField := ⟨.fmkMapDead, 31, 16⟩
abbrev fmkMapDeadDead : RegField := ⟨.fmkMapDead, 15, 0⟩
abbrev fmkMapEngNone : RegField := ⟨.fmkMapEng, 31, 16⟩
abbrev fmkMapEngOne : RegField := ⟨.fmkMapEng, 15, 0⟩
abbrev fmkMapPortPorts : RegField := ⟨.fmkMapPort, 31, 0⟩
abbrev fmkMapMiscUtil : RegField := ⟨.fmkMapMisc, 23, 12⟩
abbrev fmkMapMiscLinks : RegField := ⟨.fmkMapMisc, 11, 8⟩
abbrev fmkMapMiscRetired : RegField := ⟨.fmkMapMisc, 7, 4⟩
abbrev fmkMapMiscLost : RegField := ⟨.fmkMapMisc, 3, 0⟩
abbrev fmkBankFailing : RegField := ⟨.fmkBank, 6, 6⟩
abbrev fmkBankPhys : RegField := ⟨.fmkBank, 5, 0⟩
abbrev fmkEngSpare33 : RegField := ⟨.fmkEng, 15, 8⟩
abbrev fmkEngSpare32 : RegField := ⟨.fmkEng, 7, 0⟩
abbrev fmkLogData : RegField := ⟨.fmkLog, 31, 0⟩
abbrev bootStsAccepted : RegField := ⟨.bootSts, 31, 31⟩
abbrev bootStsCopy : RegField := ⟨.bootSts, 30, 30⟩
abbrev bootStsNet : RegField := ⟨.bootSts, 29, 29⟩
abbrev bootStsLoadMs : RegField := ⟨.bootSts, 15, 0⟩
abbrev bootCodeFwCode : RegField := ⟨.bootCode, 23, 16⟩
abbrev bootCodeCode1 : RegField := ⟨.bootCode, 15, 8⟩
abbrev bootCodeCode0 : RegField := ⟨.bootCode, 7, 0⟩
abbrev bootFetchChunks : RegField := ⟨.bootFetch, 15, 0⟩
abbrev bootFwFailCntCount : RegField := ⟨.bootFwFailCnt, 31, 0⟩
abbrev bootBuildLoBuild : RegField := ⟨.bootBuildLo, 31, 0⟩
abbrev bootBuildHiBuild : RegField := ⟨.bootBuildHi, 31, 0⟩
abbrev protLcLc : RegField := ⟨.protLc, 7, 0⟩
abbrev protGenInForce : RegField := ⟨.protGen, 31, 16⟩
abbrev protGenGenMin : RegField := ⟨.protGen, 6, 0⟩
abbrev protSlotStsRevoked : RegField := ⟨.protSlotSts, 25, 16⟩
abbrev protSlotStsSpoiledLo : RegField := ⟨.protSlotSts, 15, 10⟩
abbrev protSlotStsProgrammed : RegField := ⟨.protSlotSts, 9, 0⟩
abbrev protSpoiledSpoiledHi : RegField := ⟨.protSpoiled, 1, 0⟩
abbrev protDebugLevel : RegField := ⟨.protDebug, 1, 0⟩
abbrev protSerialLoSerial : RegField := ⟨.protSerialLo, 31, 0⟩
abbrev protSerialHiSerial : RegField := ⟨.protSerialHi, 31, 0⟩
abbrev protSlotHashHash : RegField := ⟨.protSlotHash, 31, 0⟩
abbrev protIdpubModulus : RegField := ⟨.protIdpub, 31, 0⟩
abbrev protAttReport : RegField := ⟨.protAtt, 31, 0⟩
abbrev protDcCtlArm : RegField := ⟨.protDcCtl, 31, 31⟩
abbrev protDcCtlValid : RegField := ⟨.protDcCtl, 30, 30⟩
abbrev protDcBufData : RegField := ⟨.protDcBuf, 31, 0⟩
abbrev meaConvCtlEn : RegField := ⟨.meaConvCtl, 31, 31⟩
abbrev meaConvCtlMode : RegField := ⟨.meaConvCtl, 30, 30⟩
abbrev meaConvCtlLowpwr : RegField := ⟨.meaConvCtl, 29, 29⟩
abbrev meaConvCtlSeqPeriod : RegField := ⟨.meaConvCtl, 19, 0⟩
abbrev meaConvStsBusy : RegField := ⟨.meaConvSts, 31, 31⟩
abbrev meaConvStsSlot : RegField := ⟨.meaConvSts, 5, 0⟩
abbrev meaConvLateCntCount : RegField := ⟨.meaConvLateCnt, 31, 0⟩
abbrev meaExcOwner : RegField := ⟨.meaExc, 17, 16⟩
abbrev meaExcCurrent : RegField := ⟨.meaExc, 2, 0⟩
abbrev meaTdacCode : RegField := ⟨.meaTdac, 9, 0⟩
abbrev meaUrgUrgDrop : RegField := ⟨.meaUrg, 31, 31⟩
abbrev meaUrgGo : RegField := ⟨.meaUrg, 6, 6⟩
abbrev meaUrgUrg : RegField := ⟨.meaUrg, 5, 0⟩
abbrev meaUrgDropCntCount : RegField := ⟨.meaUrgDropCnt, 31, 0⟩
abbrev meaSlotInEn : RegField := ⟨.meaSlotIn, 31, 31⟩
abbrev meaSlotInConv : RegField := ⟨.meaSlotIn, 29, 28⟩
abbrev meaSlotInPos : RegField := ⟨.meaSlotIn, 21, 16⟩
abbrev meaSlotInNeg : RegField := ⟨.meaSlotIn, 13, 8⟩
abbrev meaSlotInPga : RegField := ⟨.meaSlotIn, 2, 0⟩
abbrev meaSlotExcExc0En : RegField := ⟨.meaSlotExc, 31, 31⟩
abbrev meaSlotExcExc0Pin : RegField := ⟨.meaSlotExc, 28, 24⟩
abbrev meaSlotExcExc1En : RegField := ⟨.meaSlotExc, 23, 23⟩
abbrev meaSlotExcExc1Pin : RegField := ⟨.meaSlotExc, 20, 16⟩
abbrev meaSlotExcBiasEn : RegField := ⟨.meaSlotExc, 15, 15⟩
abbrev meaSlotExcBiasPin : RegField := ⟨.meaSlotExc, 12, 8⟩
abbrev meaSlotExcBo : RegField := ⟨.meaSlotExc, 1, 0⟩
abbrev meaSlotRefLeadEn : RegField := ⟨.meaSlotRef, 31, 31⟩
abbrev meaSlotRefRefExt : RegField := ⟨.meaSlotRef, 30, 30⟩
abbrev meaSlotRefLp : RegField := ⟨.meaSlotRef, 28, 24⟩
abbrev meaSlotRefLn : RegField := ⟨.meaSlotRef, 20, 16⟩
abbrev meaSlotRefRefp : RegField := ⟨.meaSlotRef, 12, 8⟩
abbrev meaSlotRefRefn : RegField := ⟨.meaSlotRef, 4, 0⟩
abbrev meaSlotConvSettleUs : RegField := ⟨.meaSlotConv, 31, 24⟩
abbrev meaSlotConvMed : RegField := ⟨.meaSlotConv, 17, 16⟩
abbrev meaSlotConvOsrLog2 : RegField := ⟨.meaSlotConv, 3, 0⟩
abbrev meaSlotRateRate : RegField := ⟨.meaSlotRate, 19, 0⟩
abbrev meaSlotDetDetWin : RegField := ⟨.meaSlotDet, 31, 16⟩
abbrev meaSlotDetEnvShift : RegField := ⟨.meaSlotDet, 11, 8⟩
abbrev meaSlotDetLoopDet : RegField := ⟨.meaSlotDet, 5, 4⟩
abbrev meaSlotDetDetEn : RegField := ⟨.meaSlotDet, 2, 0⟩
abbrev meaSlotTTEn : RegField := ⟨.meaSlotT, 31, 31⟩
abbrev meaSlotTTSrc : RegField := ⟨.meaSlotT, 5, 0⟩
abbrev meaSlotMinOutMin : RegField := ⟨.meaSlotMin, 31, 0⟩
abbrev meaSlotMaxOutMax : RegField := ⟨.meaSlotMax, 31, 0⟩
abbrev meaSlotValValue : RegField := ⟨.meaSlotVal, 31, 0⟩
abbrev meaSlotStsValid : RegField := ⟨.meaSlotSts, 31, 31⟩
abbrev meaSlotStsSettling : RegField := ⟨.meaSlotSts, 30, 30⟩
abbrev meaSlotStsOpen : RegField := ⟨.meaSlotSts, 29, 29⟩
abbrev meaSlotStsOpenEvt : RegField := ⟨.meaSlotSts, 28, 28⟩
abbrev meaSlotStsSat : RegField := ⟨.meaSlotSts, 27, 27⟩
abbrev meaSlotLeadLead : RegField := ⟨.meaSlotLead, 23, 0⟩
abbrev meaPolyCoef : RegField := ⟨.meaPoly, 31, 0⟩
abbrev pwrDomCtlOn : RegField := ⟨.pwrDomCtl, 31, 0⟩
abbrev pwrDomStsPgood : RegField := ⟨.pwrDomSts, 31, 0⟩
abbrev pwrDomOwnOwned : RegField := ⟨.pwrDomOwn, 31, 0⟩
abbrev pwrSupStsState : RegField := ⟨.pwrSupSts, 17, 6⟩
abbrev pwrSupStsGood : RegField := ⟨.pwrSupSts, 5, 0⟩
abbrev pwrRefusedCntCount : RegField := ⟨.pwrRefusedCnt, 31, 0⟩
abbrev pwrSupCfgEn : RegField := ⟨.pwrSupCfg, 31, 31⟩
abbrev pwrSupCfgSlot : RegField := ⟨.pwrSupCfg, 29, 24⟩
abbrev pwrSupCfgWarnHi : RegField := ⟨.pwrSupCfg, 23, 12⟩
abbrev pwrSupCfgWarnLo : RegField := ⟨.pwrSupCfg, 11, 0⟩
abbrev thmCtlDead : RegField := ⟨.thmCtl, 15, 8⟩
abbrev thmCtlThr : RegField := ⟨.thmCtl, 6, 0⟩
abbrev thmStsShutdown : RegField := ⟨.thmSts, 31, 31⟩
abbrev thmStsFast : RegField := ⟨.thmSts, 30, 30⟩
abbrev thmStsLevel : RegField := ⟨.thmSts, 29, 27⟩
abbrev thmStsHotIdx : RegField := ⟨.thmSts, 21, 16⟩
abbrev thmStsHot : RegField := ⟨.thmSts, 15, 0⟩
abbrev thmBrokenLoBroken : RegField := ⟨.thmBrokenLo, 31, 0⟩
abbrev thmBrokenHiBroken : RegField := ⟨.thmBrokenHi, 31, 0⟩
abbrev thmSkipCntCount : RegField := ⟨.thmSkipCnt, 31, 0⟩
abbrev thmThrMsCount : RegField := ⟨.thmThrMs, 31, 0⟩
abbrev thmSensRaw : RegField := ⟨.thmSens, 31, 16⟩
abbrev thmSensValue : RegField := ⟨.thmSens, 15, 0⟩
abbrev sysIdId : RegField := ⟨.sysId, 31, 0⟩
abbrev sysRevStepLetter : RegField := ⟨.sysRev, 15, 8⟩
abbrev sysRevStepNum : RegField := ⟨.sysRev, 7, 0⟩
abbrev sysRstCold : RegField := ⟨.sysRst, 31, 31⟩
abbrev sysRstSource : RegField := ⟨.sysRst, 18, 16⟩
abbrev sysRstWarmCnt : RegField := ⟨.sysRst, 15, 0⟩
abbrev sysAccErrCntCount : RegField := ⟨.sysAccErrCnt, 31, 0⟩
abbrev sysAccErrLastMaster : RegField := ⟨.sysAccErrLast, 31, 29⟩
abbrev sysAccErrLastKind : RegField := ⟨.sysAccErrLast, 28, 26⟩
abbrev sysAccErrLastWord : RegField := ⟨.sysAccErrLast, 25, 0⟩
abbrev sysEvtStsSts : RegField := ⟨.sysEvtSts, 31, 0⟩
abbrev sysEvtErrErr : RegField := ⟨.sysEvtErr, 31, 0⟩
abbrev sysEvtRouteIrqEn : RegField := ⟨.sysEvtRoute, 31, 31⟩
abbrev sysEvtRouteEqEn : RegField := ⟨.sysEvtRoute, 30, 30⟩
abbrev sysEvtRouteCoreEn : RegField := ⟨.sysEvtRoute, 29, 29⟩
abbrev sysEvtRouteCorePair : RegField := ⟨.sysEvtRoute, 28, 28⟩
abbrev sysEvtRouteEq : RegField := ⟨.sysEvtRoute, 27, 16⟩
abbrev sysEvtRouteVector : RegField := ⟨.sysEvtRoute, 10, 0⟩
abbrev sysMbxArgArg : RegField := ⟨.sysMbxArg, 31, 0⟩
abbrev sysMbxResRes : RegField := ⟨.sysMbxRes, 31, 0⟩
abbrev pciMsixTabEntry : RegField := ⟨.pciMsixTab, 31, 0⟩
abbrev pciMsixPbaPba : RegField := ⟨.pciMsixPba, 31, 0⟩

end F
end Sys2Proof.Machine
end

