-- ==== Sys2Proof/Machine/Records.lean ====
section
/-! DEFINITION. The byte layouts of the records the device writes: gap (R247), change (R244), measurement (R246), echo
(R239), snippet (R241), line header (R242), hood header (R243), completion and event records (R259, R438), the fault-log
entry (R370); and CRC-32C, which closes the hood header, the block sections and the Krevan frames. -/
namespace Sys2Proof.Machine

/-- One bit step of CRC-32C (reflected polynomial 0x82F63B78). -/
def crcBit (c : Nat) : Nat := if c % 2 = 1 then (c / 2) ^^^ 0x82F63B78 else c / 2

/-- One byte step of CRC-32C. -/
def crcByte (c : Nat) (b : Byte) : Nat :=
  crcBit (crcBit (crcBit (crcBit (crcBit (crcBit (crcBit (crcBit (c ^^^ b.toNat))))))))

/-- CRC-32C of a byte string (initial and final value all ones). -/
def crc32c (l : List Byte) : Nat := (l.foldl crcByte 0xFFFFFFFF) ^^^ 0xFFFFFFFF

/-- A loss waiting to be recorded in a stream (R237). `urgent` marks the gap record of a state stop, which does not wait
for the stream's next record. -/
structure GapRec where
  time : Nat
  lost : Nat
  source : Nat
  reason : Nat
  dist : Int
  urgent : Bool
deriving DecidableEq, Repr

/-- The 24 bytes of a gap record (R247). -/
def gapBytes (g : GapRec) : List Byte :=
  leBytes 8 g.time ++ leBytes 4 (satN 32 g.lost) ++ leBytes 2 g.source ++ leBytes 1 g.reason ++ [0x03#8]
    ++ leBytes 8 (unsigned 64 g.dist)

/-- The 16 bytes of a change record (R244). -/
def changeBytes (time value source flags kind : Nat) : List Byte :=
  leBytes 8 time ++ leBytes 4 value ++ leBytes 2 source ++ leBytes 1 flags ++ leBytes 1 kind

/-- The 16 bytes of a measurement record (R246). -/
def measBytes (time : Nat) (value : Int) (detector slot flags frac : Nat) : List Byte :=
  leBytes 8 time ++ leBytes 4 (unsigned 32 value) ++ leBytes 1 (detector * 64 + slot) ++ leBytes 1 flags
    ++ leBytes 1 frac ++ [0x06#8]

/-- The content of one echo record (R239). -/
structure Echo where
  time : Nat
  frac : Nat
  shotId : Nat
  reduction : Nat
  idx : Nat
  channel : Nat
  range : Nat
  amplitude : Nat
  flags : Nat
  rise : Nat
  width : Nat
  azimuth : Nat
  background : Nat
deriving DecidableEq, Repr

/-- The 32 bytes of an echo record, SEQ and DOMAIN given by the stream and the device (R239). -/
def echoBytes (e : Echo) (seq domain : Nat) : List Byte :=
  leBytes 8 e.time
    ++ leBytes 4 (packBits [(10, e.channel), (2, e.idx), (3, e.reduction), (1, 0), (16, e.shotId)])
    ++ leBytes 4 (packBits [(24, e.range), (8, 0x01)])
    ++ leBytes 4 (packBits [(16, e.amplitude), (16, e.flags)])
    ++ leBytes 4 (packBits [(12, e.width), (12, e.rise), (8, e.frac)])
    ++ leBytes 4 (packBits [(12, e.background), (20, e.azimuth)])
    ++ leBytes 4 (packBits [(10, domain), (6, 0), (16, seq)])

/-- Pairs of 12-bit samples packed into three bytes each (R241, R242 FORMAT 0b01); an odd final sample takes two. -/
def pack12 : List Nat → List Byte
  | [] => []
  | [a] => leBytes 2 (a % 4096)
  | a :: b :: l => leBytes 3 (a % 4096 + 4096 * (b % 4096)) ++ pack12 l

/-- The 64 bytes of a snippet record (R241): 32 raw counts from coarse bin `start`. -/
def snippetBytes (time shotId channel : Nat) (start : Int) (counts : List Nat) : List Byte :=
  leBytes 8 time ++ leBytes 4 (packBits [(10, channel), (6, 0), (16, shotId)])
    ++ leBytes 4 (packBits [(14, unsigned 14 start), (10, 0), (8, 0x02)])
    ++ sliceB (pack12 counts) 0 48

/-- The 16-byte header of a line record (R242). -/
def lineHeaderBytes (pos : Int) (flags deltaUs deltaNs : Nat) : List Byte :=
  leBytes 6 (unsigned 48 pos) ++ leBytes 2 flags ++ leBytes 4 deltaUs ++ leBytes 2 deltaNs ++ [0#8, 0x04#8]

/-- The content of a hood header (R243). -/
structure HoodHead where
  time : Nat
  hood : Nat
  hflags : Nat
  mode : Nat
  start : Int
  pitch : Nat
  len : Nat
  width : Nat
  warm : Nat
  segs : Nat
  shadeGen : List Nat
deriving DecidableEq, Repr

/-- The 64 bytes of a hood header (R243). -/
def hoodBytes (h : HoodHead) : List Byte :=
  let body := leBytes 8 h.time ++ leBytes 4 h.hood ++ leBytes 2 h.hflags ++ leBytes 1 h.mode ++ [0x05#8]
    ++ leBytes 8 (unsigned 64 h.start) ++ leBytes 4 (packBits [(15, h.pitch), (1, 0), (13, h.len)])
    ++ leBytes 2 h.width ++ leBytes 2 h.warm ++ leBytes 4 h.segs
    ++ sliceB (h.shadeGen.map (BitVec.ofNat 8)) 0 24
  body ++ leBytes 4 (crc32c body)

/-- The 16 bytes of a completion record (R259), or of an event record (R438), less its PHASE and TIME. -/
structure CqRec where
  low7 : Nat
  done : Nat
  status : Nat
  /-- the TIME field, where it is fixed before the record is written (an event record) -/
  time : Option Nat
deriving DecidableEq, Repr

/-- The bytes of a completion-queue record written with a phase at a time (R259). -/
def cqBytes (r : CqRec) (phase : Bool) (now : Nat) : List Byte :=
  leBytes 7 r.low7 ++ leBytes 3 r.done ++ leBytes 2 (r.status % 32768 + 32768 * b2n phase)
    ++ leBytes 4 ((r.time.getD now) % 2 ^ 32)

/-- Bytes 0 to 6 of a descriptor's completion record (R259). -/
def descLow7 (addr : Nat) : Nat := addr / 32 % 2 ^ 55 + 2 ^ 55 * (addr / 2 ^ 63 % 2)

/-- The four words of a fault-log entry (R370). -/
def logWords (time code flags cls logical phys : Nat) : List Nat :=
  [time % 2 ^ 32, time / 2 ^ 32 % 2 ^ 32, packBits [(8, code), (8, flags), (8, cls), (8, 0)],
    packBits [(16, logical), (16, phys)]]

end Sys2Proof.Machine
end

