-- ==== Sys2Proof/Machine/Regs.lean ====
section
/-! DEFINITION. The register map of BAR0 (R429): for every register its base address, its instance strides, its fields
with their access codes (R14) and stated ranges (R9), and its reset value (R434). Transcribed from the register tables
R55, R80, R107, R129, R151, R165, R187, R206, R228, R229, R248, R270, R286, R314, R315, R333, R360, R371, R395, R413,
R427, R428, R431 and R439; the MSI-X table and its pending-bit array stand in R305. -/
namespace Sys2Proof

/-- Access codes of R14. `w1c` clears bit by bit; `w1cAny` is the counter rule of R76: writing 1 to any bit clears the
whole field. -/
inductive Acc where
  | rw | ro | wo | w1c | w1cAny | w1s | rws | rsv
deriving DecidableEq, Repr

/-- One field of a register: its bits [hi:lo], its access code, and the values it accepts (R9). -/
structure FieldRow where
  hi : Nat
  lo : Nat
  acc : Acc
  minV : Nat
  maxV : Nat
deriving DecidableEq, Repr

/-- The BAR0 offset of instance 0 of a register. -/
def Reg.base : Reg → Nat
  | .sysState => 0x190
  | .sysMbxCmd => 0x180
  | .sysMbxSts => 0x184
  | .sysCmdCnt => 0x194
  | .sysOwnConflict0 => 0x198
  | .sysOwnConflict1 => 0x19C
  | .sysOwnLast0 => 0x1A0
  | .sysOwnLast1 => 0x1A4
  | .sysOwnRefusedCnt => 0x1A8
  | .rcvChCtl => 0x800000
  | .rcvChThr => 0x800004
  | .rcvChThrEff => 0x800008
  | .rcvChGate => 0x80000C
  | .rcvChDc => 0x800010
  | .rcvChOvlCnt => 0x800014
  | .rcvChOogCnt => 0x800018
  | .rcvChSts => 0x80001C
  | .rcvClCtl => 0x800800
  | .rcvClDropCnt => 0x800804
  | .rcvClNorefCnt => 0x800808
  | .rcvClBlankCnt => 0x800810
  | .rcvClSts => 0x80080C
  | .rcvTileCtl => 0x800900
  | .rcvWalk => 0x801000
  | .tdcEngCal => 0x1000000
  | .tdcEngSts => 0x1000004
  | .tdcEngGbow => 0x1000008
  | .tdcEngBowCnt => 0x100000C
  | .tdcEngBowTimeLo => 0x1000010
  | .tdcEngBowTimeHi => 0x1000014
  | .tdcEngSkipCnt => 0x1000018
  | .tdcEngRejCnt => 0x100001C
  | .tdcTrim => 0x1004000
  | .tdcTileCtl => 0x1006000
  | .tdcTabSel => 0x1006004
  | .tdcTab => 0x1006100
  | .tdcUtilCtl => 0x1008000
  | .tdcUtilSts => 0x1008004
  | .tdcUtilResLo => 0x1008008
  | .tdcUtilResHi => 0x100800C
  | .emtSts => 0x400000
  | .emtAgg => 0x400004
  | .emtSseSpare => 0x400008
  | .emtPllDiv => 0x400100
  | .emtPllLock => 0x400104
  | .emtPllCtl => 0x400108
  | .emtPllSts => 0x40010C
  | .emtPllOut => 0x400110
  | .emtClSrc => 0x400800
  | .emtPortCtl => 0x401000
  | .emtPortPeriod => 0x401004
  | .emtPortOffset => 0x401008
  | .emtPortDither => 0x40100C
  | .emtPortSeed => 0x401010
  | .emtPortSense => 0x401014
  | .emtPortSts => 0x401018
  | .emtPortLast => 0x40101C
  | .emtPortFireCnt => 0x401020
  | .emtPortNosenseCnt => 0x401024
  | .emtPortWithdrawnCnt => 0x401028
  | .felClCtl => 0x2000000
  | .felClBg => 0x2000004
  | .felClDet => 0x2000008
  | .felClWin => 0x200000C
  | .felClOut => 0x2000010
  | .felClSts => 0x2000014
  | .felClHistCnt => 0x2000018
  | .felClMissCnt => 0x200001C
  | .felClCoarseCnt => 0x2000020
  | .felClShortCnt => 0x2000024
  | .felWin => 0x2000100
  | .felExtLoad => 0x2700000
  | .felExtAbandonCnt => 0x2700004
  | .felSnap => 0x2700008
  | .felKern => 0x2800000
  | .felKpar => 0x2800100
  | .felKsel => 0x2800200
  | .rejSchedCtl => 0x3000000
  | .rejSchedPeriod => 0x3000004
  | .rejSchedSlotsLo => 0x3000008
  | .rejSchedSlotsHi => 0x300000C
  | .rejSchedEpochLo => 0x3000010
  | .rejSchedEpochHi => 0x3000014
  | .rejSchedGuard => 0x3000018
  | .rejSchedSts => 0x300001C
  | .rejSchedSlipCnt => 0x3000020
  | .rejSchedFrameLo => 0x3000024
  | .rejSchedFrameHi => 0x3000028
  | .rejBiCtl => 0x3000100
  | .rejBiDelay => 0x3000104
  | .rejBiSts => 0x3000108
  | .rejBiUnconfCnt => 0x300010C
  | .rejClAdapt => 0x3000800
  | .rejClCoinc => 0x3000804
  | .rejClWx => 0x3000808
  | .rejClXs => 0x300080C
  | .rejClBi => 0x3000810
  | .rejClLoneCnt => 0x3000814
  | .rejClWxCnt => 0x3000818
  | .rejClXsCnt => 0x300081C
  | .rejChStat => 0x3001000
  | .loopSaxCtl => 0x3100000
  | .loopSaxPwm => 0x3100004
  | .loopSaxCpr => 0x3100008
  | .loopSaxAz => 0x3100014
  | .loopSaxSts => 0x3100018
  | .loopSaxPos => 0x310000C
  | .loopSaxSpeed => 0x3100010
  | .loopSaxErrCnt => 0x310001C
  | .loopSp => 0x310100C
  | .loopKp => 0x3101010
  | .loopKi => 0x3101014
  | .loopKf => 0x3101018
  | .loopOutMin => 0x310101C
  | .loopOutMax => 0x3101020
  | .loopFailOut => 0x3101024
  | .loopVlim => 0x3101028
  | .loopAlim => 0x310102C
  | .loopJlim => 0x3101030
  | .loopTc => 0x3101034
  | .loopTref => 0x3101038
  | .loopOut => 0x310103C
  | .loopX => 0x3101040
  | .loopFb => 0x3101044
  | .loopNotch => 0x3101050
  | .loopCtl => 0x3101000
  | .loopSched => 0x3101004
  | .loopSrc => 0x3101008
  | .loopSts => 0x3101048
  | .loopEngSts => 0x3100800
  | .linSegCtl => 0x4000000
  | .linSegPix => 0x4000004
  | .linSegAdc => 0x4000008
  | .linSegCol => 0x4000010
  | .linSegRow => 0x4000020
  | .linSegCover => 0x4000030
  | .linSegSts => 0x4000034
  | .linSegOvrCnt => 0x4000038
  | .linSegWeak => 0x400003C
  | .linSegRefdark => 0x4000040
  | .linShade => 0x4008000
  | .linBankExp => 0x4200000
  | .linBankIll => 0x4200004
  | .linBankWref => 0x4200008
  | .linBankCap => 0x420000C
  | .linBankCap2 => 0x4200010
  | .linBankSts => 0x4200014
  | .linBankTmin => 0x4200018
  | .linIllCtl => 0x4200400
  | .linIllSts => 0x4200404
  | .linDevSts => 0x4300000
  | .linDevWidth => 0x4300004
  | .linShadeStg => 0x4300008
  | .linTrigDropCnt => 0x430000C
  | .odoInCtl => 0x4800000
  | .odoInScale => 0x4800004
  | .odoInCnt => 0x4800008
  | .odoInSts => 0x480000C
  | .odoSrc => 0x4800100
  | .odoMotion => 0x4800104
  | .odoSts => 0x4800124
  | .odoPitch => 0x4800108
  | .odoRevHyst => 0x480010C
  | .odoPosLo => 0x4800110
  | .odoPosHi => 0x4800114
  | .odoSpeed => 0x4800118
  | .odoHighLo => 0x480011C
  | .odoHighHi => 0x4800120
  | .odoSuppressCnt => 0x4800130
  | .odoSeamCnt => 0x4800134
  | .odoCarCtl => 0x4800200
  | .odoCarScale => 0x4800204
  | .odoCarSpeed => 0x4800208
  | .odoCarBack => 0x480020C
  | .odoCarOver => 0x4800210
  | .linAsmCtl => 0x4300100
  | .linHoodLen => 0x4300104
  | .linAsmPix => 0x4300108
  | .linHoodNum => 0x430010C
  | .linLineCnt => 0x4300110
  | .linGapLines => 0x4300114
  | .linTrkCtl => 0x4300200
  | .linTrkWin => 0x4300204
  | .linTrkDead => 0x4300208
  | .linTrkPos => 0x430020C
  | .linTrkAng => 0x4300210
  | .linTrkSts => 0x4300214
  | .acqStrCtl => 0x5000000
  | .acqStrBaseLo => 0x5000004
  | .acqStrBaseHi => 0x5000008
  | .acqStrSize => 0x500000C
  | .acqStrWm => 0x5000010
  | .acqStrWr => 0x5000014
  | .acqStrRd => 0x5000018
  | .acqStrSelLo => 0x500001C
  | .acqStrSelHi => 0x5000020
  | .acqStrRecCnt => 0x5000028
  | .acqStrLostCnt => 0x500002C
  | .acqStrCoalCnt => 0x5000030
  | .acqStrSts => 0x5000024
  | .acqEchoRate => 0x5001000
  | .acqRateDropCnt => 0x5001004
  | .dmaQCtl => 0x6000000
  | .dmaQDb => 0x6000004
  | .dmaQHeadLo => 0x6000008
  | .dmaQHeadHi => 0x600000C
  | .dmaQCurLo => 0x6000010
  | .dmaQCurHi => 0x6000014
  | .dmaQDescCnt => 0x600001C
  | .dmaQSuspectCnt => 0x6000020
  | .dmaQSts => 0x6000018
  | .dmaCqCtl => 0x6040000
  | .dmaCqBaseLo => 0x6040004
  | .dmaCqBaseHi => 0x6040008
  | .dmaCqWr => 0x604000C
  | .dmaCqRd => 0x6040010
  | .dmaCqSts => 0x6040014
  | .dmaCqCoal => 0x6040018
  | .dmaQuotaOwn => 0x6081000
  | .dmaQuota => 0x6081004
  | .dmaUse => 0x6081008
  | .dmaOverCnt => 0x608100C
  | .memCfg => 0x7000000
  | .memCap => 0x7000004
  | .memHash => 0x7000008
  | .memWq => 0x700000C
  | .memPatrol => 0x7000010
  | .memImbal => 0x7000018
  | .memImbalCnt => 0x700001C
  | .memSramSts => 0x7000020
  | .memSramCeCnt => 0x7000024
  | .memSramUeCnt => 0x7000028
  | .memSramPassCnt => 0x700002C
  | .memChSts => 0x7000100
  | .memChCeCnt => 0x7000104
  | .memChUeCnt => 0x7000108
  | .memChUeAddrLo => 0x700010C
  | .memChUeAddrHi => 0x7000110
  | .memChReq => 0x7000114
  | .memChCtl => 0x7000118
  | .lnkRing => 0x8000000
  | .lnkRingSingleCnt => 0x8000004
  | .lnkRingDropCnt => 0x8000008
  | .lnkCtl => 0x8000100
  | .lnkSts => 0x8000104
  | .lnkMap => 0x8000108
  | .lnkCrcCnt => 0x800010C
  | .lnkReplayCnt => 0x8000110
  | .lnkRetrainCnt => 0x8000114
  | .lnkBrBaseLo => 0x8000118
  | .lnkBrBaseHi => 0x800011C
  | .lnkLaneSts => 0x8000140
  | .lnkDfe => 0x8000144
  | .lnkEyeCtl => 0x8000148
  | .lnkEyeRes => 0x800014C
  | .lnkPrbsCnt => 0x8000150
  | .pciSts => 0x8100000
  | .pciBar2MapLo => 0x8100004
  | .pciBar2MapHi => 0x8100008
  | .pciCplTo => 0x810000C
  | .pciCplToCnt => 0x8100010
  | .pciBar2ErrCnt => 0x8100014
  | .pciIntPath => 0x8100018
  | .ethPortCtl => 0x8200000
  | .ethPortSts => 0x8200004
  | .ethMacLo => 0x8200008
  | .ethMacHi => 0x820000C
  | .ethAsym => 0x8200010
  | .ethTsInfo => 0x8200014
  | .ethTsLo => 0x8200018
  | .ethTsHi => 0x820001C
  | .ethRxCnt => 0x8200020
  | .ethRxErrCnt => 0x8200024
  | .ethRxDropCnt => 0x8200028
  | .ethTxCnt => 0x820002C
  | .ethTxDropCnt => 0x8200030
  | .ethTxqDstLo => 0x8200800
  | .ethTxqDstHi => 0x8200804
  | .ethTxqTag => 0x8200808
  | .ethTxqRate => 0x820080C
  | .ethRedCtl => 0x8208000
  | .ethRedDupCnt => 0x8208004
  | .ethRedSingleCnt => 0x8208008
  | .ethRedLanerrCnt => 0x820800C
  | .ethClsMatch => 0x8209000
  | .ethClsAct => 0x8209004
  | .ethRxrBase => 0x820A000
  | .ethRxrSize => 0x820A004
  | .ethRxrWr => 0x820A008
  | .ethRxrRd => 0x820A00C
  | .ethRxrDropCnt => 0x820A010
  | .ethMgmtLo => 0x820B000
  | .ethMgmtHi => 0x820B004
  | .ethMgmtCfg => 0x820B040
  | .ethMgmtCnt => 0x820B044
  | .timCtl => 0x300000
  | .timServo => 0x300004
  | .timSts => 0x300008
  | .timNowLo => 0x300010
  | .timNowHi => 0x300014
  | .timNowFrac => 0x300018
  | .timErr => 0x30001C
  | .timRate => 0x300020
  | .timSlew => 0x300024
  | .timRetErrLo => 0x300028
  | .timRetErrHi => 0x30002C
  | .timAlign => 0x300030
  | .timMeasLo => 0x300034
  | .timMeasHi => 0x300038
  | .timPtp => 0x30003C
  | .timLinkAsym => 0x300040
  | .timLinkDelay => 0x300048
  | .timRefSts => 0x300050
  | .timHoldCnt => 0x300054
  | .timStepCnt => 0x300058
  | .timRefHoldCnt => 0x30005C
  | .safSts => 0x9000000
  | .safCycle => 0x9000004
  | .safSeal => 0x9000008
  | .safDisc => 0x900000C
  | .safZone => 0x9000010
  | .safDrv => 0x9000020
  | .safDrvStop => 0x9000024
  | .safBand => 0x9000060
  | .safBandSts => 0x9000064
  | .safCnt => 0x9000080
  | .safTxCtl => 0x9000100
  | .safTxData => 0x9000104
  | .fmkCtl => 0xA000000
  | .fmkSts => 0xA000004
  | .fmkPair => 0xA000010
  | .fmkLogHead => 0xA000020
  | .fmkLogTail => 0xA000024
  | .fmkLogOvfCnt => 0xA000028
  | .fmkMapDead => 0xA000100
  | .fmkMapEng => 0xA000200
  | .fmkMapPort => 0xA000300
  | .fmkMapMisc => 0xA000304
  | .fmkBank => 0xA000400
  | .fmkEng => 0xA000500
  | .fmkLog => 0xA001000
  | .bootSts => 0x100000
  | .bootCode => 0x100004
  | .bootFetch => 0x100008
  | .bootFwFailCnt => 0x10000C
  | .bootBuildLo => 0x100010
  | .bootBuildHi => 0x100014
  | .protLc => 0x101000
  | .protGen => 0x101004
  | .protSlotSts => 0x101008
  | .protSpoiled => 0x10100C
  | .protDebug => 0x101010
  | .protSerialLo => 0x101014
  | .protSerialHi => 0x101018
  | .protSlotHash => 0x101100
  | .protIdpub => 0x101400
  | .protAtt => 0x101800
  | .protDcCtl => 0x102000
  | .protDcBuf => 0x104000
  | .meaConvCtl => 0xB000000
  | .meaConvSts => 0xB000004
  | .meaConvLateCnt => 0xB000008
  | .meaExc => 0xB000040
  | .meaTdac => 0xB000048
  | .meaUrg => 0xB00004C
  | .meaUrgDropCnt => 0xB000050
  | .meaSlotIn => 0xB001000
  | .meaSlotExc => 0xB001004
  | .meaSlotRef => 0xB001008
  | .meaSlotConv => 0xB00100C
  | .meaSlotRate => 0xB001010
  | .meaSlotDet => 0xB001014
  | .meaSlotT => 0xB001018
  | .meaSlotMin => 0xB00101C
  | .meaSlotMax => 0xB001020
  | .meaSlotVal => 0xB001024
  | .meaSlotSts => 0xB001028
  | .meaSlotLead => 0xB00102C
  | .meaPoly => 0xB004000
  | .pwrDomCtl => 0x200000
  | .pwrDomSts => 0x200020
  | .pwrDomOwn => 0x200040
  | .pwrSupSts => 0x200060
  | .pwrRefusedCnt => 0x200064
  | .pwrSupCfg => 0x200080
  | .thmCtl => 0x201000
  | .thmSts => 0x201004
  | .thmBrokenLo => 0x201008
  | .thmBrokenHi => 0x20100C
  | .thmSkipCnt => 0x201010
  | .thmThrMs => 0x201014
  | .thmSens => 0x201100
  | .sysId => 0x0
  | .sysRev => 0x4
  | .sysRst => 0xC
  | .sysAccErrCnt => 0x10
  | .sysAccErrLast => 0x14
  | .sysEvtSts => 0x20
  | .sysEvtErr => 0x28
  | .sysEvtRoute => 0x200
  | .sysMbxArg => 0x100
  | .sysMbxRes => 0x1C0
  | .pciMsixTab => 0x8110000
  | .pciMsixPba => 0x8118000

/-- The instance layout: (count, stride) of each level of numbering, outermost first. -/
def Reg.dims : Reg → List (Nat × Nat)
  | .sysState => []
  | .sysMbxCmd => [(2, 0x8)]
  | .sysMbxSts => [(2, 0x8)]
  | .sysCmdCnt => []
  | .sysOwnConflict0 => []
  | .sysOwnConflict1 => []
  | .sysOwnLast0 => []
  | .sysOwnLast1 => []
  | .sysOwnRefusedCnt => []
  | .rcvChCtl => [(12, 0x10000), (64, 0x20)]
  | .rcvChThr => [(12, 0x10000), (64, 0x20)]
  | .rcvChThrEff => [(12, 0x10000), (64, 0x20)]
  | .rcvChGate => [(12, 0x10000), (64, 0x20)]
  | .rcvChDc => [(12, 0x10000), (64, 0x20)]
  | .rcvChOvlCnt => [(12, 0x10000), (64, 0x20)]
  | .rcvChOogCnt => [(12, 0x10000), (64, 0x20)]
  | .rcvChSts => [(12, 0x10000), (64, 0x20)]
  | .rcvClCtl => [(12, 0x10000), (4, 0x40)]
  | .rcvClDropCnt => [(12, 0x10000), (4, 0x40)]
  | .rcvClNorefCnt => [(12, 0x10000), (4, 0x40)]
  | .rcvClBlankCnt => [(12, 0x10000), (4, 0x40)]
  | .rcvClSts => [(12, 0x10000), (4, 0x40)]
  | .rcvTileCtl => [(12, 0x10000)]
  | .rcvWalk => [(12, 0x10000), (128, 0x4)]
  | .tdcEngCal => [(12, 0x20000), (136, 0x40)]
  | .tdcEngSts => [(12, 0x20000), (136, 0x40)]
  | .tdcEngGbow => [(12, 0x20000), (136, 0x40)]
  | .tdcEngBowCnt => [(12, 0x20000), (136, 0x40)]
  | .tdcEngBowTimeLo => [(12, 0x20000), (136, 0x40)]
  | .tdcEngBowTimeHi => [(12, 0x20000), (136, 0x40)]
  | .tdcEngSkipCnt => [(12, 0x20000), (136, 0x40)]
  | .tdcEngRejCnt => [(12, 0x20000), (136, 0x40)]
  | .tdcTrim => [(12, 0x20000), (64, 0x4)]
  | .tdcTileCtl => [(12, 0x20000)]
  | .tdcTabSel => [(12, 0x20000)]
  | .tdcTab => [(12, 0x20000), (64, 0x4)]
  | .tdcUtilCtl => [(12, 0x20)]
  | .tdcUtilSts => [(12, 0x20)]
  | .tdcUtilResLo => [(12, 0x20)]
  | .tdcUtilResHi => [(12, 0x20)]
  | .emtSts => []
  | .emtAgg => []
  | .emtSseSpare => []
  | .emtPllDiv => []
  | .emtPllLock => []
  | .emtPllCtl => []
  | .emtPllSts => []
  | .emtPllOut => [(6, 0x4)]
  | .emtClSrc => [(48, 0x4)]
  | .emtPortCtl => [(32, 0x40)]
  | .emtPortPeriod => [(32, 0x40)]
  | .emtPortOffset => [(32, 0x40)]
  | .emtPortDither => [(32, 0x40)]
  | .emtPortSeed => [(32, 0x40)]
  | .emtPortSense => [(32, 0x40)]
  | .emtPortSts => [(32, 0x40)]
  | .emtPortLast => [(32, 0x40)]
  | .emtPortFireCnt => [(32, 0x40)]
  | .emtPortNosenseCnt => [(32, 0x40)]
  | .emtPortWithdrawnCnt => [(32, 0x40)]
  | .felClCtl => [(48, 0x10000)]
  | .felClBg => [(48, 0x10000)]
  | .felClDet => [(48, 0x10000)]
  | .felClWin => [(48, 0x10000)]
  | .felClOut => [(48, 0x10000)]
  | .felClSts => [(48, 0x10000)]
  | .felClHistCnt => [(48, 0x10000)]
  | .felClMissCnt => [(48, 0x10000)]
  | .felClCoarseCnt => [(48, 0x10000)]
  | .felClShortCnt => [(48, 0x10000)]
  | .felWin => [(48, 0x10000), (64, 0x4)]
  | .felExtLoad => [(12, 0x100)]
  | .felExtAbandonCnt => [(12, 0x100)]
  | .felSnap => [(12, 0x100)]
  | .felKern => [(32, 0x4)]
  | .felKpar => [(8, 0x4)]
  | .felKsel => [(32, 0x4)]
  | .rejSchedCtl => []
  | .rejSchedPeriod => []
  | .rejSchedSlotsLo => []
  | .rejSchedSlotsHi => []
  | .rejSchedEpochLo => []
  | .rejSchedEpochHi => []
  | .rejSchedGuard => []
  | .rejSchedSts => []
  | .rejSchedSlipCnt => []
  | .rejSchedFrameLo => []
  | .rejSchedFrameHi => []
  | .rejBiCtl => [(8, 0x20)]
  | .rejBiDelay => [(8, 0x20)]
  | .rejBiSts => [(8, 0x20)]
  | .rejBiUnconfCnt => [(8, 0x20)]
  | .rejClAdapt => [(48, 0x20)]
  | .rejClCoinc => [(48, 0x20)]
  | .rejClWx => [(48, 0x20)]
  | .rejClXs => [(48, 0x20)]
  | .rejClBi => [(48, 0x20)]
  | .rejClLoneCnt => [(48, 0x20)]
  | .rejClWxCnt => [(48, 0x20)]
  | .rejClXsCnt => [(48, 0x20)]
  | .rejChStat => [(768, 0x4)]
  | .loopSaxCtl => [(4, 0x40)]
  | .loopSaxPwm => [(4, 0x40)]
  | .loopSaxCpr => [(4, 0x40)]
  | .loopSaxAz => [(4, 0x40)]
  | .loopSaxSts => [(4, 0x40)]
  | .loopSaxPos => [(4, 0x40)]
  | .loopSaxSpeed => [(4, 0x40)]
  | .loopSaxErrCnt => [(4, 0x40)]
  | .loopSp => [(32, 0x80)]
  | .loopKp => [(32, 0x80)]
  | .loopKi => [(32, 0x80)]
  | .loopKf => [(32, 0x80)]
  | .loopOutMin => [(32, 0x80)]
  | .loopOutMax => [(32, 0x80)]
  | .loopFailOut => [(32, 0x80)]
  | .loopVlim => [(32, 0x80)]
  | .loopAlim => [(32, 0x80)]
  | .loopJlim => [(32, 0x80)]
  | .loopTc => [(32, 0x80)]
  | .loopTref => [(32, 0x80)]
  | .loopOut => [(32, 0x80)]
  | .loopX => [(32, 0x80)]
  | .loopFb => [(32, 0x80)]
  | .loopNotch => [(32, 0x80), (10, 0x4)]
  | .loopCtl => [(32, 0x80)]
  | .loopSched => [(32, 0x80)]
  | .loopSrc => [(32, 0x80)]
  | .loopSts => [(32, 0x80)]
  | .loopEngSts => []
  | .linSegCtl => [(24, 0x10000)]
  | .linSegPix => [(24, 0x10000)]
  | .linSegAdc => [(24, 0x10000)]
  | .linSegCol => [(24, 0x10000), (3, 0x4)]
  | .linSegRow => [(24, 0x10000), (3, 0x4)]
  | .linSegCover => [(24, 0x10000)]
  | .linSegSts => [(24, 0x10000)]
  | .linSegOvrCnt => [(24, 0x10000)]
  | .linSegWeak => [(24, 0x10000)]
  | .linSegRefdark => [(24, 0x10000), (3, 0x4)]
  | .linShade => [(24, 0x10000), (6144, 0x4)]
  | .linBankExp => [(12, 0x40)]
  | .linBankIll => [(12, 0x40)]
  | .linBankWref => [(12, 0x40)]
  | .linBankCap => [(12, 0x40)]
  | .linBankCap2 => [(12, 0x40)]
  | .linBankSts => [(12, 0x40)]
  | .linBankTmin => [(12, 0x40)]
  | .linIllCtl => [(12, 0x10)]
  | .linIllSts => [(12, 0x10)]
  | .linDevSts => []
  | .linDevWidth => []
  | .linShadeStg => []
  | .linTrigDropCnt => []
  | .odoInCtl => [(4, 0x10)]
  | .odoInScale => [(4, 0x10)]
  | .odoInCnt => [(4, 0x10)]
  | .odoInSts => [(4, 0x10)]
  | .odoSrc => []
  | .odoMotion => []
  | .odoSts => []
  | .odoPitch => []
  | .odoRevHyst => []
  | .odoPosLo => []
  | .odoPosHi => []
  | .odoSpeed => []
  | .odoHighLo => []
  | .odoHighHi => []
  | .odoSuppressCnt => []
  | .odoSeamCnt => []
  | .odoCarCtl => []
  | .odoCarScale => []
  | .odoCarSpeed => []
  | .odoCarBack => []
  | .odoCarOver => []
  | .linAsmCtl => []
  | .linHoodLen => []
  | .linAsmPix => []
  | .linHoodNum => []
  | .linLineCnt => []
  | .linGapLines => []
  | .linTrkCtl => [(4, 0x20)]
  | .linTrkWin => [(4, 0x20)]
  | .linTrkDead => [(4, 0x20)]
  | .linTrkPos => [(4, 0x20)]
  | .linTrkAng => [(4, 0x20)]
  | .linTrkSts => [(4, 0x20)]
  | .acqStrCtl => [(64, 0x40)]
  | .acqStrBaseLo => [(64, 0x40)]
  | .acqStrBaseHi => [(64, 0x40)]
  | .acqStrSize => [(64, 0x40)]
  | .acqStrWm => [(64, 0x40)]
  | .acqStrWr => [(64, 0x40)]
  | .acqStrRd => [(64, 0x40)]
  | .acqStrSelLo => [(64, 0x40)]
  | .acqStrSelHi => [(64, 0x40)]
  | .acqStrRecCnt => [(64, 0x40)]
  | .acqStrLostCnt => [(64, 0x40)]
  | .acqStrCoalCnt => [(64, 0x40)]
  | .acqStrSts => [(64, 0x40)]
  | .acqEchoRate => []
  | .acqRateDropCnt => []
  | .dmaQCtl => [(4096, 0x40)]
  | .dmaQDb => [(4096, 0x40)]
  | .dmaQHeadLo => [(4096, 0x40)]
  | .dmaQHeadHi => [(4096, 0x40)]
  | .dmaQCurLo => [(4096, 0x40)]
  | .dmaQCurHi => [(4096, 0x40)]
  | .dmaQDescCnt => [(4096, 0x40)]
  | .dmaQSuspectCnt => [(4096, 0x40)]
  | .dmaQSts => [(4096, 0x40)]
  | .dmaCqCtl => [(4096, 0x40)]
  | .dmaCqBaseLo => [(4096, 0x40)]
  | .dmaCqBaseHi => [(4096, 0x40)]
  | .dmaCqWr => [(4096, 0x40)]
  | .dmaCqRd => [(4096, 0x40)]
  | .dmaCqSts => [(4096, 0x40)]
  | .dmaCqCoal => [(4096, 0x40)]
  | .dmaQuotaOwn => [(64, 0x10)]
  | .dmaQuota => [(64, 0x10)]
  | .dmaUse => [(64, 0x10)]
  | .dmaOverCnt => [(64, 0x10)]
  | .memCfg => []
  | .memCap => []
  | .memHash => []
  | .memWq => []
  | .memPatrol => []
  | .memImbal => []
  | .memImbalCnt => []
  | .memSramSts => []
  | .memSramCeCnt => []
  | .memSramUeCnt => []
  | .memSramPassCnt => []
  | .memChSts => [(4, 0x20)]
  | .memChCeCnt => [(4, 0x20)]
  | .memChUeCnt => [(4, 0x20)]
  | .memChUeAddrLo => [(4, 0x20)]
  | .memChUeAddrHi => [(4, 0x20)]
  | .memChReq => [(4, 0x20)]
  | .memChCtl => [(4, 0x20)]
  | .lnkRing => []
  | .lnkRingSingleCnt => []
  | .lnkRingDropCnt => []
  | .lnkCtl => [(4, 0x100)]
  | .lnkSts => [(4, 0x100)]
  | .lnkMap => [(4, 0x100)]
  | .lnkCrcCnt => [(4, 0x100)]
  | .lnkReplayCnt => [(4, 0x100)]
  | .lnkRetrainCnt => [(4, 0x100)]
  | .lnkBrBaseLo => [(4, 0x100)]
  | .lnkBrBaseHi => [(4, 0x100)]
  | .lnkLaneSts => [(4, 0x100), (4, 0x20)]
  | .lnkDfe => [(4, 0x100), (4, 0x20)]
  | .lnkEyeCtl => [(4, 0x100), (4, 0x20)]
  | .lnkEyeRes => [(4, 0x100), (4, 0x20)]
  | .lnkPrbsCnt => [(4, 0x100), (4, 0x20)]
  | .pciSts => []
  | .pciBar2MapLo => []
  | .pciBar2MapHi => []
  | .pciCplTo => []
  | .pciCplToCnt => []
  | .pciBar2ErrCnt => []
  | .pciIntPath => [(2, 0x4)]
  | .ethPortCtl => [(4, 0x1000)]
  | .ethPortSts => [(4, 0x1000)]
  | .ethMacLo => [(4, 0x1000)]
  | .ethMacHi => [(4, 0x1000)]
  | .ethAsym => [(4, 0x1000)]
  | .ethTsInfo => [(4, 0x1000)]
  | .ethTsLo => [(4, 0x1000)]
  | .ethTsHi => [(4, 0x1000)]
  | .ethRxCnt => [(4, 0x1000)]
  | .ethRxErrCnt => [(4, 0x1000)]
  | .ethRxDropCnt => [(4, 0x1000)]
  | .ethTxCnt => [(4, 0x1000)]
  | .ethTxDropCnt => [(4, 0x1000)]
  | .ethTxqDstLo => [(4, 0x1000), (8, 0x20)]
  | .ethTxqDstHi => [(4, 0x1000), (8, 0x20)]
  | .ethTxqTag => [(4, 0x1000), (8, 0x20)]
  | .ethTxqRate => [(4, 0x1000), (8, 0x20)]
  | .ethRedCtl => [(2, 0x40)]
  | .ethRedDupCnt => [(2, 0x40)]
  | .ethRedSingleCnt => [(2, 0x40)]
  | .ethRedLanerrCnt => [(2, 0x40)]
  | .ethClsMatch => [(16, 0x8)]
  | .ethClsAct => [(16, 0x8)]
  | .ethRxrBase => [(8, 0x20)]
  | .ethRxrSize => [(8, 0x20)]
  | .ethRxrWr => [(8, 0x20)]
  | .ethRxrRd => [(8, 0x20)]
  | .ethRxrDropCnt => [(8, 0x20)]
  | .ethMgmtLo => [(8, 0x8)]
  | .ethMgmtHi => [(8, 0x8)]
  | .ethMgmtCfg => []
  | .ethMgmtCnt => []
  | .timCtl => []
  | .timServo => []
  | .timSts => []
  | .timNowLo => []
  | .timNowHi => []
  | .timNowFrac => []
  | .timErr => []
  | .timRate => []
  | .timSlew => []
  | .timRetErrLo => []
  | .timRetErrHi => []
  | .timAlign => []
  | .timMeasLo => []
  | .timMeasHi => []
  | .timPtp => []
  | .timLinkAsym => [(2, 0x4)]
  | .timLinkDelay => [(2, 0x4)]
  | .timRefSts => []
  | .timHoldCnt => []
  | .timStepCnt => []
  | .timRefHoldCnt => []
  | .safSts => [(2, 0x1000)]
  | .safCycle => [(2, 0x1000)]
  | .safSeal => [(2, 0x1000)]
  | .safDisc => [(2, 0x1000)]
  | .safZone => [(2, 0x1000), (4, 0x4)]
  | .safDrv => [(2, 0x1000), (8, 0x8)]
  | .safDrvStop => [(2, 0x1000), (8, 0x8)]
  | .safBand => [(2, 0x1000), (4, 0x8)]
  | .safBandSts => [(2, 0x1000), (4, 0x8)]
  | .safCnt => [(2, 0x1000)]
  | .safTxCtl => [(2, 0x1000), (4, 0x60)]
  | .safTxData => [(2, 0x1000), (4, 0x60), (20, 0x4)]
  | .fmkCtl => []
  | .fmkSts => []
  | .fmkPair => [(2, 0x4)]
  | .fmkLogHead => []
  | .fmkLogTail => []
  | .fmkLogOvfCnt => []
  | .fmkMapDead => [(48, 0x4)]
  | .fmkMapEng => [(48, 0x4)]
  | .fmkMapPort => []
  | .fmkMapMisc => []
  | .fmkBank => [(48, 0x4)]
  | .fmkEng => [(48, 0x4)]
  | .fmkLog => [(1024, 0x4)]
  | .bootSts => []
  | .bootCode => []
  | .bootFetch => []
  | .bootFwFailCnt => []
  | .bootBuildLo => []
  | .bootBuildHi => []
  | .protLc => []
  | .protGen => []
  | .protSlotSts => []
  | .protSpoiled => []
  | .protDebug => []
  | .protSerialLo => []
  | .protSerialHi => []
  | .protSlotHash => [(160, 0x4)]
  | .protIdpub => [(128, 0x4)]
  | .protAtt => [(176, 0x4)]
  | .protDcCtl => [(4, 0x4)]
  | .protDcBuf => [(4096, 0x4)]
  | .meaConvCtl => [(4, 0x10)]
  | .meaConvSts => [(4, 0x10)]
  | .meaConvLateCnt => [(4, 0x10)]
  | .meaExc => [(2, 0x4)]
  | .meaTdac => []
  | .meaUrg => []
  | .meaUrgDropCnt => []
  | .meaSlotIn => [(64, 0x40)]
  | .meaSlotExc => [(64, 0x40)]
  | .meaSlotRef => [(64, 0x40)]
  | .meaSlotConv => [(64, 0x40)]
  | .meaSlotRate => [(64, 0x40)]
  | .meaSlotDet => [(64, 0x40)]
  | .meaSlotT => [(64, 0x40)]
  | .meaSlotMin => [(64, 0x40)]
  | .meaSlotMax => [(64, 0x40)]
  | .meaSlotVal => [(64, 0x40)]
  | .meaSlotSts => [(64, 0x40)]
  | .meaSlotLead => [(64, 0x40)]
  | .meaPoly => [(1152, 0x4)]
  | .pwrDomCtl => [(5, 0x4)]
  | .pwrDomSts => [(5, 0x4)]
  | .pwrDomOwn => [(5, 0x4)]
  | .pwrSupSts => []
  | .pwrRefusedCnt => []
  | .pwrSupCfg => [(6, 0x4)]
  | .thmCtl => []
  | .thmSts => []
  | .thmBrokenLo => []
  | .thmBrokenHi => []
  | .thmSkipCnt => []
  | .thmThrMs => []
  | .thmSens => [(64, 0x4)]
  | .sysId => []
  | .sysRev => []
  | .sysRst => []
  | .sysAccErrCnt => []
  | .sysAccErrLast => []
  | .sysEvtSts => [(2, 0x4)]
  | .sysEvtErr => [(2, 0x4)]
  | .sysEvtRoute => [(64, 0x4)]
  | .sysMbxArg => [(32, 0x4)]
  | .sysMbxRes => [(16, 0x4)]
  | .pciMsixTab => [(8192, 0x4)]
  | .pciMsixPba => [(64, 0x4)]

/-- The fields of a register, from the highest bit to the lowest. -/
def Reg.fields : Reg → List FieldRow
  | .sysState => [⟨31, 27, .rsv, 0, 31⟩, ⟨26, 26, .ro, 0, 1⟩, ⟨25, 25, .ro, 0, 1⟩, ⟨24, 24, .ro, 0, 1⟩, ⟨23, 16, .ro, 0, 255⟩, ⟨15, 12, .rsv, 0, 15⟩, ⟨11, 8, .ro, 0, 15⟩, ⟨7, 4, .rsv, 0, 15⟩, ⟨3, 0, .ro, 0, 15⟩]
  | .sysMbxCmd => [⟨31, 31, .w1s, 0, 1⟩, ⟨30, 24, .rsv, 0, 127⟩, ⟨23, 16, .rw, 0, 255⟩, ⟨15, 8, .rsv, 0, 255⟩, ⟨7, 0, .rw, 0, 255⟩]
  | .sysMbxSts => [⟨31, 31, .ro, 0, 1⟩, ⟨30, 30, .w1c, 0, 1⟩, ⟨29, 28, .rsv, 0, 3⟩, ⟨27, 24, .ro, 0, 15⟩, ⟨23, 16, .ro, 0, 255⟩, ⟨15, 8, .rsv, 0, 255⟩, ⟨7, 0, .ro, 0, 255⟩]
  | .sysCmdCnt => [⟨31, 16, .w1cAny, 0, 65535⟩, ⟨15, 0, .w1cAny, 0, 65535⟩]
  | .sysOwnConflict0 => [⟨31, 16, .rws, 0, 65535⟩, ⟨15, 0, .rws, 0, 65535⟩]
  | .sysOwnConflict1 => [⟨31, 0, .rws, 0, 4294967295⟩]
  | .sysOwnLast0 => [⟨31, 16, .ro, 0, 65535⟩, ⟨15, 0, .ro, 0, 65535⟩]
  | .sysOwnLast1 => [⟨31, 0, .ro, 0, 4294967295⟩]
  | .sysOwnRefusedCnt => [⟨31, 16, .rsv, 0, 65535⟩, ⟨15, 0, .w1cAny, 0, 65535⟩]
  | .rcvChCtl => [⟨31, 8, .rsv, 0, 16777215⟩, ⟨7, 7, .rw, 0, 1⟩, ⟨6, 6, .rw, 0, 1⟩, ⟨5, 4, .rsv, 0, 3⟩, ⟨3, 2, .rw, 0, 3⟩, ⟨1, 0, .rw, 0, 3⟩]
  | .rcvChThr => [⟨31, 26, .rsv, 0, 63⟩, ⟨25, 16, .rw, 0, 1023⟩, ⟨15, 10, .rsv, 0, 63⟩, ⟨9, 0, .rw, 0, 1023⟩]
  | .rcvChThrEff => [⟨31, 26, .rsv, 0, 63⟩, ⟨25, 16, .ro, 0, 1023⟩, ⟨15, 10, .rsv, 0, 63⟩, ⟨9, 0, .ro, 0, 1023⟩]
  | .rcvChGate => [⟨31, 30, .rsv, 0, 3⟩, ⟨29, 16, .rw, 1, 8192⟩, ⟨15, 13, .rsv, 0, 7⟩, ⟨12, 0, .rw, 0, 8191⟩]
  | .rcvChDc => [⟨31, 16, .rsv, 0, 65535⟩, ⟨15, 0, .ro, 0, 65535⟩]
  | .rcvChOvlCnt => [⟨31, 0, .w1cAny, 0, 4294967295⟩]
  | .rcvChOogCnt => [⟨31, 0, .w1cAny, 0, 4294967295⟩]
  | .rcvChSts => [⟨31, 8, .rsv, 0, 16777215⟩, ⟨7, 7, .ro, 0, 1⟩, ⟨6, 6, .ro, 0, 1⟩, ⟨5, 5, .w1c, 0, 1⟩, ⟨4, 4, .w1c, 0, 1⟩, ⟨3, 3, .w1c, 0, 1⟩, ⟨2, 2, .w1c, 0, 1⟩, ⟨1, 1, .w1c, 0, 1⟩, ⟨0, 0, .w1c, 0, 1⟩]
  | .rcvClCtl => [⟨31, 24, .rsv, 0, 255⟩, ⟨23, 23, .rw, 0, 1⟩, ⟨22, 21, .rsv, 0, 3⟩, ⟨20, 16, .rw, 0, 31⟩, ⟨15, 12, .rsv, 0, 15⟩, ⟨11, 8, .rw, 0, 15⟩, ⟨7, 0, .rw, 0, 255⟩]
  | .rcvClDropCnt => [⟨31, 0, .w1cAny, 0, 4294967295⟩]
  | .rcvClNorefCnt => [⟨31, 0, .w1cAny, 0, 4294967295⟩]
  | .rcvClBlankCnt => [⟨31, 0, .w1cAny, 0, 4294967295⟩]
  | .rcvClSts => [⟨31, 2, .rsv, 0, 1073741823⟩, ⟨1, 1, .ro, 0, 1⟩, ⟨0, 0, .w1c, 0, 1⟩]
  | .rcvTileCtl => [⟨31, 1, .rsv, 0, 2147483647⟩, ⟨0, 0, .w1s, 0, 1⟩]
  | .rcvWalk => [⟨31, 12, .rsv, 0, 1048575⟩, ⟨11, 0, .rw, 0, 4095⟩]
  | .tdcEngCal => [⟨31, 25, .rsv, 0, 127⟩, ⟨24, 16, .ro, 0, 511⟩, ⟨15, 9, .rsv, 0, 127⟩, ⟨8, 0, .ro, 0, 511⟩]
  | .tdcEngSts => [⟨31, 22, .rsv, 0, 1023⟩, ⟨21, 16, .ro, 0, 63⟩, ⟨15, 12, .rsv, 0, 15⟩, ⟨11, 10, .ro, 0, 3⟩, ⟨9, 9, .ro, 0, 1⟩, ⟨8, 8, .ro, 0, 1⟩, ⟨7, 3, .rsv, 0, 31⟩, ⟨2, 2, .w1c, 0, 1⟩, ⟨1, 1, .w1c, 0, 1⟩, ⟨0, 0, .w1c, 0, 1⟩]
  | .tdcEngGbow => [⟨31, 16, .rsv, 0, 65535⟩, ⟨15, 0, .ro, 0, 65535⟩]
  | .tdcEngBowCnt => [⟨31, 0, .ro, 0, 4294967295⟩]
  | .tdcEngBowTimeLo => [⟨31, 0, .ro, 0, 4294967295⟩]
  | .tdcEngBowTimeHi => [⟨31, 0, .ro, 0, 4294967295⟩]
  | .tdcEngSkipCnt => [⟨31, 0, .w1cAny, 0, 4294967295⟩]
  | .tdcEngRejCnt => [⟨31, 0, .w1cAny, 0, 4294967295⟩]
  | .tdcTrim => [⟨31, 26, .rsv, 0, 63⟩, ⟨25, 25, .w1c, 0, 1⟩, ⟨24, 24, .w1c, 0, 1⟩, ⟨23, 23, .rsv, 0, 1⟩, ⟨22, 16, .ro, 0, 127⟩, ⟨15, 7, .rsv, 0, 511⟩, ⟨6, 0, .ro, 0, 127⟩]
  | .tdcTileCtl => [⟨31, 12, .rsv, 0, 1048575⟩, ⟨11, 10, .rw, 0, 3⟩, ⟨9, 9, .rw, 0, 1⟩, ⟨8, 8, .rw, 0, 1⟩, ⟨7, 7, .rw, 0, 1⟩, ⟨6, 6, .rw, 0, 1⟩, ⟨5, 0, .rsv, 0, 63⟩]
  | .tdcTabSel => [⟨31, 8, .rsv, 0, 16777215⟩, ⟨7, 0, .rw, 0, 255⟩]
  | .tdcTab => [⟨31, 16, .ro, 0, 65535⟩, ⟨15, 0, .ro, 0, 65535⟩]
  | .tdcUtilCtl => [⟨31, 31, .rw, 0, 1⟩, ⟨30, 29, .rw, 0, 3⟩, ⟨28, 27, .rw, 0, 3⟩, ⟨26, 20, .rsv, 0, 127⟩, ⟨19, 0, .rw, 1, 1000000⟩]
  | .tdcUtilSts => [⟨31, 3, .rsv, 0, 536870911⟩, ⟨2, 2, .ro, 0, 1⟩, ⟨1, 1, .w1c, 0, 1⟩, ⟨0, 0, .ro, 0, 1⟩]
  | .tdcUtilResLo => [⟨31, 0, .ro, 0, 4294967295⟩]
  | .tdcUtilResHi => [⟨31, 0, .ro, 0, 4294967295⟩]
  | .emtSts => [⟨31, 4, .rsv, 0, 268435455⟩, ⟨3, 3, .ro, 0, 1⟩, ⟨2, 2, .ro, 0, 1⟩, ⟨1, 1, .rsv, 0, 1⟩, ⟨0, 0, .w1c, 0, 1⟩]
  | .emtAgg => [⟨31, 23, .rsv, 0, 511⟩, ⟨22, 0, .ro, 0, 8388607⟩]
  | .emtSseSpare => [⟨31, 8, .rsv, 0, 16777215⟩, ⟨7, 0, .ro, 0, 255⟩]
  | .emtPllDiv => [⟨31, 16, .rsv, 0, 65535⟩, ⟨15, 8, .rw, 0, 255⟩, ⟨7, 3, .rsv, 0, 31⟩, ⟨2, 0, .rw, 0, 7⟩]
  | .emtPllLock => [⟨31, 29, .rsv, 0, 7⟩, ⟨28, 16, .rw, 64, 4096⟩, ⟨15, 6, .rsv, 0, 1023⟩, ⟨5, 0, .rw, 1, 63⟩]
  | .emtPllCtl => [⟨31, 1, .rsv, 0, 2147483647⟩, ⟨0, 0, .w1s, 0, 1⟩]
  | .emtPllSts => [⟨31, 16, .w1cAny, 0, 65535⟩, ⟨15, 6, .rsv, 0, 1023⟩, ⟨5, 5, .w1c, 0, 1⟩, ⟨4, 4, .w1c, 0, 1⟩, ⟨3, 3, .ro, 0, 1⟩, ⟨2, 2, .ro, 0, 1⟩, ⟨1, 1, .rsv, 0, 1⟩, ⟨0, 0, .ro, 0, 1⟩]
  | .emtPllOut => [⟨31, 31, .rw, 0, 1⟩, ⟨30, 22, .rsv, 0, 511⟩, ⟨21, 16, .rw, 0, 63⟩, ⟨15, 9, .rsv, 0, 127⟩, ⟨8, 0, .rw, 40, 400⟩]
  | .emtClSrc => [⟨31, 31, .rw, 0, 1⟩, ⟨30, 5, .rsv, 0, 67108863⟩, ⟨4, 0, .rw, 0, 31⟩]
  | .emtPortCtl => [⟨31, 31, .rw, 0, 1⟩, ⟨30, 30, .rw, 0, 1⟩, ⟨29, 16, .rsv, 0, 16383⟩, ⟨15, 8, .rw, 1, 255⟩, ⟨7, 0, .rw, 4, 255⟩]
  | .emtPortPeriod => [⟨31, 20, .rsv, 0, 4095⟩, ⟨19, 0, .rw, 1334, 1048575⟩]
  | .emtPortOffset => [⟨31, 20, .rsv, 0, 4095⟩, ⟨19, 0, .rw, 0, 1048575⟩]
  | .emtPortDither => [⟨31, 7, .rsv, 0, 33554431⟩, ⟨6, 0, .rw, 0, 127⟩]
  | .emtPortSeed => [⟨31, 31, .rsv, 0, 1⟩, ⟨30, 0, .rw, 1, 2147483647⟩]
  | .emtPortSense => [⟨31, 24, .rsv, 0, 255⟩, ⟨23, 16, .rw, 1, 255⟩, ⟨15, 8, .rsv, 0, 255⟩, ⟨7, 0, .rw, 0, 254⟩]
  | .emtPortSts => [⟨31, 10, .rsv, 0, 4194303⟩, ⟨9, 8, .ro, 0, 3⟩, ⟨7, 7, .ro, 0, 1⟩, ⟨6, 5, .ro, 0, 3⟩, ⟨4, 4, .rsv, 0, 1⟩, ⟨3, 3, .ro, 0, 1⟩, ⟨2, 2, .w1c, 0, 1⟩, ⟨1, 1, .w1c, 0, 1⟩, ⟨0, 0, .rsv, 0, 1⟩]
  | .emtPortLast => [⟨31, 14, .rsv, 0, 262143⟩, ⟨13, 8, .ro, 0, 63⟩, ⟨7, 0, .ro, 0, 255⟩]
  | .emtPortFireCnt => [⟨31, 0, .w1cAny, 0, 4294967295⟩]
  | .emtPortNosenseCnt => [⟨31, 0, .w1cAny, 0, 4294967295⟩]
  | .emtPortWithdrawnCnt => [⟨31, 0, .w1cAny, 0, 4294967295⟩]
  | .felClCtl => [⟨31, 31, .rsv, 0, 1⟩, ⟨30, 30, .rw, 0, 1⟩, ⟨29, 29, .rw, 0, 1⟩, ⟨28, 24, .rw, 0, 31⟩, ⟨23, 12, .rw, 1, 4095⟩, ⟨11, 0, .rsv, 0, 4095⟩]
  | .felClBg => [⟨31, 16, .rsv, 0, 65535⟩, ⟨15, 8, .rw, 0, 255⟩, ⟨7, 2, .rsv, 0, 63⟩, ⟨1, 0, .rw, 0, 3⟩]
  | .felClDet => [⟨31, 24, .rsv, 0, 255⟩, ⟨23, 16, .rw, 16, 255⟩, ⟨15, 12, .rsv, 0, 15⟩, ⟨11, 0, .rw, 0, 4095⟩]
  | .felClWin => [⟨31, 21, .rsv, 0, 2047⟩, ⟨20, 16, .rw, 0, 31⟩, ⟨15, 13, .rsv, 0, 7⟩, ⟨12, 8, .rw, 2, 31⟩, ⟨7, 6, .rsv, 0, 3⟩, ⟨5, 0, .rw, 0, 63⟩]
  | .felClOut => [⟨31, 31, .rw, 0, 1⟩, ⟨30, 18, .rsv, 0, 8191⟩, ⟨17, 16, .rw, 0, 3⟩, ⟨15, 0, .rw, 0, 65535⟩]
  | .felClSts => [⟨31, 31, .ro, 0, 1⟩, ⟨30, 30, .ro, 0, 1⟩, ⟨29, 29, .w1c, 0, 1⟩, ⟨28, 28, .w1c, 0, 1⟩, ⟨27, 27, .w1c, 0, 1⟩, ⟨26, 12, .rsv, 0, 32767⟩, ⟨11, 0, .ro, 0, 4095⟩]
  | .felClHistCnt => [⟨31, 0, .w1cAny, 0, 4294967295⟩]
  | .felClMissCnt => [⟨31, 0, .w1cAny, 0, 4294967295⟩]
  | .felClCoarseCnt => [⟨31, 0, .w1cAny, 0, 4294967295⟩]
  | .felClShortCnt => [⟨31, 0, .w1cAny, 0, 4294967295⟩]
  | .felWin => [⟨31, 31, .ro, 0, 1⟩, ⟨30, 30, .ro, 0, 1⟩, ⟨29, 17, .rsv, 0, 8191⟩, ⟨16, 0, .ro, 0, 131071⟩]
  | .felExtLoad => [⟨31, 31, .w1c, 0, 1⟩, ⟨30, 10, .rsv, 0, 2097151⟩, ⟨9, 0, .ro, 0, 1023⟩]
  | .felExtAbandonCnt => [⟨31, 0, .w1cAny, 0, 4294967295⟩]
  | .felSnap => [⟨31, 31, .w1s, 0, 1⟩, ⟨30, 30, .ro, 0, 1⟩, ⟨29, 6, .rsv, 0, 16777215⟩, ⟨5, 0, .rw, 0, 63⟩]
  | .felKern => [⟨31, 24, .rw, 0, 255⟩, ⟨23, 16, .rw, 0, 255⟩, ⟨15, 8, .rw, 0, 255⟩, ⟨7, 0, .rw, 0, 255⟩]
  | .felKpar => [⟨31, 28, .rsv, 0, 15⟩, ⟨27, 16, .rw, 0, 4095⟩, ⟨15, 12, .rsv, 0, 15⟩, ⟨11, 8, .rw, 0, 15⟩, ⟨7, 5, .rsv, 0, 7⟩, ⟨4, 0, .rw, 1, 16⟩]
  | .felKsel => [⟨31, 3, .rsv, 0, 536870911⟩, ⟨2, 0, .rw, 0, 7⟩]
  | .rejSchedCtl => [⟨31, 31, .rw, 0, 1⟩, ⟨30, 23, .rsv, 0, 255⟩, ⟨22, 16, .rw, 0, 127⟩, ⟨15, 7, .rsv, 0, 511⟩, ⟨6, 0, .rw, 1, 64⟩]
  | .rejSchedPeriod => [⟨31, 20, .rsv, 0, 4095⟩, ⟨19, 0, .rw, 1334, 1048575⟩]
  | .rejSchedSlotsLo => [⟨31, 0, .rw, 0, 4294967295⟩]
  | .rejSchedSlotsHi => [⟨31, 0, .rw, 0, 4294967295⟩]
  | .rejSchedEpochLo => [⟨31, 0, .rw, 0, 4294967295⟩]
  | .rejSchedEpochHi => [⟨31, 0, .rw, 0, 4294967295⟩]
  | .rejSchedGuard => [⟨31, 24, .rsv, 0, 255⟩, ⟨23, 16, .rw, 1, 255⟩, ⟨15, 8, .rsv, 0, 255⟩, ⟨7, 0, .rw, 0, 255⟩]
  | .rejSchedSts => [⟨31, 31, .w1c, 0, 1⟩, ⟨30, 30, .w1c, 0, 1⟩, ⟨29, 29, .ro, 0, 1⟩, ⟨28, 16, .rsv, 0, 8191⟩, ⟨15, 0, .ro, 0, 65535⟩]
  | .rejSchedSlipCnt => [⟨31, 0, .w1cAny, 0, 4294967295⟩]
  | .rejSchedFrameLo => [⟨31, 0, .ro, 0, 4294967295⟩]
  | .rejSchedFrameHi => [⟨31, 0, .ro, 0, 4294967295⟩]
  | .rejBiCtl => [⟨31, 31, .rw, 0, 1⟩, ⟨30, 11, .rsv, 0, 1048575⟩, ⟨10, 8, .rw, 0, 7⟩, ⟨7, 5, .rsv, 0, 7⟩, ⟨4, 0, .rw, 0, 31⟩]
  | .rejBiDelay => [⟨31, 16, .rsv, 0, 65535⟩, ⟨15, 0, .rw, 0, 65535⟩]
  | .rejBiSts => [⟨31, 31, .ro, 0, 1⟩, ⟨30, 30, .w1c, 0, 1⟩, ⟨29, 0, .rsv, 0, 1073741823⟩]
  | .rejBiUnconfCnt => [⟨31, 0, .w1cAny, 0, 4294967295⟩]
  | .rejClAdapt => [⟨31, 29, .rw, 0, 7⟩, ⟨28, 27, .rsv, 0, 3⟩, ⟨26, 24, .rw, 1, 7⟩, ⟨23, 16, .rw, 0, 255⟩, ⟨15, 8, .rw, 1, 255⟩, ⟨7, 0, .rw, 0, 254⟩]
  | .rejClCoinc => [⟨31, 31, .rw, 0, 1⟩, ⟨30, 30, .rw, 0, 1⟩, ⟨29, 29, .rw, 0, 1⟩, ⟨28, 20, .rsv, 0, 511⟩, ⟨19, 16, .rw, 1, 8⟩, ⟨15, 13, .rsv, 0, 7⟩, ⟨12, 8, .rw, 1, 16⟩, ⟨7, 4, .rsv, 0, 15⟩, ⟨3, 2, .rw, 0, 3⟩, ⟨1, 0, .rw, 0, 3⟩]
  | .rejClWx => [⟨31, 30, .rw, 0, 3⟩, ⟨29, 29, .rw, 0, 1⟩, ⟨28, 26, .rsv, 0, 7⟩, ⟨25, 16, .rw, 0, 1023⟩, ⟨15, 8, .rw, 0, 255⟩, ⟨7, 6, .rsv, 0, 3⟩, ⟨5, 0, .rw, 4, 63⟩]
  | .rejClXs => [⟨31, 24, .rw, 0, 255⟩, ⟨23, 12, .rsv, 0, 4095⟩, ⟨11, 0, .rw, 0, 4095⟩]
  | .rejClBi => [⟨31, 31, .rw, 0, 1⟩, ⟨30, 7, .rsv, 0, 16777215⟩, ⟨6, 4, .rw, 0, 7⟩, ⟨3, 3, .rsv, 0, 1⟩, ⟨2, 0, .rw, 0, 7⟩]
  | .rejClLoneCnt => [⟨31, 0, .w1cAny, 0, 4294967295⟩]
  | .rejClWxCnt => [⟨31, 0, .w1cAny, 0, 4294967295⟩]
  | .rejClXsCnt => [⟨31, 0, .w1cAny, 0, 4294967295⟩]
  | .rejChStat => [⟨31, 26, .rsv, 0, 63⟩, ⟨25, 25, .w1c, 0, 1⟩, ⟨24, 24, .rsv, 0, 1⟩, ⟨23, 16, .ro, 0, 255⟩, ⟨15, 8, .ro, 0, 255⟩, ⟨7, 0, .ro, 0, 255⟩]
  | .loopSaxCtl => [⟨31, 29, .rw, 0, 7⟩, ⟨28, 28, .rsv, 0, 1⟩, ⟨27, 27, .rw, 0, 1⟩, ⟨26, 26, .rw, 0, 1⟩, ⟨25, 19, .rsv, 0, 127⟩, ⟨18, 16, .rw, 0, 7⟩, ⟨15, 8, .rw, 0, 255⟩, ⟨7, 0, .rw, 0, 255⟩]
  | .loopSaxPwm => [⟨31, 24, .rw, 1, 255⟩, ⟨23, 16, .rsv, 0, 255⟩, ⟨15, 0, .rw, 100, 65535⟩]
  | .loopSaxCpr => [⟨31, 28, .rsv, 0, 15⟩, ⟨27, 20, .rw, 0, 255⟩, ⟨19, 0, .rw, 4, 524288⟩]
  | .loopSaxAz => [⟨31, 31, .ro, 0, 1⟩, ⟨30, 20, .rsv, 0, 2047⟩, ⟨19, 0, .ro, 0, 1048575⟩]
  | .loopSaxSts => [⟨31, 8, .rsv, 0, 16777215⟩, ⟨7, 7, .w1c, 0, 1⟩, ⟨6, 6, .w1c, 0, 1⟩, ⟨5, 5, .w1c, 0, 1⟩, ⟨4, 4, .w1c, 0, 1⟩, ⟨3, 3, .w1c, 0, 1⟩, ⟨2, 0, .ro, 0, 7⟩]
  | .loopSaxPos => [⟨31, 0, .ro, 0, 4294967295⟩]
  | .loopSaxSpeed => [⟨31, 0, .ro, 0, 4294967295⟩]
  | .loopSaxErrCnt => [⟨31, 0, .w1cAny, 0, 4294967295⟩]
  | .loopSp => [⟨31, 0, .rw, 0, 4294967295⟩]
  | .loopKp => [⟨31, 0, .rw, 0, 4294967295⟩]
  | .loopKi => [⟨31, 0, .rw, 0, 4294967295⟩]
  | .loopKf => [⟨31, 0, .rw, 0, 4294967295⟩]
  | .loopOutMin => [⟨31, 0, .rw, 0, 4294967295⟩]
  | .loopOutMax => [⟨31, 0, .rw, 0, 4294967295⟩]
  | .loopFailOut => [⟨31, 0, .rw, 0, 4294967295⟩]
  | .loopVlim => [⟨31, 0, .rw, 0, 4294967295⟩]
  | .loopAlim => [⟨31, 0, .rw, 0, 4294967295⟩]
  | .loopJlim => [⟨31, 0, .rw, 0, 4294967295⟩]
  | .loopTc => [⟨31, 0, .rw, 0, 4294967295⟩]
  | .loopTref => [⟨31, 0, .rw, 0, 4294967295⟩]
  | .loopOut => [⟨31, 0, .ro, 0, 4294967295⟩]
  | .loopX => [⟨31, 0, .ro, 0, 4294967295⟩]
  | .loopFb => [⟨31, 0, .ro, 0, 4294967295⟩]
  | .loopNotch => [⟨31, 0, .rw, 0, 4294967295⟩]
  | .loopCtl => [⟨31, 31, .rw, 0, 1⟩, ⟨30, 29, .rw, 0, 3⟩, ⟨28, 28, .rw, 0, 1⟩, ⟨27, 27, .rw, 0, 1⟩, ⟨26, 26, .rw, 0, 1⟩, ⟨25, 25, .rw, 0, 1⟩, ⟨24, 21, .rsv, 0, 15⟩, ⟨20, 16, .rw, 0, 31⟩, ⟨15, 8, .rw, 0, 255⟩, ⟨7, 7, .w1s, 0, 1⟩, ⟨6, 0, .rsv, 0, 127⟩]
  | .loopSched => [⟨31, 16, .rw, 0, 65535⟩, ⟨15, 0, .rw, 1, 65535⟩]
  | .loopSrc => [⟨31, 28, .rw, 0, 15⟩, ⟨27, 22, .rsv, 0, 63⟩, ⟨21, 16, .rw, 0, 63⟩, ⟨15, 12, .rw, 0, 15⟩, ⟨11, 8, .rw, 0, 15⟩, ⟨7, 6, .rsv, 0, 3⟩, ⟨5, 0, .rw, 0, 63⟩]
  | .loopSts => [⟨31, 31, .ro, 0, 1⟩, ⟨30, 30, .ro, 0, 1⟩, ⟨29, 29, .ro, 0, 1⟩, ⟨28, 28, .w1c, 0, 1⟩, ⟨27, 27, .w1c, 0, 1⟩, ⟨26, 26, .w1c, 0, 1⟩, ⟨25, 0, .rsv, 0, 67108863⟩]
  | .loopEngSts => [⟨31, 31, .w1c, 0, 1⟩, ⟨30, 18, .rsv, 0, 8191⟩, ⟨17, 0, .ro, 0, 262143⟩]
  | .linSegCtl => [⟨31, 31, .rw, 0, 1⟩, ⟨30, 30, .rw, 0, 1⟩, ⟨29, 29, .rw, 0, 1⟩, ⟨28, 24, .rw, 0, 23⟩, ⟨23, 20, .rsv, 0, 15⟩, ⟨19, 16, .rw, 0, 11⟩, ⟨15, 14, .rsv, 0, 3⟩, ⟨13, 12, .rw, 0, 3⟩, ⟨11, 11, .rsv, 0, 1⟩, ⟨10, 8, .rw, 0, 7⟩, ⟨7, 1, .rsv, 0, 127⟩, ⟨0, 0, .rw, 0, 1⟩]
  | .linSegPix => [⟨31, 28, .rw, 0, 8⟩, ⟨27, 16, .rw, 16, 2048⟩, ⟨15, 13, .rsv, 0, 7⟩, ⟨12, 8, .rw, 0, 16⟩, ⟨7, 6, .rsv, 0, 3⟩, ⟨5, 0, .rw, 8, 63⟩]
  | .linSegAdc => [⟨31, 5, .rsv, 0, 134217727⟩, ⟨4, 0, .rw, 0, 31⟩]
  | .linSegCol => [⟨31, 16, .rw, 0, 65535⟩, ⟨15, 12, .rsv, 0, 15⟩, ⟨11, 0, .rw, 0, 4095⟩]
  | .linSegRow => [⟨31, 29, .rsv, 0, 7⟩, ⟨28, 16, .ro, 0, 8191⟩, ⟨15, 0, .rw, 0, 65535⟩]
  | .linSegCover => [⟨31, 16, .rw, 0, 65535⟩, ⟨15, 8, .rsv, 0, 255⟩, ⟨7, 0, .rw, 1, 255⟩]
  | .linSegSts => [⟨31, 31, .ro, 0, 1⟩, ⟨30, 30, .ro, 0, 1⟩, ⟨29, 29, .ro, 0, 1⟩, ⟨28, 4, .rsv, 0, 33554431⟩, ⟨3, 3, .w1c, 0, 1⟩, ⟨2, 2, .w1c, 0, 1⟩, ⟨1, 0, .rsv, 0, 3⟩]
  | .linSegOvrCnt => [⟨31, 0, .w1cAny, 0, 4294967295⟩]
  | .linSegWeak => [⟨31, 13, .rsv, 0, 524287⟩, ⟨12, 0, .ro, 0, 8191⟩]
  | .linSegRefdark => [⟨31, 16, .rsv, 0, 65535⟩, ⟨15, 0, .ro, 0, 65535⟩]
  | .linShade => [⟨31, 16, .rw, 0, 65535⟩, ⟨15, 0, .rw, 0, 65535⟩]
  | .linBankExp => [⟨31, 29, .rsv, 0, 7⟩, ⟨28, 24, .rw, 0, 20⟩, ⟨23, 16, .rsv, 0, 255⟩, ⟨15, 0, .rw, 200, 50000⟩]
  | .linBankIll => [⟨31, 12, .rsv, 0, 1048575⟩, ⟨11, 0, .rw, 0, 4095⟩]
  | .linBankWref => [⟨31, 31, .rw, 0, 1⟩, ⟨30, 29, .rsv, 0, 3⟩, ⟨28, 24, .rw, 0, 23⟩, ⟨23, 23, .rsv, 0, 1⟩, ⟨22, 12, .rw, 0, 2047⟩, ⟨11, 11, .rsv, 0, 1⟩, ⟨10, 0, .rw, 0, 2047⟩]
  | .linBankCap => [⟨31, 31, .w1s, 0, 1⟩, ⟨30, 30, .rw, 0, 1⟩, ⟨29, 28, .rsv, 0, 3⟩, ⟨27, 24, .rw, 4, 12⟩, ⟨23, 16, .rsv, 0, 255⟩, ⟨15, 0, .rw, 0, 65535⟩]
  | .linBankCap2 => [⟨31, 16, .rw, 0, 65535⟩, ⟨15, 0, .rw, 21, 65535⟩]
  | .linBankSts => [⟨31, 31, .ro, 0, 1⟩, ⟨30, 30, .ro, 0, 1⟩, ⟨29, 29, .w1c, 0, 1⟩, ⟨28, 28, .w1c, 0, 1⟩, ⟨27, 27, .w1c, 0, 1⟩, ⟨26, 16, .rsv, 0, 2047⟩, ⟨15, 0, .ro, 0, 65535⟩]
  | .linBankTmin => [⟨31, 20, .rsv, 0, 4095⟩, ⟨19, 0, .ro, 0, 1048575⟩]
  | .linIllCtl => [⟨31, 21, .rsv, 0, 2047⟩, ⟨20, 0, .rw, 0, 2000000⟩]
  | .linIllSts => [⟨31, 31, .w1c, 0, 1⟩, ⟨30, 30, .w1c, 0, 1⟩, ⟨29, 21, .rsv, 0, 511⟩, ⟨20, 0, .ro, 0, 2097151⟩]
  | .linDevSts => [⟨31, 20, .rsv, 0, 4095⟩, ⟨19, 0, .ro, 0, 1048575⟩]
  | .linDevWidth => [⟨31, 16, .rsv, 0, 65535⟩, ⟨15, 0, .ro, 0, 65535⟩]
  | .linShadeStg => [⟨31, 31, .w1s, 0, 1⟩, ⟨30, 30, .ro, 0, 1⟩, ⟨29, 29, .ro, 0, 1⟩, ⟨28, 5, .rsv, 0, 16777215⟩, ⟨4, 0, .ro, 0, 31⟩]
  | .linTrigDropCnt => [⟨31, 0, .w1cAny, 0, 4294967295⟩]
  | .odoInCtl => [⟨31, 31, .rw, 0, 1⟩, ⟨30, 30, .rw, 0, 1⟩, ⟨29, 29, .rw, 0, 1⟩, ⟨28, 27, .rw, 0, 3⟩, ⟨26, 19, .rsv, 0, 255⟩, ⟨18, 16, .rw, 0, 7⟩, ⟨15, 0, .rsv, 0, 65535⟩]
  | .odoInScale => [⟨31, 0, .rw, 1, 4294967295⟩]
  | .odoInCnt => [⟨31, 0, .ro, 0, 4294967295⟩]
  | .odoInSts => [⟨31, 18, .rsv, 0, 16383⟩, ⟨17, 2, .w1cAny, 0, 65535⟩, ⟨1, 1, .w1c, 0, 1⟩, ⟨0, 0, .w1c, 0, 1⟩]
  | .odoSrc => [⟨31, 31, .rw, 0, 1⟩, ⟨30, 30, .rw, 0, 1⟩, ⟨29, 22, .rsv, 0, 255⟩, ⟨21, 20, .rw, 0, 3⟩, ⟨19, 18, .rsv, 0, 3⟩, ⟨17, 16, .rw, 0, 3⟩, ⟨15, 8, .rsv, 0, 255⟩, ⟨7, 0, .rw, 1, 255⟩]
  | .odoMotion => [⟨31, 31, .rw, 0, 1⟩, ⟨30, 24, .rsv, 0, 127⟩, ⟨23, 16, .rw, 1, 255⟩, ⟨15, 0, .rw, 1, 65535⟩]
  | .odoSts => [⟨31, 31, .ro, 0, 1⟩, ⟨30, 30, .ro, 0, 1⟩, ⟨29, 29, .ro, 0, 1⟩, ⟨28, 28, .ro, 0, 1⟩, ⟨27, 27, .ro, 0, 1⟩, ⟨26, 26, .ro, 0, 1⟩, ⟨25, 25, .ro, 0, 1⟩, ⟨24, 24, .w1c, 0, 1⟩, ⟨23, 0, .rsv, 0, 16777215⟩]
  | .odoPitch => [⟨31, 15, .rsv, 0, 131071⟩, ⟨14, 0, .rw, 50, 20000⟩]
  | .odoRevHyst => [⟨31, 20, .rsv, 0, 4095⟩, ⟨19, 0, .rw, 1, 1000000⟩]
  | .odoPosLo => [⟨31, 0, .ro, 0, 4294967295⟩]
  | .odoPosHi => [⟨31, 0, .ro, 0, 4294967295⟩]
  | .odoSpeed => [⟨31, 0, .ro, 0, 4294967295⟩]
  | .odoHighLo => [⟨31, 0, .ro, 0, 4294967295⟩]
  | .odoHighHi => [⟨31, 0, .ro, 0, 4294967295⟩]
  | .odoSuppressCnt => [⟨31, 0, .w1cAny, 0, 4294967295⟩]
  | .odoSeamCnt => [⟨31, 0, .w1cAny, 0, 4294967295⟩]
  | .odoCarCtl => [⟨31, 13, .rsv, 0, 524287⟩, ⟨12, 8, .rw, 0, 31⟩, ⟨7, 2, .rsv, 0, 63⟩, ⟨1, 0, .rw, 0, 3⟩]
  | .odoCarScale => [⟨31, 0, .rw, 1, 4294967295⟩]
  | .odoCarSpeed => [⟨31, 0, .rw, 0, 4294967295⟩]
  | .odoCarBack => [⟨31, 0, .rw, 0, 4294967295⟩]
  | .odoCarOver => [⟨31, 0, .rw, 0, 4294967295⟩]
  | .linAsmCtl => [⟨31, 31, .rw, 0, 1⟩, ⟨30, 18, .rsv, 0, 8191⟩, ⟨17, 16, .rw, 0, 3⟩, ⟨15, 2, .rsv, 0, 16383⟩, ⟨1, 0, .rw, 0, 3⟩]
  | .linHoodLen => [⟨31, 13, .rsv, 0, 524287⟩, ⟨12, 0, .rw, 1, 5000⟩]
  | .linAsmPix => [⟨31, 16, .rsv, 0, 65535⟩, ⟨15, 0, .rw, 0, 65535⟩]
  | .linHoodNum => [⟨31, 0, .ro, 0, 4294967295⟩]
  | .linLineCnt => [⟨31, 0, .w1cAny, 0, 4294967295⟩]
  | .linGapLines => [⟨31, 0, .w1cAny, 0, 4294967295⟩]
  | .linTrkCtl => [⟨31, 31, .rw, 0, 1⟩, ⟨30, 30, .rw, 0, 1⟩, ⟨29, 29, .rw, 0, 1⟩, ⟨28, 24, .rsv, 0, 31⟩, ⟨23, 16, .rw, 1, 255⟩, ⟨15, 0, .rw, 0, 65535⟩]
  | .linTrkWin => [⟨31, 16, .rw, 0, 49151⟩, ⟨15, 0, .rw, 0, 65535⟩]
  | .linTrkDead => [⟨31, 24, .rw, 2, 255⟩, ⟨23, 16, .rw, 0, 255⟩, ⟨15, 0, .rw, 0, 65535⟩]
  | .linTrkPos => [⟨31, 0, .ro, 0, 4294967295⟩]
  | .linTrkAng => [⟨31, 0, .ro, 0, 4294967295⟩]
  | .linTrkSts => [⟨31, 31, .ro, 0, 1⟩, ⟨30, 0, .rsv, 0, 2147483647⟩]
  | .acqStrCtl => [⟨31, 31, .ro, 0, 1⟩, ⟨30, 28, .rsv, 0, 7⟩, ⟨27, 26, .rw, 0, 3⟩, ⟨25, 25, .rw, 0, 1⟩, ⟨24, 20, .rw, 0, 31⟩, ⟨19, 16, .rsv, 0, 15⟩, ⟨15, 0, .rw, 0, 65535⟩]
  | .acqStrBaseLo => [⟨31, 12, .rw, 0, 1048575⟩, ⟨11, 0, .rsv, 0, 4095⟩]
  | .acqStrBaseHi => [⟨31, 0, .rw, 0, 4294967295⟩]
  | .acqStrSize => [⟨31, 5, .rsv, 0, 134217727⟩, ⟨4, 0, .rw, 16, 31⟩]
  | .acqStrWm => [⟨31, 26, .rsv, 0, 63⟩, ⟨25, 16, .rw, 0, 1023⟩, ⟨15, 10, .rsv, 0, 63⟩, ⟨9, 0, .rw, 0, 1023⟩]
  | .acqStrWr => [⟨31, 0, .ro, 0, 4294967295⟩]
  | .acqStrRd => [⟨31, 0, .rw, 0, 4294967295⟩]
  | .acqStrSelLo => [⟨31, 0, .rw, 0, 4294967295⟩]
  | .acqStrSelHi => [⟨31, 0, .rw, 0, 4294967295⟩]
  | .acqStrRecCnt => [⟨31, 0, .w1cAny, 0, 4294967295⟩]
  | .acqStrLostCnt => [⟨31, 0, .w1cAny, 0, 4294967295⟩]
  | .acqStrCoalCnt => [⟨31, 0, .w1cAny, 0, 4294967295⟩]
  | .acqStrSts => [⟨31, 31, .ro, 0, 1⟩, ⟨30, 30, .ro, 0, 1⟩, ⟨29, 29, .w1c, 0, 1⟩, ⟨28, 28, .w1c, 0, 1⟩, ⟨27, 0, .rsv, 0, 268435455⟩]
  | .acqEchoRate => [⟨31, 25, .rsv, 0, 127⟩, ⟨24, 0, .ro, 0, 33554431⟩]
  | .acqRateDropCnt => [⟨31, 0, .w1cAny, 0, 4294967295⟩]
  | .dmaQCtl => [⟨31, 31, .rw, 0, 1⟩, ⟨30, 28, .rsv, 0, 7⟩, ⟨27, 26, .rw, 0, 3⟩, ⟨25, 22, .rsv, 0, 15⟩, ⟨21, 16, .ro, 0, 63⟩, ⟨15, 12, .rsv, 0, 15⟩, ⟨11, 0, .rw, 0, 4095⟩]
  | .dmaQDb => [⟨31, 0, .wo, 0, 4294967295⟩]
  | .dmaQHeadLo => [⟨31, 5, .rw, 0, 134217727⟩, ⟨4, 0, .rsv, 0, 31⟩]
  | .dmaQHeadHi => [⟨31, 0, .rw, 0, 4294967295⟩]
  | .dmaQCurLo => [⟨31, 0, .ro, 0, 4294967295⟩]
  | .dmaQCurHi => [⟨31, 0, .ro, 0, 4294967295⟩]
  | .dmaQDescCnt => [⟨31, 0, .w1cAny, 0, 4294967295⟩]
  | .dmaQSuspectCnt => [⟨31, 0, .w1cAny, 0, 4294967295⟩]
  | .dmaQSts => [⟨31, 30, .ro, 0, 3⟩, ⟨29, 29, .ro, 0, 1⟩, ⟨28, 24, .rsv, 0, 31⟩, ⟨23, 16, .ro, 0, 255⟩, ⟨15, 0, .w1cAny, 0, 65535⟩]
  | .dmaCqCtl => [⟨31, 31, .rw, 0, 1⟩, ⟨30, 27, .rsv, 0, 15⟩, ⟨26, 16, .rw, 0, 2047⟩, ⟨15, 14, .rsv, 0, 3⟩, ⟨13, 8, .ro, 0, 63⟩, ⟨7, 5, .rsv, 0, 7⟩, ⟨4, 0, .rw, 4, 20⟩]
  | .dmaCqBaseLo => [⟨31, 4, .rw, 0, 268435455⟩, ⟨3, 0, .rsv, 0, 15⟩]
  | .dmaCqBaseHi => [⟨31, 0, .rw, 0, 4294967295⟩]
  | .dmaCqWr => [⟨31, 0, .ro, 0, 4294967295⟩]
  | .dmaCqRd => [⟨31, 0, .rw, 0, 4294967295⟩]
  | .dmaCqSts => [⟨31, 31, .ro, 0, 1⟩, ⟨30, 30, .ro, 0, 1⟩, ⟨29, 0, .rsv, 0, 1073741823⟩]
  | .dmaCqCoal => [⟨31, 24, .rsv, 0, 255⟩, ⟨23, 16, .rw, 1, 255⟩, ⟨15, 0, .rw, 0, 65535⟩]
  | .dmaQuotaOwn => [⟨31, 16, .rsv, 0, 65535⟩, ⟨15, 0, .ro, 0, 65535⟩]
  | .dmaQuota => [⟨31, 23, .rsv, 0, 511⟩, ⟨22, 0, .rw, 0, 8388607⟩]
  | .dmaUse => [⟨31, 31, .ro, 0, 1⟩, ⟨30, 30, .w1c, 0, 1⟩, ⟨29, 23, .rsv, 0, 127⟩, ⟨22, 0, .ro, 0, 8388607⟩]
  | .dmaOverCnt => [⟨31, 0, .w1cAny, 0, 4294967295⟩]
  | .memCfg => [⟨31, 31, .ro, 0, 1⟩, ⟨30, 28, .rsv, 0, 7⟩, ⟨27, 24, .ro, 0, 15⟩, ⟨23, 20, .ro, 0, 15⟩, ⟨19, 14, .rsv, 0, 63⟩, ⟨13, 12, .ro, 0, 3⟩, ⟨11, 8, .ro, 0, 15⟩, ⟨7, 4, .rsv, 0, 15⟩, ⟨3, 0, .ro, 0, 15⟩]
  | .memCap => [⟨31, 15, .rsv, 0, 131071⟩, ⟨14, 0, .ro, 0, 32767⟩]
  | .memHash => [⟨31, 0, .ro, 0, 4294967295⟩]
  | .memWq => [⟨31, 24, .rsv, 0, 255⟩, ⟨23, 16, .rw, 0, 255⟩, ⟨15, 8, .rsv, 0, 255⟩, ⟨7, 0, .rw, 0, 255⟩]
  | .memPatrol => [⟨31, 24, .rsv, 0, 255⟩, ⟨23, 8, .rw, 0, 65535⟩, ⟨7, 0, .rw, 1, 255⟩]
  | .memImbal => [⟨31, 31, .w1c, 0, 1⟩, ⟨30, 18, .rsv, 0, 8191⟩, ⟨17, 16, .ro, 0, 3⟩, ⟨15, 7, .rsv, 0, 511⟩, ⟨6, 0, .ro, 0, 127⟩]
  | .memImbalCnt => [⟨31, 0, .w1cAny, 0, 4294967295⟩]
  | .memSramSts => [⟨31, 31, .w1c, 0, 1⟩, ⟨30, 16, .rsv, 0, 32767⟩, ⟨15, 0, .ro, 0, 65535⟩]
  | .memSramCeCnt => [⟨31, 0, .w1cAny, 0, 4294967295⟩]
  | .memSramUeCnt => [⟨31, 0, .w1cAny, 0, 4294967295⟩]
  | .memSramPassCnt => [⟨31, 0, .ro, 0, 4294967295⟩]
  | .memChSts => [⟨31, 28, .ro, 0, 15⟩, ⟨27, 27, .ro, 0, 1⟩, ⟨26, 26, .ro, 0, 1⟩, ⟨25, 23, .rsv, 0, 7⟩, ⟨22, 16, .ro, 0, 127⟩, ⟨15, 4, .rsv, 0, 4095⟩, ⟨3, 0, .ro, 0, 15⟩]
  | .memChCeCnt => [⟨31, 0, .w1cAny, 0, 4294967295⟩]
  | .memChUeCnt => [⟨31, 0, .w1cAny, 0, 4294967295⟩]
  | .memChUeAddrLo => [⟨31, 0, .ro, 0, 4294967295⟩]
  | .memChUeAddrHi => [⟨31, 0, .ro, 0, 4294967295⟩]
  | .memChReq => [⟨31, 0, .ro, 0, 4294967295⟩]
  | .memChCtl => [⟨31, 31, .w1s, 0, 1⟩, ⟨30, 0, .rsv, 0, 2147483647⟩]
  | .lnkRing => [⟨31, 31, .ro, 0, 1⟩, ⟨30, 30, .ro, 0, 1⟩, ⟨29, 20, .rsv, 0, 1023⟩, ⟨19, 16, .ro, 0, 15⟩, ⟨15, 11, .rsv, 0, 31⟩, ⟨10, 8, .ro, 0, 7⟩, ⟨7, 7, .rsv, 0, 1⟩, ⟨6, 0, .ro, 0, 127⟩]
  | .lnkRingSingleCnt => [⟨31, 0, .w1cAny, 0, 4294967295⟩]
  | .lnkRingDropCnt => [⟨31, 0, .w1cAny, 0, 4294967295⟩]
  | .lnkCtl => [⟨31, 29, .ro, 0, 7⟩, ⟨28, 28, .rw, 0, 1⟩, ⟨27, 26, .rw, 0, 3⟩, ⟨25, 25, .rw, 0, 1⟩, ⟨24, 23, .rw, 0, 3⟩, ⟨22, 22, .w1s, 0, 1⟩, ⟨21, 8, .rsv, 0, 16383⟩, ⟨7, 0, .rw, 0, 255⟩]
  | .lnkSts => [⟨31, 28, .ro, 0, 15⟩, ⟨27, 27, .ro, 0, 1⟩, ⟨26, 26, .w1c, 0, 1⟩, ⟨25, 0, .rsv, 0, 67108863⟩]
  | .lnkMap => [⟨31, 28, .rsv, 0, 15⟩, ⟨27, 16, .ro, 0, 4095⟩, ⟨15, 12, .rsv, 0, 15⟩, ⟨11, 0, .ro, 0, 4095⟩]
  | .lnkCrcCnt => [⟨31, 0, .w1cAny, 0, 4294967295⟩]
  | .lnkReplayCnt => [⟨31, 0, .w1cAny, 0, 4294967295⟩]
  | .lnkRetrainCnt => [⟨31, 0, .w1cAny, 0, 4294967295⟩]
  | .lnkBrBaseLo => [⟨31, 0, .rw, 0, 4294967295⟩]
  | .lnkBrBaseHi => [⟨31, 0, .rw, 0, 4294967295⟩]
  | .lnkLaneSts => [⟨31, 31, .ro, 0, 1⟩, ⟨30, 30, .ro, 0, 1⟩, ⟨29, 29, .ro, 0, 1⟩, ⟨28, 16, .rsv, 0, 8191⟩, ⟨15, 0, .w1cAny, 0, 65535⟩]
  | .lnkDfe => [⟨31, 31, .rw, 0, 1⟩, ⟨30, 30, .rsv, 0, 1⟩, ⟨29, 0, .ro, 0, 1073741823⟩]
  | .lnkEyeCtl => [⟨31, 31, .w1s, 0, 1⟩, ⟨30, 30, .ro, 0, 1⟩, ⟨29, 24, .rsv, 0, 63⟩, ⟨23, 16, .rw, 0, 255⟩, ⟨15, 14, .rsv, 0, 3⟩, ⟨13, 8, .rw, 0, 63⟩, ⟨7, 6, .rsv, 0, 3⟩, ⟨5, 0, .rw, 20, 40⟩]
  | .lnkEyeRes => [⟨31, 0, .ro, 0, 4294967295⟩]
  | .lnkPrbsCnt => [⟨31, 0, .w1cAny, 0, 4294967295⟩]
  | .pciSts => [⟨31, 31, .ro, 0, 1⟩, ⟨30, 20, .rsv, 0, 2047⟩, ⟨19, 16, .ro, 0, 15⟩, ⟨15, 14, .rsv, 0, 3⟩, ⟨13, 8, .ro, 0, 63⟩, ⟨7, 3, .rsv, 0, 31⟩, ⟨2, 2, .w1c, 0, 1⟩, ⟨1, 1, .w1c, 0, 1⟩, ⟨0, 0, .w1c, 0, 1⟩]
  | .pciBar2MapLo => [⟨31, 26, .rw, 0, 63⟩, ⟨25, 0, .rsv, 0, 67108863⟩]
  | .pciBar2MapHi => [⟨31, 0, .rw, 0, 4294967295⟩]
  | .pciCplTo => [⟨31, 8, .rsv, 0, 16777215⟩, ⟨7, 0, .rw, 1, 255⟩]
  | .pciCplToCnt => [⟨31, 0, .w1cAny, 0, 4294967295⟩]
  | .pciBar2ErrCnt => [⟨31, 0, .w1cAny, 0, 4294967295⟩]
  | .pciIntPath => [⟨31, 0, .ro, 0, 4294967295⟩]
  | .ethPortCtl => [⟨31, 31, .rw, 0, 1⟩, ⟨30, 29, .ro, 0, 3⟩, ⟨28, 24, .rsv, 0, 31⟩, ⟨23, 23, .rw, 0, 1⟩, ⟨22, 22, .rw, 0, 1⟩, ⟨21, 0, .rsv, 0, 4194303⟩]
  | .ethPortSts => [⟨31, 31, .ro, 0, 1⟩, ⟨30, 28, .ro, 0, 7⟩, ⟨27, 1, .rsv, 0, 134217727⟩, ⟨0, 0, .w1c, 0, 1⟩]
  | .ethMacLo => [⟨31, 0, .ro, 0, 4294967295⟩]
  | .ethMacHi => [⟨31, 0, .ro, 0, 4294967295⟩]
  | .ethAsym => [⟨31, 16, .rw, 0, 65535⟩, ⟨15, 0, .rw, 0, 65535⟩]
  | .ethTsInfo => [⟨31, 31, .ro, 0, 1⟩, ⟨30, 30, .w1c, 0, 1⟩, ⟨29, 28, .rsv, 0, 3⟩, ⟨27, 24, .ro, 0, 15⟩, ⟨23, 16, .ro, 0, 255⟩, ⟨15, 0, .ro, 0, 65535⟩]
  | .ethTsLo => [⟨31, 0, .ro, 0, 4294967295⟩]
  | .ethTsHi => [⟨31, 0, .ro, 0, 4294967295⟩]
  | .ethRxCnt => [⟨31, 0, .w1cAny, 0, 4294967295⟩]
  | .ethRxErrCnt => [⟨31, 0, .w1cAny, 0, 4294967295⟩]
  | .ethRxDropCnt => [⟨31, 0, .w1cAny, 0, 4294967295⟩]
  | .ethTxCnt => [⟨31, 0, .w1cAny, 0, 4294967295⟩]
  | .ethTxDropCnt => [⟨31, 0, .w1cAny, 0, 4294967295⟩]
  | .ethTxqDstLo => [⟨31, 0, .rw, 0, 4294967295⟩]
  | .ethTxqDstHi => [⟨31, 0, .rw, 0, 4294967295⟩]
  | .ethTxqTag => [⟨31, 31, .rw, 0, 1⟩, ⟨30, 28, .rw, 0, 7⟩, ⟨27, 16, .rw, 0, 4095⟩, ⟨15, 0, .rw, 0, 65535⟩]
  | .ethTxqRate => [⟨31, 14, .rsv, 0, 262143⟩, ⟨13, 0, .rw, 0, 10000⟩]
  | .ethRedCtl => [⟨31, 30, .ro, 0, 3⟩, ⟨29, 2, .rsv, 0, 268435455⟩, ⟨1, 1, .ro, 0, 1⟩, ⟨0, 0, .ro, 0, 1⟩]
  | .ethRedDupCnt => [⟨31, 0, .w1cAny, 0, 4294967295⟩]
  | .ethRedSingleCnt => [⟨31, 0, .w1cAny, 0, 4294967295⟩]
  | .ethRedLanerrCnt => [⟨31, 0, .w1cAny, 0, 4294967295⟩]
  | .ethClsMatch => [⟨31, 31, .rw, 0, 1⟩, ⟨30, 29, .rsv, 0, 3⟩, ⟨28, 28, .rw, 0, 1⟩, ⟨27, 16, .rw, 0, 4095⟩, ⟨15, 0, .rw, 0, 65535⟩]
  | .ethClsAct => [⟨31, 29, .rw, 0, 7⟩, ⟨28, 3, .rsv, 0, 67108863⟩, ⟨2, 0, .rw, 0, 7⟩]
  | .ethRxrBase => [⟨31, 23, .rsv, 0, 511⟩, ⟨22, 12, .rw, 0, 2047⟩, ⟨11, 0, .rsv, 0, 4095⟩]
  | .ethRxrSize => [⟨31, 5, .rsv, 0, 134217727⟩, ⟨4, 0, .rw, 12, 20⟩]
  | .ethRxrWr => [⟨31, 0, .ro, 0, 4294967295⟩]
  | .ethRxrRd => [⟨31, 0, .rw, 0, 4294967295⟩]
  | .ethRxrDropCnt => [⟨31, 0, .w1cAny, 0, 4294967295⟩]
  | .ethMgmtLo => [⟨31, 0, .ro, 0, 4294967295⟩]
  | .ethMgmtHi => [⟨31, 0, .ro, 0, 4294967295⟩]
  | .ethMgmtCfg => [⟨31, 28, .rsv, 0, 15⟩, ⟨27, 16, .ro, 0, 4095⟩, ⟨15, 0, .ro, 0, 65535⟩]
  | .ethMgmtCnt => [⟨31, 0, .w1cAny, 0, 4294967295⟩]
  | .timCtl => [⟨31, 30, .ro, 0, 3⟩, ⟨29, 29, .ro, 0, 1⟩, ⟨28, 24, .rsv, 0, 31⟩, ⟨23, 20, .rw, 1, 10⟩, ⟨19, 16, .rw, 0, 10⟩, ⟨15, 0, .rw, 1, 65535⟩]
  | .timServo => [⟨31, 28, .rsv, 0, 15⟩, ⟨27, 24, .rw, 0, 15⟩, ⟨23, 20, .rsv, 0, 15⟩, ⟨19, 16, .rw, 0, 15⟩, ⟨15, 0, .rw, 1, 65535⟩]
  | .timSts => [⟨31, 28, .ro, 0, 15⟩, ⟨27, 27, .ro, 0, 1⟩, ⟨26, 26, .ro, 0, 1⟩, ⟨25, 25, .ro, 0, 1⟩, ⟨24, 24, .ro, 0, 1⟩, ⟨23, 17, .rsv, 0, 127⟩, ⟨16, 16, .ro, 0, 1⟩, ⟨15, 8, .ro, 0, 255⟩, ⟨7, 0, .rsv, 0, 255⟩]
  | .timNowLo => [⟨31, 0, .ro, 0, 4294967295⟩]
  | .timNowHi => [⟨31, 0, .ro, 0, 4294967295⟩]
  | .timNowFrac => [⟨31, 8, .rsv, 0, 16777215⟩, ⟨7, 0, .ro, 0, 255⟩]
  | .timErr => [⟨31, 0, .ro, 0, 4294967295⟩]
  | .timRate => [⟨31, 0, .ro, 0, 4294967295⟩]
  | .timSlew => [⟨31, 0, .ro, 0, 4294967295⟩]
  | .timRetErrLo => [⟨31, 0, .ro, 0, 4294967295⟩]
  | .timRetErrHi => [⟨31, 0, .ro, 0, 4294967295⟩]
  | .timAlign => [⟨31, 16, .rsv, 0, 65535⟩, ⟨15, 0, .rw, 1, 65535⟩]
  | .timMeasLo => [⟨31, 0, .wo, 0, 4294967295⟩]
  | .timMeasHi => [⟨31, 0, .wo, 0, 4294967295⟩]
  | .timPtp => [⟨31, 24, .ro, 0, 255⟩, ⟨23, 4, .rsv, 0, 1048575⟩, ⟨3, 0, .ro, 0, 15⟩]
  | .timLinkAsym => [⟨31, 0, .rw, 0, 4294967295⟩]
  | .timLinkDelay => [⟨31, 0, .ro, 0, 4294967295⟩]
  | .timRefSts => [⟨31, 31, .ro, 0, 1⟩, ⟨30, 30, .ro, 0, 1⟩, ⟨29, 29, .ro, 0, 1⟩, ⟨28, 28, .ro, 0, 1⟩, ⟨27, 27, .ro, 0, 1⟩, ⟨26, 1, .rsv, 0, 67108863⟩, ⟨0, 0, .w1c, 0, 1⟩]
  | .timHoldCnt => [⟨31, 0, .w1cAny, 0, 4294967295⟩]
  | .timStepCnt => [⟨31, 0, .w1cAny, 0, 4294967295⟩]
  | .timRefHoldCnt => [⟨31, 0, .w1cAny, 0, 4294967295⟩]
  | .safSts => [⟨31, 28, .ro, 0, 15⟩, ⟨27, 24, .ro, 0, 15⟩, ⟨23, 23, .ro, 0, 1⟩, ⟨22, 22, .ro, 0, 1⟩, ⟨21, 21, .ro, 0, 1⟩, ⟨20, 20, .ro, 0, 1⟩, ⟨19, 16, .rsv, 0, 15⟩, ⟨15, 8, .ro, 0, 255⟩, ⟨7, 0, .rsv, 0, 255⟩]
  | .safCycle => [⟨31, 0, .ro, 0, 4294967295⟩]
  | .safSeal => [⟨31, 24, .rsv, 0, 255⟩, ⟨23, 16, .ro, 0, 255⟩, ⟨15, 12, .rsv, 0, 15⟩, ⟨11, 0, .ro, 0, 4095⟩]
  | .safDisc => [⟨31, 24, .rsv, 0, 255⟩, ⟨23, 16, .ro, 0, 255⟩, ⟨15, 8, .ro, 0, 255⟩, ⟨7, 0, .ro, 0, 255⟩]
  | .safZone => [⟨31, 31, .ro, 0, 1⟩, ⟨30, 30, .ro, 0, 1⟩, ⟨29, 22, .rsv, 0, 255⟩, ⟨21, 16, .ro, 0, 63⟩, ⟨15, 14, .rsv, 0, 3⟩, ⟨13, 8, .ro, 0, 63⟩, ⟨7, 0, .rsv, 0, 255⟩]
  | .safDrv => [⟨31, 28, .ro, 0, 15⟩, ⟨27, 27, .ro, 0, 1⟩, ⟨26, 26, .ro, 0, 1⟩, ⟨25, 25, .ro, 0, 1⟩, ⟨24, 24, .ro, 0, 1⟩, ⟨23, 23, .ro, 0, 1⟩, ⟨22, 16, .rsv, 0, 127⟩, ⟨15, 0, .ro, 0, 65535⟩]
  | .safDrvStop => [⟨31, 24, .ro, 0, 255⟩, ⟨23, 22, .ro, 0, 3⟩, ⟨21, 16, .rsv, 0, 63⟩, ⟨15, 0, .ro, 0, 65535⟩]
  | .safBand => [⟨31, 0, .ro, 0, 4294967295⟩]
  | .safBandSts => [⟨31, 31, .ro, 0, 1⟩, ⟨30, 16, .rsv, 0, 32767⟩, ⟨15, 8, .ro, 0, 255⟩, ⟨7, 0, .ro, 0, 255⟩]
  | .safCnt => [⟨31, 16, .ro, 0, 65535⟩, ⟨15, 8, .ro, 0, 255⟩, ⟨7, 0, .ro, 0, 255⟩]
  | .safTxCtl => [⟨31, 24, .rsv, 0, 255⟩, ⟨23, 16, .ro, 0, 255⟩, ⟨15, 0, .ro, 0, 65535⟩]
  | .safTxData => [⟨31, 0, .ro, 0, 4294967295⟩]
  | .fmkCtl => [⟨31, 28, .rsv, 0, 15⟩, ⟨27, 24, .rw, 1, 15⟩, ⟨23, 16, .rw, 1, 255⟩, ⟨15, 10, .rsv, 0, 63⟩, ⟨9, 0, .rw, 50, 800⟩]
  | .fmkSts => [⟨31, 31, .ro, 0, 1⟩, ⟨30, 29, .ro, 0, 3⟩, ⟨28, 2, .rsv, 0, 134217727⟩, ⟨1, 0, .ro, 0, 3⟩]
  | .fmkPair => [⟨31, 16, .rws, 0, 65535⟩, ⟨15, 0, .rws, 0, 65535⟩]
  | .fmkLogHead => [⟨31, 9, .rsv, 0, 8388607⟩, ⟨8, 0, .ro, 0, 511⟩]
  | .fmkLogTail => [⟨31, 9, .rsv, 0, 8388607⟩, ⟨8, 0, .rws, 0, 511⟩]
  | .fmkLogOvfCnt => [⟨31, 0, .w1cAny, 0, 4294967295⟩]
  | .fmkMapDead => [⟨31, 16, .ro, 0, 65535⟩, ⟨15, 0, .ro, 0, 65535⟩]
  | .fmkMapEng => [⟨31, 16, .ro, 0, 65535⟩, ⟨15, 0, .ro, 0, 65535⟩]
  | .fmkMapPort => [⟨31, 0, .ro, 0, 4294967295⟩]
  | .fmkMapMisc => [⟨31, 24, .rsv, 0, 255⟩, ⟨23, 12, .ro, 0, 4095⟩, ⟨11, 8, .ro, 0, 15⟩, ⟨7, 4, .ro, 0, 15⟩, ⟨3, 0, .ro, 0, 15⟩]
  | .fmkBank => [⟨31, 7, .rsv, 0, 33554431⟩, ⟨6, 6, .ro, 0, 1⟩, ⟨5, 0, .ro, 0, 63⟩]
  | .fmkEng => [⟨31, 16, .rsv, 0, 65535⟩, ⟨15, 8, .ro, 0, 255⟩, ⟨7, 0, .ro, 0, 255⟩]
  | .fmkLog => [⟨31, 0, .rws, 0, 4294967295⟩]
  | .bootSts => [⟨31, 31, .ro, 0, 1⟩, ⟨30, 30, .ro, 0, 1⟩, ⟨29, 29, .ro, 0, 1⟩, ⟨28, 16, .rsv, 0, 8191⟩, ⟨15, 0, .ro, 0, 65535⟩]
  | .bootCode => [⟨31, 24, .rsv, 0, 255⟩, ⟨23, 16, .ro, 0, 255⟩, ⟨15, 8, .ro, 0, 255⟩, ⟨7, 0, .ro, 0, 255⟩]
  | .bootFetch => [⟨31, 16, .rsv, 0, 65535⟩, ⟨15, 0, .ro, 0, 65535⟩]
  | .bootFwFailCnt => [⟨31, 0, .w1cAny, 0, 4294967295⟩]
  | .bootBuildLo => [⟨31, 0, .ro, 0, 4294967295⟩]
  | .bootBuildHi => [⟨31, 0, .ro, 0, 4294967295⟩]
  | .protLc => [⟨31, 8, .rsv, 0, 16777215⟩, ⟨7, 0, .ro, 0, 255⟩]
  | .protGen => [⟨31, 16, .ro, 0, 65535⟩, ⟨15, 7, .rsv, 0, 511⟩, ⟨6, 0, .ro, 0, 127⟩]
  | .protSlotSts => [⟨31, 26, .rsv, 0, 63⟩, ⟨25, 16, .ro, 0, 1023⟩, ⟨15, 10, .ro, 0, 63⟩, ⟨9, 0, .ro, 0, 1023⟩]
  | .protSpoiled => [⟨31, 2, .rsv, 0, 1073741823⟩, ⟨1, 0, .ro, 0, 3⟩]
  | .protDebug => [⟨31, 2, .rsv, 0, 1073741823⟩, ⟨1, 0, .ro, 0, 3⟩]
  | .protSerialLo => [⟨31, 0, .ro, 0, 4294967295⟩]
  | .protSerialHi => [⟨31, 0, .ro, 0, 4294967295⟩]
  | .protSlotHash => [⟨31, 0, .ro, 0, 4294967295⟩]
  | .protIdpub => [⟨31, 0, .ro, 0, 4294967295⟩]
  | .protAtt => [⟨31, 0, .ro, 0, 4294967295⟩]
  | .protDcCtl => [⟨31, 31, .w1s, 0, 1⟩, ⟨30, 30, .ro, 0, 1⟩, ⟨29, 0, .rsv, 0, 1073741823⟩]
  | .protDcBuf => [⟨31, 0, .rw, 0, 4294967295⟩]
  | .meaConvCtl => [⟨31, 31, .rw, 0, 1⟩, ⟨30, 30, .rw, 0, 1⟩, ⟨29, 29, .rw, 0, 1⟩, ⟨28, 20, .rsv, 0, 511⟩, ⟨19, 0, .rw, 100, 1000000⟩]
  | .meaConvSts => [⟨31, 31, .ro, 0, 1⟩, ⟨30, 6, .rsv, 0, 33554431⟩, ⟨5, 0, .ro, 0, 63⟩]
  | .meaConvLateCnt => [⟨31, 0, .w1cAny, 0, 4294967295⟩]
  | .meaExc => [⟨31, 18, .rsv, 0, 16383⟩, ⟨17, 16, .rw, 0, 3⟩, ⟨15, 3, .rsv, 0, 8191⟩, ⟨2, 0, .rw, 0, 7⟩]
  | .meaTdac => [⟨31, 10, .rsv, 0, 4194303⟩, ⟨9, 0, .rw, 0, 1023⟩]
  | .meaUrg => [⟨31, 31, .w1c, 0, 1⟩, ⟨30, 7, .rsv, 0, 16777215⟩, ⟨6, 6, .wo, 0, 1⟩, ⟨5, 0, .rw, 0, 63⟩]
  | .meaUrgDropCnt => [⟨31, 0, .w1cAny, 0, 4294967295⟩]
  | .meaSlotIn => [⟨31, 31, .rw, 0, 1⟩, ⟨30, 30, .rsv, 0, 1⟩, ⟨29, 28, .rw, 0, 3⟩, ⟨27, 22, .rsv, 0, 63⟩, ⟨21, 16, .rw, 0, 63⟩, ⟨15, 14, .rsv, 0, 3⟩, ⟨13, 8, .rw, 0, 63⟩, ⟨7, 3, .rsv, 0, 31⟩, ⟨2, 0, .rw, 0, 7⟩]
  | .meaSlotExc => [⟨31, 31, .rw, 0, 1⟩, ⟨30, 29, .rsv, 0, 3⟩, ⟨28, 24, .rw, 0, 31⟩, ⟨23, 23, .rw, 0, 1⟩, ⟨22, 21, .rsv, 0, 3⟩, ⟨20, 16, .rw, 0, 31⟩, ⟨15, 15, .rw, 0, 1⟩, ⟨14, 13, .rsv, 0, 3⟩, ⟨12, 8, .rw, 0, 31⟩, ⟨7, 2, .rsv, 0, 63⟩, ⟨1, 0, .rw, 0, 3⟩]
  | .meaSlotRef => [⟨31, 31, .rw, 0, 1⟩, ⟨30, 30, .rw, 0, 1⟩, ⟨29, 29, .rsv, 0, 1⟩, ⟨28, 24, .rw, 0, 31⟩, ⟨23, 21, .rsv, 0, 7⟩, ⟨20, 16, .rw, 0, 31⟩, ⟨15, 13, .rsv, 0, 7⟩, ⟨12, 8, .rw, 0, 31⟩, ⟨7, 5, .rsv, 0, 7⟩, ⟨4, 0, .rw, 0, 31⟩]
  | .meaSlotConv => [⟨31, 24, .rw, 0, 255⟩, ⟨23, 18, .rsv, 0, 63⟩, ⟨17, 16, .rw, 0, 3⟩, ⟨15, 4, .rsv, 0, 4095⟩, ⟨3, 0, .rw, 5, 12⟩]
  | .meaSlotRate => [⟨31, 20, .rsv, 0, 4095⟩, ⟨19, 0, .rw, 0, 1048575⟩]
  | .meaSlotDet => [⟨31, 16, .rw, 1, 65535⟩, ⟨15, 12, .rsv, 0, 15⟩, ⟨11, 8, .rw, 1, 15⟩, ⟨7, 6, .rsv, 0, 3⟩, ⟨5, 4, .rw, 0, 3⟩, ⟨3, 3, .rsv, 0, 1⟩, ⟨2, 0, .rw, 0, 7⟩]
  | .meaSlotT => [⟨31, 31, .rw, 0, 1⟩, ⟨30, 6, .rsv, 0, 33554431⟩, ⟨5, 0, .rw, 0, 63⟩]
  | .meaSlotMin => [⟨31, 0, .rw, 0, 4294967295⟩]
  | .meaSlotMax => [⟨31, 0, .rw, 0, 4294967295⟩]
  | .meaSlotVal => [⟨31, 0, .ro, 0, 4294967295⟩]
  | .meaSlotSts => [⟨31, 31, .ro, 0, 1⟩, ⟨30, 30, .ro, 0, 1⟩, ⟨29, 29, .ro, 0, 1⟩, ⟨28, 28, .w1c, 0, 1⟩, ⟨27, 27, .w1c, 0, 1⟩, ⟨26, 0, .rsv, 0, 134217727⟩]
  | .meaSlotLead => [⟨31, 24, .rsv, 0, 255⟩, ⟨23, 0, .ro, 0, 16777215⟩]
  | .meaPoly => [⟨31, 0, .rw, 0, 4294967295⟩]
  | .pwrDomCtl => [⟨31, 0, .rw, 0, 4294967295⟩]
  | .pwrDomSts => [⟨31, 0, .ro, 0, 4294967295⟩]
  | .pwrDomOwn => [⟨31, 0, .ro, 0, 4294967295⟩]
  | .pwrSupSts => [⟨31, 18, .rsv, 0, 16383⟩, ⟨17, 6, .ro, 0, 4095⟩, ⟨5, 0, .ro, 0, 63⟩]
  | .pwrRefusedCnt => [⟨31, 0, .w1cAny, 0, 4294967295⟩]
  | .pwrSupCfg => [⟨31, 31, .rw, 0, 1⟩, ⟨30, 30, .rsv, 0, 1⟩, ⟨29, 24, .rw, 0, 63⟩, ⟨23, 12, .rw, 0, 4095⟩, ⟨11, 0, .rw, 0, 4095⟩]
  | .thmCtl => [⟨31, 16, .rsv, 0, 65535⟩, ⟨15, 8, .rw, 1, 255⟩, ⟨7, 7, .rsv, 0, 1⟩, ⟨6, 0, .rw, 85, 115⟩]
  | .thmSts => [⟨31, 31, .ro, 0, 1⟩, ⟨30, 30, .ro, 0, 1⟩, ⟨29, 27, .ro, 0, 7⟩, ⟨26, 22, .rsv, 0, 31⟩, ⟨21, 16, .ro, 0, 63⟩, ⟨15, 0, .ro, 0, 65535⟩]
  | .thmBrokenLo => [⟨31, 0, .ro, 0, 4294967295⟩]
  | .thmBrokenHi => [⟨31, 0, .ro, 0, 4294967295⟩]
  | .thmSkipCnt => [⟨31, 0, .w1cAny, 0, 4294967295⟩]
  | .thmThrMs => [⟨31, 0, .w1cAny, 0, 4294967295⟩]
  | .thmSens => [⟨31, 16, .ro, 0, 65535⟩, ⟨15, 0, .ro, 0, 65535⟩]
  | .sysId => [⟨31, 0, .ro, 0, 4294967295⟩]
  | .sysRev => [⟨31, 16, .rsv, 0, 65535⟩, ⟨15, 8, .ro, 0, 255⟩, ⟨7, 0, .ro, 0, 255⟩]
  | .sysRst => [⟨31, 31, .ro, 0, 1⟩, ⟨30, 19, .rsv, 0, 4095⟩, ⟨18, 16, .ro, 0, 7⟩, ⟨15, 0, .rws, 0, 65535⟩]
  | .sysAccErrCnt => [⟨31, 0, .w1cAny, 0, 4294967295⟩]
  | .sysAccErrLast => [⟨31, 29, .ro, 0, 7⟩, ⟨28, 26, .ro, 0, 7⟩, ⟨25, 0, .ro, 0, 67108863⟩]
  | .sysEvtSts => [⟨31, 0, .w1c, 0, 4294967295⟩]
  | .sysEvtErr => [⟨31, 0, .w1c, 0, 4294967295⟩]
  | .sysEvtRoute => [⟨31, 31, .rw, 0, 1⟩, ⟨30, 30, .rw, 0, 1⟩, ⟨29, 29, .rw, 0, 1⟩, ⟨28, 28, .rw, 0, 1⟩, ⟨27, 16, .rw, 0, 4095⟩, ⟨15, 11, .rsv, 0, 31⟩, ⟨10, 0, .rw, 0, 2047⟩]
  | .sysMbxArg => [⟨31, 0, .rw, 0, 4294967295⟩]
  | .sysMbxRes => [⟨31, 0, .ro, 0, 4294967295⟩]
  | .pciMsixTab => [⟨31, 0, .rw, 0, 4294967295⟩]
  | .pciMsixPba => [⟨31, 0, .ro, 0, 4294967295⟩]

/-- The part of the Reset column that does not depend on the instance (R434). -/
def Reg.resetBase : Reg → W32
  | .sysState => 0x101#32
  | .sysOwnConflict0 => 0xFFFFFFFF#32
  | .sysOwnLast0 => 0xFFFFFFFF#32
  | .rcvChCtl => 0x80#32
  | .rcvChThr => 0x3FF03FF#32
  | .rcvChThrEff => 0x3FF03FF#32
  | .rcvChGate => 0x20000000#32
  | .rcvClCtl => 0x20A#32
  | .tdcEngGbow => 0x8000#32
  | .tdcTileCtl => 0x6C0#32
  | .tdcUtilCtl => 0x3E8#32
  | .emtSseSpare => 0xAA#32
  | .emtPllDiv => 0x2801#32
  | .emtPllLock => 0x1000008#32
  | .emtPllSts => 0x4#32
  | .emtPortCtl => 0x1014#32
  | .emtPortPeriod => 0x4E20#32
  | .emtPortSense => 0x3F0000#32
  | .felClCtl => 0x61064000#32
  | .felClBg => 0x802#32
  | .felClDet => 0x500004#32
  | .felClWin => 0x80818#32
  | .felKpar => 0x400001#32
  | .rejSchedCtl => 0x1#32
  | .rejSchedPeriod => 0x4E20#32
  | .rejSchedSlotsLo => 0xFFFFFFFF#32
  | .rejSchedSlotsHi => 0xFFFFFFFF#32
  | .rejSchedGuard => 0x200014#32
  | .rejClAdapt => 0x84FF1E0A#32
  | .rejClCoinc => 0x11004#32
  | .rejClWx => 0x100C#32
  | .rejClXs => 0x20000020#32
  | .loopSaxCtl => 0x10A14#32
  | .loopSaxPwm => 0x5002710#32
  | .loopSaxCpr => 0x401000#32
  | .loopSaxAz => 0xFFFFF#32
  | .loopOutMax => 0x1#32
  | .loopCtl => 0x800#32
  | .linSegPix => 0x8001010#32
  | .linSegAdc => 0x10#32
  | .linSegCol => 0x40000000#32
  | .linSegCover => 0x4000010#32
  | .linBankExp => 0x140003E8#32
  | .linBankWref => 0x7FF#32
  | .linBankCap => 0x800C000#32
  | .linBankCap2 => 0x4000064#32
  | .linBankTmin => 0x5161#32
  | .linIllCtl => 0xF4240#32
  | .linDevSts => 0x5161#32
  | .odoInCtl => 0x10000#32
  | .odoInScale => 0x10000#32
  | .odoSrc => 0x100014#32
  | .odoMotion => 0xA01F4#32
  | .odoSts => 0x80000000#32
  | .odoPitch => 0x3E8#32
  | .odoRevHyst => 0x1B58#32
  | .odoCarScale => 0x10000#32
  | .linAsmCtl => 0x20000#32
  | .linHoodLen => 0x3E8#32
  | .linAsmPix => 0x2A55#32
  | .linTrkCtl => 0x100800#32
  | .linTrkWin => 0xBFFF0000#32
  | .linTrkDead => 0x400A0008#32
  | .linTrkPos => 0xFFFFFFFF#32
  | .linTrkAng => 0x80000000#32
  | .linTrkSts => 0x80000000#32
  | .acqStrSize => 0x10#32
  | .acqStrWm => 0x3800100#32
  | .dmaCqCtl => 0xA#32
  | .dmaCqSts => 0x40000000#32
  | .dmaCqCoal => 0x10000#32
  | .dmaQuotaOwn => 0xFFFF#32
  | .memHash => 0x1#32
  | .memWq => 0x600020#32
  | .memPatrol => 0x4018#32
  | .lnkRing => 0x10000#32
  | .lnkCtl => 0x11000010#32
  | .lnkMap => 0x2100210#32
  | .lnkEyeCtl => 0x14#32
  | .pciCplTo => 0x32#32
  | .ethClsMatch => 0x10000000#32
  | .ethRxrSize => 0xE#32
  | .timCtl => 0xA403E8#32
  | .timServo => 0x8031900#32
  | .timSts => 0xFF00#32
  | .timAlign => 0x3E8#32
  | .fmkCtl => 0xC1000FA#32
  | .fmkEng => 0xFFFF#32
  | .protSlotSts => 0x300#32
  | .meaConvCtl => 0x2710#32
  | .meaSlotIn => 0x202000#32
  | .meaSlotConv => 0x3200000A#32
  | .meaSlotDet => 0x400400#32
  | .meaSlotMin => 0x80000000#32
  | .meaSlotMax => 0x7FFFFFFF#32
  | .pwrSupSts => 0x3F#32
  | .pwrSupCfg => 0xFFF000#32
  | .thmCtl => 0x1073#32
  | .sysId => 0x4B560768#32
  | .sysRev => 0x4201#32
  | .sysRst => 0x80000000#32
  | _ => 0#32

/-- The Reset column of one instance (R434). The registers whose Reset value depends on the instance number are those
of R107 (SERVICE of the two spare engines), R129 (PLL outputs, seeds), R151 (kernel taps), R187 (notch coefficients,
slot phases), R315 (priority code points), R371 (banks), R413 (polynomials) and the masked vectors of R305. -/
def Reg.resetWord : Reg → Nat → W32
  | .tdcEngSts, i => if i % 34 < 32 then 0x00200000#32 else 0x00200800#32
  | .emtPllOut, i => if i = 0 then 0x80000004#32 else if i = 1 then 1#32 else 40#32
  | .emtPortPeriod, _ => 0x4E20#32
  | .emtPortSeed, i => BitVec.ofNat 32 (i + 1)
  | .felKern, i => if i % 4 = 0 then 0x7F#32 else 0#32
  | .loopNotch, i => if i % 5 = 0 then 0x40000000#32 else 0#32
  | .loopSched, i => BitVec.ofNat 32 (i * 65536 + 0x40)
  | .ethTxqTag, i => BitVec.ofNat 32 (0x800088B5 + (i % 8) * 0x10000000)
  | .fmkBank, i => BitVec.ofNat 32 i
  | .meaPoly, i => if i % 18 = 3 then 0x4B000000#32 else 0#32
  | .pciMsixTab, i => if i % 4 = 3 then 1#32 else 0#32
  | r, _ => r.resetBase

/-- How many instances a register has. -/
def Reg.count (r : Reg) : Nat := r.dims.foldl (fun n d => n * d.1) 1

/-- The address of an instance within its level list, innermost level last. -/
def Reg.offsetIn : List (Nat × Nat) → Nat → Nat
  | [], _ => 0
  | d :: ds, i =>
    let inner := ds.foldl (fun n e => n * e.1) 1
    (i / inner) * d.2 + Reg.offsetIn ds (i % inner)

/-- The BAR0 offset of instance `i` of a register. -/
def Reg.addr (r : Reg) (i : Nat) : Nat := r.base + Reg.offsetIn r.dims i

/-- The instance at a distance from instance 0, where there is one. -/
def Reg.indexIn : List (Nat × Nat) → Nat → Option Nat
  | [], off => if off = 0 then some 0 else none
  | d :: ds, off =>
    let q := min (off / d.2) (d.1 - 1)
    match Reg.indexIn ds (off - q * d.2) with
    | some k => some (q * ds.foldl (fun n e => n * e.1) 1 + k)
    | none => none

/-- The instance of a register at a BAR0 offset. -/
def Reg.at (r : Reg) (a : Nat) : Option (Reg × Nat) :=
  if r.base ≤ a then
    match Reg.indexIn r.dims (a - r.base) with
    | some k => some (r, k)
    | none => none
  else none

/-- The register instance at a BAR0 offset: none is an unassigned address of R16. -/
def regAt (a : Nat) : Option (Reg × Nat) := Reg.all.findSome? (fun r => r.at a)

/-- The key under which one register instance is stored. -/
def Reg.key (r : Reg) (i : Nat) : Nat := i * 512 + r.ctorIdx

end Sys2Proof
end

