-- ==== Sys2Proof/Machine/State.lean ====
section
/-! DEFINITION. The state of the device as plain data: every piece of state the spec names, and the queue of waiting
commands. Registers are held by name and instance in one sparse map; what no register shows is held in the records
below, one per block. -/
namespace Sys2Proof.Machine

/-- The twelve operating states (R38). -/
inductive OpState where
  | off | reset | blockLoad | wipe | awaitFw | verify | init | ready | run | stabled | safeHold | fault
deriving DecidableEq, Repr

/-- The code SYS_STATE gives a state (R38). -/
def OpState.code : OpState → Nat
  | .off => 0 | .reset => 1 | .blockLoad => 2 | .wipe => 3 | .awaitFw => 4 | .verify => 5
  | .init => 6 | .ready => 7 | .run => 8 | .stabled => 9 | .safeHold => 10 | .fault => 11

/-- The operating state and what SYS_STATE shows beside it (R42, R55). `found23` is a cause 0x23 found during RESET,
taken when the SRAM overwrite completes (R41). -/
structure Sys where
  op : OpState
  prev : OpState
  cause : Nat
  holdCmd : Bool
  holdThermal : Bool
  holdDram : Bool
  found23 : Bool
deriving DecidableEq, Repr

/-- The fuses (R376, R387, R392, R393). `hash` holds the programmed slot hashes of slots 0 to 7; `idGen` numbers the
identity key generated, 0 for none. -/
structure Fuse where
  lc : Nat
  ended : Bool
  programmed : Nat
  revoked : Nat
  spoiled : Nat
  hash : List (Nat × List Byte)
  genMin : Nat
  idGen : Nat
deriving DecidableEq, Repr

/-- What leaves the device, newest first (log entry 7). -/
inductive Out where
  /-- a posted write across PCIe to a host address -/
  | hostWrite (addr : Nat) (data : List Byte)
  /-- an interrupt input of a lockstep pair raised or lowered (R437) -/
  | coreIrq (pair event : Nat) (level : Bool)
  /-- a frame into the replay buffer of a Krevan link (R290): its type, header byte 1 and payload -/
  | linkFrame (link type dst : Nat) (payload : List Byte)
  /-- a link-control ordered set: 1 ACK, 2 NAK, 3 SPARE (R289) -/
  | linkCtl (link code value : Nat)
  /-- a time marker or deskew marker (R289, R297) -/
  | linkMarker (link kind count : Nat) (instant : Nat)
  /-- a completion or a configuration answer on PCIe: a name and its data -/
  | pcie (what : Nat) (data : List Byte)
  /-- a frame handed to the medium of an Ethernet port -/
  | ethFrame (port : Nat) (frame : List Byte)
  /-- a received PTP frame handed to the firmware that runs the protocol (R312, R331): port, time, fraction, frame -/
  | ptpFrame (port time frac : Nat) (frame : List Byte)
  /-- a level or action on an output of the device: kind, port, value -/
  | pin (kind port value : Nat)
deriving DecidableEq, Repr

/-- What a device knows of one ring neighbour's time (R327, R328). Instants are 64-bit: bits [55:0] of the tag in ns,
then 8 bits of fraction. `sent` holds the departure instants of markers sent, newest first, with their counts. -/
structure RingTime where
  sent : List (Nat × Nat) := []
  rxCount : Option Nat := none
  rxArrival : Nat := 0
  t3 : Nat := 0
  t4 : Nat := 0
  t34Valid : Bool := false
  tdist : Nat := 0xFF
  nbState : Nat := 0
  nbLoaded : Bool := false
  statusAt : Option Nat := none
deriving DecidableEq, Repr

/-- The time base (R316 to R331): the time-tag counter C in ns, the edges of the timing clock counted so far (R82), the offset O in 2^-32 ns, the servo's memory (its last
e, the update values of r newest first, the measurements not yet used) and the upstream ring link. -/
structure TimeSt where
  c : Nat := 0
  edges : Nat := 0
  o : Int := 0
  lastUpdate : Nat := 0
  lastE : Option Int := none
  lockRun : Nat := 0
  rHist : List Int := []
  sum : List Int := []
  lastMeas : Nat := 0
  stabledAt : Nat := 0
  up : Option Nat := none
  ring0 : RingTime := {}
  ring1 : RingTime := {}
deriving DecidableEq, Repr

/-- A command rung in a mailbox, with the arguments copied at GO (R45). -/
structure MbxCmd where
  mbx : Nat
  tag : Nat
  opcode : Nat
  args : List Nat
deriving DecidableEq, Repr

/-- The command executor (R45, R46): the commands waiting in order of their GO, and the one executing across steps with
the state at its take-up. `reply` is the port and source MAC of the management request in mailbox 1 (R313). -/
structure CmdSt where
  queue : List MbxCmd := []
  running : Option (MbxCmd × Nat) := none
  reply : Option (Nat × Nat) := none
deriving DecidableEq, Repr

/-- Resource ownership from the block (R52 to R54): owner by resource id (unlisted: 0xFFFF, none), pool marks, enabled
features. -/
structure OwnSt where
  owner : List (Nat × Nat) := []
  pool : List Nat := []
  enabled : List Nat := []
deriving DecidableEq, Repr

/-- Boot and protection (R372 to R394): what the accepted block set (`protGen` is the generation in force, `balls` lists the shared
balls that carry their second function), the image under verification, the fetch, and when BLOCK_LOAD was entered. -/
structure BootSt where
  copy : Nat := 0
  accepted : Bool := false
  protGen : Nat := 0
  device : BlockDevice := {}
  blockSlots : Nat := 0
  debugMax : Nat := 0
  bootPath : Nat := 0
  fwSvnMin : Nat := 0
  mgmtProt : Bool := false
  fwKeys : List (List Byte) := []
  blockMeas : List Byte := []
  fwMeas : List Byte := []
  svn : Nat := 0
  entry : Nat := 0
  imageLen : Nat := 0
  viaNet : Bool := false
  fetching : Bool := false
  server : Option Nat := none
  offerLen : Nat := 0
  held : List Nat := []
  requested : List Nat := []
  balls : List Nat := []
  loadAt : Nat := 0
deriving DecidableEq, Repr

/-- A state change waiting for room in its slot (R235). -/
structure PendVal where
  source : Nat
  time : Nat
  value : Nat
  kind : Nat
  flags : Nat
deriving DecidableEq, Repr

/-- What one stream holds beside its registers: gap records not yet written, pending change slots in ascending source,
the sequence number of records offered, and the slots with a result since their last record (R237, R235, R239, R246). -/
structure StreamSt where
  gaps : List GapRec := []
  pend : List PendVal := []
  seq : Nat := 0
  fresh : List Nat := []
deriving DecidableEq, Repr

/-- The last value a change source reported (R244). -/
structure SrcVal where
  value : Nat := 0
  kind : Nat := 0
  invalid : Bool := false
deriving DecidableEq, Repr

/-- The newest result of a measurement slot (R246). -/
structure MeasRes where
  time : Nat := 0
  frac : Nat := 0
  value : Int := 0
  detector : Nat := 0
  flags : Nat := 0
deriving DecidableEq, Repr

/-- The acquisition engine (R230 to R247). The record-unit bucket is held in thousandths of a token with the instant of
its last refill (R236); `second` and `accepted` form ACQ_ECHO_RATE; `newest` holds each slot's
newest result. -/
structure AcqSt where
  streams : List (Nat × StreamSt) := []
  src : List (Nat × SrcVal) := []
  milliTokens : Nat := 1024000
  tokensAt : Nat := 0
  second : Nat := 0
  accepted : Nat := 0
  newest : List (Nat × MeasRes) := []
deriving DecidableEq, Repr

/-- A descriptor as fetched (R250, R251). -/
structure Desc where
  next : Nat
  src : Nat
  dst : Nat
  len : Nat
  control : Nat
deriving DecidableEq, Repr

/-- Where a segment stands: waiting in its chain, its reads issued, its slot filled, its last write accepted. -/
inductive SegSt where
  | waiting | reading | filled | written
deriving DecidableEq, Repr

/-- A segment of a descriptor: its source bytes [off, off + len), what was read, and how many bytes its reads through a
bridge window still owe (R255). -/
structure Seg where
  off : Nat
  len : Nat
  st : SegSt := .waiting
  data : List Byte := []
  left : Nat := 0
deriving DecidableEq, Repr

/-- A descriptor in work: its address, what was fetched and its segments. `suspect` is a LAST_BEAT_ERR (R264), `error`
the code it will end with (0 none) and `doneBytes` the prefix written before the error (R263); `fallback` sends its record
to the fallback queue (R260). -/
structure DescWork where
  addr : Nat
  desc : Desc
  segs : List Seg
  suspect : Bool := false
  error : Nat := 0
  doneBytes : Nat := 0
  fallback : Bool := false
deriving DecidableEq, Repr

/-- What a chain is doing beside its registers: the descriptors fetched and not complete, oldest first, the address being
fetched, the record waiting
for its queue, the EOC and NEXT (as fetched) of the last descriptor completed, whether its control word is being re-read,
whether EN has been cleared, whether HEAD
has been written since the chain halted, and the address of the last descriptor completed. -/
structure Chain where
  works : List DescWork := []
  fetch : Option Nat := none
  waitCq : Option (Nat × CqRec) := none
  lastEoc : Bool := false
  lastNext : Nat := 0
  reread : Bool := false
  stopping : Bool := false
  newHead : Bool := false
  lastDone : Nat := 0
deriving DecidableEq, Repr

/-- A pending event slot (R438). -/
structure EvtSlot where
  count : Nat
  inst : Nat
  time : Nat
deriving DecidableEq, Repr

/-- The DMA engine: chains by number, chains waiting on a full completion queue in order, pending-record counts of the
completion queues (R268), event slots (R438), and the interrupt inputs of the lockstep pairs, bit 64 × pair + event (R437). -/
structure DmaSt where
  chains : List (Nat × Chain) := []
  cqWait : List Nat := []
  cqPend : List (Nat × Nat) := []
  evtSlots : List (Nat × Option EvtSlot) := []
  irqs : Nat := 0
  robin : Nat := 0
deriving DecidableEq, Repr

/-- A frame in a replay buffer (R290, R292). -/
structure LinkFrame where
  lseq : Nat
  type : Nat
  dst : Nat
  rseq : Nat
  hops : Nat
  payload : List Byte
  resent : Nat
deriving DecidableEq, Repr

/-- A read through a bridge window outstanding at the peer (R300): its tag, the chain and segment it fills, the place in the
segment of the first byte it is made for, the bytes before it that rounding adds, the bytes it is made for, and the bytes
still owed (R256). -/
structure BridgeRead where
  tag : Nat
  chain : Nat
  off : Nat
  base : Nat
  skip : Nat
  len : Nat
  left : Nat
deriving DecidableEq, Repr

/-- One Krevan link (R289 to R301): send and receive sequence, replay buffer, marker counts, markers seen in ALIGN,
frames waiting for room, a spare
swap waiting for the next marker in each direction, and the bridge and register reads outstanding by tag. -/
structure LinkSt where
  sendSeq : Nat := 0
  expSeq : Nat := 0
  nakSent : Bool := false
  replay : List LinkFrame := []
  deskewCount : Nat := 0
  alignSeen : Nat := 0
  timeCount : Nat := 0
  lastDeparture : Nat := 0
  sparePend : Option Nat := none
  rxSpare : Option Nat := none
  reads : List BridgeRead := []
  regReads : List Nat := []
  waiting : List LinkFrame := []
deriving DecidableEq, Repr

/-- The ring (R298): frames received, as (source, RSEQ, second copy seen), and the next RSEQ of the device. -/
structure RingSt where
  seen : List (Nat × Nat × Bool) := []
  rseq : Nat := 0
deriving DecidableEq, Repr

/-- The PCIe endpoint (R303 to R306): configuration requests are answered with retry (0), the block's identity (1) or the
fallback identity (2); posted writes wait while the data link is down. -/
structure PciSt where
  ident : Nat := 0
  waiting : List (Nat × List Byte) := []
  mapHi : Nat := 0
deriving DecidableEq, Repr

/-- An entry of a transmit-timestamp FIFO (R311). -/
structure TxStamp where
  time : Nat
  frac : Nat
  msgType : Nat
  seqId : Nat
deriving DecidableEq, Repr

/-- One Ethernet port (R307 to R311): its eight queues of frames (queue, frame), by queue the shaper tokens missing from a
full bucket in thousandths of a bit with the instant of their last refill, and its timestamp FIFO. -/
structure EthPort where
  queues : List (Nat × List Byte) := []
  short : List (Nat × Nat) := []
  shortAt : Nat := 0
  stamps : List TxStamp := []
deriving DecidableEq, Repr

/-- A redundancy pair (R310): its sequence number and the entries of its duplicate table (source MAC, sequence, port of
the first copy, second copy seen). -/
structure EthPair where
  seq : Nat := 0
  table : List (Nat × Nat × Nat × Bool) := []
deriving DecidableEq, Repr

/-- A hit being converted: its channel, the shot's reference in 1/65,536 ns after the fire edge, its shot (the cluster's
count of shots) and shot id, the fire edge on the timing clock in 1/65,536 ns, the buffer of its shot and the histogram it belongs to (R136), the threshold codes of the shot
(R66), the settings of the hit (R78, R456): WALK_MODE, the width-table entries of its GAIN, REJ_CL_COINC, and the positions
neither masked nor without engines (R154); the table in force with its gbow (R92), the coarse count captured (R81), and the
high and the trailing edge in 1/65,536 ns after the fire edge (R83). -/
structure Conv where
  ch : Nat
  tRef : Int
  n : Nat := 0
  shotId : Nat
  fire : Int := 0
  buf : Bool
  hist : Nat := 0
  lowEff : Nat
  highEff : Nat
  mode : Nat := 0
  walk : List Nat := []
  coinc : Nat := 0
  live : Nat := 0xFFFF
  table : Option (List Nat) := none
  gbow : Nat := 0x8000
  coarse : Nat := 0
  high : Option Int := none
  trail : Int := 0
deriving DecidableEq, Repr

/-- A vernier engine beside its registers (R81 to R101). Units are numbered 34c + e for channel engines, 2000 + p for the
start-sense engine of port p, 2032 + j for the spare start-sense engines and 2100 + n for the utility engines; the
registers of an engine without registers of its own are held at its unit number. `table` and `waiting` hold code centres
with gbow in 1/256; no table is the default table of R93. `prev` is the table that the shot whose gate a boundary found open
goes on with: the shot, its table and gbow (R92). `failedAt` is the time tag at which a failure was declared. -/
structure Engine where
  g : Nat := 128
  skew : Int := 0
  gainRun : Nat := 0
  aboveRun : Nat := 0
  belowRun : Nat := 0
  rejRun : Nat := 0
  bins : List (Nat × Nat) := []
  low : Nat := 0
  high : Nat := 0
  total : Nat := 0
  sumG : Nat := 0
  table : Option (List Nat) := none
  waiting : Option (List Nat × Nat) := none
  prev : Option (Nat × Option (List Nat) × Nat) := none
  conv : Option Conv := none
  busy : Bool := false
  freeSince : Nat := 0
  failed : Bool := false
  failedAt : Nat := 0
  shadow : Nat := 0
deriving DecidableEq, Repr

/-- A predicted fine window (R132, R148): start in 62.5 ps, whether predicted from a fine echo, and the centroid of the
echo it was predicted from, as a fraction of ns. -/
structure FineWin where
  start : Nat
  fineSrc : Bool
  srcNum : Int
  srcDen : Nat
deriving DecidableEq, Repr

/-- The counts and sums of a fine window (R132). -/
structure WinAcc where
  bins : List (Nat × Nat) := []
  hits : Nat := 0
  widthSum : Nat := 0
  highNum : Nat := 0
  riseSum : Nat := 0
  sat : Bool := false
deriving DecidableEq, Repr

/-- The histogram of one channel in a buffer (R130 to R132), its marks, its windows with their counts, the clear
generation it began in (R149), whether an uncorrectable error spoiled it, and whether that has been recorded (R138). -/
structure ChanHist where
  bins : List (Nat × Nat) := []
  sat : Bool := false
  ovr : Bool := false
  wins : List (FineWin × WinAcc) := []
  gen : Nat := 0
  lost : Bool := false
  told : Bool := false
deriving DecidableEq, Repr

/-- The settings in force while a buffer accumulated (R136): FEL and REJ cluster words, the kernel's taps, centre and nominal
width, whether a bistatic source was followed, and the channels' gate and control words. -/
structure BufCfg where
  ctl : Nat := 0
  bg : Nat := 0
  det : Nat := 0
  win : Nat := 0
  outw : Nat := 0
  wx : Nat := 0
  xs : Nat := 0
  taps : List Int := []
  centre : Nat := 0
  nom : Nat := 0
  bistatic : Bool := false
  gates : List Nat := []
  ctls : List Nat := []
deriving DecidableEq, Repr

/-- One buffer of a felting bank (R133 to R136). `no` numbers the histogram, from 1 (0: none), and `bank` is the
physical bank it lies in (R138). `first` is the first valid shot: time tag, fraction, id. `shots` lists
the predicted shots, by frame and k, and whether a notice has confirmed them (R164). -/
structure Buffer where
  no : Nat := 0
  bank : Nat := 0
  chans : List (Nat × ChanHist) := []
  cfg : BufCfg := {}
  delivered : Nat := 0
  voids : Nat := 0
  unconf : Nat := 0
  first : Option (Nat × Nat × Nat) := none
  azimuth : Nat := 0
  short : Bool := false
  predicted : List (Nat × Nat × Bool) := []
deriving DecidableEq, Repr

/-- The shot a cluster is in: the cluster's count of its shots, its id, the fire edge in T and as a count of timing-clock
edges, the reference once known, and whether it is void. -/
structure ShotCtx where
  n : Nat := 0
  k : Nat
  fireFix : Int
  fireEdge : Nat := 0
  tRef : Option Int
  void : Bool
deriving DecidableEq, Repr

/-- A judged-later hit of the coincidence stage (R154): channel, shot, walk-corrected code, width, high-edge interval d, its
buffer and histogram, and the settings of the hit (as in `Conv`). -/
structure CoincHit where
  ch : Nat
  n : Nat := 0
  code : Nat
  width : Nat
  d : Option Nat
  buf : Bool
  hist : Nat := 0
  coinc : Nat := 0
  live : Nat := 0xFFFF
deriving DecidableEq, Repr

/-- A cluster beside its registers: buffers, the count of histograms begun and of shots delivered, the coarse counter (R82)
as the count of timing-clock edges at which it was zeroed, the shot whose gates are in progress, whether a void shot without a reference has
followed it (R72), the shot fired whose reference has not
come yet, a shot of a new port that began before the boundary (R112), a boundary that waits for a gate to close and the shots delivered meanwhile with
the void ones among them and the azimuth code latched (R133), the cluster bucket (R74), blanking left (R77), hits
awaiting judgement, distinct corrected words of the histogram and a failed bank waiting
for its spare, with the time tag and the C of its declaration (R138), computed windows not yet installed (R148), the fraction of X as a fraction (R158), whether a
histogram is in progress (R456), and when the cluster's channels came on (R57). -/
structure ClusterSt where
  buf0 : Buffer := {}
  buf1 : Buffer := {}
  histNo : Nat := 0
  shotNo : Nat := 0
  coarseZero : Nat := 0
  shot : Option ShotCtx := none
  dark : Bool := false
  next : Option ShotCtx := none
  skip : Option Nat := none
  due : Bool := false
  early : Nat := 0
  earlyVoid : Nat := 0
  earlyAz : Nat := 0
  tokens : Nat := 64
  tokensAt : Nat := 0
  blank : Nat := 0
  hits : List CoincHit := []
  ceWords : List Nat := []
  bankFailed : Option (Nat × Nat) := none
  nextWins : List (Nat × List FineWin) := []
  xNum : Nat := 0
  xDen : Nat := 1
  inProgress : Bool := false
  walkPend : Bool := false
  lastShotAt : Nat := 0
  onAt : Option Nat := none
deriving DecidableEq, Repr

/-- A channel beside its registers: its bucket (R74), whether its gate is open and its idle window runs (R97), the shot last
overloaded and how many words of which shot its tap has passed (R26, R75), until when its low comparator is above threshold
or blind (R64), in 1/65,536 ns of the timing clock, and the engine that holds its newest hit, whether its servo is clamped (R57),
adapt-window counts (R152), trim decisions that
left x (R99), hits of the histogram for the fault map (R367), and its clear
generation (R149). -/
structure ChanSt where
  tokens : Nat := 4
  tokensAt : Nat := 0
  gateOpen : Bool := false
  idle : Bool := false
  overShot : Option Nat := none
  tapped : Nat × Nat := (0, 0)
  lowUntil : Int := 0
  holder : Option Nat := none
  clamped : Bool := false
  adaptShots : Nat := 0
  adaptCount : Nat := 0
  adaptGate : Nat := 0
  lowSettled : Bool := false
  highSettled : Bool := false
  inGate : Nat := 0
  anyHit : Nat := 0
  stuckShots : Nat := 0
  validShots : Nat := 0
  gen : Nat := 0
deriving DecidableEq, Repr

/-- A tap word (R26): channel, shot id, timestamp, and the dropped-hits flag. -/
structure TapWord where
  ch : Nat
  shotId : Nat
  code : Nat
  dropped : Bool
deriving DecidableEq, Repr

/-- A tile: the clusters whose closed buffers are under extraction with the next position, and the snapshot area
(R136, R150). -/
structure TileSt where
  queue : List (Nat × Nat) := []
  snap : List (Nat × Nat) := []
deriving DecidableEq, Repr

/-- A scheduled shot of a port: its k, nominal time, drawn offset and phase, the outcome of the permit sample, whether the
trigger was blocked late, whether throttling skips it (R424), the fire edge in T, and what the start-sense input has shown,
with the coarse count its edge captured; `slot` once its
calibration slot has begun (R109 to R117, R128). -/
structure PortShot where
  k : Nat
  tNom : Int
  offset : Int
  phase : Nat
  sampled : Bool := false
  blocked : Bool := false
  skip : Bool := false
  fired : Bool := false
  fireFix : Int := 0
  edge : Bool := false
  coarse : Nat := 0
  resolved : Bool := false
  slot : Bool := false
deriving DecidableEq, Repr

/-- An emitter port beside its registers (R109 to R118): the generator, the next k and nominal time, the nominal time before
it with the PERIOD between the two, the PERIOD that follows the next nominal time and
the OFFSET in force, the shot drawn and the shot fired, a slip to be added at the next nominal time (R161), the run of missing edges, whether its engine failed without a
spare, and the instant on C before which a port enabled in RUN does not fire (R111). -/
structure PortSt where
  gen : Nat := 0
  k : Nat := 0
  tNom : Int := 0
  prevNom : Int := 0
  lastPer : Nat := 0
  period : Nat := 0
  offset : Nat := 0
  drawn : Option PortShot := none
  cur : Option PortShot := none
  slip : Int := 0
  missRun : Nat := 0
  noEngine : Bool := false
  joinAt : Int := 0
deriving DecidableEq, Repr

/-- The emitter PLL (R119 to R125): the active copy of P, M and outputs 2 to 5 (as register words), and whether a
re-lock is in progress. -/
structure PllSt where
  div : Nat := 0x2801
  outs : List Nat := [40, 40, 40, 40]
  relock : Bool := true
  resumeAt : Nat := 0
deriving DecidableEq, Repr

/-- A port entry of a schedule announcement (R299). -/
structure AnnPort where
  port : Nat
  en : Bool
  phaseEn : Bool
  codeset : Nat
  span : Nat
  period : Nat
  offset : Nat
deriving DecidableEq, Repr

/-- A bistatic source's knowledge (R162 to R164): the announcement of its port, the sender's t0 frame, when it was heard,
the next predicted shot with its nominal instant in domain time, the slips of frames not reached yet, and a frame whose
slip notice came late. -/
structure BiSt where
  ann : Option AnnPort := none
  t0Frame : Nat := 0
  heardAt : Nat := 0
  k : Nat := 0
  tNom : Int := 0
  slips : List (Nat × Int) := []
  late : Option Nat := none
deriving DecidableEq, Repr

/-- The schedule keeper (R161): the frame now running, the nominal start of the next frame on C, and the shot entries
waiting to be sent (R299), each a port, k and whether it was withdrawn. -/
structure SchedSt where
  frame : Nat := 0
  nextStart : Int := 0
  shots : List (Nat × Nat × Bool) := []
deriving DecidableEq, Repr

/-- The ranging block and the emitters: units by number, the words waiting in the tap FIFOs of safety channels A and B (R26,
R28), the count of engines freed (R84), the timing-clock edge after
START at which the priority of the cluster buckets begins at position 0 (R74), and whether a shot boundary has come since
START (R455). -/
structure RangingSt where
  engines : List (Nat × Engine) := []
  chans : List (Nat × ChanSt) := []
  clusters : List (Nat × ClusterSt) := []
  tiles : List (Nat × TileSt) := []
  ports : List (Nat × PortSt) := []
  pll : PllSt := {}
  sources : List (Nat × BiSt) := []
  sched : SchedSt := {}
  tapA : List TapWord := []
  tapB : List TapWord := []
  seq : Nat := 0
  startedAt : Nat := 0
  runSlots : Bool := false
deriving DecidableEq, Repr

/-- A lockstep pair (R364, R365): the register writes held since the last commit, whether it is in recovery, whether its
first commit after a recovery is still outstanding, and the instants of its recoveries. Writes are (address, size in bytes, data), oldest
first. -/
structure Pair where
  held : List (Nat × Nat × Nat) := []
  recovering : Bool := false
  unproven : Bool := false
  haltedAt : Nat := 0
  recoveries : List Nat := []
deriving DecidableEq, Repr

/-- Fault masking: the lockstep pairs, the recoveries of both pairs since reset (R369), and the runs of histograms in
which a mapped condition of a channel has been absent (R367), by 2 × channel (DEAD) or 2 × channel + 1 (STUCK). -/
structure FmkSt where
  pair0 : Pair := {}
  pair1 : Pair := {}
  recTotal : Nat := 0
  absent : List (Nat × Nat) := []
deriving DecidableEq, Repr

/-- A measurement slot beside its registers (R403 to R408): the instant of its last switch, the last values of step 2 and
of step 3 with their SETTLING marks, the newest value for loops with its number, whether it has delivered since the switch,
and the detectors' window. -/
structure MeaSlot where
  switchAt : Nat := 0
  hist : List (Int × Bool) := []
  marks : List Bool := []
  loopVal : Option Int := none
  loopSeq : Nat := 0
  win : Nat := 0
  used : Nat := 0
  sumSq : Nat := 0
  peak : Int := 0
  env : Int := 0
  winSat : Bool := false
  winOpen : Bool := false
deriving DecidableEq, Repr

/-- A converter beside its registers (R400 to R402): the slots still to convert, the first of them converting, or the slot it converts
continuously; LOWPWR and OSR_LOG2 as the conversion under way began with them; whether it is an urgent conversion; a period that is
due. -/
structure MeaConv where
  todo : List Nat := []
  cont : Option Nat := none
  lowpwr : Bool := false
  osr : Nat := 0
  urgent : Bool := false
  due : Bool := false
deriving DecidableEq, Repr

/-- The measurement front end, and per supply rail the state called for last (R420). -/
structure MeaSt where
  slots : List (Nat × MeaSlot) := []
  convs : List (Nat × MeaConv) := []
  called : List (Nat × Option Nat) := []
deriving DecidableEq, Repr

/-- Thermal sampling (R421 to R425): runs of deviating samples by sensor, the last sample that reached THR − 10, since
when the hottest value has stayed below the falling threshold of level L (by L), and the time of the last sample. -/
structure ThmSt where
  runs : List (Nat × Nat) := []
  lastWarm : Option Nat := none
  below : List (Nat × Option Nat) := []
  lastSample : Nat := 0
deriving DecidableEq, Repr

/-- A scan-axis port beside its registers (R166 to R173): encoder levels, revolution position, the last edge and the edge
before the last sample, whether an edge came since; the same for the Hall sequence; the demand driven,
the levels its outputs have, and the duties of its auxiliary channels as fractions. Times are on C, to
5 ns. -/
structure Axis where
  a : Bool := false
  b : Bool := false
  rev : Int := 0
  tLast : Nat := 0
  pLast : Int := 0
  tRef : Option Nat := none
  pRef : Int := 0
  moved : Bool := false
  hallOk : Bool := true
  hallPos : Int := 0
  hallLast : Nat := 0
  hallRef : Option Nat := none
  hallRefPos : Int := 0
  hallMoved : Bool := false
  hallSpeed : Int := 0
  drive : Option Int := none
  pins : Nat := 0
  aux : List (Nat × (Nat × Nat)) := []
deriving DecidableEq, Repr

/-- A notch's coefficients in use and its states (R178), Q2.30 and 2^-16. -/
structure Notch where
  coef : List Int := [0x40000000, 0, 0, 0, 0]
  s1 : Int := 0
  s2 : Int := 0
deriving DecidableEq, Repr

/-- What a ramp was planned for (R182): its goal in 2^-32, the limits of its first to third derivative, and the period. -/
structure RampPlan where
  goal : Int
  l1 : Nat
  l2 : Nat
  l3 : Nat
  t : Nat
deriving DecidableEq, Repr

/-- A loop beside its registers (R174 to R186): whether it runs, the output waiting for the next sample instant with its
proportional part, the integrator in 2^-16, the notches, the ramp value and its derivatives in 2^-32, the newest feedback
seen, stale counting, whether the integrator is held, the last target, the feedback latched for a group member,
and what the ramp was planned for at the last sample instant. -/
structure Loop where
  active : Bool := false
  next : Option Int := none
  p : Int := 0
  i : Int := 0
  n0 : Notch := {}
  n1 : Notch := {}
  x : Int := 0
  v : Int := 0
  acc : Int := 0
  seen : Nat := 0
  stale : Nat := 0
  held : Bool := false
  target : Int := 0
  tcSeen : Nat := 0
  tcStale : Nat := 0
  latched : Option (Int × Bool × Bool) := none
  plan : Option RampPlan := none
deriving DecidableEq, Repr

/-- The closed-loop engine: scan-axis ports and loops. -/
structure LoopSt where
  axes : List (Nat × Axis) := []
  loops : List (Nat × Loop) := []
deriving DecidableEq, Repr

/-- A line in flight (R191): its number, what it is (0 a track line, 1 a monitor line of a bank, 2 a capture line of a
bank), its grid index and grid position, the pitch in force, the trigger on C, its exposure centre on C in ns, its position and u in
1/65,536 µm and the time tag there (known once the centre has passed), whether it may be recorded, whether a shading
commit took effect at its start pulse, and what its segments reported. -/
structure Line where
  id : Nat
  kind : Nat
  bank : Nat
  idx : Int
  grid : Int
  pitch : Nat
  trig : Nat
  centre : Nat
  pos : Option Int := none
  time : Nat := 0
  record : Bool
  fresh : Bool := false
  waits : List Nat
  reads : List Nat := []
  done : List (Nat × List (List Nat)) := []
  prime : Bool := false
  ovr : Bool := false
  cover : Bool := false
  cold : Bool := false
  dropped : Bool := false
  suspect : Bool := false
  cut : Nat := 0
deriving DecidableEq, Repr

/-- A capture under way (R199): its kind, lines still to take, the lines each segment has given, and per segment and row the sums over lines of the active
pixels and of the reference pixels' mean numerators. -/
structure Capture where
  white : Bool
  left : Nat
  taken : List (Nat × Nat) := []
  sums : List (Nat × List (List Nat)) := []
  refs : List (Nat × List (Nat × Nat)) := []
deriving DecidableEq, Repr

/-- A segment beside its registers: each row's lines still held by the aligner, newest first (R200), priming lines left
(R201), the run of lines that call for a change of the cover state (R205), and its shading generation with the mark of a
direct write (R243), and the period on its clock output in 1/4 ns, 0 while it is low (R188). -/
structure SegmentSt where
  rows : List (List (List Nat)) := [[], [], []]
  prime : Nat := 0
  coverRun : Nat := 0
  gen : Nat := 0
  dirty : Bool := false
  clk : Nat := 0
deriving DecidableEq, Repr

/-- An illuminator bank beside its registers: its capture, the strip sum and pixel count of the interval, those of past intervals,
the run of small drifts (R204). -/
structure BankSt where
  cap : Option Capture := none
  sum : Nat := 0
  count : Nat := 0
  means : List (Nat × Nat) := []
  calm : Nat := 0
deriving DecidableEq, Repr

/-- An illuminator port (R194, R447): the demand of the loop that targets it, the run of low strobes, the number of values
measured; whether its strobe is on and when it last fell, the current of the driver's last demand word (none where a strobe cut
it short) and when that word ends. -/
structure IllSt where
  u : Option Int := none
  low : Nat := 0
  seq : Nat := 0
  lit : Bool := false
  fell : Nat := 0
  word : Option Nat := some 0
  wordEnd : Nat := 0
deriving DecidableEq, Repr

/-- A tracker (R224 to R226): its window where it has moved from its registers, the run of lines without an edge, past lines newest first, each with its
grid position, the count of cuts before it and its edge position (none where it had no edge), the values recorded last. -/
structure Tracker where
  win : Option (Nat × Nat) := none
  miss : Nat := 0
  past : List (Int × Nat × Option Int) := []
  pos : Option Int := none
  ang : Option Int := none
deriving DecidableEq, Repr

/-- The open hood (R227): its number, start, the time tag of its header, and the end of its span in µm. -/
structure Hood where
  num : Nat
  start : Int
  time : Nat
  stop : Int
  lastPos : Int
deriving DecidableEq, Repr

/-- Grid positions lost in one hood and not yet recorded (R221): the time tag of the first, the reason, how many, their pitch,
and the first and the last grid position lost. -/
structure LineGap where
  time : Nat
  reason : Nat
  lost : Nat
  pitch : Nat
  first : Int
  last : Int
deriving DecidableEq, Repr

/-- The line-imaging path: segments, banks, illuminators, trackers, lines in flight, the last accepted trigger, a trigger
held for T_min, the staging buffer, the open hood with why the last one closed, where the first hood began and the grid
position from which a new hood is due with its reason, the losses not recorded by hood, the reason priming lines of the
last clear are lost under (0 none), the first line of a pair under STALL (R218), the position along D of the last
recorded line and its pitch, the stitched lines that wait in the line FIFO (R24), the cuts of the skew history so far (R225),
and where line records of the odometry interval stand in the rings (stream, offset; R209). -/
structure LinSt where
  segs : List (Nat × SegmentSt) := []
  banks : List (Nat × BankSt) := []
  ills : List (Nat × IllSt) := []
  trks : List (Nat × Tracker) := []
  lines : List Line := []
  nextId : Nat := 0
  lastTrig : Option Nat := none
  held : Option Int := none
  stg : List (Nat × Nat) := []
  hood : Option Hood := none
  closed : Nat := 3
  hood0 : Option Int := none
  fresh : Option (Int × Nat) := none
  gaps : List LineGap := []
  primeReason : Nat := 0
  pair : Option (Line × List Nat) := none
  pairing : Bool := false
  lastU : Option Int := none
  lastPitch : Nat := 0
  fifo : List (Line × List (List Nat)) := []
  cuts : Nat := 0
  marks : List (Nat × Nat) := []
deriving DecidableEq, Repr

/-- An odometry input beside its registers (R207): accepted levels, the counts not yet prescaled, the last prescaled
count, the distance since the last slip check. -/
structure OdoIn where
  a : Bool := false
  b : Bool := false
  rest : Int := 0
  lastAt : Option Nat := none
  moved : Int := 0
deriving DecidableEq, Repr

/-- The motion of the vehicle or carriage (R208 to R220): counts of the source with their times on C, newest first, and
the position after each in 1/65,536 µm; the speed last formed in 1/65,536 µm per ns, as a fraction; the extremes of u since
the last declaration; the grid's origin in µm and the next grid index; H once a line is recorded; whether the next recorded
line carries SEAM; the ODO_SUSPECT spans and when the interval began, whether the pitch is doubled (R217) and whether a carriage back-up has turned (R220). -/
structure OdoSt where
  ins : List (Nat × OdoIn) := []
  counts : List (Nat × Int) := []
  spNum : Int := 0
  spDen : Nat := 1
  uMax : Int := 0
  uMin : Int := 0
  u0 : Int := 0
  next : Int := 1
  high : Option Int := none
  seam : Bool := false
  suspectNow : Bool := false
  suspectLate : Bool := false
  slipAt : Nat := 0
  wide : Bool := false
  turned : Bool := false
deriving DecidableEq, Repr

/-- What a channel knows of a zone (R340 to R343): its last evaluation, own and adopted, the safety cycles counted
unverified, and the cycles at whose end it was last occupied and last unverified. -/
structure SafZone where
  ownOcc : Bool := false
  ownUnv : Bool := false
  occ : Bool := false
  unv : Bool := false
  intruded : Nat := 0
  blind : Nat := 0
  bad : List Nat := []
  lastOcc : Option Nat := none
  lastUnv : Option Nat := none
deriving DecidableEq, Repr

/-- What a channel knows of a drive (R344 to R349). `counts` are the encoder counts of past cycles, newest first, `cur`
those of this cycle; `vN` is the speed as counts times SCALE over the window. `armed` and `low` follow the restart
conditions; `phase`, `travel` and `doneAt` the start-up test. -/
structure SafDrv where
  state : Nat := 0
  cause : Nat := 0
  ending : Nat := 0
  duration : Nat := 0
  counts : List Int := []
  cur : Int := 0
  vN : Int := 0
  v0 : Int := 0
  t0 : Nat := 0
  torque : Bool := false
  decel : Bool := false
  closed : Bool := false
  locked : Bool := false
  disagree : Bool := false
  phase : Nat := 0
  travel : Nat := 0
  doneAt : Option Nat := none
  testDone : Bool := false
  causes : List Nat := []
  lastPermit : Bool := false
  armed : Bool := false
  low : Bool := false
  newStop : Bool := false
deriving DecidableEq, Repr

/-- A band connection in a channel (R353 to R355): the last message accepted or sent, its time-out, its counts, and the
message formed last with GEN. -/
structure SafBand where
  seq : Option Nat := none
  kind : Nat := 0
  payload : List Byte := []
  timeout : Bool := false
  okRun : Nat := 0
  crcCnt : Nat := 0
  seqCnt : Nat := 0
  gen : Nat := 0
  msg : List Byte := []
deriving DecidableEq, Repr

/-- A discrete pair in a channel (R350): its own contact, the reading, DISC_ERR. -/
structure SafDisc where
  level : Bool := false
  reading : Bool := false
  err : Bool := false
deriving DecidableEq, Repr

/-- The image a channel sends its partner at a cycle end (R335). Drives: (state, cause, vN, closed, locked, torque-off
ending); bands: (last accepted SEQ, payload). -/
structure SafImage where
  state : Nat
  set : Option (Nat × Nat)
  sw : Nat
  zones : List (Bool × Bool)
  speeds : List Int
  drives : List (Nat × Nat)
  endings : List Nat
  bands : List (Option Nat × List Byte)
  discs : List Bool
deriving DecidableEq, Repr

/-- A safety channel (R334 to R356). `now` counts its cycles since power-up. `hits` holds, by 128 z + tapped channel,
the 1 ms steps of the frame with their intruding hits, floor hits and counted shots, and `spoilt` the last shot of each that a
dropped hit took from the count, by its id plus 1 (R340); `sense` the start-sense events
of the cycle by port (R27). -/
structure SafChan where
  powered : Bool := true
  state : Nat := 0
  cause : Nat := 0
  selfOk : Bool := false
  set : Option SafSet := none
  mismatch : Bool := false
  sw : Nat := 0
  sw0 : Nat := 0
  sealOk : Bool := false
  now : Nat := 0
  img : Option SafImage := none
  imgPrev : Option SafImage := none
  own : Option SafImage := none
  got : Bool := false
  missing : Nat := 0
  run : Nat := 0
  xcmp : Nat := 0
  unverified : Nat := 0
  testDisc : Nat := 0
  hits : List (Nat × List (Nat × Nat × Nat × Nat)) := []
  tapBad : Bool := false
  spoilt : List (Nat × Nat) := []
  sense : List (Nat × Nat) := []
  zones : List (Nat × SafZone) := []
  drives : List (Nat × SafDrv) := []
  bands : List (Nat × SafBand) := []
  discs : List (Nat × SafDisc) := []
  dout : Nat := 0
  cover : Bool := false
  scanOk : Bool := false
  tests : Nat := 0
  pulsed : List Nat := []
deriving DecidableEq, Repr

/-- The two safety channels. -/
structure Saf where
  a : SafChan := {}
  b : SafChan := {}
deriving DecidableEq, Repr

/-- A DRAM channel beside its registers (R283 to R285): the bursts with correctable and with uncorrectable errors and their
times, the grains flipped so far in ascending group, whether it is degraded, the first grain lost with it where its grains
were flipped without copying, the bursts of those grains written since, and the MR4 reading its refresh rate is derated by
(R276). -/
structure DramCh where
  ces : List (Nat × Nat) := []
  ues : List (Nat × Nat) := []
  flipped : Nat := 0
  degraded : Bool := false
  lostFrom : Option Nat := none
  healed : List Nat := []
  derate : Nat := 0
deriving DecidableEq, Repr

/-- Everything but the operating state, the safety channels, the fuses and the queue: the registers and memories, and
what each block holds beside them. `poison` lists, by first address, the 64-byte DRAM bursts and 8-byte SRAM words that
read as uncorrectable, those of the firmware mirror from 2^40 upward (R273, R278, R283); `passAt` is when every macro had
last been scrubbed (R274); `freeCtr` numbers the draws of free values (log entry 6); `out` is what has left the device (log entry 7);
`shadow` and `heldLo` are the split-register halves of R17, keyed by master and address. -/
structure Dev where
  regs : List (Nat × W32) := []
  mem : List Host.Cell := []
  poison : List Nat := []
  dram : List (Nat × DramCh) := []
  passAt : Nat := 0
  freeCtr : Nat := 0
  out : List Out := []
  shadow : List (Nat × Option Nat) := []
  heldLo : List (Nat × Option Nat) := []
  time : TimeSt := {}
  cmd : CmdSt := {}
  own : OwnSt := {}
  boot : BootSt := {}
  acq : AcqSt := {}
  dma : DmaSt := {}
  links : List (Nat × LinkSt) := []
  ring : RingSt := {}
  pci : PciSt := {}
  eth : List (Nat × EthPort) := []
  pairs : List (Nat × EthPair) := []
  fmk : FmkSt := {}
  rng : RangingSt := {}
  mea : MeaSt := {}
  thm : ThmSt := {}
  loop : LoopSt := {}
  lin : LinSt := {}
  odo : OdoSt := {}
deriving DecidableEq, Repr

/-- The state of the device, and the queue of the commands that are waiting, first in, first out. -/
structure State where
  sys : Sys
  dev : Dev
  saf : Saf
  fuse : Fuse
  pending : List Instr
deriving DecidableEq, Repr

/-- The device right after reset (R38, R55, R434): RESET, every register at its Reset value (no register is listed),
memory with nothing listed, the fuses of a fresh part (R376, R387), no command waiting. -/
def State.reset : State where
  sys := ⟨.reset, .reset, 0, false, false, false, false⟩
  dev := {}
  saf := {}
  fuse := ⟨0, false, 0x300, 0, 0, [], 0, 0⟩
  pending := []

/-- Why a run stops. No command of this device stops the machine: the block answers every error with an effect on its
state. -/
inductive Fault where
  /-- raised by no command (safe) -/
  | stopped
deriving DecidableEq, Repr

/-- Why a command is not run. -/
inductive Refusal where
  /-- the command has no meaning yet; raised by the dispatcher (safe) -/
  | notModelled (mnemonic : String)
deriving DecidableEq, Repr

end Sys2Proof.Machine
end

