-- ==== Sys2Proof/Machine/Ops.lean ====
section
/-! DEFINITION. The named operations over registers, memory and outputs that every meaning is written with: field reads
and writes, sticky flags and counters (R76, R435), the time tag (R316), free values, bytes of memory (R249), and the
lifts that say which compartment of the state a command may touch. -/
namespace Sys2Proof.Machine

/-- Apply a change to the device part. -/
def State.onDev (s : State) (f : Dev → Dev) : State := { s with dev := f s.dev }

/-- Lift: a command that touches only the device part. -/
def inDev (f : State → State) (s : State) : State := { s with dev := (f s).dev }

/-- Lift: a command that touches the device part and the operating state. -/
def inSysDev (f : State → State) (s : State) : State := { s with sys := (f s).sys, dev := (f s).dev }

/-- Lift: a command that touches the device part, the operating state and the fuses, never the safety channels. -/
def inCore (f : State → State) (s : State) : State :=
  { s with sys := (f s).sys, dev := (f s).dev, fuse := (f s).fuse }

/-- Lift: a command that touches the device part and the safety channels. -/
def inDevSaf (f : State → State) (s : State) : State := { s with dev := (f s).dev, saf := (f s).saf }

/-- Lift: a command that touches only the safety channels. -/
def inSaf (f : State → State) (s : State) : State := { s with saf := (f s).saf }

/-- Lift: a command that may touch everything but the queue. -/
def inAll (f : State → State) (s : State) : State := { f s with pending := s.pending }

/-- The state with the device part of another: what an operation reached by way of `t` does to the device. -/
def State.takeDev (s t : State) : State := { s with dev := t.dev }

/-- A state reached from `s` by operations of other blocks, with the command executor of `s`: none of them touches it. -/
def State.keepCmd (s t : State) : State := t.onDev fun d => { d with cmd := s.dev.cmd }

/-- A register instance as a number. -/
def State.reg (s : State) (r : Reg) (i : Nat) : Nat :=
  (smGet (r.resetWord i) s.dev.regs (r.key i)).toNat

/-- Put a whole word into a register instance. -/
def State.setReg (s : State) (r : Reg) (i v : Nat) : State :=
  s.onDev fun d => { d with regs := smPut (r.resetWord i) d.regs (r.key i) (BitVec.ofNat 32 v) }

/-- A field of a register instance. -/
def State.fld (s : State) (f : RegField) (i : Nat) : Nat := bitsOf (s.reg f.reg i) f.hi f.lo

/-- A one-bit field as a Bool. -/
def State.flag (s : State) (f : RegField) (i : Nat) : Bool := s.fld f i = 1

/-- A field read as two's complement. -/
def State.sfld (s : State) (f : RegField) (i : Nat) : Int := signed (f.hi - f.lo + 1) (s.fld f i)

/-- Put a value into a field. -/
def State.setFld (s : State) (f : RegField) (i v : Nat) : State :=
  s.setReg f.reg i (putBits (s.reg f.reg i) f.hi f.lo v)

/-- Put a Bool into a one-bit field. -/
def State.setFlag (s : State) (f : RegField) (i : Nat) (b : Bool) : State := s.setFld f i (b2n b)

/-- Put an integer into a field, two's complement. -/
def State.setSfld (s : State) (f : RegField) (i : Nat) (v : Int) : State :=
  s.setFld f i (unsigned (f.hi - f.lo + 1) v)

/-- Add to a saturating counter (R76, R435). -/
def State.bump (s : State) (f : RegField) (i n : Nat) : State :=
  s.setFld f i (satN (f.hi - f.lo + 1) (s.fld f i + n))

/-- A quantity split into a low and a high register (R17). -/
def State.pair (s : State) (lo hi : Reg) (i : Nat) : Nat := s.reg lo i + 2 ^ 32 * s.reg hi i

/-- Put a 64-bit quantity into its two registers. -/
def State.setPair (s : State) (lo hi : Reg) (i v : Nat) : State :=
  (s.setReg lo i (v % 2 ^ 32)).setReg hi i (v / 2 ^ 32 % 2 ^ 32)

/-- Return every instance [a, a + n) of a register to its Reset value. -/
def State.clearReg (s : State) (r : Reg) (a n : Nat) : State :=
  (List.range n).foldl (fun t k => t.setReg r (a + k) (r.resetWord (a + k)).toNat) s

/-- Something leaves the device. -/
def State.emit (s : State) (o : Out) : State := s.onDev fun d => { d with out := o :: d.out }

/-- A draw of the on-die random source: its number, and the state that has counted it. -/
def State.draw (s : State) : Nat × State := (s.dev.freeCtr, s.onDev fun d => { d with freeCtr := d.freeCtr + 1 })

/-- Is the device in one of the states listed? -/
def State.inOp (s : State) (l : List OpState) : Bool := l.contains s.sys.op

/-- The domains that R37 keeps on in every configuration: DRAM channel 0, the control cores, emitter timing. STABLED alone
switches them off. -/
def keptOn : List Nat := [120, 133, 134, 135, 136, 139]

/-- Is a switched domain on (R37, R416)? -/
def State.domainOn (s : State) (d : Nat) : Bool :=
  bitOf (s.reg .pwrDomSts (d / 32)) (d % 32) || (keptOn.contains d && !s.inOp [.off, .stabled])

/-- Is a wake under way (R51)? The executor holds it, as a WAKE or for a wake event. -/
def State.waking (s : State) : Bool :=
  decide (s.sys.op = .stabled) && (match s.dev.cmd.running with | some (c, _) => decide (c.opcode = 5) | none => false)

/-- T in 2^-32 ns (R316). -/
def State.timeFix (s : State) : Int := (s.dev.time.c : Int) * 2 ^ 32 + s.dev.time.o

/-- The time tag: T in whole ns, 64 bits (R316). -/
def State.tag (s : State) : Nat := unsigned 64 (divFloor s.timeFix (2 ^ 32))

/-- The fraction of T in 1/256 ns, truncated (R316). -/
def State.tagFrac (s : State) : Nat := unsigned 8 (divFloor s.timeFix (2 ^ 24))

/-! Memory at DMA addresses (R249). -/

/-- Byte of the DMA address space that the device holds itself; a byte nothing has written reads 0 (log entry 5). -/
def State.byte (s : State) (a : Nat) : Byte := smGet 0#8 s.dev.mem a

/-- `n` bytes from an address. -/
def State.bytes (s : State) (a : Nat) : Nat → List Byte
  | 0 => []
  | n + 1 => s.byte a :: s.bytes (a + 1) n

/-- Cells written one after another. -/
def memPutAll (m : List Host.Cell) (a : Nat) : List Byte → List Host.Cell
  | [] => m
  | b :: bs => memPutAll (smPut 0#8 m a b) (a + 1) bs

/-- The first address of the general SRAM (R249). -/
def sramBase : Nat := 0x1000000000

/-- The capacity of DRAM in bytes (R278). -/
def State.dramCap (s : State) : Nat := s.fld F.memCapCap 0 * 2 ^ 20

/-- Where a DMA address leads (R249, R301). -/
inductive Target where
  | dram | sram | window | host | none
deriving DecidableEq, Repr

/-- The target of one DMA address. -/
def State.target (s : State) (a : Nat) : Target :=
  if a < 2 ^ 35 then if a < s.dramCap then .dram else .none
  else if a < sramBase then .none
  else if a < sramBase + 2 ^ 23 then .sram
  else if a < 0x2000000000 then .none
  else if a < 0x20A0000000 then .window
  else if a < 0x8000000000000000 then .none
  else if a < 0x9000000000000000 then .host
  else .none

/-- The least address of the firmware region that is no longer firmware: F of R278. -/
def State.fwSize (s : State) : Nat := s.fld F.memCfgFwSize 0 * 2 ^ 25

/-! Where DRAM lies (R278, R284, R285). -/

/-- A DRAM channel's record. -/
def State.dram (s : State) (n : Nat) : DramCh := smGet {} s.dev.dram n

/-- Put a DRAM channel's record. -/
def State.setDram (s : State) (n : Nat) (x : DramCh) : State :=
  s.onDev fun d => { d with dram := smPut {} d.dram n x }

/-- The populated channels. -/
def State.channels (s : State) : List Nat := (List.range 4).filter fun n => bitOf (s.fld F.memCfgPop 0) n

/-- The channel of an interleaved address, and its grain on that channel (R278). -/
def State.dramPlace (s : State) (a : Nat) : Nat × Nat :=
  let n := max 1 s.channels.length
  let gi := (a - s.fwSize) / 2 ^ s.fld F.memCfgGrainLog2 0
  let grp := gi / n
  let h := if n = 1 then 0 else s.reg .memHash 0 * grp % 2 ^ 32 / 2 ^ (32 - Nat.log2 n)
  ((gi % n) ^^^ h, grp)

/-- The channel that serves an address now: that of the firmware region or its mirror, that of its grain, or the grain's
target once it has flipped (R278, R284). -/
def State.servedBy (s : State) (a : Nat) : Nat :=
  if a < s.fwSize then
    if (s.fld F.memChStsState 0 = 5 ∨ s.fld F.memChStsState 0 = 6) ∧ bitOf (s.fld F.memCfgPop 0) 1 then 1 else 0
  else
    let p := s.dramPlace a
    if p.2 < (s.dram p.1).flipped then
      let rest := s.channels.filter (· ≠ p.1)
      rest.getD (p.2 % (s.channels.length - 1)) 0
    else p.1

/-- Is a channel lost with no target for its grains? -/
def State.channelDead (s : State) (n : Nat) : Bool := decide (s.fld F.memChStsState n = 6)

/-- Does every access to an address return an error response (R285)? -/
def State.deadByte (s : State) (a : Nat) : Bool :=
  decide (a < 2 ^ 35) && s.channels.any s.channelDead && s.channelDead (s.servedBy a)

/-- Was the burst lost with its channel and not written since (R285)? -/
def State.lostBurst (s : State) (p : Nat) : Bool :=
  decide (s.fwSize ≤ 64 * p ∧ 64 * p < 2 ^ 35) &&
    let q := s.dramPlace (64 * p)
    match (s.dram q.1).lostFrom with
    | some k => decide (k ≤ q.2) && !(s.dram q.1).healed.contains p
    | none => false

/-- The bursts of a span. -/
def burstsOf (a n : Nat) : List Nat := (List.range ((a + n + 63) / 64 - a / 64)).map (a / 64 + ·)

/-- Where the firmware mirror's uncorrectable bursts are listed. -/
def mirrorBase : Nat := 2 ^ 40

/-- The bytes that an entry of `poison` spoils: a burst of DRAM, or a word of general SRAM (R272, R277). -/
def poisonLen (p : Nat) : Nat := if sramBase ≤ p ∧ p < mirrorBase then 8 else 64

/-- Does an entry of `poison` touch a span? -/
def poisonHits (a n p : Nat) : Bool := decide (p < a + n ∧ a < p + poisonLen p)

/-- Does a channel hold a good copy of the firmware region, as far as the channel goes (R278, R284, R285)? Channel 0 holds the
region, channel 1 its mirror. -/
def State.fwCopy (s : State) (n : Nat) : Bool :=
  bitOf (s.fld F.memCfgPop 0) n && decide (s.fld F.memChStsState n ≠ 5 ∧ s.fld F.memChStsState n ≠ 6)

/-- Does a read of an entry's bytes find it uncorrectable? A burst of the firmware region does where neither of its copies
reads well (R278). -/
def State.readsBad (s : State) (p : Nat) : Bool :=
  if p < s.fwSize then !s.fwCopy 1 || s.dev.poison.contains (mirrorBase + p)
  else if mirrorBase ≤ p then !s.fwCopy 0
  else true

/-- Does a span touch bytes that read as uncorrectable, or that no channel serves (R283, R285)? -/
def State.poisoned (s : State) (a n : Nat) : Bool :=
  (s.dev.poison.any fun p => poisonHits a n (if mirrorBase ≤ p then p - mirrorBase else p) && s.readsBad p)
    || ((s.channels.any fun c => s.channelDead c || (s.dram c).lostFrom.isSome)
      && (burstsOf a n).any fun p => s.deadByte (64 * p) || s.lostBurst p)

/-- Cells written one after another, but for those that no channel serves. -/
def State.memPutLive (s : State) (m : List Host.Cell) (a : Nat) : List Byte → List Host.Cell
  | [] => m
  | b :: bs => s.memPutLive (if s.deadByte a then m else smPut 0#8 m a b) (a + 1) bs

/-- Store bytes; writes to the grains of a lost channel are discarded, and a poisoned burst that is written reads well
again (R283, R285). -/
def State.store (s : State) (a : Nat) (bs : List Byte) : State :=
  if bs.isEmpty then s
  else
    let s1 := s.onDev fun d => { d with
      mem := if s.channels.any s.channelDead then s.memPutLive d.mem a bs else memPutAll d.mem a bs
      poison := d.poison.filter (fun p => !poisonHits a bs.length p && !poisonHits (mirrorBase + a) bs.length p) }
    s.channels.foldl (fun t c =>
      if (s.dram c).lostFrom.isSome then t.setDram c { s.dram c with
        healed := (burstsOf a bs.length).filter s.lostBurst ++ (s.dram c).healed }
      else t) s1

/-- The target of a span, where the whole span has one. -/
def State.spanTarget (s : State) (a n : Nat) : Target :=
  if n = 0 ∨ s.target a = s.target (a + n - 1) then s.target a else .none

/-- The domain number of the device (R7). -/
def State.domain (s : State) : Nat := 8 * s.fld F.lnkRingChain 0 + s.fld F.lnkRingPos 0

/-- A Krevan link's record. -/
def State.link (s : State) (n : Nat) : LinkSt := smGet {} s.dev.links n

/-- Put a link's record. -/
def State.setLink (s : State) (n : Nat) (l : LinkSt) : State :=
  s.onDev fun d => { d with links := smPut {} d.links n l }

/-- The bytes a frame takes in a replay buffer: header, payload and check (R290). -/
def LinkFrame.size (f : LinkFrame) : Nat := 12 + f.payload.length

/-- Give waiting frames their LSEQ and their place in the 16 KiB replay buffer, in order, while there is room, and send
them (R292). -/
def pumpFrames (n : Nat) : Nat → State → State
  | 0, s => s
  | k + 1, s =>
    let l := s.link n
    match l.waiting with
    | [] => s
    | f :: rest =>
      if l.replay.foldl (fun t g => t + g.size) f.size ≤ 16384 then
        let g := { f with lseq := l.sendSeq }
        pumpFrames n k ((s.setLink n { l with
          waiting := rest, replay := l.replay ++ [g], sendSeq := (l.sendSeq + 1) % 4096 }).emit
            (.linkFrame n g.type g.dst g.payload))
      else s

/-- Send what waits on a link that is UP (R291, R301). -/
def State.linkPump (s : State) (n : Nat) : State :=
  if s.fld F.lnkStsState n = 4 then pumpFrames n (s.link n).waiting.length s else s

/-- Hand a frame to a link; it waits there until the link is UP and the replay buffer has room. -/
def State.linkSend (s : State) (n type dst rseq hops : Nat) (payload : List Byte) : State :=
  let l := s.link n
  (s.setLink n { l with waiting := l.waiting ++ [⟨0, type, dst, rseq, hops, payload, 0⟩] }).linkPump n

/-- A byte string cut into pieces of at most `n` bytes. -/
def chunksOf (n : Nat) : Nat → List Byte → List (List Byte)
  | 0, _ => []
  | k + 1, l => if l.isEmpty then [] else l.take n :: chunksOf n k (l.drop n)

/-- A write through a bridge window, as MEM_WR frames of at most 504 data bytes (R300). -/
def State.bridgeWrite (s : State) (n addr : Nat) (bs : List Byte) : State :=
  ((chunksOf 504 (bs.length / 504 + 1) bs).foldl (fun (p : State × Nat) c =>
    (p.1.linkSend n 0x10 0 0 0 (leBytes 8 p.2 ++ c), (p.2 + c.length) % 2 ^ 64)) (s, addr)).1

/-- A posted write across PCIe; while the data link is down it waits (R306). -/
def State.hostPost (s : State) (a : Nat) (bs : List Byte) : State :=
  if s.flag F.pciStsDlUp 0 then s.emit (.hostWrite a bs)
  else s.onDev fun d => { d with pci := { d.pci with waiting := d.pci.waiting ++ [(a, bs)] } }

/-- Bytes written by an engine of the device: to its own memory, out to the host, or
through a bridge window (R301). A span without a target is not written. -/
def State.dmaWrite (s : State) (a : Nat) (bs : List Byte) : State :=
  match s.spanTarget a bs.length with
  | .dram => s.store a bs
  | .sram => s.store a bs
  | .host => s.hostPost (a % 2 ^ 60) bs
  | .window =>
    if a < 0x2080000000 then
      let n := if a < 0x2040000000 then 2 else 3
      s.bridgeWrite n ((s.pair .lnkBrBaseLo .lnkBrBaseHi n + a % 0x40000000) % 2 ^ 64) bs
    else s
  | .none => s

end Sys2Proof.Machine
end

