-- ==== Sys2Proof/Machine/Events.lean ====
section
/-! DEFINITION. Interrupt vectors (R305), completion queues (R260, R268), events and their routing (R437, R438), access
errors (R432) and sticky event flags (R435). -/
namespace Sys2Proof.Machine

/-- Is a vector masked by its MSI-X table entry (R305)? -/
def State.vectorMasked (s : State) (v : Nat) : Bool := s.reg .pciMsixTab (4 * v + 3) % 2 = 1

/-- The message of a vector leaves on the path of its group of 64 (R305). -/
def State.sendMessage (s : State) (v : Nat) : State :=
  let g := v / 64
  match bitsOf (s.reg .pciIntPath (g / 16)) (2 * (g % 16) + 1) (2 * (g % 16)) with
  | 1 => s.linkSend 2 0x16 0 0 0 (leBytes 2 v)
  | 2 => s.linkSend 3 0x16 0 0 0 (leBytes 2 v)
  | _ => s.hostPost (s.reg .pciMsixTab (4 * v) + 2 ^ 32 * s.reg .pciMsixTab (4 * v + 1))
      (leBytes 4 (s.reg .pciMsixTab (4 * v + 2)))

/-- Set or clear the pending bit of a vector (R305). -/
def State.setPba (s : State) (v : Nat) (b : Bool) : State :=
  s.setReg .pciMsixPba (v / 32) (putBits (s.reg .pciMsixPba (v / 32)) (v % 32) (v % 32) (b2n b))

/-- Send a vector, or leave its pending bit while it is masked (R305, R437). -/
def State.sendVector (s : State) (v : Nat) : State :=
  if s.vectorMasked v then s.setPba v true else s.sendMessage v

/-! Completion queues. `k` names queue 4096 + k. -/

/-- Is the queue full (R260)? -/
def State.cqFull (s : State) (k : Nat) : Bool :=
  let m := 2 ^ s.fld F.dmaCqCtlSizeLog2 k
  (s.reg .dmaCqWr k + m - s.reg .dmaCqRd k % m) % m = m - 1

/-- The pending-record count of a queue (R268). -/
def State.cqPending (s : State) (k : Nat) : Nat := smGet 0 s.dev.dma.cqPend k

/-- Put the pending-record count. -/
def State.setCqPending (s : State) (k n : Nat) : State :=
  s.onDev fun d => { d with dma := { d.dma with cqPend := smPut 0 d.dma.cqPend k n } }

/-- Post the queue's interrupt; posting clears the count (R268). -/
def State.cqInterrupt (s : State) (k : Nat) : State :=
  (s.setCqPending k 0).sendVector (s.fld F.dmaCqCtlVector k)

/-- Count a record that asks for an interrupt (R268). -/
def State.cqCount (s : State) (k : Nat) : State :=
  let n := s.cqPending k + 1
  if s.fld F.dmaCqCoalCoalCnt k ≤ n then s.cqInterrupt k else s.setCqPending k n

/-- The address of the record slot that WR names (R259). -/
def State.cqSlot (s : State) (k : Nat) : Nat :=
  s.pair .dmaCqBaseLo .dmaCqBaseHi k + 16 * s.reg .dmaCqWr k

/-- Can the ring's slot be written (R249)? -/
def State.cqReachable (s : State) (k : Nat) : Bool := decide (s.spanTarget (s.cqSlot k) 16 ≠ .none)

/-- Write one record into a queue with room: the record at WR with PHASE, WR forward, PHASE flipped at the wrap (R260),
and the interrupt count for a record that counts (R268). -/
def State.cqWrite (s : State) (k : Nat) (r : CqRec) (counts : Bool) : State :=
  let wr := s.reg .dmaCqWr k
  let s1 := s.dmaWrite (s.cqSlot k) (cqBytes r (s.flag F.dmaCqStsPhase k) s.tag)
  let next := (wr + 1) % 2 ^ s.fld F.dmaCqCtlSizeLog2 k
  let s2 := s1.setReg .dmaCqWr k next
  let s3 := if next = 0 then s2.setFlag F.dmaCqStsPhase k (!s.flag F.dmaCqStsPhase k) else s2
  if counts then s3.cqCount k else s3

/-! Events. -/

/-- The pending slot of an event (R438). -/
def State.evtSlot (s : State) (e : Nat) : Option EvtSlot := smGet none s.dev.dma.evtSlots e

/-- Put the pending slot of an event. -/
def State.setEvtSlot (s : State) (e : Nat) (x : Option EvtSlot) : State :=
  s.onDev fun d => { d with dma := { d.dma with evtSlots := smPut none d.dma.evtSlots e x } }

/-- The event record (R438). -/
def evtRec (e : Nat) (x : EvtSlot) : CqRec :=
  { low7 := x.inst % 65536 + 65536 * e, done := satN 24 x.count, status := 0xE0, time := some x.time }

/-- A posting routed to a completion queue: the record is written, or kept in the event's pending slot while the queue
is full or the slot already holds one; a disabled queue sets the event's error bit (R438). -/
def State.postToQueue (s : State) (e inst : Nat) : State :=
  let k := s.fld F.sysEvtRouteEq e
  if !s.flag F.dmaCqCtlEn k then
    s.setReg .sysEvtErr (e / 32) (s.reg .sysEvtErr (e / 32) ||| 2 ^ (e % 32))
  else
    match s.evtSlot e with
    | some x => s.setEvtSlot e (some { x with count := satN 24 (x.count + 1), inst := inst })
    | none =>
      if s.cqFull k then (s.setEvtSlot e (some ⟨1, inst, s.tag⟩)).setFlag F.dmaCqStsFull k true
      else s.cqWrite k (evtRec e ⟨1, inst, s.tag⟩) true

/-- The interrupt input of a lockstep pair for an event (R437). -/
def State.irq (s : State) (pair e : Nat) : Bool := bitOf s.dev.dma.irqs (64 * pair + e)

/-- Raise or lower an interrupt input of a pair (R437). -/
def State.setIrq (s : State) (pair e : Nat) (b : Bool) : State :=
  (s.onDev fun d => { d with dma :=
    { d.dma with irqs := putBits d.dma.irqs (64 * pair + e) (64 * pair + e) (b2n b) } }).emit (.coreIrq pair e b)

/-- Status bits of word i have been written: clearing one lowers the interrupt inputs that it raised (R437). -/
def State.lowerIrqs (s : State) (i : Nat) : State :=
  [0, 1].foldl (fun t pair => (List.range 32).foldl (fun t j =>
    if t.irq pair (32 * i + j) && !bitOf (t.reg .sysEvtSts i) j then t.setIrq pair (32 * i + j) false else t) t) s

/-- Post event `e` with an instance (R437): the status bit sets; IRQ_EN sends the vector at the 0-to-1 transition, EQ_EN
writes an event record, CORE_EN raises the interrupt input of its pair. -/
def State.post (s : State) (e inst : Nat) : State :=
  let w := s.reg .sysEvtSts (e / 32)
  let was := bitOf w (e % 32)
  let s1 := s.setReg .sysEvtSts (e / 32) (w ||| 2 ^ (e % 32))
  let s2 := if s.flag F.sysEvtRouteIrqEn e && !was then s1.sendVector (s.fld F.sysEvtRouteVector e) else s1
  let s3 := if s.flag F.sysEvtRouteEqEn e then s2.postToQueue e inst else s2
  if s.flag F.sysEvtRouteCoreEn e then s3.setIrq (s.fld F.sysEvtRouteCorePair e) e true else s3

/-- Set a sticky event flag: the event is posted at its own 0-to-1 transition (R435). -/
def State.raise (s : State) (f : RegField) (i e inst : Nat) : State :=
  if s.flag f i then s else (s.setFlag f i true).post e inst

/-- The MASTER code of SYS_ACC_ERR_LAST (R431). -/
def masterCode : Master → Nat
  | .host => 0 | .pair0 => 1 | .pair1 => 2 | .peer2 => 3 | .peer3 => 4 | .debug => 5 | .boot => 6

/-- Count an access error and load SYS_ACC_ERR_LAST; the count posts event 22 (R432, R436). -/
def State.accErr (s : State) (m : Master) (kind addr : Nat) : State :=
  ((s.bump F.sysAccErrCntCount 0 1).setReg .sysAccErrLast 0
    (packBits [(26, addr / 4), (3, kind), (3, masterCode m)])).post 22 (masterCode m)

end Sys2Proof.Machine
end

