-- ==== Sys2Proof/Machine/Acq.lean ====
section
/-! DEFINITION. The acquisition engine: rings (R233), watermarks (R234), units that do not fit (R235), the record-unit
bucket (R236), gap records (R237, R247, R457), change records (R244, R245) and measurement records (R246). -/
namespace Sys2Proof.Machine

/-- A stream's record. -/
def State.stream (s : State) (n : Nat) : StreamSt := smGet {} s.dev.acq.streams n

/-- Put a stream's record. -/
def State.setStream (s : State) (n : Nat) (x : StreamSt) : State :=
  s.onDev fun d => { d with acq := { d.acq with streams := smPut {} d.acq.streams n x } }

/-- Is stream `n` on with the class given (0 point cloud, 1 line, 2 state, 3 measurement)? -/
def State.streamOn (s : State) (n cls : Nat) : Bool :=
  s.flag F.acqStrCtlOn n && decide (s.fld F.acqStrCtlClass n = cls)

/-- The streams that are on with a class, in ascending order. -/
def State.streamsOf (s : State) (cls : Nat) : List Nat := (List.range 64).filter fun n => s.streamOn n cls

/-- The ring size in bytes. -/
def State.ringSize (s : State) (n : Nat) : Nat := 2 ^ s.fld F.acqStrSizeSizeLog2 n

/-- The fill of a ring (R233). -/
def State.fill (s : State) (n : Nat) : Nat :=
  let m := s.ringSize n
  (s.reg .acqStrWr n + m - s.reg .acqStrRd n % m) % m

/-- Bytes stored in a ring from an offset, wrapping past its end (R233). -/
def State.ringStore (s : State) (n off : Nat) (bs : List Byte) : State :=
  let m := s.ringSize n
  let base := s.pair .acqStrBaseLo .acqStrBaseHi n
  (s.store (base + off) (bs.take (m - off))).store base (bs.drop (m - off))

/-- A record padded with zero bytes to a multiple of 8 (R233). -/
def pad8 (bs : List Byte) : List Byte := bs ++ List.replicate ((8 - bs.length % 8) % 8) 0#8

/-- HIGH follows the watermarks of a line stream (R234). -/
def State.updateHigh (s : State) (n : Nat) : State :=
  if s.fld F.acqStrCtlClass n = 1 then
    let f := s.fill n * 1024
    let m := s.ringSize n
    if s.fld F.acqStrWmHwm n * m ≤ f then s.setFlag F.acqStrStsHigh n true
    else if f < s.fld F.acqStrWmLwm n * m then s.setFlag F.acqStrStsHigh n false
    else s
  else s

/-- One record written at WR; WR advances after the whole record is stored (R233). -/
def State.ringPut (s : State) (n : Nat) (bs : List Byte) : State :=
  let p := pad8 bs
  let wr := s.reg .acqStrWr n
  (((s.ringStore n wr p).setReg .acqStrWr n ((wr + p.length) % s.ringSize n)).bump F.acqStrRecCntCount n 1).updateHigh n

/-- Several records written in order. -/
def State.ringPutAll (s : State) (n : Nat) (l : List (List Byte)) : State := l.foldl (fun t b => t.ringPut n b) s

/-- The padded bytes of a unit. -/
def unitSize (l : List (List Byte)) : Nat := l.foldl (fun t b => t + (pad8 b).length) 0

/-- Is there room for a unit behind the stream's waiting gap records (R233, R237)? -/
def State.fits (s : State) (n : Nat) (l : List (List Byte)) : Bool :=
  decide (s.fill n + 24 * (s.stream n).gaps.length + unitSize l + 24 < s.ringSize n)

/-- Write the waiting gap records, oldest first (R237). -/
def State.putGaps (s : State) (n : Nat) : State :=
  let x := s.stream n
  (s.ringPutAll n (x.gaps.map gapBytes)).setStream n { x with gaps := [] }

/-- Write a unit behind the waiting gap records. -/
def State.putUnit (s : State) (n : Nat) (l : List (List Byte)) : State :=
  ((s.putGaps n).ringPutAll n l).setFlag F.acqStrStsFull n false

/-- A loss recorded for a stream: losses of one reason with no record accepted between them form one gap record
(R237). -/
def mergeGap (g : GapRec) : List GapRec → List GapRec
  | [] => [g]
  | [h] =>
    if h.reason = g.reason ∧ h.urgent = false ∧ g.urgent = false then
      [{ h with lost := h.lost + g.lost, dist := h.dist + g.dist }]
    else [h, g]
  | h :: t => h :: mergeGap g t

/-- Add a loss to a stream's waiting gap records. -/
def State.addGap (s : State) (n : Nat) (g : GapRec) : State :=
  let x := s.stream n
  s.setStream n { x with gaps := mergeGap g x.gaps }

/-- Write waiting gap records into the reserve while one has room (R237). -/
def flushGaps (n : Nat) : Nat → State → State
  | 0, s => s
  | k + 1, s =>
    let x := s.stream n
    match x.gaps with
    | [] => s
    | g :: rest =>
      if s.fill n + 24 < s.ringSize n then
        flushGaps n k ((s.ringPut n (gapBytes g)).setStream n { x with gaps := rest })
      else s

/-- The gap record of a state stop, written at once as far as the ring has room; what waits is written as soon as RD
frees its 24 bytes (R237). -/
def State.stopGap (s : State) (n reason : Nat) : State :=
  let x := s.stream n
  let s1 := s.setStream n { x with gaps := x.gaps ++ [⟨s.tag, 0, 0xFFFF, reason, 0, true⟩] }
  flushGaps n (x.gaps.length + 1) s1

/-- How many of the waiting gap records stand up to the last one of a state stop. -/
def urgentGaps : List GapRec → Nat
  | [] => 0
  | g :: l => if l.any (·.urgent) then urgentGaps l + 1 else b2n g.urgent

/-- On room: waiting gap records up to the last state-stop record are written as they fit; those behind it wait for the next
record accepted (R237). -/
def State.flushUrgent (s : State) (n : Nat) : State := flushGaps n (urgentGaps (s.stream n).gaps) s

/-- A unit of `k` records that did not fit is lost from a point-cloud or measurement stream (R235). -/
def State.loseUnit (s : State) (n k time source : Nat) : State :=
  (((s.setFlag F.acqStrStsFull n true).bump F.acqStrLostCntCount n k).raise F.acqStrStsLoss n 20 n).addGap n
    ⟨time, k, source, 0x50, 0, false⟩

/-- Offer a unit to a point-cloud or measurement stream. -/
def State.offerUnit (s : State) (n time source : Nat) (l : List (List Byte)) : State :=
  if s.fits n l then s.putUnit n l else s.loseUnit n l.length time source

/-! Change records. -/

/-- The group of a source id (R245); 16 for a reserved id. -/
def sourceGroup (src : Nat) : Nat :=
  if src < 0x100 then 0 else if src < 0x200 then 1 else if src < 0x300 then 2 else if src = 0x300 then 3
  else if 0x400 ≤ src ∧ src ≤ 0x407 then 4 else 16

/-- Does a state stream select a source (R245)? -/
def State.selects (s : State) (n src : Nat) : Bool :=
  decide (sourceGroup src < 16) && bitOf (s.pair .acqStrSelLo .acqStrSelHi n) (sourceGroup src)

/-- A change into the pending slots of a stream, kept in ascending source; a newer change of the same source overwrites
the slot (R235). -/
def pendPut (v : PendVal) : List PendVal → List PendVal
  | [] => [v]
  | p :: l => if v.source < p.source then v :: p :: l
      else if v.source = p.source then v :: l else p :: pendPut v l

/-- The record of a pending value (R235, R244). -/
def pendBytes (p : PendVal) : List Byte := changeBytes p.time p.value p.source (p.flags ||| 2) p.kind

/-- Write pending values in ascending source while there is room (R235). -/
def flushPend (n : Nat) : Nat → State → State
  | 0, s => s
  | k + 1, s =>
    match (s.stream n).pend with
    | [] => s
    | p :: rest =>
      if s.fits n [pendBytes p] then
        let s1 := s.putUnit n [pendBytes p]
        flushPend n k (s1.setStream n { s1.stream n with pend := rest })
      else s

/-- Hand one change to one state stream: written, or kept in its source's slot (R235). -/
def State.offerChange (s : State) (n src : Nat) (v : SrcVal) (flags time : Nat) : State :=
  let fl := flags + (if v.invalid then 8 else 0)
  let rec' := changeBytes time v.value src fl v.kind
  let x := s.stream n
  if x.pend.isEmpty && s.fits n [rec'] then s.putUnit n [rec']
  else
    let ovr := x.pend.any (fun p => p.source = src)
    let s1 := (s.setFlag F.acqStrStsFull n true).setStream n
      { x with pend := pendPut ⟨src, time, v.value, v.kind, fl⟩ x.pend }
    if ovr then s1.bump F.acqStrCoalCntCount n 1 else s1

/-- The kind of a source (R226, R245, R359, R369, R426). -/
def sourceKind (src : Nat) : Nat :=
  if src < 0x100 then (if src = 0x30 then 0x13 else 0x12)
  else if src < 0x134 then 0x13
  else if src < 0x200 then (if src = 0x134 then 0x12 else 0x10)
  else if src ≤ 0x240 then 0x11
  else if src = 0x241 then 0x10
  else if src < 0x400 then 0x12
  else if src % 2 = 0 then 0x10 else 0x11

/-- What a source reports before its first change: 0, and for a tracker its lost value (R226). -/
def sourceFirst (src : Nat) : SrcVal :=
  if src < 0x400 then ⟨0, sourceKind src, false⟩
  else ⟨if src % 2 = 0 then 0xFFFFFFFF else 0x80000000, sourceKind src, true⟩

/-- The last value a source reported. -/
def State.srcVal (s : State) (src : Nat) : SrcVal :=
  let v := smGet {} s.dev.acq.src src
  if v.kind = 0 then sourceFirst src else v

/-- The states in which state and measurement records are made (R230). -/
def OpState.records : OpState → Bool
  | .ready | .run | .safeHold => true
  | _ => false

/-- Hand a change record to every state stream that selects the source (R230, R244). -/
def State.recordChange (s : State) (src : Nat) (v : SrcVal) (time : Nat) : State :=
  if s.sys.op.records then
    (s.streamsOf 2).foldl (fun t n => if t.selects n src then t.offerChange n src v 0 time else t) s
  else s

/-- A source reports a value of an instant; one that differs from the last is a change (R244). -/
def State.changeAt (s : State) (src kind value : Nat) (invalid : Bool) (time : Nat) : State :=
  let v : SrcVal := ⟨value % 2 ^ 32, kind, invalid⟩
  if v = s.srcVal src then s
  else (s.onDev fun d => { d with acq := { d.acq with src := smPut {} d.acq.src src v } }).recordChange src v time

/-- A value that its home chapter has recorded whether or not it differs from the last (R226, R244). -/
def State.changeForced (s : State) (src kind value : Nat) (invalid : Bool) (time : Nat) : State :=
  let v : SrcVal := ⟨value % 2 ^ 32, kind, invalid⟩
  (s.onDev fun d => { d with acq := { d.acq with src := smPut {} d.acq.src src v } }).recordChange src v time

/-- A source reports a value now. -/
def State.change (s : State) (src kind value : Nat) (invalid : Bool) : State :=
  s.changeAt src kind value invalid s.tag

/-! The record-unit limit (R236). -/

/-- The record units accepted in the last whole second, as ACQ_ECHO_RATE shows them (R248). -/
def State.echoRate (s : State) : Nat :=
  let a := s.dev.acq
  let sec := s.dev.time.c / 1000000000
  if sec = a.second then s.fld F.acqEchoRateRate 0 else if sec = a.second + 1 then a.accepted else 0

/-- Refill the bucket and roll the second of ACQ_ECHO_RATE. -/
def State.refillTokens (s : State) : State :=
  let a := s.dev.acq
  let c := s.dev.time.c
  let sec := c / 1000000000
  (s.setFld F.acqEchoRateRate 0 s.echoRate).onDev fun d => { d with acq := { d.acq with
    milliTokens := min 1024000 (a.milliTokens + 24 * (c - a.tokensAt)), tokensAt := c,
    second := sec, accepted := if sec = a.second then a.accepted else 0 } }

/-- Take tokens for `k` record units; none are taken where they do not all exist (R236). -/
def State.takeTokens (s : State) (k : Nat) : Bool × State :=
  let s1 := s.refillTokens
  let a := s1.dev.acq
  if 1000 * k ≤ a.milliTokens then
    (true, s1.onDev fun d => { d with acq := { d.acq with
      milliTokens := a.milliTokens - 1000 * k, accepted := a.accepted + k } })
  else (false, s1)

/-! Measurement records (R246). -/

/-- Offer the newest result of a slot to a stream; STALE where no new result came since the slot's last record. -/
def State.offerMeas (s : State) (n slot : Nat) : State :=
  let r := smGet ({} : MeasRes) s.dev.acq.newest slot
  let x := s.stream n
  let stale := !x.fresh.contains slot
  let s1 := s.offerUnit n r.time slot
    [measBytes r.time r.value r.detector slot (r.flags + (if stale then 32 else 0)) r.frac]
  s1.setStream n { s1.stream n with fresh := x.fresh.filter (· ≠ slot) }

/-- A slot delivers a result: streams with TIMER 0 record it at once, streams with TIMER 1 keep it (R246). -/
def State.measResult (s : State) (slot : Nat) (r : MeasRes) : State :=
  let s1 := s.onDev fun d => { d with acq := { d.acq with newest := smPut {} d.acq.newest slot r } }
  (s1.streamsOf 3).foldl (fun t n =>
    if bitOf (t.pair .acqStrSelLo .acqStrSelHi n) slot then
      let x := t.stream n
      let t1 := t.setStream n { x with fresh := slot :: x.fresh.filter (· ≠ slot) }
      if !t1.flag F.acqStrCtlTimer n && t1.sys.op.records then t1.offerMeas n slot else t1
    else t) s1

/-! RD writes and STREAM_OFF. -/

/-- A legal RD write (R233). -/
def State.rdLegal (s : State) (n v : Nat) : Bool :=
  let m := s.ringSize n
  let rd := s.reg .acqStrRd n
  decide (v % 8 = 0) && decide (v < m) && decide ((v + m - rd % m) % m ≤ s.fill n)

/-- The engine's part of an accepted RD write: RD moves, room is used by waiting gap records and, while the stream records,
by pending values, HIGH follows (R230, R233, R235, R237). -/
def State.advanceRd (s : State) (n v : Nat) : State :=
  let s1 := (s.setReg .acqStrRd n v).updateHigh n
  let s2 := s1.flushUrgent n
  if s2.sys.op.records then flushPend n (s2.stream n).pend.length s2 else s2

/-- Records lost by a stream that writes nothing more of them (R235, R457). -/
def State.countLost (s : State) (n k : Nat) : State :=
  if k = 0 then s else (s.bump F.acqStrLostCntCount n k).raise F.acqStrStsLoss n 20 n

/-- What a line stream still has to write as it closes, in order (R221, R243, R457): a gap record waits for room, a header
that finds none is dropped and counted. -/
def State.closeWith (s : State) (n : Nat) : List (GapRec ⊕ List Byte) → State
  | [] => s
  | .inl g :: l =>
    let x := s.stream n
    let s1 := s.setStream n { x with gaps := x.gaps ++ [{ g with urgent := true }] }
    (flushGaps n (x.gaps.length + 1) s1).closeWith n l
  | .inr b :: l =>
    if (s.stream n).gaps.isEmpty && s.fits n [b] then (s.ringPut n b).closeWith n l else (s.countLost n 1).closeWith n l

/-- What STREAM_OFF writes before it stops a stream (R457): waiting gap records, then `closing` (a line stream's losses and
closing header), then pending values; what does not fit is dropped and counted. -/
def State.drainStream (s : State) (n : Nat) (closing : List (GapRec ⊕ List Byte)) : State :=
  let s1 := (flushGaps n (s.stream n).gaps.length s).closeWith n closing
  let s2 := if (s1.stream n).gaps.isEmpty then flushPend n (s1.stream n).pend.length s1 else s1
  let s3 := s2.countLost n ((s2.stream n).gaps.length + (s2.stream n).pend.length)
  s3.setStream n { s3.stream n with gaps := [], pend := [], fresh := [] }

end Sys2Proof.Machine
end

