-- ==== Sys2Proof/Machine/FaultLog.lean ====
section
/-! DEFINITION. The fault log (R370), the fault map (R367, R368) and the change sources of group 1 (R369). -/
namespace Sys2Proof.Machine

/-- Append an entry with the time tag of its detection to the fault log (R370): a full log overwrites its oldest entry,
TAIL advances and OVF_CNT counts. The entry posts event 5 (R436) and moves source 0x0136 (R369). -/
def State.logFaultAt (s : State) (time code flags cls logical phys : Nat) : State :=
  let head := s.fld F.fmkLogHeadHead 0
  let tail := s.fld F.fmkLogTailTail 0
  let s1 := if (head + 512 - tail) % 512 = 256 then
      (s.setFld F.fmkLogTailTail 0 ((tail + 1) % 512)).bump F.fmkLogOvfCntCount 0 1 else s
  let slot := head % 256
  let s2 := ((logWords time code flags cls logical phys).foldl
    (fun (p : State × Nat) w => (p.1.setReg .fmkLog p.2 w, p.2 + 1)) (s1, 4 * slot)).1
  let next := (head + 1) % 512
  ((s2.setFld F.fmkLogHeadHead 0 next).post 5 slot).change 0x136 0x10 next false

/-- Log what is detected now. -/
def State.logFault (s : State) (code flags cls logical phys : Nat) : State := s.logFaultAt s.tag code flags cls logical phys

/-- The positions of cluster `c` that stand in the fault map, for any reason (R368, R369). -/
def State.mapBits (s : State) (c : Nat) : Nat :=
  if s.flag F.fmkBankFailing c then 0xFFFF
  else s.fld F.fmkMapDeadDead c ||| s.fld F.fmkMapDeadStuck c ||| s.fld F.fmkMapEngOne c ||| s.fld F.fmkMapEngNone c

/-- Does channel `ch` stand in the fault map? -/
def State.mapped (s : State) (ch : Nat) : Bool := bitOf (s.mapBits (ch / 16)) (ch % 16)

/-- MAP_ANY follows the map (R371). -/
def State.updateMapAny (s : State) : State :=
  s.setFlag F.fmkStsMapAny 0 ((List.range 48).any (fun c => decide (s.mapBits c ≠ 0))
    || decide (s.reg .fmkMapPort 0 ≠ 0) || decide (s.reg .fmkMapMisc 0 ≠ 0))

/-- The map of a cluster has changed: MAP_ANY and source 0x0100 + c follow. -/
def State.clusterMapChanged (s : State) (c : Nat) : State :=
  s.updateMapAny.change (0x100 + c) 0x13 (s.mapBits c) false

/-- Put a position's bit in one of the map fields of a cluster. -/
def State.setMapBit (s : State) (f : RegField) (c p : Nat) (b : Bool) : State :=
  (s.setFld f c (putBits (s.fld f c) p p (b2n b))).clusterMapChanged c

/-- An emitter port enters the map as withdrawn (R368, R369). -/
def State.mapPort (s : State) (n : Nat) (b : Bool) : State :=
  let s1 := (s.setFld F.fmkMapPortPorts 0 (putBits (s.fld F.fmkMapPortPorts 0) n n (b2n b))).updateMapAny
  s1.change 0x130 0x13 (s1.reg .fmkMapPort 0) false

/-- The miscellaneous map has changed: sources 0x0131 to 0x0133 follow (R369). -/
def State.miscMapChanged (s : State) : State :=
  let s1 := s.updateMapAny
  let spare := ((List.range 4).foldl (fun t n => t + (if s1.flag F.lnkStsSpareUsed n then 2 ^ n else 0)) 0)
  ((s1.change 0x131 0x13 (s1.fld F.fmkMapMiscLost 0 + 16 * s1.fld F.fmkMapMiscRetired 0) false).change
    0x132 0x13 (s1.fld F.fmkMapMiscLinks 0 + 16 * spare) false).change 0x133 0x13 (s1.fld F.fmkMapMiscUtil 0) false

/-- Put bit `i` of a field of FMK_MAP_MISC. -/
def State.mapMisc (s : State) (f : RegField) (i : Nat) (b : Bool) : State :=
  (s.setFld f 0 (putBits (s.fld f 0) i i (b2n b))).miscMapChanged

/-- An uncorrectable word of an SRAM region has been read (R273, R370, R436): 0 histogram, 1 line, 2 shading, 3 general. -/
def State.sramUe (s : State) (region : Nat) : State :=
  ((s.bump F.memSramUeCntCount 0 1).raise F.memSramStsUe 0 6 region).logFault 0x07 0 0x06 region region

end Sys2Proof.Machine
end

