-- ==== Sys2Proof/Machine/Tdc.lean ====
section
/-! DEFINITION. The vernier engines (R81 to R102, R118): calibration slots, the bow, tables, conversion to a time in the
shot epoch, failures and spares. Units are numbered as at `Engine`; an engine without registers of its own keeps the same
register fields at its unit number, where no address leads. -/
namespace Sys2Proof.Machine

/-- An engine's record; a spare's shadowed position starts at 0 for spare 32 and at 8 for spare 33 (R101). -/
def State.engine (s : State) (u : Nat) : Engine := smGet {} s.dev.rng.engines u

/-- Put an engine's record. -/
def State.setEngine (s : State) (u : Nat) (e : Engine) : State :=
  s.onDev fun d => { d with rng := { d.rng with engines := smPut {} d.rng.engines u e } }

/-- The start-sense engine of a port. -/
def senseUnit (p : Nat) : Nat := 2000 + p

/-- A spare start-sense engine. -/
def senseSpare (j : Nat) : Nat := 2032 + j

/-- A utility engine. -/
def utilUnit (n : Nat) : Nat := 2100 + n

/-- The cluster of a channel engine. -/
def unitCluster (u : Nat) : Nat := u / 34

/-- SERVICE of a unit (R107, R129): 0 own unit, 1 served by a spare, 2 spare in reserve, 3 no unit. -/
def State.service (s : State) (u : Nat) : Nat :=
  if u < 1632 then s.fld F.tdcEngStsService u
  else if u < 2032 then s.fld F.emtPortStsSseService (u - 2000)
  else if u < 2036 then bitsOf (s.reg .emtSseSpare 0) (2 * (u - 2032) + 1) (2 * (u - 2032))
  else if s.flag F.tdcUtilStsFailed (u - 2100) then 3 else 0

/-- Put SERVICE of a unit. -/
def State.setService (s : State) (u v : Nat) : State :=
  if u < 1632 then s.setFld F.tdcEngStsService u v
  else if u < 2032 then s.setFld F.emtPortStsSseService (u - 2000) v
  else if u < 2036 then
    s.setReg .emtSseSpare 0 (putBits (s.reg .emtSseSpare 0) (2 * (u - 2032) + 1) (2 * (u - 2032)) v)
  else s

/-- Code centre `k` of the default table (R93): round(65536 (k + 0.5) / 128). -/
def defaultCentre (k : Nat) : Nat := 512 * k + 256

/-- Code centre `k` of a table. -/
def centreOf (t : Option (List Nat)) (k : Nat) : Nat :=
  match t with
  | none => defaultCentre k
  | some l => l.getD k 0

/-- d_raw of R94 in 1/65,536 ns, from a table with gbow in 1/256: the code centre, and a step of 1 / gbow for each code below
0 or above 127, carried to 1/65,536 ns. -/
def rawTime (t : Option (List Nat)) (gb : Nat) (k : Int) : Int :=
  if k < 0 then (centreOf t 0 : Int) + divRound (k * 65536 * 256) gb
  else if 127 < k then (centreOf t 127 : Int) + divRound ((k - 127) * 65536 * 256) gb
  else centreOf t k.toNat

/-- The time of a conversion in 1/65,536 ns after the fire edge (R94), from the coarse count and the vernier count; each
intermediate value is carried to 1/65,536 ns, to the nearest (log entry 9). `gb` is gbow in 1/256. -/
def convTime (e : Engine) (gb c n : Nat) : Int :=
  (c : Int) * 65536 - divRound (rawTime e.table gb ((n : Int) - e.skew) * gb) (256 * e.g)

/-- The 23-bit timestamp code of a time against the shot reference (R95): floor(tau * 128 + 0.5), held at 0 below. -/
def tauCode (t tRef : Int) : Nat := (divFloor (t - tRef + 256) 512).toNat % 2 ^ 23

/-! Calibration and boundaries. -/

/-- Apply an accepted table that waits (R92, R93). Where the boundary finds the gate of shot `open'` still open, that shot goes
on with the table it began with. -/
def State.applyTable (s : State) (u : Nat) (open' : Option Nat) : State :=
  let e := s.engine u
  match e.waiting with
  | none => s
  | some (t, gb) =>
    let s1 := (((s.setEngine u { e with
      table := some t, waiting := none, prev := open'.map fun n => (n, e.table, s.fld F.tdcEngGbowGBow u) }).bump
        F.tdcEngBowCntCount u 1).setPair .tdcEngBowTimeLo .tdcEngBowTimeHi u s.tag).setFld F.tdcEngGbowGBow u gb
    let s2 := (s1.setFlag F.tdcEngStsBowValid u true).setFlag F.tdcEngStsTable u (!s.flag F.tdcEngStsTable u)
    if 2000 ≤ u ∧ u < 2032 then s2.setFlag F.emtPortStsSseBowValid (u - 2000) true else s2

/-- The table and gbow that a hit of shot `n` is converted with (R92). -/
def State.shotTable (s : State) (u n : Nat) : Option (List Nat) × Nat :=
  let e := s.engine u
  let now := (e.table, s.fld F.tdcEngGbowGBow u)
  match e.prev with
  | some (m, t) => if m = n then t else now
  | none => now

/-- Copy what a spare unit brings to the unit it replaces: its record, N1 and N2, ring trim and table (R100, R101). The
sticky flags and the SKIP and REJ counts stay those of the logical unit (R6, log entry 10). -/
def State.copyUnit (s : State) (src dst : Nat) : State :=
  let s1 := s.setEngine dst { s.engine src with conv := none, busy := false, failed := false }
  let copy (t : State) (r : Reg) : State := t.setReg r dst (t.reg r src)
  let s2 := copy (copy (copy (copy (copy s1 .tdcEngCal) .tdcEngGbow) .tdcEngBowCnt) .tdcEngBowTimeLo) .tdcEngBowTimeHi
  let s3 := ((s2.setFld F.tdcEngStsRingTrim dst (s.fld F.tdcEngStsRingTrim src)).setFld F.tdcEngStsBowValid dst
    (s.fld F.tdcEngStsBowValid src)).setFld F.tdcEngStsTable dst (s.fld F.tdcEngStsTable src)
  if 2000 ≤ dst ∧ dst < 2032 then
    s3.setFlag F.emtPortStsSseBowValid (dst - 2000) (s3.flag F.tdcEngStsBowValid dst)
  else s3

/-- The lower-numbered spare of a cluster still in reserve (R100). -/
def State.reserveSpare (s : State) (c : Nat) : Option Nat :=
  if s.fld F.tdcEngStsService (34 * c + 32) = 2 then some 32
  else if s.fld F.tdcEngStsService (34 * c + 33) = 2 then some 33 else none

/-- A channel lost an engine for good: the map shows one engine or none (R102, R368). -/
def State.engineLost (s : State) (u : Nat) : State :=
  let c := unitCluster u
  let p := u % 34 / 2
  let other := 34 * c + (u % 34) / 2 * 2 + (1 - u % 34 % 2)
  let s1 := s.setService u 3
  if s1.service other = 3 then (s1.setMapBit F.fmkMapEngOne c p false).setMapBit F.fmkMapEngNone c p true
  else s1.setMapBit F.fmkMapEngOne c p true

/-- An engine that fails with no spare in reserve leaves its channel with one engine or none (R102); the loss is logged with
the time tag `at'`. -/
def State.loseEngine (s : State) (u at' : Nat) : State :=
  let s1 := (s.setEngine u { s.engine u with failed := false, busy := false, conv := none }).engineLost u
  (s1.logFaultAt at' 0x02 2 0x02 u 0xFFFF).clusterMapChanged (unitCluster u)

/-- The swap of a failed channel engine at a shot boundary (R100, R102): the spare takes its place, or the channel goes
on with one engine or none. Both are logged. -/
def State.swapEngine (s : State) (u : Nat) : State :=
  let c := unitCluster u
  match s.reserveSpare c with
  | some e =>
    let s1 := s.copyUnit (34 * c + e) u
    let s2 := (s1.setService (34 * c + e) 3).setService u 1
    let s3 := s2.setFld (if e = 32 then F.fmkEngSpare32 else F.fmkEngSpare33) c (u % 34)
    s3.logFaultAt (s.engine u).failedAt 0x01 1 0x02 u (34 * c + e)
  | none => s.loseEngine u (s.engine u).failedAt

/-- The lowest-numbered spare start-sense engine still in reserve (R118). -/
def State.reserveSense (s : State) : Option Nat := [0, 1, 2, 3].find? fun j => s.service (senseSpare j) = 2

/-- A port's record. -/
def State.port (s : State) (n : Nat) : PortSt := smGet {} s.dev.rng.ports n

/-- Put a port's record. -/
def State.setPort (s : State) (n : Nat) (p : PortSt) : State :=
  s.onDev fun d => { d with rng := { d.rng with ports := smPut {} d.rng.ports n p } }

/-- A start-sense engine that fails with no spare in reserve leaves its port without one: every shot is withdrawn (R118). -/
def State.loseSense (s : State) (p at' : Nat) : State :=
  let s1 := s.setEngine (senseUnit p) { s.engine (senseUnit p) with failed := false, busy := false }
  let s2 := (s1.setService (senseUnit p) 3).setPort p { s1.port p with noEngine := true }
  (s2.mapPort p true).logFaultAt at' 0x02 2 0x03 p 0xFFFF

/-- The swap of a failed start-sense engine at the start of its port's calibration slot (R118). -/
def State.swapSense (s : State) (p : Nat) : State :=
  match s.reserveSense with
  | some j =>
    let s1 := s.copyUnit (senseSpare j) (senseUnit p)
    let s2 := (s1.setService (senseSpare j) 3).setService (senseUnit p) 1
    s2.logFaultAt (s.engine (senseUnit p)).failedAt 0x03 1 0x03 p (32 + j)
  | none => s.loseSense p (s.engine (senseUnit p)).failedAt

/-- An engine is declared failed (R100 to R102, R105, R118): from this instant it takes no hits, and a hit it converts is lost
uncounted (log entry 68); with no spare in reserve the engine is lost at once; a spare in reserve is withdrawn, a utility
engine's results stop. -/
def State.failEngine (s : State) (u : Nat) : State :=
  let e := s.engine u
  let s1 := s.setEngine u { e with failed := true, failedAt := s.tag, busy := false, conv := none }
  if u < 1632 ∧ 32 ≤ u % 34 then
    if s.service u = 2 then (s1.setService u 3).logFault 0x1A 0 0x02 u 0xFFFF else s1
  else if u < 1632 then (if (s.reserveSpare (unitCluster u)).isNone then s1.loseEngine u s.tag else s1)
  else if 2032 ≤ u ∧ u < 2036 then
    if s.service u = 2 then (s1.setService u 3).logFault 0x1A 0 0x03 (u - 2000) 0xFFFF else s1
  else if 2100 ≤ u then
    ((s1.setFlag F.tdcUtilStsFailed (u - 2100) true).mapMisc F.fmkMapMiscUtil (u - 2100) true).logFault
      0x04 2 0x04 (u - 2100) 0xFFFF
  else if s.reserveSense.isNone then s1.loseSense (u - 2000) s.tag
  else s1

/-- The tile control that governs a unit: a start-sense or utility engine follows no tile's BOW_SWITCH (R118). -/
def State.bowSwitch (s : State) (u : Nat) : Bool :=
  decide (u < 1632) && s.flag F.tdcTileCtlBowSwitch (unitCluster u / 4)

/-- What happens to one engine at its shot boundary: a waiting table is applied while BOW_SWITCH is 0 (R92), and a failed
engine is replaced (R100, R118). `open'` is the shot whose gate is still open. -/
def State.shotBoundary (s : State) (u : Nat) (open' : Option Nat) : State :=
  let s1 := if s.bowSwitch u then s else s.applyTable u open'
  if (s1.engine u).failed then
    if u < 1632 ∧ u % 34 < 32 then s1.swapEngine u
    else if 2000 ≤ u ∧ u < 2032 then s1.swapSense (u - 2000)
    else s1
  else s1

/-- The runs of slots above and below 128 (R88). -/
def countRuns (e : Engine) (g : Int) : Engine :=
  if 128 < g then { e with aboveRun := e.aboveRun + 1, belowRun := 0 }
  else if g < 128 then { e with belowRun := e.belowRun + 1, aboveRun := 0 }
  else { e with aboveRun := 0, belowRun := 0 }

/-- A calibration slot with the counts N1 and N2 (R85, R87, R88): every slot counts toward the ring-trim runs; g and s follow
unless they are out of range; the second slot in succession out of range declares the engine failed. -/
def State.calibrate (s : State) (u n1 n2 : Nat) : State :=
  let s1 := (s.setFld F.tdcEngCalN1 u n1).setFld F.tdcEngCalN2 u n2
  let g : Int := (n2 : Int) - n1
  let k : Int := 2 * (n1 : Int) - n2
  let e := countRuns (s1.engine u) g
  if g < 120 ∨ 136 < g ∨ k < -8 ∨ 8 < k then
    let s2 := (s1.setFlag F.tdcEngStsGainRange u true).setEngine u { e with gainRun := e.gainRun + 1 }
    if 2 ≤ e.gainRun + 1 then s2.failEngine u else s2
  else s1.setEngine u { e with g := g.toNat, skew := k, gainRun := 0 }

/-- One ring-trim step (R88): after 64 successive slots above 128 the stop ring steps faster and RING_TRIM rises, after 64
below it steps slower; a step beyond either end is not taken. -/
def State.ringStep (s : State) (u : Nat) : State :=
  let e := s.engine u
  let r := s.fld F.tdcEngStsRingTrim u
  if 64 ≤ e.aboveRun then
    (s.setEngine u { e with aboveRun := 0, belowRun := 0 }).setFld F.tdcEngStsRingTrim u (if r < 63 then r + 1 else r)
  else if 64 ≤ e.belowRun then
    (s.setEngine u { e with aboveRun := 0, belowRun := 0 }).setFld F.tdcEngStsRingTrim u (r - 1)
  else s

/-- Is bow accumulation on for a unit (R89)? The start-sense and utility engines lie in no tile. -/
def State.bowOn (s : State) (u : Nat) : Bool :=
  if u < 1632 then s.flag F.tdcTileCtlBowEn (unitCluster u / 4) else true

/-- Count a bow sample with vernier count `n` (R89). None is counted between the last of the 2^20 and the table (R90). -/
def State.bowSample (s : State) (u n : Nat) : State :=
  let e := s.engine u
  if s.bowOn u ∧ e.total < 2 ^ 20 then
    let k : Int := (n : Int) - e.skew
    let e1 := { e with total := e.total + 1, sumG := e.sumG + e.g }
    s.setEngine u (if k < 0 then { e1 with low := e.low + 1 }
      else if 127 < k then { e1 with high := e.high + 1 }
      else { e1 with bins := smPut 0 e.bins k.toNat (smGet 0 e.bins k.toNat + 1) })
  else s

/-- The code centres of R90, from k upward with `cum` samples below. -/
def buildCentres (bins : List (Nat × Nat)) : Nat → Nat → Nat → List Nat
  | 0, _, _ => []
  | f + 1, k, cum =>
    let h := smGet 0 bins k
    (divRound (65536 * (2 * (cum : Int) + h)) (2 ^ 21)).toNat :: buildCentres bins f (k + 1) (cum + h)

/-- Is a table rejected (R91)? -/
def rejectBow (bins : List (Nat × Nat)) : Bool :=
  (List.range 120).any (fun k => smGet 0 bins k = 0) || (List.range 128).any (fun k => decide (32768 < smGet 0 bins k))

/-- A table is built once 2^20 samples are held, and all counts are cleared (R90, R91). An accepted table waits for its
boundary, replacing one that waits (R92); the third rejection in succession declares the engine failed. A spare moves on
to the next position after each accepted table (R101). -/
def State.buildTable (s : State) (u : Nat) : State :=
  let e := s.engine u
  if e.total < 2 ^ 20 then s
  else
    let cleared := { e with bins := [], low := 0, high := 0, total := 0, sumG := 0 }
    if rejectBow e.bins then
      let s1 := ((s.setFlag F.tdcEngStsBowReject u true).bump F.tdcEngRejCntCount u 1).setEngine u
        { cleared with rejRun := e.rejRun + 1 }
      if 3 ≤ e.rejRun + 1 then s1.failEngine u else s1
    else
      s.setEngine u { cleared with
        rejRun := 0, waiting := some (buildCentres e.bins 128 0 e.low, (divRound (e.sumG * 256) (2 ^ 20)).toNat)
        shadow := (e.shadow + 1) % 16 }

/-- The position a spare engine shadows (R101). -/
def State.shadowPos (s : State) (u : Nat) : Nat := ((s.engine u).shadow + (if u % 34 = 33 then 8 else 0)) % 16

/-- An engine frees; the engine free longest takes the next hit (R84). -/
def State.freeEngine (s : State) (u : Nat) : State :=
  let q := s.dev.rng.seq + 1
  (s.setEngine u { s.engine u with busy := false, conv := none, freeSince := q }).onDev fun d =>
    { d with rng := { d.rng with seq := q } }

/-- Can an engine take a hit: its unit in service, not failed, not busy? -/
def State.engineFree (s : State) (u : Nat) : Bool :=
  decide (s.service u < 2) && !(s.engine u).failed && !(s.engine u).busy

/-- The free engine of a channel that has been free longer (R84); of two free equally long, the even one (log entry 68). -/
def State.pickEngine (s : State) (ch : Nat) : Option Nat :=
  let a := 34 * (ch / 16) + 2 * (ch % 16)
  match s.engineFree a, s.engineFree (a + 1) with
  | true, true => some (if (s.engine (a + 1)).freeSince < (s.engine a).freeSince then a + 1 else a)
  | true, false => some a
  | false, true => some (a + 1)
  | false, false => none

/-- Is a channel silent for want of engines (R102)? -/
def State.noEngines (s : State) (ch : Nat) : Bool := bitOf (s.fld F.fmkMapEngNone (ch / 16)) (ch % 16)

end Sys2Proof.Machine
end

