-- ==== Sys2Proof/Machine/Ranging.lean ====
section
/-! DEFINITION. Settings written and in force (R78, R456), the power of ranging domains (R37), gates and thresholds (R61,
R70 to R73), hit-rate limiting (R74, R75), walk correction (R66) and the felting banks (R130 to R132). -/
namespace Sys2Proof.Machine

/-- A channel's record. -/
def State.chan (s : State) (ch : Nat) : ChanSt := smGet {} s.dev.rng.chans ch

/-- Put a channel's record. -/
def State.setChan (s : State) (ch : Nat) (x : ChanSt) : State :=
  s.onDev fun d => { d with rng := { d.rng with chans := smPut {} d.rng.chans ch x } }

/-- A cluster's record. -/
def State.clus (s : State) (c : Nat) : ClusterSt := smGet {} s.dev.rng.clusters c

/-- Put a cluster's record. -/
def State.setClus (s : State) (c : Nat) (x : ClusterSt) : State :=
  s.onDev fun d => { d with rng := { d.rng with clusters := smPut {} d.rng.clusters c x } }

/-- A tile's record. -/
def State.tile (s : State) (t : Nat) : TileSt := smGet {} s.dev.rng.tiles t

/-- Put a tile's record. -/
def State.setTile (s : State) (t : Nat) (x : TileSt) : State :=
  s.onDev fun d => { d with rng := { d.rng with tiles := smPut {} d.rng.tiles t x } }

/-- Where the value in force of a setting is kept while its register shows the value written (R78): an instance number
to which no address leads. -/
def forceAt (i : Nat) : Nat := i + 0x100000

/-- The value of a field in force. -/
def State.inForce (s : State) (f : RegField) (i : Nat) : Nat := s.fld f (forceAt i)

/-- A one-bit field in force. -/
def State.inForceFlag (s : State) (f : RegField) (i : Nat) : Bool := s.inForce f i = 1

/-- The written word of a register comes into force. -/
def State.applyReg (s : State) (r : Reg) (i : Nat) : State := s.setReg r (forceAt i) (s.reg r i)

/-- The registers whose writes in RUN are held for a channel's, or a cluster's, next boundary (R78, R112, R151, R155,
R163). -/
def heldChanRegs : List Reg := [.rcvChCtl, .rcvChThr, .rcvChGate]

/-- The cluster settings held for the boundary. -/
def heldClusRegs : List Reg :=
  [.emtClSrc, .felClCtl, .felClBg, .felClDet, .felClWin, .felClOut, .rejClAdapt, .rejClCoinc, .rejClWx, .rejClXs,
    .rejClBi]

/-- Is the cluster's digital domain on: its felting bank, its engines' outputs and its share of the tile (R37, R416)? Domains 0
to 47 are cluster analog, 48 to 95 cluster digital. -/
def State.clusterOn (s : State) (c : Nat) : Bool :=
  bitOf (s.reg .pwrDomSts ((48 + c) / 32)) ((48 + c) % 32)

/-- Is a cluster powered: its analog and its digital domain on (R98, R99, R455)? What "powered" means while one of the two is
off is the model's reading (log entry 69). -/
def State.clusterPowered (s : State) (c : Nat) : Bool := s.domainOn c && s.clusterOn c

/-- Is the tile logic on (R37)? -/
def State.tileOn (s : State) (t : Nat) : Bool := (List.range 4).any fun j => s.clusterOn (4 * t + j)

/-- The port a cluster follows. -/
def State.follows (s : State) (c : Nat) : Nat := s.inForce F.emtClSrcEmitter c

/-- Does the cluster follow a bistatic source (R163)? -/
def State.bistatic (s : State) (c : Nat) : Bool := s.inForceFlag F.rejClBiBiEn c

/-- Does a channel's gate have valid values (R73)? -/
def State.gateValid (s : State) (ch : Nat) : Bool :=
  decide (s.inForce F.rcvChGateOpen ch < s.inForce F.rcvChGateClose ch)

/-- Does the sunlight offset apply to a channel, so that its rate is measured (R61, R69, R152)? -/
def State.adapting (s : State) (ch : Nat) : Bool :=
  s.inForceFlag F.rcvChCtlAdaptEn ch && !s.flag F.rcvChStsSafetyLocked ch

/-- The sunlight offset that applies to a channel (R61, R69). -/
def State.adaptOf (s : State) (ch : Nat) : Nat := if s.adapting ch then s.fld F.rejChStatAdapt ch else 0

/-- An effective code from base, trim and adapt (R61). -/
def effCode (base : Nat) (trim : Int) (adapt : Nat) : Nat := (clampI 1 1023 ((base : Int) + trim + adapt)).toNat

/-- The effective threshold codes are computed afresh (R61). -/
def State.recomputeThr (s : State) (ch : Nat) : State :=
  let a := s.adaptOf ch
  (s.setFld F.rcvChThrEffHighEff ch
      (effCode (s.inForce F.rcvChThrHighBase ch) (s.sfld F.tdcTrimHighTrim (forceAt ch)) a)).setFld
    F.rcvChThrEffLowEff ch (effCode (s.inForce F.rcvChThrLowBase ch) (s.sfld F.tdcTrimLowTrim (forceAt ch)) a)

/-! Token buckets (R74). -/

/-- Refill a bucket: `n` tokens every 25 ns up to `depth`; the instant moves by whole 25 ns. -/
def refill (depth n tokens at' now : Nat) : Nat × Nat :=
  let k := (now - at') / 25
  (min depth (tokens + n * k), at' + 25 * k)

/-- Refill a channel's bucket. -/
def State.refillChan (s : State) (ch : Nat) : State :=
  let x := s.chan ch
  let r := refill 4 1 x.tokens x.tokensAt s.dev.time.c
  s.setChan ch { x with tokens := r.1, tokensAt := r.2 }

/-- Refill a cluster's bucket. -/
def State.refillClus (s : State) (c : Nat) : State :=
  let x := s.clus c
  let r := refill 64 16 x.tokens x.tokensAt s.dev.time.c
  s.setClus c { x with tokens := r.1, tokensAt := r.2 }

/-! Buffers (R136). -/

/-- The buffer of a cluster by its index. -/
def ClusterSt.buf (x : ClusterSt) (b : Bool) : Buffer := if b then x.buf1 else x.buf0

/-- Put a buffer by its index. -/
def ClusterSt.setBuf (x : ClusterSt) (b : Bool) (v : Buffer) : ClusterSt :=
  if b then { x with buf1 := v } else { x with buf0 := v }

/-- The buffer that accumulates. -/
def State.accBuf (s : State) (c : Nat) : Bool := s.flag F.felClStsBuf c

/-- Change the histogram of one position in a buffer. -/
def State.onHist (s : State) (c : Nat) (b : Bool) (p : Nat) (f : ChanHist → ChanHist) : State :=
  let x := s.clus c
  let v := x.buf b
  s.setClus c (x.setBuf b { v with chans := smPut {} v.chans p (f (smGet {} v.chans p)) })

/-- The histogram of one position in a buffer. -/
def State.hist (s : State) (c : Nat) (b : Bool) (p : Nat) : ChanHist := smGet {} ((s.clus c).buf b).chans p

/-- A hit dropped by the limiter: counted, its cause flagged, the channel marked overloaded for shot `n` and for the
histogram in progress (R75). -/
def State.dropHit (s : State) (ch n : Nat) (cause : RegField) : State :=
  let s1 := ((s.bump F.rcvChOvlCntCount ch 1).setFlag cause ch true).setChan ch { s.chan ch with overShot := some n }
  s1.onHist (ch / 16) (s1.accBuf (ch / 16)) (ch % 16) fun h => { h with ovr := true }

/-- A pulse at a comparator: its leading, high and trailing edge in 1/128 ns after the shot reference (R63). -/
structure Pulse where
  lead : Nat
  high : Option Nat
  trail : Nat
deriving DecidableEq, Repr

/-- The active walk table of a cluster lies beside the tile's shadow at instances to which no address leads (R79). -/
def activeWalk (c n : Nat) : Nat := forceAt (2048 + 128 * c + n)

/-- The walk entries of a channel's GAIN, where its WALK_MODE uses the table (R65, R66). -/
def State.walkRow (s : State) (ch : Nat) : List Nat :=
  if 2 ≤ s.inForce F.rcvChCtlWalkMode ch then
    (List.range 32).map fun j => s.fld F.rcvWalkCorr (activeWalk (ch / 16) (32 * s.inForce F.rcvChCtlGain ch + j))
  else []

/-- The positions of a cluster that are neither masked nor without engines (R154). -/
def State.livePositions (s : State) (c : Nat) : Nat :=
  (List.range 16).foldl (fun v q =>
    v + 2 ^ q * b2n (!s.inForceFlag F.rcvChCtlMask (16 * c + q) && !s.noEngines (16 * c + q))) 0

/-- The instant of a shot's reference on the timing clock, in 1/65,536 ns (R82); a shot without one is placed by the clock. -/
def State.refInstant (s : State) (c : Nat) : Int := match (s.clus c).shot with
  | some x => match x.tRef with
    | some r => (x.fireEdge : Int) * 65536 + r
    | none => (s.dev.time.edges : Int) * 65536
  | none => (s.dev.time.edges : Int) * 65536

/-- The coarse count captured at the timing-clock edge that follows an instant (R81, R82). -/
def State.coarseAt (s : State) (c : Nat) (at' : Int) : Nat :=
  min 65535 (divFloor at' 65536 + 1 - (s.clus c).coarseZero).toNat

/-- What the engine takes with an admitted hit: the settings of its shot and its histogram, and the edges seen (R66, R78, R82,
R83, R92, R136). -/
def State.convOf (s : State) (u ch : Nat) (x : ShotCtx) (ref : Int) (p : Pulse) : Conv :=
  let c := ch / 16
  let b := s.accBuf c
  let t := s.shotTable u x.n
  { ch := ch, tRef := ref, n := x.n, shotId := x.k % 65536, fire := (x.fireEdge : Int) * 65536, buf := b
    hist := ((s.clus c).buf b).no
    lowEff := s.fld F.rcvChThrEffLowEff ch, highEff := s.fld F.rcvChThrEffHighEff ch
    mode := s.inForce F.rcvChCtlWalkMode ch, walk := s.walkRow ch, coinc := s.reg .rejClCoinc (forceAt c)
    live := s.livePositions c, table := t.1, gbow := t.2
    coarse := s.coarseAt c ((x.fireEdge : Int) * 65536 + ref + 512 * p.lead)
    high := p.high.map fun h => ref + 512 * (h : Int), trail := ref + 512 * p.trail }

/-- Three checks in order (R74): channel bucket, engine, cluster bucket; a token is taken from each bucket only when the
hit passes all three. A hit that passes starts a conversion. -/
def State.admitHit (s : State) (ch : Nat) (x : ShotCtx) (ref : Int) (p : Pulse) : State :=
  let c := ch / 16
  let s1 := (s.refillChan ch).refillClus c
  if (s1.chan ch).tokens = 0 then s1.dropHit ch x.n F.rcvChStsRateDrop
  else
    match s1.pickEngine ch with
    | none => s1.dropHit ch x.n F.rcvChStsEngineBusyDrop
    | some u =>
      if (s1.clus c).tokens = 0 then (s1.dropHit ch x.n F.rcvChStsRateDrop).bump F.rcvClDropCntCount c 1
      else
        let s2 := s1.setChan ch { s1.chan ch with tokens := (s1.chan ch).tokens - 1, holder := some u }
        let s3 := s2.setClus c { s2.clus c with tokens := (s2.clus c).tokens - 1 }
        s3.setEngine u { s3.engine u with busy := true, conv := some (s3.convOf u ch x ref p) }

/-- Does a channel see crossings at all: its cluster powered, not masked, not silent (R68, R102)? -/
def State.chanLive (s : State) (ch : Nat) : Bool :=
  s.clusterPowered (ch / 16) && !s.inForceFlag F.rcvChCtlMask ch && !s.noEngines ch

/-- A pulse that begins above the low threshold, or in the 4 ns after a trailing edge, belongs to the hit before it (R63, R64):
that hit ends with the later trailing edge, and nothing is counted. `at'` is the instant of the reference of `p`. -/
def State.mergeHit (s : State) (ch : Nat) (at' : Int) (p : Pulse) : State :=
  match (s.chan ch).holder with
  | some u => match (s.engine u).conv with
    | some v =>
      let shift (t : Nat) : Int := at' + 512 * t - v.fire
      s.setEngine u { s.engine u with conv := some { v with
        trail := max v.trail (shift p.trail), high := v.high.orElse fun _ => p.high.map shift } }
    | none => s
  | none => s

/-- A hit against the gate of its channel (R70 to R73, R152): in an open gate it goes to the limiter; outside it is counted
out-of-gate, but not for a void shot (R72) nor while the gate values are invalid (R73). Without any shot, which the spec
does not name, nothing is counted (log entry 70). -/
def State.judgeGate (s : State) (ch : Nat) (p : Pulse) : State :=
  match (s.clus (ch / 16)).shot with
  | none => s
  | some x =>
    match x.tRef with
    | none => s
    | some ref =>
      if x.void || !s.gateValid ch then s
      else
        let ns := p.lead / 128
        let k := s.chan ch
        if s.inForce F.rcvChGateOpen ch ≤ ns ∧ ns < s.inForce F.rcvChGateClose ch ∧ k.gateOpen then
          (s.setChan ch { k with
            adaptCount := if s.adapting ch then k.adaptCount + 1 else k.adaptCount
            inGate := k.inGate + 1, anyHit := k.anyHit + 1 }).admitHit ch x ref p
        else if (s.clus (ch / 16)).dark then s
        else (s.setChan ch { k with anyHit := k.anyHit + 1 }).bump F.rcvChOogCntCount ch 1

/-- A pulse at a channel (R60, R63, R64, R67): `ovr` is an input above the linear range. A masked or silent channel sees
nothing; otherwise the pulse belongs to the hit before it, or is a hit that the gate judges by its leading edge. The low
comparator sees nothing more until 4 ns after the real trailing edge. -/
def State.hit (s : State) (ch : Nat) (p : Pulse) (ovr : Bool) : State :=
  if s.chanLive ch then
    let s1 := if ovr then s.setFlag F.rcvChStsTiaOverload ch true else s
    let at' := s1.refInstant (ch / 16)
    let k := s1.chan ch
    let k1 := { k with lowUntil := max k.lowUntil (at' + 512 * p.trail + 4 * 65536) }
    if at' + 512 * p.lead < k.lowUntil then (s1.setChan ch k1).mergeHit ch at' p
    else (s1.setChan ch { k1 with holder := none }).judgeGate ch p
  else s

/-! Walk correction (R65, R66). `code` is the timestamp in fine LSB, `w` the width and `d` the high-edge interval. -/

/-- The two-threshold correction (R66). -/
def extrapolate (d lowEff highEff : Nat) : Nat :=
  min 2047 (divAway ((d : Int) * lowEff) (highEff - lowEff)).toNat

/-- The width-table entry of a hit (R66). -/
def walkEntry (v : Conv) (w : Nat) : Nat := v.walk.getD (min 31 (w / 8)) 0

/-- The walk-corrected code (R62, R65, R66), under the settings of the hit. -/
def walkCorrect (v : Conv) (code w : Nat) (d : Option Nat) : Nat :=
  let d' := if v.lowEff < v.highEff then d else none
  match v.mode, d' with
  | 1, some x => code - extrapolate x v.lowEff v.highEff
  | 2, _ => code - walkEntry v w
  | 3, some x => code - extrapolate x v.lowEff v.highEff
  | 3, none => code - walkEntry v w
  | _, _ => code

/-! Felting (R130 to R132). -/

/-- Does a code fall in a window, and in which of its bins (R132)? -/
def winBin (w : FineWin) (code : Nat) : Option Nat :=
  if w.start ≤ code / 8 ∧ code / 8 < w.start + 64 then some (code / 8 - w.start) else none

/-- Add one hit to a window's counts and sums; each saturates, and marks the window (R132). -/
def WinAcc.add (a : WinAcc) (i weight width : Nat) (d : Option Nat) : WinAcc :=
  let cap (w v : Nat) : Nat × Bool := (satN w v, decide (2 ^ w ≤ v))
  let b := cap 16 (smGet 0 a.bins i + weight)
  let h := cap 16 (a.hits + 1)
  let ws := cap 32 (a.widthSum + width)
  let hn := cap 16 (a.highNum + (if d.isSome then 1 else 0))
  let rs := cap 32 (a.riseSum + (d.getD 0) / 8)
  { bins := smPut 0 a.bins i b.1, hits := h.1, widthSum := ws.1, highNum := hn.1, riseSum := rs.1
    sat := a.sat || b.2 || h.2 || ws.2 || hn.2 || rs.2 }

/-- One felted hit in a histogram: coarse bin `code div 128` saturating at 4,095, and the window it falls in. -/
def ChanHist.add (h : ChanHist) (code weight width : Nat) (d : Option Nat) : ChanHist :=
  let b := code / 128
  let v := smGet 0 h.bins b + weight
  let wins := h.wins.map fun p =>
    match winBin p.1 code with
    | some i => (p.1, p.2.add i weight width d)
    | none => p
  { h with bins := smPut 0 h.bins b (min 4095 v), wins := wins
           sat := h.sat || decide (4095 < v) || wins.any (·.2.sat) }

/-- Felt one hit of a cluster (R130): weight 0 is not felted; a code at or beyond bin 8,192 counts out-of-gate. -/
def State.felt (s : State) (ch : Nat) (b : Bool) (code weight width : Nat) (d : Option Nat) : State :=
  if weight = 0 then s
  else if 8192 ≤ code / 128 then s.bump F.rcvChOogCntCount ch 1
  else
    let c := ch / 16
    let s1 := s.onHist c b (ch % 16) fun h => h.add code weight width d
    if 4095 < smGet 0 (s.hist c b (ch % 16)).bins (code / 128) + weight then s1.setFlag F.felClStsSat c true else s1

/-- Is a timestamp outside every fine window of its channel in a buffer (R89)? -/
def State.outsideWindows (s : State) (ch : Nat) (b : Bool) (code : Nat) : Bool :=
  (s.hist (ch / 16) b (ch % 16)).wins.all fun p => (winBin p.1 code).isNone

/-! Neighbour coincidence (R154, R155). -/

/-- The neighbours of a position (R154). -/
def neighbours (topo radius : Bool) (p : Nat) : List Nat :=
  (List.range 16).filter fun q =>
    if topo then
      decide (q ≠ p) && decide (q / 4 ≤ p / 4 + 1) && decide (p / 4 ≤ q / 4 + 1) && decide (q % 4 ≤ p % 4 + 1)
        && decide (p % 4 ≤ q % 4 + 1)
    else
      decide (q ≠ p) && decide (q ≤ p + (if radius then 2 else 1)) && decide (p ≤ q + (if radius then 2 else 1))

/-- Is a hit coincident with the other hits of its shot (R154)? -/
def coincident (l : List CoincHit) (h : CoincHit) : Bool :=
  let c := h.ch / 16
  let ns := neighbours (bitOf h.coinc 30) (bitOf h.coinc 29) (h.ch % 16)
  let need := min (bitsOf h.coinc 19 16) (ns.filter fun q => bitOf h.live q).length
  let win := 8 * bitsOf h.coinc 12 8
  let near := ns.filter fun q => l.any fun g =>
    decide (g.n = h.n) && decide (g.ch = 16 * c + q) && decide (g.code < h.code + win) && decide (h.code < g.code + win)
  decide (need ≤ near.length)

/-- May a hit be judged: its shot, or its histogram, is over, and no hit of its shot is still in conversion (R154, R155)? -/
def State.judgeable (s : State) (c : Nat) (h : CoincHit) : Bool :=
  let k := s.clus c
  let current := match k.shot with
    | some x => decide (x.n = h.n ∧ h.hist = (k.buf (s.accBuf c)).no)
    | none => false
  !current && (List.range 32).all fun e => match (s.engine (34 * c + e)).conv with
    | some v => decide (v.n ≠ h.n)
    | none => true

/-- Felt a hit in the buffer of its shot, while that buffer still holds its histogram (R136). -/
def State.feltIn (s : State) (h : CoincHit) (weight : Nat) : State :=
  if ((s.clus (h.ch / 16)).buf h.buf).no = h.hist then s.felt h.ch h.buf h.code weight h.width h.d else s

/-- Judge the hits of a cluster's shots that are over, each shot's together, and felt them with their weights; each lone hit
of weight 0 is counted (R154, R155). The fixed delay of 32 ns is the wait for the rest of the shot (log entry 11). -/
def State.judgeHits (s : State) (c : Nat) : State :=
  let l := (s.clus c).hits.filter (s.judgeable c)
  let s1 := s.setClus c { s.clus c with hits := (s.clus c).hits.filter (!s.judgeable c ·) }
  l.foldl (fun t h =>
    let co := coincident l h
    let w := if co then bitsOf h.coinc 3 2 else bitsOf h.coinc 1 0
    let t1 := if !co && decide (w = 0) then t.bump F.rejClLoneCntCount c 1 else t
    t1.feltIn h w) s1

/-! The safety taps (R25, R26). -/

/-- Does a timestamp of a tapped channel lie inside the zone gate that its safety channel holds (R25, R26)? -/
def State.inZoneGate (s : State) (ch code : Nat) : Bool :=
  let x := if ch % 2 = 0 then s.saf.a else s.saf.b
  decide (ch < 128) && x.powered && match x.set with
    | some p => p.zones.any fun z => z.taps.any fun t =>
      decide (t.ch = ch) && decide (t.zgOpen ≤ code) && decide (code < t.zgClose)
    | none => false

/-- The tap of a channel passes the first two stops of a shot inside the zone gate, with the shot's dropped-hits flag (R26,
R75). -/
def State.tapHit (s : State) (v : Conv) (code : Nat) : State :=
  let k := s.chan v.ch
  let n := if k.tapped.1 = v.n then k.tapped.2 else 0
  if s.inZoneGate v.ch code && decide (n < 2) then
    let w : TapWord := ⟨v.ch, v.shotId, code, decide (k.overShot = some v.n)⟩
    (s.setChan v.ch { k with tapped := (v.n, n + 1) }).onDev fun d => { d with rng :=
      if v.ch % 2 = 0 then { d.rng with tapA := d.rng.tapA ++ [w] } else { d.rng with tapB := d.rng.tapB ++ [w] } }
  else s

/-! Conversions. -/

/-- A place on the 62.5 ps grid of the edge interpolator (R83), in 1/65,536 ns. -/
def onGrid (t : Int) : Int := divRound t 4096 * 4096

/-- What a completed conversion of a hit gives from the vernier count: the hit's record, its walk-corrected code, its width in
62.5 ps before the limit of R63, and the high-edge interval (R66, R83, R94, R95). -/
def State.convResult (s : State) (u n : Nat) : Option (Conv × Nat × Nat × Option Nat) :=
  match (s.engine u).conv with
  | none => none
  | some v =>
    let t := convTime { s.engine u with table := v.table } v.gbow v.coarse n
    let width := (divRound (onGrid v.trail - t) 4096).toNat
    let d := v.high.map fun h => 8 * (divRound (onGrid h - t) 4096).toNat
    some (v, walkCorrect v (tauCode t v.tRef) (min 4095 width) d, width, d)

/-- A hit's conversion ends in coincidence (R63, R81 to R84, R89, R130, R154): a bow sample under BOW_SRC, the safety tap, then
the felting bank, through the coincidence stage where it is on. -/
def State.hitConverted (s : State) (u n : Nat) : State :=
  match s.convResult u n with
  | none => s
  | some (v, code, width, d) =>
    let c := v.ch / 16
    let s1 := if 4095 ≤ width then s.setFlag F.rcvChStsWidthSat v.ch true else s
    let s2 := if !s1.flag F.tdcTileCtlBowSrc (v.ch / 64) || s1.outsideWindows v.ch v.buf code
      then s1.bowSample u n else s1
    let s3 := (s2.freeEngine u).tapHit v code
    let h : CoincHit := ⟨v.ch, v.n, code, min 4095 width, if v.lowEff < v.highEff then d else none, v.buf, v.hist, v.coinc,
      v.live⟩
    if bitOf v.coinc 31 then (s3.setClus c { s3.clus c with hits := (s3.clus c).hits ++ [h] }).judgeHits c
    else (s3.feltIn h 1).judgeHits c

end Sys2Proof.Machine
end

