-- ==== Sys2Proof/Machine/Emitters.lean ====
section
/-! DEFINITION. The emitter ports and the emitter PLL: the shot schedule (R109 to R111), dither (R113, R114, R160), permits
and withdrawal (R126 to R128), what a cluster keeps of its shots (R71, R133, R136), and the PLL's plan and lock (R119 to
R125). -/
namespace Sys2Proof.Machine

/-! Dither (R113). -/

/-- One shift of the PRBS31 generator: the bit out is bit 30, bits 30 XOR 27 enter bit 0. -/
def prbsShift (g : Nat) : Nat := (2 * g) % 2 ^ 31 + b2n (bitOf g 30 != bitOf g 27)

/-- Sixteen shifts: the word they give, first bit out in bit 15, and the state after them. -/
def prbsWord : Nat → Nat → Nat → Nat × Nat
  | 0, g, w => (w, g)
  | n + 1, g, w => prbsWord n (prbsShift g) (2 * w + b2n (bitOf g 30))

/-- The dither offset of a word (R113). -/
def ditherOffset (w span : Nat) : Int := divZ ((((bitsOf w 15 8 % 255 : Nat) : Int) - 127) * span) 127

/-- The phase of a word (R113). -/
def ditherPhase (w : Nat) (en : Bool) : Nat := if en then bitsOf w 5 0 else 0

/-! Seeds (R160): the generator's shift satisfies x^31 = x^3 + 1, so d shifts are x^d mod that polynomial. -/

/-- Reduce a polynomial of degree below 62 (bits are coefficients). -/
def polyReduce : Nat → Nat → Nat
  | 0, v => v
  | n + 1, v => polyReduce n (if bitOf v (31 + n) then v ^^^ (2 ^ (31 + n) + 2 ^ (3 + n) + 2 ^ n) else v)

/-- Multiply two polynomials below degree 31. -/
def polyMul (a b : Nat) : Nat :=
  polyReduce 31 ((List.range 31).foldl (fun t i => if bitOf b i then t ^^^ (a * 2 ^ i) else t) 0)

/-- x^d by squaring, from the highest of `n` bits of d downward. -/
def polyPow (d : Nat) : Nat → Nat
  | 0 => 1
  | n + 1 =>
    -- bits above position i have been taken; position counts down from n
    let r := polyPow (d / 2) n
    let q := polyMul r r
    if d % 2 = 1 then polyMul q 2 else q

/-- The generator state reached from 1 after d shifts. -/
def jumpSeed (d : Nat) : Nat :=
  let p := polyPow d 31
  ((List.range 31).foldl (fun (q : Nat × Nat) i =>
    (if bitOf p i then q.1 ^^^ q.2 else q.1, prbsShift q.2)) (0, 1)).1

/-- The number of shifts of a port's start point (R160), with the index of its first shot on the common grid. -/
def seedShifts (codeset n k0 : Nat) : Nat := (2 ^ 19 * (32 * codeset + n) + 16 * k0) % (2 ^ 31 - 1)

/-! Bistatic sources as the clusters know them. -/

/-- A source's knowledge. -/
def State.source (s : State) (n : Nat) : BiSt := smGet {} s.dev.rng.sources n

/-- Put a source's knowledge. -/
def State.setSource (s : State) (n : Nat) (x : BiSt) : State :=
  s.onDev fun d => { d with rng := { d.rng with sources := smPut {} d.rng.sources n x } }

/-- The dither offset and the phase of a source's next predicted shot, drawn from the common sequence (R113, R160, R163). -/
def State.sourceDraw (s : State) (x : BiSt) (a : AnnPort) : Int × Nat :=
  let k0 := if a.period = 0 then 0 else x.t0Frame * s.fld F.rejSchedPeriodPeriod 0 / a.period
  let w := (prbsWord 16 (jumpSeed (seedShifts a.codeset a.port (k0 + x.k))) 0).1
  (ditherOffset w a.span, ditherPhase w a.phaseEn)

/-- Has the calibration slot of a source's next predicted shot begun (R85, R112, R163)? Instants are in domain time. -/
def State.sourceSlot (s : State) (x : BiSt) (a : AnnPort) : Bool :=
  decide ((x.tNom + (s.sourceDraw x a).1 - 150) * 2 ^ 32 < s.timeFix)

/-! The shot schedule. -/

/-- The shots per second of one enabled port: ceil(10^9 / PERIOD) (R110). -/
def portRate (period : Nat) : Nat := (1000000000 + period - 1) / period

/-- The aggregate of all enabled ports, with the PERIOD and EN of one port as they would become (R110). -/
def State.aggregate (s : State) (n : Nat) (en : Bool) (period : Nat) : Nat :=
  (List.range 32).foldl (fun t p =>
    let e := if p = n then en else s.flag F.emtPortCtlEn p
    let v := if p = n then period else s.fld F.emtPortPeriodValue p
    t + (if e then portRate v else 0)) 0

/-- EMT_AGG reports the sum in force (R110). -/
def State.updateAgg (s : State) : State :=
  s.setFld F.emtAggRate 0 (s.aggregate 32 false 1)

/-- At START every port's generator restarts at SEED, k counts from 0, and the OFFSET written comes into force (R109,
R111, R113); `t0` is the schedule epoch on C. The priority of R74 begins with the next timing-clock cycle. -/
def State.startPorts (s : State) (t0 : Int) : State :=
  (List.range 32).foldl (fun (t : State) n =>
    let per := t.fld F.emtPortPeriodValue n
    let off := t.fld F.emtPortOffsetValue n
    t.setPort n { t.port n with
      gen := t.fld F.emtPortSeedSeed n, k := 0, tNom := t0 + off, prevNom := t0 + off, lastPer := per, period := per
      offset := off, drawn := none, cur := none, slip := 0 })
    (s.onDev fun d => { d with rng := { d.rng with startedAt := d.time.edges + 1, runSlots := false } })

/-- The next scheduled shot is drawn: the generator shifts 16 times, whether or not the port is enabled (R113, R114).
A shot whose fire edge has not come yet is not drawn over. At throttle level L, shot k is skipped with k mod 8 at least
8 − L, unless the port is a zone emitter (R424). -/
def State.drawShot (s : State) (n : Nat) (zone : Bool) : State :=
  let p := s.port n
  if s.sys.op = .run ∧ p.drawn = none then
    let r := prbsWord 16 p.gen 0
    s.setPort n { p with
      gen := r.2
      drawn := some { k := p.k, tNom := p.tNom
                      offset := ditherOffset r.1 (s.fld F.emtPortDitherSpan n)
                      phase := ditherPhase r.1 (s.flag F.emtPortCtlPhaseEn n)
                      skip := !zone && decide (8 ≤ p.k % 8 + s.fld F.thmStsLevel 0) } }
  else s

/-- A scheduled shot is over: the next nominal time follows with the PERIOD in force at this one, and the PERIOD written follows
that (R109, R111). -/
def nextNominal (p : PortSt) (period : Nat) : PortSt :=
  { p with drawn := none, k := p.k + 1, prevNom := p.tNom, lastPer := p.period, tNom := p.tNom + p.period + p.slip
           period := period, slip := 0 }

/-- A PERIOD written in RUN (R111): it counts from the next nominal time on. A shot may be over before its nominal time has
come; the time already formed after it then follows the new PERIOD. -/
def State.periodWritten (s : State) (n : Nat) : State :=
  let p := s.port n
  let now : Int := s.dev.time.c
  let per := s.fld F.emtPortPeriodValue n
  if s.sys.op = .run then
    if now < p.prevNom then
      let d : Int := (per : Int) - p.lastPer
      s.setPort n { p with tNom := p.tNom + d, lastPer := per, period := per
                           drawn := p.drawn.map fun x => { x with tNom := x.tNom + d } }
    else if now < p.tNom then s.setPort n { p with period := per }
    else s
  else s

/-- Add a shot notice for the batch of this device's shots (R162, R299). -/
def State.noteShot (s : State) (n k : Nat) (withdrawn : Bool) : State :=
  s.onDev fun d => { d with rng := { d.rng with sched := { d.rng.sched with
    shots := d.rng.sched.shots ++ [(n, k % 65536, withdrawn)] } } }

/-- A scheduled shot of a port is withdrawn, with its cause (R126, R128): counted, shown in WD_CAUSE, and noticed. -/
def State.withdraw (s : State) (n k cause : Nat) : State :=
  (((s.setPort n (nextNominal (s.port n) (s.fld F.emtPortPeriodValue n))).bump F.emtPortWithdrawnCntCount n 1).setFld
    F.emtPortStsWdCause n cause).noteShot n k true

/-- Why a scheduled shot of an enabled port is withdrawn at its permit sample: 1 permit, 2 re-lock, 3 start-sense lost or
engine failed; 0 not withdrawn (R117, R118, R126, R128, R129). -/
def State.withdrawCause (s : State) (n : Nat) (x : PortShot) : Nat :=
  if !s.flag F.emtStsPermitA 0 || !s.flag F.emtStsPermitB 0 then 1
  else if s.flag F.emtPllStsSafeClk 0 || decide (x.tNom + x.offset < s.dev.rng.pll.resumeAt) then 2
  else if s.flag F.emtPortStsSenseLost n || (s.port n).noEngine then 3
  else 0

/-- The permit sample 160 ns before the scheduled fire edge (R128). A shot of a disabled port, or of one that
has not joined the schedule yet (R111), does not exist further; a withdrawn shot is counted and does not exist for the clusters, and a shot that throttling skips is reported as withdrawn
and counted (R424). -/
def State.samplePermits (s : State) (n : Nat) : State :=
  let p := s.port n
  match p.drawn with
  | none => s
  | some x =>
    if x.sampled then s
    else if !s.flag F.emtPortCtlEn n || decide (s.sys.op ≠ .run) || decide (x.tNom < p.joinAt) then
      s.setPort n (nextNominal p (s.fld F.emtPortPeriodValue n))
    else if x.skip then
      ((s.setPort n (nextNominal p (s.fld F.emtPortPeriodValue n))).bump F.thmSkipCntCount 0 1).noteShot n x.k true
    else
      let w := s.withdrawCause n x
      if w = 0 then s.setPort n { p with drawn := some { x with sampled := true } } else s.withdraw n x.k w

/-- A permit withdrawn after the sample blocks the trigger at the output buffer (R128). -/
def State.blockSampled (s : State) : State :=
  (List.range 32).foldl (fun t n =>
    match (t.port n).drawn with
    | some x => if x.sampled && !x.blocked then
        (t.setPort n { t.port n with drawn := some { x with blocked := true } }).setFlag F.emtPortStsInhibitLate n true
      else t
    | none => t) s

/-- The permits of channels A and B reach the emitters (R127, R128): PERMIT_A and PERMIT_B follow, and a withdrawal blocks
what has been sampled. -/
def State.setPermits (s : State) (a b : Bool) : State :=
  let s1 := (s.setFlag F.emtStsPermitA 0 a).setFlag F.emtStsPermitB 0 b
  if (s.flag F.emtStsPermitA 0 && !a) || (s.flag F.emtStsPermitB 0 && !b) then s1.blockSampled else s1

/-! The accumulating buffer and the gates of a cluster. -/

/-- Change the buffer of a cluster that accumulates. -/
def State.onAccBuf (s : State) (c : Nat) (f : Buffer → Buffer) : State :=
  let x := s.clus c
  let b := s.accBuf c
  s.setClus c (x.setBuf b (f (x.buf b)))

/-- The kernel of a cluster: its port's, or its bistatic source's (R141, R163). -/
def State.kernelOf (s : State) (c : Nat) : Nat :=
  if s.bistatic c then s.inForce F.rejClBiBiKernel c else s.fld F.felKselKernel (s.follows c)

/-- The settings in force of a cluster, kept with the buffer that accumulates under them (R136). -/
def State.bufCfg (s : State) (c : Nat) : BufCfg :=
  let w (r : Reg) : Nat := s.reg r (forceAt c)
  let k := s.kernelOf c
  { ctl := w .felClCtl, bg := w .felClBg, det := w .felClDet, win := w .felClWin, outw := w .felClOut
    wx := w .rejClWx, xs := w .rejClXs, bistatic := s.bistatic c
    taps := (List.range (s.fld F.felKparLen k)).map fun j =>
      signed 8 (bitsOf (s.reg .felKern (4 * k + j / 4)) (8 * (j % 4) + 7) (8 * (j % 4)))
    centre := s.fld F.felKparCentre k, nom := s.fld F.felKparNomWidth k
    gates := (List.range 16).map fun p => s.reg .rcvChGate (forceAt (16 * c + p))
    ctls := (List.range 16).map fun p => s.reg .rcvChCtl (forceAt (16 * c + p)) }

/-- A histogram begins under the settings now in force, with the shots delivered to it so far (R133, R456). -/
def State.beginHist (s : State) (c delivered voids az : Nat) : State :=
  let cfg := s.bufCfg c
  let no := (s.clus c).histNo + 1
  (s.setClus c { s.clus c with histNo := no, inProgress := true }).onAccBuf c fun b =>
    { b with no := no, bank := s.fld F.fmkBankPhys c, cfg := cfg, delivered := delivered, voids := voids, azimuth := az }

/-- A channel's gate closes: its open time counts while the offset applies (R152), and its idle window begins (R97). -/
def State.closeGate (s : State) (ch ns : Nat) : State :=
  let k := s.chan ch
  if k.gateOpen then
    s.setChan ch { k with
      gateOpen := false, idle := true, adaptGate := if s.adapting ch then k.adaptGate + ns else k.adaptGate }
  else s

/-- Every gate of a cluster that is still open closes at an instant of the timing clock, in 1/65,536 ns (R71). -/
def State.endShot (s : State) (c : Nat) (now : Int) : State :=
  let elapsed := (divFloor (now - s.refInstant c) 65536).toNat
  (List.range 16).foldl (fun t p =>
    let ch := 16 * c + p
    t.closeGate ch (min elapsed (t.inForce F.rcvChGateClose ch) - t.inForce F.rcvChGateOpen ch)) s

/-- Is a gate of a cluster open? -/
def State.anyGate (s : State) (c : Nat) : Bool := (List.range 16).any fun p => (s.chan (16 * c + p)).gateOpen

/-- Writing EN to 0 and back to 1 clears SENSE_LOST and resumes firing (R117). -/
def State.portEnabled (s : State) (n : Nat) : State :=
  if s.flag F.emtPortStsSenseLost n then
    let s1 := (s.setFlag F.emtPortStsSenseLost n false).setPort n { s.port n with missRun := 0 }
    if (s1.port n).noEngine then s1 else s1.mapPort n false
  else s

/-! The emitter PLL. -/

/-- Does a plan give 4.000 GHz (R119)? -/
def planGood (p m : Nat) : Bool := decide ((p = 1 ∧ m = 40) ∨ (p = 2 ∧ m = 80) ∨ (p = 4 ∧ m = 160))

/-- Does the shadow's plan give 4.000 GHz? -/
def State.shadowGood (s : State) : Bool := planGood (s.fld F.emtPllDivP 0) (s.fld F.emtPllDivM 0)

/-- Put the PLL's record. -/
def State.setPll (s : State) (p : PllSt) : State := s.onDev fun d => { d with rng := { d.rng with pll := p } }

/-- An APPLY (R121): refused in RUN, or with a plan that does not give 4.000 GHz; otherwise it waits for the aligned
instant. The answer says whether the write was taken. -/
def State.applyRequest (s : State) : Bool × State :=
  if s.sys.op = .run ∨ !s.shadowGood then (false, s.setFlag F.emtPllStsApplyErr 0 true)
  else (true, (s.setFlag F.emtPllStsApplyPend 0 true).setFlag F.emtPllCtlApply 0 true)

/-- Lock is declared (R123, R125, R126): every output switches back, and firing resumes with the first fire edge at least
1 µs later. -/
def State.lockDeclared (s : State) : State :=
  if s.dev.rng.pll.relock then
    ((s.setPll { s.dev.rng.pll with relock := false, resumeAt := s.dev.time.c + 1000 }).setFlag
      F.emtPllStsSafeClk 0 false).setFlag F.emtPllStsLocked 0 true
  else s

/-- No lock within 1 ms (R125): LOCK_FAIL sets and acquisition goes on. -/
def State.lockFail (s : State) : State :=
  if s.dev.rng.pll.relock then s.setFlag F.emtPllStsLockFail 0 true else s

end Sys2Proof.Machine
end

