-- ==== Sys2Proof/Machine/Felting.lean ====
section
/-! DEFINITION. Histograms as wholes: settings coming into force (R78, R79, R149, R151, R456), boundaries (R133 to R136),
banks and spares (R138), extraction (R139 to R147, R156 to R158), prediction (R148) and the snapshot (R150). -/
namespace Sys2Proof.Machine

/-! Settings coming into force. -/

/-- A channel's windows and prediction history are cleared (R149). -/
def State.clearChan (s : State) (ch : Nat) : State :=
  let c := ch / 16
  let p := ch % 16
  let s1 := s.setChan ch { s.chan ch with gen := (s.chan ch).gen + 1 }
  let s2 := s1.setClus c { s1.clus c with nextWins := (s1.clus c).nextWins.filter (·.1 ≠ p) }
  let s3 := s2.onHist c (s2.accBuf c) p fun h => { h with wins := [], gen := (s1.chan ch).gen }
  s3.clearReg .felWin (64 * c + 4 * p) 4

/-- The sunlight offset of a channel returns to 0 and its window restarts (R153). -/
def State.restAdapt (s : State) (ch : Nat) : State :=
  (s.setChan ch { s.chan ch with adaptShots := 0, adaptCount := 0, adaptGate := 0 }).setFld F.rejChStatAdapt ch 0

/-- The written settings of a channel come into force (R73, R78, R149). -/
def State.takeChan (s : State) (ch : Nat) : State :=
  let ctl0 := s.reg .rcvChCtl (forceAt ch)
  let ctl1 := s.reg .rcvChCtl ch
  let gate0 := s.reg .rcvChGate (forceAt ch)
  let gate1 := s.reg .rcvChGate ch
  let s1 := (heldChanRegs.foldl (fun t r => t.applyReg r ch) s).setFlag F.rcvChStsPending ch false
  let s2 := if gate0 ≠ gate1 ∧ !s1.gateValid ch then s1.setFlag F.rcvChStsGateErr ch true else s1
  if bitOf ctl0 7 ≠ bitOf ctl1 7 ∨ bitsOf ctl0 1 0 ≠ bitsOf ctl1 1 0 ∨ gate0 ≠ gate1 then s2.clearChan ch else s2

/-- ADAPT_EN is not among the settings held for a boundary (R78): written 0, the offset returns to 0 at once; set again, its
window starts afresh (R152, R153). -/
def State.takeAdapt (s : State) (ch : Nat) : State :=
  let now := s.fld F.rcvChCtlAdaptEn ch
  if s.inForce F.rcvChCtlAdaptEn ch = now then s
  else ((s.setFld F.rcvChCtlAdaptEn (forceAt ch) now).restAdapt ch).recomputeThr ch

/-- Does a cluster's written source differ from the one in force (R112, R163)? -/
def State.sourceMoved (s : State) (c : Nat) : Bool :=
  decide (s.fld F.emtClSrcEmitter c ≠ s.inForce F.emtClSrcEmitter c)
    || decide (s.fld F.rejClBiBiEn c ≠ s.inForce F.rejClBiBiEn c)
    || decide (s.fld F.rejClBiBiSrc c ≠ s.inForce F.rejClBiBiSrc c)

/-- The shot of a cluster's source whose calibration slot has begun, by its k (R112, R163). -/
def State.begunShot (s : State) (c : Nat) : Option Nat :=
  if s.bistatic c then
    let x := s.source (s.inForce F.rejClBiBiSrc c)
    match x.ann with
    | some a => if s.sourceSlot x a then some x.k else none
    | none => none
  else match (s.port (s.follows c)).drawn with
    | some x => if x.slot then some x.k else none
    | none => none

/-- The written settings of a cluster come into force (R112, R149, R151, R155, R163). A shot of the new source whose
calibration slot began before the boundary is not the cluster's, nor is one of the old source (R112). -/
def State.takeClus (s : State) (c : Nat) : State :=
  let s1 := (heldClusRegs.foldl (fun t r => t.applyReg r c) s).setFlag F.felClStsPending c false
  if s.sourceMoved c then
    let s2 := (List.range 16).foldl (fun t p => t.clearChan (16 * c + p)) s1
    s2.setClus c { s2.clus c with skip := s2.begunShot c, next := none, early := 0, earlyVoid := 0 }
  else s1

/-- All written settings of a cluster and its channels come into force. -/
def State.takeAll (s : State) (c : Nat) : State :=
  (List.range 16).foldl (fun t p => t.takeChan (16 * c + p)) (s.takeClus c)

/-- The committed walk table of the tile becomes the active table of a cluster; WALK_COMMIT clears with the last of the
four (R79). -/
def State.takeWalk (s : State) (c : Nat) : State :=
  if (s.clus c).walkPend then
    let t := c / 4
    let s1 := (List.range 128).foldl (fun a n => a.setReg .rcvWalk (activeWalk c n) (a.reg .rcvWalk (128 * t + n))) s
    let s2 := s1.setClus c { s1.clus c with walkPend := false }
    if (List.range 4).any fun j => (s2.clus (4 * t + j)).walkPend then s2
    else s2.setFlag F.rcvTileCtlWalkCommit t false
  else s

/-- WALK_COMMIT (R79, R456): each cluster of the tile switches at its boundary, at once where it has no histogram in
progress or its digital domain is off. -/
def State.walkCommit (s : State) (t : Nat) : State :=
  if s.flag F.rcvTileCtlWalkCommit t then s
  else
    let s1 := (List.range 4).foldl (fun a j =>
      a.setClus (4 * t + j) { a.clus (4 * t + j) with walkPend := true }) (s.setFlag F.rcvTileCtlWalkCommit t true)
    (List.range 4).foldl (fun a j =>
      let c := 4 * t + j
      if (a.clus c).inProgress && a.clusterOn c && decide (a.sys.op = .run) then a else a.takeWalk c) s1

/-! The fault map at a boundary (R367). -/

/-- One condition of a channel at a histogram's close: it enters the map at once, and leaves it after 16 histograms in
succession without the condition. `slot` 0 is DEAD, 1 is STUCK. -/
def State.mapCondition (s : State) (ch slot : Nat) (present : Bool) : State :=
  let f := if slot = 0 then F.fmkMapDeadDead else F.fmkMapDeadStuck
  let c := ch / 16
  let p := ch % 16
  let key := 2 * ch + slot
  let put (t : State) (n : Nat) : State :=
    t.onDev fun d => { d with fmk := { d.fmk with absent := smPut 0 d.fmk.absent key n } }
  if bitOf (s.fld f c) p then
    if present then put s 0
    else
      let n := smGet 0 s.dev.fmk.absent key + 1
      if 16 ≤ n then ((put s 0).setMapBit f c p false).logFault 0x17 2 0x01 ch ch else put s n
  else if present then
    ((put s 0).setMapBit f c p true).logFault (if slot = 0 then 0x15 else 0x16) 2 0x01 ch ch
  else s

/-- The map conditions of a cluster's channels at the close of a histogram (R367); the channels' counts restart. -/
def State.judgeMap (s : State) (c : Nat) : State :=
  let live p := !s.inForceFlag F.rcvChCtlMask (16 * c + p)
  let peers p := ((List.range 16).filter fun q =>
    decide (q ≠ p) && live q && decide (s.fld F.fmkCtlDeadHits 0 ≤ (s.chan (16 * c + q)).inGate)).length
  (List.range 16).foldl (fun t p =>
    let ch := 16 * c + p
    let k := s.chan ch
    let dead := live p && decide (k.anyHit = 0) && decide (s.fld F.fmkCtlDeadPeers 0 ≤ peers p)
    let stuck := decide (0 < k.validShots) && decide (k.stuckShots = k.validShots)
    let t1 := (t.mapCondition ch 0 dead).mapCondition ch 1 stuck
    t1.setChan ch { t1.chan ch with inGate := 0, anyHit := 0, stuckShots := 0, validShots := 0 }) s

/-! Banks (R138). -/

/-- The spare bank of a cluster's tile is in reserve while no cluster of the tile is served by it. -/
def State.spareBankFree (s : State) (c : Nat) : Bool :=
  (List.range 4).all fun j => decide (s.fld F.fmkBankPhys (4 * (c / 4) + j) ≠ 48 + c / 4)

/-- A failed bank is replaced by the tile's spare at the boundary; with the spare in service the cluster stays on the
failing bank and enters the fault map (R138, R368). -/
def State.swapBank (s : State) (c : Nat) : State :=
  match (s.clus c).bankFailed with
  | none => s
  | some (tag, at') =>
    if s.dev.time.c < at' + 1000 then s else
    let s1 := s.setClus c { s.clus c with bankFailed := none, ceWords := [] }
    if s1.spareBankFree c then (s1.setFld F.fmkBankPhys c (48 + c / 4)).logFaultAt tag 0x05 1 0x05 c (48 + c / 4)
    else if s1.flag F.fmkBankFailing c then s1
    else ((s1.setFlag F.fmkBankFailing c true).clusterMapChanged c).logFaultAt tag 0x06 2 0x05 c (s1.fld F.fmkBankPhys c)

/-- A loss upstream goes to every point-cloud stream that selects the cluster (R237). -/
def State.cloudGap (s : State) (c : Nat) (g : GapRec) : State :=
  (s.streamsOf 0).foldl (fun t n => if bitOf (t.pair .acqStrSelLo .acqStrSelHi n) c then t.addGap n g else t) s

/-- The time tag the records of a buffer carry (R147). -/
def Buffer.time (b : Buffer) : Nat := match b.first with
  | some (t, _, _) => t
  | none => 0

/-- The histograms of a buffer discarded for an uncorrectable error: one gap record counts them, UNCORR sets (R138). -/
def State.discardLost (s : State) (c : Nat) (b : Bool) : State :=
  let v := (s.clus c).buf b
  let lost := (List.range 16).filter fun p =>
    let h := smGet ({} : ChanHist) v.chans p
    h.lost && !h.told
  match lost with
  | [] => s
  | p :: _ =>
    let s1 := (s.cloudGap c ⟨v.time, lost.length, 16 * c + p, 0x53, 0, false⟩).setFlag F.felClStsUncorr c true
    lost.foldl (fun t q => (t.onHist c b q fun h => { h with told := true }).clearChan (16 * c + q)) s1

/-- A bank that a cluster accumulates in, or whose closed buffer it still extracts, is found failing (R138): the bank in
service is declared failed; an uncorrectable word discards the histogram of its channel in the buffer it lies in. -/
def State.failBank (s : State) (c bank : Nat) (lost : Option (Bool × Nat)) : State :=
  let s1 := if bank = s.fld F.fmkBankPhys c ∧ (s.clus c).bankFailed = none then
      s.setClus c { s.clus c with bankFailed := some (s.tag, s.dev.time.c) } else s
  match lost with
  | some (b, p) =>
    if ((s1.clus c).buf b).no ≠ 0 ∧ ((s1.clus c).buf b).bank = bank then s1.onHist c b p fun h => { h with lost := true }
    else s1
  | none => s1

/-- The cluster that a physical bank serves, or whose closed buffer it still holds (R6, R138). -/
def State.bankCluster (s : State) (bank : Nat) : Option Nat :=
  ((List.range 48).find? fun c => s.fld F.fmkBankPhys c = bank).orElse fun _ => (List.range 48).find? fun c =>
    let b := (s.clus c).buf (!s.accBuf c)
    decide (b.no ≠ 0 ∧ b.bank = bank)

/-- A correctable word: it is corrected and counted; in a histogram bank sixteen distinct words of one histogram fail the
bank (R138, R272, R274). -/
def State.sramCe (s : State) (region unit word : Nat) : State :=
  let s1 := s.bump F.memSramCeCntCount 0 1
  if region = 0 then
    match s1.bankCluster unit with
    | some c =>
      let l := (s1.clus c).ceWords
      if l.contains word then s1
      else
        let s2 := s1.setClus c { s1.clus c with ceWords := word :: l }
        if 16 ≤ l.length + 1 then s2.failBank c unit none else s2
    | none => s1
  else s1

/-- A functional read of a word of a cluster's bank finds an error (R138, R272, R273): correctable, or uncorrectable in the
histogram of position `p` in buffer `b`. -/
def State.bankWord (s : State) (c : Nat) (b : Bool) (p word : Nat) (bad : Bool) : State :=
  let bank := ((s.clus c).buf b).bank
  if bad then (s.sramUe 0).failBank c bank (some (b, p)) else s.sramCe 0 bank word

/-! Boundaries. -/

/-- Tables that wait for a histogram boundary are applied (R92). -/
def State.bowAtBoundary (s : State) (c : Nat) : State :=
  (List.range 34).foldl (fun t e => if t.bowSwitch (34 * c + e) then t.applyTable (34 * c + e) none else t) s

/-- A buffer still under extraction when its bank needs it again is abandoned, with one gap record (R22, R247). -/
def State.abandon (s : State) (c : Nat) : State :=
  let t := c / 4
  match (s.tile t).queue.find? (·.1 = c) with
  | none => s
  | some (_, p) =>
    let v := (s.clus c).buf (!s.accBuf c)
    let s1 := s.cloudGap c ⟨v.time, 16 - p, 16 * c + p, 0x52, 0, false⟩
    (s1.setTile t { s1.tile t with queue := (s1.tile t).queue.filter (·.1 ≠ c) }).bump F.felExtAbandonCntCount t 1

/-- FEL_WIN shows the windows of the histogram now accumulating (R148). -/
def State.showWins (s : State) (c p : Nat) (l : List FineWin) : State :=
  (List.range 4).foldl (fun t w =>
    t.setReg .felWin (64 * c + 4 * p + w) (match l[w]? with
      | some x => packBits [(17, x.start), (13, 0), (1, b2n x.fineSrc), (1, 1)]
      | none => 0)) s

/-- The windows of the next histogram are installed: those computed since the last boundary, else those of the histogram
before; none with PRED_EN at 0 (R148). -/
def State.installWins (s : State) (c : Nat) (prev : Buffer) : State :=
  let next := (s.clus c).nextWins
  let s1 := s.setClus c { s.clus c with nextWins := [] }
  (List.range 16).foldl (fun t p =>
    let old := (smGet ({} : ChanHist) prev.chans p).wins.map (·.1)
    let gen := (t.chan (16 * c + p)).gen
    let keep := decide ((smGet ({} : ChanHist) prev.chans p).gen = gen)
    let l := if !t.inForceFlag F.felClCtlPredEn c then []
      else match next.find? (·.1 = p) with
        | some (_, x) => x
        | none => if keep then old else []
    (t.onHist c (t.accBuf c) p fun h => { h with wins := l.map fun w => (w, {}), gen := gen }).showWins c p l) s1

/-- The close of a cluster's histogram (R133, R135, R136): hits are judged, the fault map follows, the buffers swap, the
closed buffer goes to the extractor, and everything held for the boundary takes effect. Shots delivered while the boundary
waited for a gate begin the next histogram. -/
def State.closeHistogram (s : State) (c : Nat) (short : Bool) : State :=
  let s1 := s.judgeMap c
  let s2 := s1.abandon c
  let a := s2.accBuf c
  let s3 := if short then
      ((s2.onAccBuf c fun b => { b with short := true }).setFlag F.felClStsShort c true).bump F.felClShortCntCount c 1
    else s2
  -- unconfirmed shots are those whose notice has not come when the buffer goes to the extractor (R164)
  let open' := (((s3.clus c).buf a).predicted.filter fun q => !q.2.2).length
  let s4 := s3.onAccBuf c fun b => { b with unconf := b.unconf + open', predicted := [] }
  let s5 := if open' = 0 then s4 else s4.bump F.rejBiUnconfCntCount (s4.inForce F.rejClBiBiSrc c) open'
  let prev := (s5.clus c).buf a
  let s6 := (s5.setFlag F.felClStsBuf c (!a)).setClus c
    (({ s5.clus c with inProgress := false, due := false, ceWords := [] }).setBuf (!a) {})
  let s7 := (s6.setTile (c / 4) { s6.tile (c / 4) with queue := (s6.tile (c / 4)).queue ++ [(c, 0)] }).judgeHits c
  let s8 := ((s7.discardLost c a).swapBank c).takeAll c
  let s9 := ((s8.takeWalk c).bowAtBoundary c).installWins c prev
  let k := s9.clus c
  if k.early = 0 then s9
  else
    let s10 := s9.beginHist c k.early k.earlyVoid k.earlyAz
    s10.setClus c { s10.clus c with early := 0, earlyVoid := 0, earlyAz := 0 }

/-- The histogram boundary of a cluster that has reached SHOTS (R133): where a gate of the last shot is still open, it waits
for that gate. -/
def State.histogramBoundary (s : State) (c : Nat) : State :=
  if s.sys.op = .run ∧ 0 < ((s.clus c).buf (s.accBuf c)).delivered
      ∧ s.inForce F.felClCtlShots c ≤ ((s.clus c).buf (s.accBuf c)).delivered then
    if s.anyGate c then s.setClus c { s.clus c with due := true } else s.closeHistogram c false
  else s

/-- A boundary that waited for a gate comes as the last one closes (R133). -/
def State.settleBoundary (s : State) (c : Nat) : State :=
  if (s.clus c).due ∧ s.anyGate c = false then s.closeHistogram c false else s

/-- Silence closes a histogram short if it holds at least one shot (R135). -/
def State.histogramSilence (s : State) (c : Nat) : State :=
  if s.sys.op = .run ∧ 0 < ((s.clus c).buf (s.accBuf c)).delivered then
    let s1 := s.endShot c ((s.dev.time.edges : Int) * 65536)
    (s1.setClus c { s1.clus c with shot := none, next := none, dark := false }).closeHistogram c true
  else s

/-- START clears windows, prediction history and buffers of every cluster, and the written settings are in force (R149,
R153). Every idle window is open until the first gate (R97). -/
def State.startFelting (s : State) : State :=
  (List.range 48).foldl (fun t c =>
    let x := t.clus c
    let t1 := t.setClus c { (x.setBuf (t.accBuf c) {}) with
      shot := none, dark := false, next := none, skip := none, due := false, early := 0, earlyVoid := 0
      inProgress := false, hits := [], nextWins := [] }
    let t2 := (List.range 16).foldl (fun a p => a.clearChan (16 * c + p)) (t1.takeAll c)
    (List.range 16).foldl (fun a p =>
      (a.setChan (16 * c + p) { a.chan (16 * c + p) with idle := true }).restAdapt (16 * c + p)) t2) s

/-- Leaving RUN: the histogram accumulating is discarded without records, held settings take effect, committed walk
tables switch (R135, R456, R79). -/
def State.stopFelting (s : State) : State :=
  (List.range 48).foldl (fun t c =>
    let t0 := (t.setClus c { t.clus c with shot := none }).judgeHits c
    let t1 := t0.setClus c { ((t0.clus c).setBuf (t0.accBuf c) {}) with
      dark := false, next := none, skip := none, due := false, early := 0, earlyVoid := 0, inProgress := false }
    let t2 := (List.range 16).foldl (fun a p =>
      a.setChan (16 * c + p) { a.chan (16 * c + p) with gateOpen := false }) t1
    (t2.takeAll c).takeWalk c) s

/-- Thermal shutdown abandons what is under extraction (R135, R425). -/
def State.abandonAll (s : State) : State := (List.range 48).foldl (fun t c => t.abandon c) s

/-! Extraction. -/

/-- The scan of a channel's buffer: gate, scan start, background as a fraction, the coarse counts and the kernel
(R139 to R141). -/
structure Scan where
  bins : List (Nat × Nat)
  gopen : Nat
  gclose : Nat
  s0 : Nat
  bn : Int
  bd : Nat
  bgLo : Nat
  bgHi : Nat
  taps : List Int
  centre : Nat
  nom : Nat
  detK : Nat
  minCount : Nat
  sv : Nat
deriving Repr

/-- The count of a bin scaled so that the background is `bn`; a bin outside the scan reads as the background. -/
def Scan.excess (x : Scan) (b : Int) : Int :=
  if (x.s0 : Int) ≤ b ∧ b < x.gclose then ((smGet 0 x.bins b.toNat : Nat) : Int) * x.bd - x.bn else 0

/-- The filter output at bin `b`, scaled by `bd` (R141). -/
def Scan.y (x : Scan) (b : Int) : Int :=
  (x.taps.foldl (fun (p : Int × Int) k => (p.1 + k * x.excess (b + p.2 - x.centre), p.2 + 1)) (0, 0)).1

/-- Half the kernel length. -/
def Scan.half (x : Scan) : Nat := x.taps.length / 2

/-- The detection threshold of R142: y > (DET_K / 16) sqrt(max(bg, 1/16) Σ k²), compared by squares. -/
def Scan.above (x : Scan) (y : Int) : Bool :=
  let e : Int := x.taps.foldl (fun t k => t + k * k) 0
  let k2 : Int := (x.detK : Int) * x.detK
  if (x.bd : Int) ≤ 16 * x.bn then decide (0 < y ∧ k2 * x.bn * x.bd * e < 256 * y * y)
  else decide (0 < y ∧ k2 * x.bd * x.bd * e < 4096 * y * y)

/-- Is bin `b` a candidate (R142)? -/
def Scan.isCandidate (x : Scan) (b : Nat) : Bool :=
  let y := x.y b
  x.above y && decide (x.y ((b : Int) - 1) ≤ y) && decide (x.y (b + 1) < y)
    && decide ((x.minCount : Int) * x.bd ≤ x.excess b)
    && (List.range (2 * x.half + 1)).all fun i => decide (x.y ((b : Int) - x.half + i) ≤ y)

/-- A candidate and what is measured on it. Times are fractions of ns; `win` is the window it claims. -/
structure Cand where
  b : Nat
  y : Int
  rcN : Int
  rcD : Nat
  p : Nat
  lo : Nat
  hi : Nat
  win : Option Nat := none
  tauN : Int := 0
  tauD : Nat := 1
  width : Nat := 0
  rise : Nat := 4095
  amp : Nat := 0
  sat : Bool := false
  pileup : Bool := false
  near : Bool := false
  weather : Bool := false
deriving DecidableEq, Repr

/-- The parabola through three filter outputs (R142), as a fraction with a positive denominator. -/
def refinePeak (b : Nat) (ym y yp : Int) : Int × Nat :=
  let den := 2 * (ym - 2 * y + yp)
  if den = 0 then (2 * (b : Int) + 1, 2)
  else
    -- b + 1/2 + (ym - yp) / den
    let n := (2 * (b : Int) + 1) * den + 2 * (ym - yp)
    if 0 < den then (n, (2 * den).toNat) else (-n, (-(2 * den)).toNat)

/-- Of two bins for the peak: the higher count; of equal counts the nearer to `b`; of two equally near the lower
(R143). -/
def Scan.betterPeak (x : Scan) (b : Nat) (p q : Nat) : Nat :=
  let hp := x.excess p
  let hq := x.excess q
  let dp := ((p : Int) - b).natAbs
  let dq := ((q : Int) - b).natAbs
  if hp < hq then q else if hq < hp then p
  else if dq < dp then q else if dp < dq then p else if q < p then q else p

/-- The peak bin (R143). -/
def Scan.peak (x : Scan) (b : Nat) : Nat :=
  (List.range (2 * x.half + 1)).foldl (fun (p i : Nat) =>
    let q : Int := (b : Int) - x.half + i
    if (x.s0 : Int) ≤ q ∧ q < x.gclose then x.betterPeak b p q.toNat else p) b

/-- Does a bin belong to the span of peak `p` (R143)? -/
def Scan.inSpan (x : Scan) (p : Nat) (b : Int) : Bool :=
  decide ((x.s0 : Int) ≤ b) && decide (b < x.gclose) && decide (x.excess p ≤ 4 * x.excess b)

/-- The span grown outward from its peak, lower side first, in turn, to at most 16 bins (R143). -/
def Scan.grow (x : Scan) (p : Nat) : Nat → Nat → Nat → Bool → Bool → Nat × Nat
  | 0, lo, hi, _, _ => (lo, hi)
  | f + 1, lo, hi, goLo, goHi =>
    if 16 ≤ hi + 1 - lo ∨ (!goLo && !goHi) then (lo, hi)
    else
      let down := goLo && decide (0 < lo) && x.inSpan p ((lo : Int) - 1)
      let lo1 := if down then lo - 1 else lo
      let up := goHi && decide (hi + 1 - lo1 < 16) && x.inSpan p (hi + 1)
      let hi1 := if up then hi + 1 else hi
      x.grow p f lo1 hi1 down up

/-- The bins of a span. -/
def Cand.span (k : Cand) : List Nat := (List.range (k.hi + 1 - k.lo)).map (k.lo + ·)

/-- Positive part. -/
def pos (i : Int) : Int := if 0 < i then i else 0

/-- The content of a span above the background, scaled by `bd`. -/
def Scan.content (x : Scan) (k : Cand) : Int := k.span.foldl (fun (t : Int) (b : Nat) => t + pos (x.excess b)) 0

/-- A candidate found at bin `b`, with its coarse measurements (R142, R143). -/
def Scan.measure (x : Scan) (b : Nat) : Cand :=
  let r := refinePeak b (x.y ((b : Int) - 1)) (x.y b) (x.y (b + 1))
  let p := x.peak b
  let g := x.grow p 32 p p true true
  let k : Cand := { b := b, y := x.y b, rcN := r.1, rcD := r.2, p := p, lo := g.1, hi := g.2 }
  let den := x.content k
  let num := k.span.foldl (fun (t : Int) (b : Nat) => t + (2 * (b : Int) + 1) * pos (x.excess b)) 0
  { k with
    tauN := if den = 0 then 2 * (p : Int) + 1 else num
    tauD := if den = 0 then 2 else (2 * den).toNat
    width := 16 * (k.span.filter fun (b : Nat) => decide (x.excess p ≤ 2 * x.excess b)).length
    sat := k.span.any fun b => decide (4095 ≤ smGet 0 x.bins b) }

/-- Insert by a "comes before" test. -/
def insertBy {α : Type} (lt : α → α → Bool) (a : α) : List α → List α
  | [] => [a]
  | b :: l => if lt a b then a :: b :: l else b :: insertBy lt a l

/-- Sort by a "comes before" test. -/
def sortBy {α : Type} (lt : α → α → Bool) : List α → List α
  | [] => []
  | a :: l => insertBy lt a (sortBy lt l)

/-- Larger y first, ties to the nearer (R142, R146). -/
def byY (a b : Cand) : Bool := decide (b.y < a.y) || (decide (a.y = b.y) && decide (a.b < b.b))

/-- Ascending range. -/
def byTau (a b : Cand) : Bool := decide (a.tauN * b.tauD < b.tauN * a.tauD)

/-- Does a candidate qualify for a window (R144)? -/
def qualifies (k : Cand) (w : FineWin) : Bool :=
  decide (((w.start : Int) + 16) * k.rcD ≤ 16 * k.rcN) && decide (16 * k.rcN < ((w.start : Int) + 48) * k.rcD)

/-- The fine peak bin of a window: the highest count, the lowest bin of equals (R144). -/
def finePeak (a : WinAcc) : Nat :=
  (List.range 64).foldl (fun q i => if smGet 0 a.bins q < smGet 0 a.bins i then i else q) 0

/-- The fine centroid of a window (R144): numerator and denominator of i_c times 2, or none for a denominator of 0. -/
def Scan.fineCentroid (x : Scan) (a : WinAcc) (half : Nat) : Option (Int × Int) :=
  let q := finePeak a
  let l := (List.range 64).filter fun i => decide (q ≤ i + half) && decide (i ≤ q + half)
  let wgt (i : Nat) : Int := pos (((smGet 0 a.bins i : Nat) : Int) * 16 * x.bd - x.bn)
  let den := l.foldl (fun (t : Int) (i : Nat) => t + wgt i) 0
  if den = 0 then none else some (l.foldl (fun (t : Int) (i : Nat) => t + (2 * (i : Int) + 1) * wgt i) 0, den)

/-- Quotient of sums, to the nearest; 0 by 0 is 0. -/
def meanOf (sum n : Nat) : Nat := if n = 0 then 0 else (divRound sum n).toNat

/-- Give each candidate, in falling y, the window it qualifies for if no other has taken it (R144). -/
def Scan.claim (x : Scan) (half : Nat) (wins : List (FineWin × WinAcc)) : List Cand → List Nat → List Cand
  | [], _ => []
  | k :: l, taken =>
    let i? := (List.range wins.length).find? fun i => match wins[i]? with
      | some (w, _) => qualifies k w
      | none => false
    match i? with
    | none => k :: x.claim half wins l taken
    | some i =>
      if taken.contains i then k :: x.claim half wins l taken
      else match wins[i]? with
        | none => k :: x.claim half wins l taken
        | some (w, a) =>
          match x.fineCentroid a half with
          | none => k :: x.claim half wins l taken
          | some (num, den) =>
            { k with
              win := some i
              tauN := (w.start : Int) * 2 * den + num, tauD := (32 * den).toNat
              width := min 4095 (meanOf a.widthSum a.hits)
              rise := if a.highNum = 0 then 4095 else min 4095 (meanOf a.riseSum a.highNum)
              sat := k.sat || a.sat } :: x.claim half wins l (i :: taken)

/-- The blocking fraction's numerator over bd × S_v, from the earlier candidates (R145). -/
def Scan.blocking (x : Scan) (earlier : List Cand) (k : Cand) : Int :=
  earlier.foldl (fun t j =>
    if j.lo ≤ k.p ∧ k.p < j.lo + (j.width + 15) / 16 + 4 then t + x.content j else t) 0

/-- Amplitude and pile-up of one candidate (R143, R145). -/
def Scan.amplitude (x : Scan) (earlier : List Cand) (k : Cand) : Cand :=
  let f := x.blocking earlier k
  let a := pos (x.excess k.p) * 16
  let wide := decide (2 * x.nom < k.width)
  if f = 0 then { k with amp := satN 16 (divRound a x.bd).toNat, pileup := wide }
  else if x.sv = 0 then { k with amp := satN 16 (divRound a x.bd).toNat, pileup := wide || bitOf (Config.perNoShots f) 0 }
  else
    let n : Int := (x.bd : Int) * x.sv
    let pile := decide (n ≤ 16 * f)
    if pile && decide (4 * f ≤ 3 * n) then
      { k with amp := satN 16 (divRound (a * x.sv) (n - f).toNat).toNat, pileup := true }
    else { k with amp := satN 16 (divRound a x.bd).toNat, pileup := wide || pile }

/-- Amplitudes in ascending range. -/
def Scan.amplitudes (x : Scan) : List Cand → List Cand → List Cand
  | _, [] => []
  | done, k :: l => let j := x.amplitude done k; j :: x.amplitudes (done ++ [j]) l

/-- Weather classification (R156); `wx` and `xs` are the cluster's words. -/
def Scan.classify (x : Scan) (wx xs : Nat) (k : Cand) : Cand :=
  let nearNs := bitsOf wx 25 16
  let near := decide (0 < nearNs) && decide (k.tauN < (nearNs : Int) * k.tauD)
  let prob := bitsOf wx 15 8
  let wide := decide (0 < prob) && decide (bitsOf wx 5 0 * x.nom ≤ 4 * k.width) && decide (256 * k.amp ≤ prob * x.sv)
  let weak := near && decide (256 * k.amp ≤ bitsOf xs 31 24 * x.sv)
  { k with near := near, weather := wide || weak }

/-- The scan of a channel's histogram under its buffer's settings (R136, R139 to R141). -/
def scanOf (b : Buffer) (p : Nat) (sv : Nat) : Scan :=
  let h := smGet ({} : ChanHist) b.chans p
  let gate := b.cfg.gates.getD p 0
  let gopen := bitsOf gate 12 0
  let gclose := bitsOf gate 29 16
  let lo := gopen + bitsOf b.cfg.bg 15 8
  let hi := min gclose (lo + 16 * 2 ^ bitsOf b.cfg.bg 1 0)
  let l := (List.range (hi - lo)).map (lo + ·)
  { bins := h.bins, gopen := gopen, gclose := gclose, s0 := gopen - 32
    bn := l.foldl (fun (t : Int) (i : Nat) => t + ((smGet 0 h.bins i : Nat) : Int)) 0, bd := if l.isEmpty then 1 else l.length
    bgLo := lo, bgHi := hi, taps := b.cfg.taps, centre := b.cfg.centre, nom := b.cfg.nom
    detK := bitsOf b.cfg.det 23 16, minCount := bitsOf b.cfg.det 11 0, sv := sv }

/-- Every candidate of a scan in falling y (R142). -/
def Scan.candidates (x : Scan) : List Cand :=
  sortBy byY (((List.range (x.gclose - x.s0)).map (x.s0 + ·)).filter x.isCandidate |>.map x.measure)

/-- The kept candidates of a channel in ascending range, fully measured and classified (R142 to R145, R156). -/
def Scan.kept (x : Scan) (cfg : BufCfg) (wins : List (FineWin × WinAcc)) : List Cand :=
  let c16 := x.candidates.take 16
  let fine := x.claim (bitsOf cfg.win 12 8) wins c16 []
  (x.amplitudes [] (sortBy byTau fine)).map (x.classify cfg.wx cfg.xs)

/-- The residual excess X times `bd` (R158). -/
def Scan.residual (x : Scan) (l : List Cand) : Int :=
  pos (((List.range (x.gclose - x.gopen)).map (x.gopen + ·)).foldl (fun t b =>
    if (x.bgLo ≤ b ∧ b < x.bgHi) ∨ l.any (fun k => decide (k.lo ≤ b) && decide (b ≤ k.hi)) then t
    else t + x.excess b) 0)

/-- MULTI (R146, R157): up to four of largest y in ascending range; with LAST_PREF the farthest of more than four is
among them. -/
def multiOf (lastPref : Bool) (l : List Cand) : List Cand :=
  if lastPref && decide (4 < l.length) then
    match l.getLast? with
    | some far => sortBy byTau ((sortBy byY l.dropLast).take 3) ++ [far]
    | none => []
  else sortBy byTau ((sortBy byY l).take 4)

/-- Of largest amplitude, ties to the nearer; `l` is in ascending range (R146). -/
def strongest : List Cand → Option Cand
  | [] => none
  | k :: l => match strongest l with
    | some j => if k.amp < j.amp then some j else some k
    | none => some k

/-- The range of a candidate in 0.1 mm (R144). -/
def rangeOf (k : Cand) (ofs : Int) : Nat :=
  (clampI 0 16777215 (divRound (k.tauN * 149896229) (k.tauD * 100000) + ofs)).toNat

/-- The windows predicted from the MULTI candidates (R148). -/
def predictOne (mode : Bool) (lead : Nat) (wins : List (FineWin × WinAcc)) (k : Cand) : FineWin :=
  let t : Int × Nat := match k.win, mode with
    | some i, true => match wins[i]? with
      | some (w, _) => (2 * k.tauN * w.srcDen - w.srcNum * k.tauD, k.tauD * w.srcDen)
      | none => (k.tauN, k.tauD)
    | _, _ => (k.tauN, k.tauD)
  { start := (clampI 0 131008 (divRound (16 * t.1) t.2 - lead)).toNat, fineSrc := k.win.isSome
    srcNum := k.tauN, srcDen := k.tauD }

/-- Windows in ascending start, each moved to start where the one before ends; one pushed beyond 131,008 is not placed
(R148). -/
def spaceWins (lo : Nat) : List FineWin → List FineWin
  | [] => []
  | w :: l =>
    let st := max lo w.start
    if 131008 < st then [] else { w with start := st } :: spaceWins (st + 64) l

/-- The prediction of a channel. -/
def predict (mode : Bool) (lead : Nat) (wins : List (FineWin × WinAcc)) (l : List Cand) : List FineWin :=
  spaceWins 0 (sortBy (fun a b => decide (a.start < b.start)) (l.map (predictOne mode lead wins)))

/-- One echo or snippet record of a channel: its reduction bit (R146), and the echo or the snippet's start bin. -/
inductive ChanRec where
  | echo (e : Echo)
  | snippet (time shotId channel : Nat) (start : Int) (counts : List Nat)
deriving DecidableEq, Repr

/-- The bit of REDUCE a record stands under. -/
def ChanRec.bit : ChanRec → Nat
  | .echo e => e.reduction
  | .snippet .. => 4

/-- Record units (R236). -/
def ChanRec.units : ChanRec → Nat
  | .echo _ => 1
  | .snippet .. => 2

/-- The bytes of a record with its SEQ. -/
def ChanRec.bytes (domain seq : Nat) : ChanRec → List Byte
  | .echo e => echoBytes e (seq % 65536) domain
  | .snippet t i c st cs => snippetBytes t i c st cs

/-- Number and encode a unit. -/
def encodeUnit (domain : Nat) : Nat → List ChanRec → List (List Byte)
  | _, [] => []
  | seq, r :: l => r.bytes domain seq :: encodeUnit domain (seq + 1) l

/-- The records of one channel-histogram go to every stream that selects them (R146, R231, R236, R239): all find tokens,
or the unit is lost whole from every stream with reason RATE. -/
def State.offerChannel (s : State) (ch time : Nat) (l : List ChanRec) : State :=
  let sel (n : Nat) : List ChanRec :=
    if bitOf (s.pair .acqStrSelLo .acqStrSelHi n) (ch / 16) then l.filter fun r => bitOf (s.fld F.acqStrCtlReduce n) r.bit
    else []
  let ns := (s.streamsOf 0).filter fun n => !(sel n).isEmpty
  let units := ns.foldl (fun t n => t + (sel n).foldl (fun a r => a + r.units) 0) 0
  if units = 0 then s
  else
    let r := s.takeTokens units
    let s1 := if r.1 then r.2 else r.2.bump F.acqRateDropCntCount 0 units
    ns.foldl (fun t n =>
      let u := sel n
      let x := t.stream n
      let t1 := t.setStream n { x with seq := (x.seq + u.length) % 65536 }
      if r.1 then t1.offerUnit n time ch (encodeUnit t.domain x.seq u)
      else t1.addGap n ⟨time, u.length, ch, 0x51, 0, false⟩) s1

/-- The snapshot of a channel's raw buffer (R150). -/
def State.takeSnapshot (s : State) (t c p : Nat) (b : Buffer) (sv : Nat) : State :=
  let h := smGet ({} : ChanHist) b.chans p
  let halves (n : Nat) (f : Nat → Nat) : List (Nat × Nat) :=
    (List.range n).filterMap fun i =>
      let v := f (2 * i) + 65536 * f (2 * i + 1)
      if v = 0 then none else some (i, v)
  let coarse := halves 4096 fun i => smGet 0 h.bins i
  let fine := halves 128 fun i => match h.wins[i / 64]? with
    | some (_, a) => smGet 0 a.bins (i % 64)
    | none => 0
  let tail : List (Nat × Nat) :=
    (List.range 4).map (fun w => (0x1080 + w, match h.wins[w]? with
      | some (x, _) => x.start + 2 ^ 31
      | none => 0)) ++
    [(0x1084, bitsOf b.cfg.ctl 23 12 * 65536 + sv), (0x1086, b.time % 2 ^ 32), (0x1087, b.time / 2 ^ 32),
      (0x1088, 16 * c + p)]
  ((s.setTile t { s.tile t with snap := coarse ++ fine.map (fun q => (0x1000 + q.1, q.2)) ++ tail }).setFlag
    F.felSnapDone t true).setFlag F.felSnapArm t false

/-- The whole part of the residual excess goes to the counter, the fraction stays with the cluster (R158). -/
def State.addExcess (s : State) (c : Nat) (xn xd : Nat) : State :=
  let k := s.clus c
  let n := k.xNum * xd + xn * k.xDen
  let d := k.xDen * xd
  (s.setClus c { k with xNum := n % d, xDen := if n % d = 0 then 1 else d }).bump F.rejClXsCntCount c (n / d)

/-- The records of a channel's candidates in the order of R146. `l` is in ascending range, after removal under R157. -/
def chanRecords (cfg : BufCfg) (ch time frac shotId az bg flags : Nat) (x : Scan) (ofs : Int) (l : List Cand) :
    List ChanRec :=
  let action := bitsOf cfg.wx 31 30
  let first := if action = 1 then l.filter (!·.weather) else l
  let reduce := bitsOf cfg.ctl 28 24
  let mk (red idx : Nat) (k : Cand) : ChanRec := .echo
    { time := time, frac := frac, shotId := shotId, reduction := red, idx := idx, channel := ch
      range := rangeOf k ofs, amplitude := k.amp
      flags := flags + b2n k.win.isNone + 2 * (if k.sat && !bitOf flags 1 then 1 else 0) + 8 * b2n k.pileup
        + 128 * b2n k.near + 256 * b2n k.weather
      rise := k.rise, width := min 4095 k.width, azimuth := az, background := bg }
  let multi := multiOf (bitOf cfg.wx 29) l
  let m := (List.range multi.length).filterMap fun i => (multi[i]?).map (mk 0 i)
  let f := (first.head?).toList.map (mk 1 0)
  let st := (strongest first).toList
  let la := (l.getLast?).toList.map (mk 3 0)
  let sn := st.map fun k =>
    let start : Int := (k.p : Int) - bitsOf cfg.win 20 16
    ChanRec.snippet time shotId ch start ((List.range 32).map fun (i : Nat) =>
      let b := start + i
      if (x.s0 : Int) ≤ b ∧ b < x.gclose then smGet 0 x.bins b.toNat else 0)
  (m ++ f ++ st.map (mk 2 0) ++ la ++ sn).filter fun r => bitOf reduce r.bit

/-- How many coarse candidates appear in at least one record of any reduction (R151). -/
def coarseShown (cfg : BufCfg) (l : List Cand) : Nat :=
  let action := bitsOf cfg.wx 31 30
  let first := if action = 1 then l.filter (!·.weather) else l
  let reduce := bitsOf cfg.ctl 28 24
  let shown := (if bitOf reduce 0 then multiOf (bitOf cfg.wx 29) l else [])
    ++ (if bitOf reduce 1 then first.head?.toList else []) ++ (if bitOf reduce 2 then (strongest first).toList else [])
    ++ (if bitOf reduce 3 then l.getLast?.toList else [])
  (l.filter fun k => k.win.isNone && shown.any (·.b = k.b)).length

/-- The extraction of one channel of a closed buffer (R139 to R148, R156 to R158); a histogram that an uncorrectable word
spoils is discarded (R138). -/
def State.extractChannel (s : State) (c p : Nat) : State :=
  let bi := !s.accBuf c
  let b := (s.clus c).buf bi
  let ch := 16 * c + p
  let t := c / 4
  let sv := b.delivered - b.voids - b.unconf
  let h := smGet ({} : ChanHist) b.chans p
  let snap := s.flag F.felSnapArm t && decide (s.fld F.felSnapChannel t = 16 * (c % 4) + p) && !h.lost
  let s0 := if snap then s.takeSnapshot t c p b sv else if h.lost then s.discardLost c bi else s
  let s1 := s0.onHist c bi p fun _ => {}
  if bitOf (b.cfg.ctls.getD p 0) 7 || h.lost then s1
  else
    let x := scanOf b p sv
    let kept := x.kept b.cfg h.wins
    let many := decide (16 < x.candidates.length)
    let misses := ((List.range h.wins.length).filter fun i => kept.all fun k => decide (k.win ≠ some i)).length
    let xr := x.residual kept
    let removeW := decide (2 ≤ bitsOf b.cfg.wx 31 30)
    let l := if removeW then kept.filter (!·.weather) else kept
    let q : Nat := if sv = 0 then Config.perNoShots (16 * xr) else (divFloor (16 * xr) (x.bd * sv)).toNat
    let limit := bitsOf b.cfg.xs 11 0
    let interf := decide (0 < sv) && decide (0 < limit) && decide ((limit : Int) * sv * x.bd ≤ 16 * xr)
    let bgSat := ((List.range (x.bgHi - x.bgLo)).map (x.bgLo + ·)).any fun i => decide (4095 ≤ smGet 0 h.bins i)
    let flags := packBits [(1, 0), (1, b2n bgSat), (1, b2n h.ovr), (1, 0), (1, b2n b.short),
      (1, b2n (decide (0 < b.voids + b.unconf))), (1, b2n many), (1, 0), (1, 0), (1, b2n interf),
      (1, b2n b.cfg.bistatic), (1, b2n (s.mapped ch))]
    let bg := min 4095 (if sv = 0 then Config.perNoShots (4096 * x.bn) else (divRound (4096 * x.bn) (x.bd * sv)).toNat)
    let f := b.first.getD (0, 0, 0)
    let az := if bitOf b.cfg.outw 31 then b.azimuth else 0
    let recs := chanRecords b.cfg ch f.1 f.2.1 f.2.2 az bg flags x (signed 16 b.cfg.outw) l
    let s2 := (s1.bump F.felClMissCntCount c misses).bump F.felClCoarseCntCount c (coarseShown b.cfg l)
    let s3 := if removeW then s2.bump F.rejClWxCntCount c (kept.length - l.length) else s2
    let s4 := (s3.setFld F.rejChStatExcess ch (min 255 q)).addExcess c xr.toNat x.bd
    let s5 := s4.offerChannel ch f.1 recs
    -- prediction (R148), discarded where the channel was cleared since the histogram began (R149)
    if s5.inForceFlag F.felClCtlPredEn c && decide (h.gen = (s5.chan ch).gen) then
      let wins := predict (bitOf b.cfg.ctl 29) (bitsOf b.cfg.win 5 0) h.wins (multiOf (bitOf b.cfg.wx 29) l)
      s5.setClus c { s5.clus c with nextWins := (p, wins) :: (s5.clus c).nextWins.filter (·.1 ≠ p) }
    else s5

/-- The extractor of a tile finishes its next channel (R136): buffers in the order of their boundaries, channels in
ascending position; after the last, the histogram is extracted. `errs` lists the words of the channel whose code found an
error, and whether it is uncorrectable (R272, R273). -/
def State.channelExtracted (s : State) (t : Nat) (errs : List (Nat × Bool)) : State :=
  match (s.tile t).queue with
  | [] => s
  | (c, p) :: rest =>
    let bi := !s.accBuf c
    let b := (s.clus c).buf bi
    let s1 := (errs.foldl (fun (a : State) e => a.bankWord c bi p e.1 e.2) s).extractChannel c p
    if p < 15 then s1.setTile t { s1.tile t with queue := (c, p + 1) :: rest }
    else
      let s2 := (s1.setTile t { s1.tile t with queue := rest }).bump F.felClHistCntCount c 1
      let s3 := s2.setFld F.felClStsSvLast c (b.delivered - b.voids - b.unconf)
      s3.setClus c ((s3.clus c).setBuf (!s3.accBuf c) {})

/-! Extractor load (R139). -/

/-- Twice ceil(L/16) + 256, or 32 for a masked channel: the scan time of a channel in ns, with written values. -/
def State.scanTime (s : State) (ch : Nat) : Nat :=
  if s.flag F.rcvChCtlMask ch then 32
  else
    let l := s.fld F.rcvChGateClose ch - (s.fld F.rcvChGateOpen ch - 32)
    2 * ((l + 15) / 16) + 256

/-- The period of the source a cluster follows: its port's, or its bistatic source's (R139, R163). -/
def State.clusterPeriod (s : State) (c : Nat) : Nat :=
  if s.flag F.rejClBiBiEn c then
    match (smGet ({} : BiSt) s.dev.rng.sources (s.fld F.rejClBiBiSrc c)).ann with
    | some a => a.period
    | none => 0
  else s.fld F.emtPortPeriodValue (s.fld F.emtClSrcEmitter c)

/-- The load of a tile in 1/1,024 (R139), rounded down after the sum; a cluster without shots does not count. -/
def State.tileLoad (s : State) (t : Nat) : Nat :=
  let terms := (List.range 4).filterMap fun j =>
    let c := 4 * t + j
    let per := s.clusterPeriod c
    if (s.flag F.emtClSrcEn c || s.flag F.rejClBiBiEn c) && decide (0 < per) then
      some ((List.range 16).foldl (fun a p => a + s.scanTime (16 * c + p)) 0, s.fld F.felClCtlShots c * per - 254)
    else none
  let r := terms.foldl (fun (q : Nat × Nat) x => (q.1 * x.2 + x.1 * q.2, q.2 * x.2)) (0, 1)
  if r.2 = 0 then 1023 else 1024 * r.1 / r.2

/-- FEL_EXT_LOAD shows the load (R151). -/
def State.updateLoad (s : State) (t : Nat) : State := s.setFld F.felExtLoadLoad t (min 1023 (s.tileLoad t))

end Sys2Proof.Machine
end

