-- ==== Sys2Proof/Machine/ClusterShots.lean ====
section
/-! DEFINITION. Shots as the clusters see them (R70 to R72, R77, R82, R112, R133): fire edges, start-sense and shot
references (R115 to R117), gates, and the re-lock that shuts them (R121 to R126). -/
namespace Sys2Proof.Machine

/-- Is the histogram of a cluster full, so that its boundary waits for a gate alone (R133)? -/
def State.histFull (s : State) (c : Nat) : Bool :=
  let x := s.clus c
  x.inProgress && decide (s.inForce F.felClCtlShots c ≤ (x.buf (s.accBuf c)).delivered)

/-- A delivered shot counts in the histogram in progress, in one that begins with it, or in the next one while a boundary
waits for a gate (R133, R456). -/
def State.countShot (s : State) (c : Nat) : State :=
  if s.histFull c then s.setClus c { s.clus c with early := (s.clus c).early + 1, due := true }
  else if (s.clus c).inProgress then s.onAccBuf c fun b => { b with delivered := b.delivered + 1 }
  else s.beginHist c 1 0 0

/-- A shot is delivered to a cluster at its fire edge, which zeroes the coarse counter (R82, R112, R133, R456). -/
def State.deliver (s : State) (c k : Nat) (fireFix : Int) : State :=
  let s1 := s.countShot c
  let x := s1.clus c
  s1.setClus c { x with
    next := some { n := x.shotNo + 1, k := k, fireFix := fireFix, fireEdge := s.dev.time.edges, tRef := none, void := false }
    shotNo := x.shotNo + 1, coarseZero := s.dev.time.edges, lastShotAt := s.dev.time.c }

/-- The azimuth code is latched at the fire edge of shot (SHOTS − 1) div 2 (R147, R172). -/
def State.latchAzimuth (s : State) (c : Nat) : State :=
  let x := s.clus c
  let n := if x.early = 0 then (x.buf (s.accBuf c)).delivered else x.early
  if s.inForceFlag F.felClOutAzEn c ∧ n = (s.inForce F.felClCtlShots c - 1) / 2 + 1 then
    let az := s.fld F.loopSaxAzAz (s.inForce F.felClOutAzAxis c)
    if x.early = 0 then s.onAccBuf c fun b => { b with azimuth := az } else s.setClus c { x with earlyAz := az }
  else s

/-- The clusters that a port's shot reaches: EN in force, following the port, not a bistatic source, their felting bank on
(R112). -/
def State.followers (s : State) (n : Nat) : List Nat :=
  (List.range 48).filter fun c =>
    s.inForceFlag F.emtClSrcEn c && decide (s.follows c = n) && !s.bistatic c && s.clusterOn c

/-- The scheduled fire edge of a sampled shot (R108, R109, R113, R115): the trigger is driven unless a permit blocks it, high
for TRIG_WIDTH × 250 ps, and every following cluster gets the shot. One that falls into a re-lock, or finds its port
without a start-sense engine, is withdrawn (R118, R126). The pin carries TRIG_WIDTH × 64 + phase. -/
def State.fireEdge (s : State) (n : Nat) : State :=
  let p := s.port n
  match p.drawn with
  | none => s
  | some x =>
    if !x.sampled then s
    else if s.flag F.emtPllStsSafeClk 0 then s.withdraw n x.k 2
    else if p.noEngine then s.withdraw n x.k 3
    else
      let y := { x with fired := !x.blocked, fireFix := s.timeFix }
      let s1 := s.setPort n { nextNominal p (s.fld F.emtPortPeriodValue n) with cur := some y }
      let s2 := if y.fired then
          ((((s1.bump F.emtPortFireCntCount n 1).setSfld F.emtPortLastOffset n x.offset).setFld
            F.emtPortLastPhase n x.phase).emit (.pin 0 n (64 * s.fld F.emtPortCtlTrigWidth n + x.phase))).noteShot n x.k false
        else s1.noteShot n x.k true
      (s2.followers n).foldl (fun t c =>
        if (t.clus c).skip = some x.k then t.setClus c { t.clus c with skip := none }
        else (t.deliver c x.k y.fireFix).latchAzimuth c) s2

/-! References. -/

/-- A void shot counts in its histogram: in the next one, where it was delivered while a boundary waited (R72, R133). -/
def State.countVoid (s : State) (c : Nat) : State :=
  let x := s.clus c
  if x.early = 0 then s.onAccBuf c fun b => { b with voids := b.voids + 1 }
  else s.setClus c { x with earlyVoid := x.earlyVoid + 1 }

/-- The first valid shot of a histogram gives its records their time tag and shot id (R147). -/
def State.noteFirst (s : State) (c : Nat) (refFix : Int) (k : Nat) : State :=
  s.onAccBuf c fun b =>
    if b.first.isNone then
      { b with first := some (unsigned 64 (divFloor refFix (2 ^ 32)), unsigned 8 (divFloor refFix (2 ^ 24)), k % 65536) }
    else b

/-- The gates of a cluster open on a valid shot (R70, R73, R152); a channel whose gate stays shut is in its idle window
(R97). -/
def State.openGates (s : State) (c : Nat) : State :=
  (List.range 16).foldl (fun t p =>
    let ch := 16 * c + p
    let k := t.chan ch
    let o := t.chanLive ch && t.gateValid ch
    t.setChan ch { k with
      gateOpen := o, idle := !o, validShots := k.validShots + 1
      adaptShots := if t.adapting ch then k.adaptShots + 1 else k.adaptShots }) s

/-- A blanked shot has a reference but no gate (R72, R77). -/
def State.blankShot (s : State) (c : Nat) (y : ShotCtx) : State :=
  let k := s.clus c
  let s1 := (s.setClus c { k with
    blank := k.blank - 1, shot := some { y with void := true }, dark := false, next := none }).bump F.rcvClBlankCntCount c 1
  (s1.setFlag F.rcvClStsBlanking c (decide (1 < k.blank))).countVoid c

/-- A shot reference reaches a cluster (R70, R71, R77): the old shot's gates close, a boundary that waited for them comes
(R133), and the shot's own gates open unless it is blanked. `tRef` is in 1/65,536 ns after the fire edge. A shot that the
boundary took from the cluster has no reference for it (R112). -/
def State.reference (s : State) (c : Nat) (x : ShotCtx) (tRef : Int) : State :=
  let s1 := (s.endShot c ((x.fireEdge : Int) * 65536 + tRef)).settleBoundary c
  let y := { x with tRef := some tRef }
  let k := s1.clus c
  if k.next.isNone then s1
  else if 0 < k.blank then (s1.blankShot c y).judgeHits c
  else
    (((s1.setClus c { k with shot := some y, dark := false, next := none }).noteFirst c (x.fireFix + tRef * 65536) x.k).openGates
      c).judgeHits c

/-- A shot is void for a cluster for want of a reference (R72): a gate of the shot before it that is still open stays so until
it closes, and no gate opens for the void shot. -/
def State.darkShot (s : State) (c : Nat) (x : ShotCtx) : State :=
  let s1 := (s.countVoid c).bump F.rcvClNorefCntCount c 1
  let k := s1.clus c
  if s1.anyGate c then s1.setClus c { k with dark := true, next := none }
  else
    let s2 := s1.setClus c { k with shot := some { x with void := true }, dark := false, next := none }
    ((List.range 16).foldl (fun t p =>
      t.setChan (16 * c + p) { t.chan (16 * c + p) with idle := true }) s2).judgeHits c

/-- The clusters that await the reference of shot `k` of a port. -/
def State.awaiting (s : State) (n k : Nat) : List Nat :=
  (s.followers n).filter fun c => match (s.clus c).next with
    | some x => x.k = k
    | none => false

/-- A shot without a reference is void for every cluster that awaits it, and counted once each (R72, R116, R117). -/
def State.noReference (s : State) (n k : Nat) : State :=
  (s.awaiting n k).foldl (fun t c =>
    match (t.clus c).next with
    | some x => t.darkShot c x
    | none => t) s

/-! Start-sense. -/

/-- Does a start-sense edge `t` after the fire edge of the port's shot count (R116)? `t` is in 1/128 ns. -/
def State.senseInWindow (s : State) (n t : Nat) : Bool :=
  match (s.port n).cur with
  | some x => x.fired && !x.edge && !x.resolved && decide (128 * s.fld F.emtPortSenseSenseMin n ≤ t)
      && decide (t ≤ 128 * s.fld F.emtPortSenseSenseMax n)
  | none => false

/-- A start-sense edge (R72, R116, R117): the first inside the window starts the conversion, with the coarse count at the
timing-clock edge that follows it; every other edge sets SPURIOUS. Where no engine can convert it, or no reference may
arise, the shot has none: it is void, but not a missing start-sense (log entry 71). -/
def State.senseEdge (s : State) (n t : Nat) : State :=
  if s.senseInWindow n t then
    match (s.port n).cur with
    | some x =>
      let u := senseUnit n
      let y := { x with edge := true, coarse := min 65535 (t / 128 + 1) }
      if s.engineFree u && !s.flag F.emtPllStsSafeClk 0 then
        (s.setPort n { s.port n with cur := some y }).setEngine u { s.engine u with busy := true }
      else (s.setPort n { s.port n with cur := some { y with resolved := true } }).noReference n x.k
    | none => s
  else s.setFlag F.emtPortStsSpurious n true

/-- The start-sense conversion ends in coincidence: it is the shot's t_ref, and the run of missing edges restarts (R95, R116,
R117). On the safe clock no reference arises (R72). -/
def State.senseConverted (s : State) (n cnt : Nat) : State :=
  match (s.port n).cur with
  | some x =>
    if x.edge && !x.resolved then
      let u := senseUnit n
      let t := convTime (s.engine u) (s.fld F.tdcEngGbowGBow u) x.coarse cnt
      let s1 := (s.setPort n { s.port n with cur := some { x with resolved := true }, missRun := 0 }).freeEngine u
      if s.flag F.emtPllStsSafeClk 0 then s1.noReference n x.k
      else (s1.awaiting n x.k).foldl (fun a cl => match (a.clus cl).next with
        | some y => a.reference cl y t
        | none => a) s1
    else s
  | none => s

/-- The start-sense conversion times out: the shot has no t_ref, it is no missing edge, and the engine is replaced
(R116). -/
def State.senseTimedOut (s : State) (n : Nat) : State :=
  match (s.port n).cur with
  | some x =>
    if x.edge && !x.resolved then
      (((s.setPort n { s.port n with cur := some { x with resolved := true } }).noReference n x.k).setFlag
        F.tdcEngStsTimeout (senseUnit n) true).failEngine (senseUnit n)
    else s
  | none => s

/-- The start-sense window of a shot ends without an edge (R72, R117, R128). A blocked shot was not fired: it is void for
the clusters and counts for nothing else. -/
def State.senseWindowEnd (s : State) (n : Nat) : State :=
  match (s.port n).cur with
  | none => s
  | some x =>
    if x.edge || x.resolved then s
    else
      let s1 := (s.setPort n { s.port n with cur := some { x with resolved := true } }).noReference n x.k
      if x.fired then
        let run := (s.port n).missRun + 1
        let s2 := (s1.bump F.emtPortNosenseCntCount n 1).setPort n { s1.port n with missRun := run }
        if s.fld F.emtPortCtlSenseLostLimit n ≤ run && !s.flag F.emtPortStsSenseLost n then
          ((s2.setFlag F.emtPortStsSenseLost n true).mapPort n true).logFault 0x09 2 0x0C n 0xFFFF
        else s2
      else s1

/-- The gate of a channel closes at GATE_CLOSE (R70); a boundary that waited for the last one comes (R133). `stuck` is a low
comparator that stayed above threshold for the whole gate (R367). -/
def State.gateClose (s : State) (ch : Nat) (stuck : Bool) : State :=
  let k := s.chan ch
  if k.gateOpen then
    let s1 := if stuck then s.setChan ch { k with stuckShots := k.stuckShots + 1 } else s
    (s1.closeGate ch (s.inForce F.rcvChGateClose ch - s.inForce F.rcvChGateOpen ch)).settleBoundary (ch / 16)
  else s

/-! Re-locks (R121 to R126). -/

/-- On the safe clock every gate is shut: open gates close, and hits are judged by no shot (R72, R126). -/
def State.shutGates (s : State) (c : Nat) : State :=
  let s1 := (s.endShot c ((s.dev.time.edges : Int) * 65536)).settleBoundary c
  (s1.setClus c { s1.clus c with shot := none, dark := false }).judgeHits c

/-- A re-lock begins (R125, R126): outputs go to the safe clock, SAFE_CLK reads 1 and LOCKED 0, and the gates shut. -/
def State.startRelock (s : State) : State :=
  let s1 := ((s.setPll { s.dev.rng.pll with relock := true }).setFlag F.emtPllStsSafeClk 0 true).setFlag F.emtPllStsLocked 0 false
  (List.range 48).foldl (fun t c => t.shutGates c) s1

/-- The next divider-aligned instant (R121, R122, R125): the plan is checked again and the shadow copied in one step; a
change of P or M starts a re-lock. -/
def State.alignedInstant (s : State) : State :=
  if s.flag F.emtPllStsApplyPend 0 then
    let s1 := (s.setFlag F.emtPllStsApplyPend 0 false).setFlag F.emtPllCtlApply 0 false
    if s.sys.op = .run ∨ !s.shadowGood then s1.setFlag F.emtPllStsApplyErr 0 true
    else
      let pll := s.dev.rng.pll
      let s2 := s1.setPll { pll with
        div := s.reg .emtPllDiv 0, outs := (List.range 4).map fun j => s.reg .emtPllOut (2 + j) }
      if pll.div = s.reg .emtPllDiv 0 then s2 else s2.startRelock
  else s

/-- Loss of lock (R124): counted, posted as event 3, logged, and a re-lock starts with P and M unchanged. -/
def State.lossOfLock (s : State) : State :=
  if s.flag F.emtPllStsLocked 0 then
    ((((s.bump F.emtPllStsLossCnt 0 1).startRelock).post 3 0).logFault 0x0A 0 0x0C 32 0xFFFF)
  else s

end Sys2Proof.Machine
end

