-- ==== Sys2Proof/Machine/Reject.lean ====
section
/-! DEFINITION. The adaptive thresholds (R152, R153), the domain schedule and its keeper (R159 to R161), and bistatic
reception with its notices (R162 to R164, R299). Ring frames are handed to both ring links (R298). -/
namespace Sys2Proof.Machine

/-- A window of 2^ADAPT_WIN shots ends for a channel that the sunlight offset applies to (R152, R153): the offset rises or
falls, the rate is shown, and the window's sums restart. -/
def State.adaptWindowEnd (s : State) (ch : Nat) : State :=
  let c := ch / 16
  let k := s.chan ch
  if s.adapting ch && decide (2 ^ s.inForce F.rejClAdaptAdaptWin c ≤ k.adaptShots) then
    let s1 := s.setChan ch { k with adaptShots := 0, adaptCount := 0, adaptGate := 0 }
    if k.adaptGate = 0 then s1
    else
      let a := s.fld F.rejChStatAdapt ch
      let top := s.inForce F.rejClAdaptAdaptMax c
      let above := decide (s.inForce F.rejClAdaptRateHi c * k.adaptGate < k.adaptCount * 1000)
      let below := decide (k.adaptCount * 1000 < s.inForce F.rejClAdaptRateLo c * k.adaptGate)
      let a' := if above then min top (a + s.inForce F.rejClAdaptStepUp c) else if below then a - 1 else a
      let s2 := (s1.setFld F.rejChStatRate ch (min 255 (k.adaptCount * 1000 / k.adaptGate))).setFld F.rejChStatAdapt ch a'
      (if above && decide (a' = top) then s2.setFlag F.rejChStatAdaptLimit ch true else s2).recomputeThr ch
  else s

/-! The domain schedule. -/

/-- Is the domain schedule in force? -/
def State.schedOn (s : State) : Bool := s.flag F.rejSchedCtlSchedEn 0

/-- Is a slot open to the device (R159)? -/
def State.slotOpen (s : State) (i : Nat) : Bool := bitOf (s.pair .rejSchedSlotsLo .rejSchedSlotsHi 0) i

/-- The largest GATE_CLOSE among the channels of the clusters that follow a port (R159); a cluster with BI_EN follows none
(R163). -/
def State.gateOf (s : State) (n : Nat) : Nat :=
  (List.range 768).foldl (fun g ch =>
    if s.flag F.emtClSrcEn (ch / 16) && decide (s.fld F.emtClSrcEmitter (ch / 16) = n) && !s.flag F.rejClBiBiEn (ch / 16) then
      max g (s.fld F.rcvChGateClose ch) else g) 0

/-- Does the guarded occupancy of a port lie inside open slots, and is its PERIOD a multiple of the frame (R159)? -/
def State.portFits (s : State) (n : Nat) : Bool :=
  let frame := s.fld F.rejSchedPeriodPeriod 0
  let slots := s.fld F.rejSchedCtlNslots 0
  let w := frame / slots
  let span : Int := s.fld F.emtPortDitherSpan n
  let guard : Int := s.fld F.rejSchedGuardGuard 0
  let a : Int := s.fld F.emtPortOffsetValue n - span - guard
  let b : Int := s.fld F.emtPortOffsetValue n + span + 1 + s.fld F.emtPortSenseSenseMax n + s.gateOf n + guard
  let first := divFloor a w
  let count := (divFloor (b - 1) w - first + 1).toNat
  decide (s.fld F.emtPortPeriodValue n % frame = 0)
    && (List.range (min slots count)).all fun i => s.slotOpen ((first + i) % slots).toNat

/-- Do all enabled ports keep the domain schedule, and does the frame divide into its slots (R159)? -/
def State.schedFits (s : State) : Bool :=
  decide (s.fld F.rejSchedPeriodPeriod 0 % s.fld F.rejSchedCtlNslots 0 = 0)
    && (List.range 32).all fun n => !s.flag F.emtPortCtlEn n || s.portFits n

/-! The ring (R298) as a sender. -/

/-- Header byte 1 of a frame this device sends: its own position, the addressee and BCAST (R290). -/
def State.ringHeader (s : State) (dst : Nat) (bcast : Bool) : Nat :=
  s.fld F.lnkRingPos 0 + 8 * (dst % 8) + 64 * b2n bcast

/-- Hand a ring frame to a ring link in service; a ring link that is not gives it nothing (log entry 12). -/
def State.ringOut (s : State) (n type hdr rseq hops : Nat) (payload : List Byte) : State :=
  if s.fld F.lnkCtlRole n = n + 1 ∧ (s.fld F.lnkStsState n = 4 ∨ s.fld F.lnkStsState n = 5) then
    s.linkSend n type hdr rseq hops payload
  else s

/-- A frame of this device leaves on both ring links (R298). -/
def State.ringSend (s : State) (type dst : Nat) (bcast : Bool) (payload : List Byte) : State :=
  let q := s.dev.ring.rseq
  let h := s.ringHeader dst bcast
  let s1 := s.onDev fun d => { d with ring := { d.ring with rseq := (q + 1) % 65536 } }
  (s1.ringOut 0 type h q 0 payload).ringOut 1 type h q 0 payload

/-! The schedule keeper (R161). -/

/-- Put the keeper's record. -/
def State.setSched (s : State) (x : SchedSt) : State :=
  s.onDev fun d => { d with rng := { d.rng with sched := x } }

/-- T in 1/256 ns. -/
def State.tag256 (s : State) : Int := divFloor s.timeFix (2 ^ 24)

/-- The instant of frame f on the time tag, in ns. -/
def State.frameTag (s : State) (f : Nat) : Int :=
  (s.pair .rejSchedEpochLo .rejSchedEpochHi 0 : Nat) + (f : Int) * s.fld F.rejSchedPeriodPeriod 0

/-- The announcement of this device's ports (R162, R299). -/
def State.announcement (s : State) (withdraw : Bool) : List Byte :=
  let ports := (List.range 32).filter fun n => s.flag F.emtPortCtlEn n
  leBytes 8 (s.pair .rejSchedFrameLo .rejSchedFrameHi 0) ++ leBytes 1 ports.length ++ leBytes 1 (b2n withdraw)
    ++ leBytes 2 0 ++ ports.flatMap fun n =>
      leBytes 1 n ++ leBytes 1 (1 + 2 * b2n (s.flag F.emtPortCtlPhaseEn n)) ++ leBytes 1 (s.fld F.rejSchedCtlCodeset 0)
        ++ leBytes 1 (s.fld F.emtPortDitherSpan n) ++ leBytes 4 (s.fld F.emtPortPeriodValue n)
        ++ leBytes 4 (s.fld F.emtPortOffsetValue n)

/-- An announcement, or a withdrawal, is sent on the ring (R162). -/
def State.announce (s : State) (withdraw : Bool) : State := s.ringSend 0x01 0 true (s.announcement withdraw)

/-- The first frame whose start lies at least 10 µs ahead (R161). -/
def State.firstFrame (s : State) : Nat :=
  let d := s.tag256 + 2560000 - 256 * s.frameTag 0
  (divFloor (d + 256 * s.fld F.rejSchedPeriodPeriod 0 - 1) (256 * s.fld F.rejSchedPeriodPeriod 0)).toNat

/-- START fixes the epoch (R109, R160, R161): with the domain schedule, the first frame at least 10 µs ahead, with the
seeds of the common grid; otherwise the timing-clock edge 10 µs ahead. The first announcement leaves (R162). -/
def State.startSchedule (s : State) : State :=
  if s.schedOn then
    let f := s.firstFrame
    let frame := s.fld F.rejSchedPeriodPeriod 0
    -- t0 on C: the distance to the frame's start on the time tag, in whole ns
    let t0 : Int := s.dev.time.c + divFloor (256 * s.frameTag f - s.tag256 + 255) 256
    let s1 := (s.setPair .rejSchedFrameLo .rejSchedFrameHi 0 (f % 2 ^ 64)).setFlag F.rejSchedStsRunning 0 true
    let s2 := (List.range 32).foldl (fun t n =>
      t.setFld F.emtPortSeedSeed n (jumpSeed (seedShifts (s.fld F.rejSchedCtlCodeset 0) n
        (f * frame / s.fld F.emtPortPeriodValue n)))) s1
    ((s2.setSched { frame := f, nextStart := t0 + frame, shots := [] }).startPorts t0).announce false
  else ((s.setSched {}).startPorts (s.dev.time.c + 10000)).announce false

/-- Leaving RUN ends the keeper's epoch and withdraws the announcement (R162, R165). -/
def State.stopSchedule (s : State) : State :=
  (s.setFlag F.rejSchedStsRunning 0 false).announce true

/-- Every nominal fire time from the next frame onward moves (R161). -/
def State.slipPorts (s : State) (from' δ : Int) : State :=
  (List.range 32).foldl (fun t n =>
    let p := t.port n
    if from' ≤ p.tNom then
      t.setPort n { p with
        tNom := p.tNom + δ, prevNom := if from' ≤ p.prevNom then p.prevNom + δ else p.prevNom
        drawn := p.drawn.map fun x => { x with tNom := x.tNom + δ } }
    else t.setPort n { p with slip := p.slip + δ }) s

/-- A frame starts (R161): e is formed, at most one slip is made and notified, and the alarm may set. -/
def State.frameStart (s : State) : State :=
  if s.sys.op = .run ∧ s.flag F.rejSchedStsRunning 0 then
    let x := s.dev.rng.sched
    let f := x.frame + 1
    let frame := s.fld F.rejSchedPeriodPeriod 0
    let e := s.tag256 - 256 * s.frameTag f
    let s1 := s.setSfld F.rejSchedStsError 0 (clampI (-32768) 32767 e)
    let δ : Int := if 256 ≤ e then -1 else if e ≤ -256 then 1 else 0
    let next := x.nextStart + frame
    let s2 := s1.setSched { x with frame := f, nextStart := next + δ }
    let s3 := if δ = 0 then s2
      else ((s2.slipPorts next δ).bump F.rejSchedSlipCntCount 0 1).ringSend 0x02 0 true
        (leBytes 8 (f + 1) ++ leBytes 1 (if δ = 1 then 0x01 else 0xFF))
    if s.fld F.rejSchedGuardTol 0 * 256 < e.natAbs then s3.raise F.rejSchedStsAlarm 0 4 0 else s3
  else s

/-- The 1 ms announcement of RUN (R162). -/
def State.announceTimer (s : State) : State := if s.sys.op = .run then s.announce false else s

/-- A batch of at most 127 shot entries leaves on the ring (R299). -/
def State.sendShots (s : State) : State :=
  let x := s.dev.rng.sched
  match x.shots with
  | [] => s
  | l =>
    let b := l.take 127
    (s.setSched { x with shots := l.drop 127 }).ringSend 0x03 0 true
      (leBytes 1 b.length ++ leBytes 3 0 ++ b.flatMap fun e =>
        leBytes 1 (e.1 + 128 * b2n e.2.2) ++ leBytes 1 0 ++ leBytes 2 e.2.1)

/-! Bistatic reception. -/

/-- The sources that name a chain position. -/
def State.sourcesOf (s : State) (device : Nat) : List Nat :=
  (List.range 8).filter fun n => s.flag F.rejBiCtlEn n && decide (s.fld F.rejBiCtlDevice n = device)

/-- Port entry e of an announcement (R299). -/
def annEntry (l : List Byte) (e : Nat) : AnnPort :=
  let o := 12 + 12 * e
  { port := leAt l o 1, en := bitOf (leAt l (o + 1) 1) 0, phaseEn := bitOf (leAt l (o + 1) 1) 1
    codeset := leAt l (o + 2) 1, span := leAt l (o + 3) 1, period := leAt l (o + 4) 4, offset := leAt l (o + 8) 4 }

/-- The frame of a source's shot k, from the sender's t0 frame (R159, R161). -/
def State.sourceFrame (s : State) (x : BiSt) (a : AnnPort) (k : Nat) : Nat :=
  x.t0Frame + (a.offset + k * a.period) / s.fld F.rejSchedPeriodPeriod 0

/-- A source learns its port's announcement; a new t0 fixes the next predicted shot, the first still to come (R163). -/
def State.learn (s : State) (n f0 : Nat) (a : AnnPort) : State :=
  let x := s.source n
  let known := decide (x.ann = some a ∧ x.t0Frame = f0)
  let first : Int := s.frameTag f0 + a.offset
  let now : Int := divFloor s.timeFix (2 ^ 32)
  let k := if a.period = 0 then 0 else (divFloor (now - first) a.period + 1).toNat
  let y := if known then { x with heardAt := s.dev.time.c }
    else { ann := some a, t0Frame := f0, heardAt := s.dev.time.c, k := k, tNom := first + k * a.period }
  (s.setSource n y).setFlag F.rejBiStsLive n true

/-- A source is no longer live (R162). -/
def State.forget (s : State) (n : Nat) : State := (s.setSource n {}).setFlag F.rejBiStsLive n false

/-- An announcement of a chain position arrives (R162, R299). -/
def State.hearAnnouncement (s : State) (src : Nat) (l : List Byte) : State :=
  let entries := (List.range (min 32 (leAt l 8 1))).map (annEntry l)
  (s.sourcesOf src).foldl (fun t n =>
    if bitOf (leAt l 9 1) 0 then t.forget n
    else match entries.find? (fun a => decide (a.port = t.fld F.rejBiCtlPort n)) with
      | some a => t.learn n (leAt l 0 8) a
      | none => t) s

/-- The clusters that follow a source (R163). -/
def State.biFollowers (s : State) (n : Nat) : List Nat :=
  (List.range 48).filter fun c =>
    s.bistatic c && decide (s.inForce F.rejClBiBiSrc c = n) && s.clusterOn c

/-- Predicted shots of a source that become unconfirmed, in the accumulating buffer of every cluster that follows it
(R164). -/
def State.unconfirm (s : State) (n : Nat) (which : Nat × Nat × Bool → Bool) : State :=
  (s.biFollowers n).foldl (fun t c =>
    let hit := ((t.clus c).buf (t.accBuf c)).predicted.filter which
    let t1 := t.onAccBuf c fun b =>
      { b with unconf := b.unconf + hit.length, predicted := b.predicted.filter (!which ·) }
    if hit.isEmpty then t1 else t1.bump F.rejBiUnconfCntCount n hit.length) s

/-- A slip notice arrives (R163, R164): it applies from the frame it names; one that comes after that frame has begun
makes the source's shots of the frame unconfirmed, and LATE sets. -/
def State.hearSlip (s : State) (src : Nat) (l : List Byte) : State :=
  let f := leAt l 0 8
  let δ := signed 8 (leAt l 8 1)
  (s.sourcesOf src).foldl (fun t n =>
    match (t.source n).ann with
    | none => t
    | some a =>
      let x := t.source n
      let t1 := t.setSource n (if f ≤ t.sourceFrame x a x.k then { x with tNom := x.tNom + δ }
        else { x with slips := (f, δ) :: x.slips })
      if 256 * t.frameTag f ≤ t.tag256 then
        ((t1.setSource n { t1.source n with late := some f }).setFlag F.rejBiStsLate n true).unconfirm n
          fun q => decide (q.1 = f)
      else t1) s

/-- One entry of a shot notice (R164, R299): a fired shot is confirmed, a withdrawn one is unconfirmed. -/
def State.hearShot (s : State) (n : Nat) (k : Nat) (withdrawn : Bool) : State :=
  if withdrawn then s.unconfirm n fun q => decide (q.2.1 % 65536 = k) && !q.2.2
  else (s.biFollowers n).foldl (fun t c => t.onAccBuf c fun b =>
    { b with predicted := b.predicted.map fun q => if q.2.1 % 65536 = k then (q.1, q.2.1, true) else q }) s

/-- A shot notice arrives (R164, R299). -/
def State.hearShots (s : State) (src : Nat) (l : List Byte) : State :=
  (List.range (min 127 (leAt l 0 1))).foldl (fun t e =>
    let b := leAt l (4 + 4 * e) 1
    (t.sourcesOf src).foldl (fun u n =>
      if u.fld F.rejBiCtlPort n = b % 32 then u.hearShot n (leAt l (6 + 4 * e) 2) (bitOf b 7) else u) t) s

/-- The next predicted shot of a source after this one: slips that have come due move it (R163). -/
def State.nextPredicted (s : State) (n : Nat) (a : AnnPort) : State :=
  let x := s.source n
  let f := s.sourceFrame x a (x.k + 1)
  let due := x.slips.filter fun q => decide (q.1 ≤ f)
  s.setSource n { x with
    k := x.k + 1, tNom := x.tNom + a.period + due.foldl (fun t q => t + q.2) 0
    slips := x.slips.filter fun q => decide (f < q.1) }

/-- The predicted fire edge of a live source (R163, R164), at its nominal instant and dither offset in domain time: every
cluster that follows it gets the shot, its gate opens on the reference phase × 15.625 ps + DELAY × 7.8125 ps, and the shot
stays open until a notice confirms it. On the safe clock no shot is delivered (R72). -/
def State.bistaticShot (s : State) (n : Nat) : State :=
  let x := s.source n
  match x.ann with
  | none => s
  | some a =>
    let d := s.sourceDraw x a
    let ref : Int := d.2 * 1024 + s.fld F.rejBiDelayDelay n * 512
    let f := s.sourceFrame x a x.k
    let late := decide (x.late = some f)
    let take (t : State) (c : Nat) : State :=
      let t1 := (t.deliver c x.k ((x.tNom + d.1) * 2 ^ 32)).latchAzimuth c
      let t2 := if late then t1.bump F.rejBiUnconfCntCount n 1 else t1
      let t3 := match (t2.clus c).next with
        | some y => t2.reference c y ref
        | none => t2
      t3.onAccBuf c fun b =>
        if late then { b with unconf := b.unconf + 1 } else { b with predicted := b.predicted ++ [(f, x.k, false)] }
    let s1 := if s.sys.op = .run ∧ a.en = true ∧ s.flag F.emtPllStsSafeClk 0 = false then
        (s.biFollowers n).foldl (fun t c =>
          if (t.clus c).skip = some x.k then t.setClus c { t.clus c with skip := none } else take t c) s
      else s
    s1.nextPredicted n a

/-! The commands of this chapter. -/

/-- ADAPT_WINDOW_END. -/
def execAdaptWindowEnd (ch : Fin 768) (s : State) : Host.Outcome State Fault Refusal :=
  .next (inDev (State.adaptWindowEnd · ch) s)

/-- FRAME_START. -/
def execFrameStart (s : State) : Host.Outcome State Fault Refusal := .next (inDev State.frameStart s)

/-- ANNOUNCEMENT_SEND. -/
def execAnnouncementSend (s : State) : Host.Outcome State Fault Refusal := .next (inDev State.announceTimer s)

/-- SHOT_BATCH_SEND. -/
def execShotBatchSend (s : State) : Host.Outcome State Fault Refusal := .next (inDev State.sendShots s)

/-- ANNOUNCEMENT from a chain position. -/
def execAnnouncement (src : Fin 8) (payload : List Byte) (s : State) : Host.Outcome State Fault Refusal :=
  .next (inDev (State.hearAnnouncement · src payload) s)

/-- SLIP_NOTICE from a chain position. -/
def execSlipNotice (src : Fin 8) (payload : List Byte) (s : State) : Host.Outcome State Fault Refusal :=
  .next (inDev (State.hearSlip · src payload) s)

/-- SHOT_NOTICE from a chain position. -/
def execShotNotice (src : Fin 8) (payload : List Byte) (s : State) : Host.Outcome State Fault Refusal :=
  .next (inDev (State.hearShots · src payload) s)

/-- SOURCE_EXPIRED. -/
def execSourceExpired (n : Fin 8) (s : State) : Host.Outcome State Fault Refusal :=
  .next (inDev (State.forget · n) s)

/-- BISTATIC_SHOT. -/
def execBistaticShot (n : Fin 8) (s : State) : Host.Outcome State Fault Refusal :=
  .next (inDev (State.bistaticShot · n) s)

end Sys2Proof.Machine
end

