-- ==== Sys2Proof/Machine/Mea.lean ====
section
/-! DEFINITION. The measurement front end (R396 to R411) and the judgement of supply states (R420): conversions, the
result chain, detectors, settling, urgent conversions and sequence periods. -/
namespace Sys2Proof.Machine

/-- A slot's record. -/
def State.slot (s : State) (n : Nat) : MeaSlot := smGet {} s.dev.mea.slots n

/-- Put a slot's record. -/
def State.setSlot (s : State) (n : Nat) (x : MeaSlot) : State :=
  s.onDev fun d => { d with mea := { d.mea with slots := smPut {} d.mea.slots n x } }

/-- A converter's record. -/
def State.conv (s : State) (k : Nat) : MeaConv := smGet {} s.dev.mea.convs k

/-- Put a converter's record. -/
def State.setConv (s : State) (k : Nat) (x : MeaConv) : State :=
  s.onDev fun d => { d with mea := { d.mea with convs := smPut {} d.mea.convs k x } }

/-- Does a converter run (R398, R410)? -/
def State.convRuns (s : State) (k : Nat) : Bool :=
  s.inOp [.init, .ready, .run, .safeHold] && s.flag F.meaConvCtlEn k && s.domainOn (137 + k / 2)

/-- The enabled slots of a converter in ascending order (R400). -/
def State.slotsOf (s : State) (k : Nat) : List Nat :=
  (List.range 64).filter fun n => s.flag F.meaSlotInEn n && decide (s.fld F.meaSlotInConv n = k)

/-- A switch of a slot (R407). -/
def State.switchSlot (s : State) (n : Nat) : State :=
  (s.setSlot n { s.slot n with switchAt := s.dev.time.c }).setFlag F.meaSlotStsValid n false

/-- A switch of every slot of a converter (R401, R407). -/
def State.switchConv (s : State) (k : Nat) : State := (s.slotsOf k).foldl (fun t n => t.switchSlot n) s

/-- Entry to INIT from another state is a switch of every slot (R407). -/
def State.switchAll (s : State) : State := (List.range 64).foldl (fun t n => t.switchSlot n) s

/-- A conversion of a slot begins: LOWPWR and OSR_LOG2 are taken as they stand now (R401). -/
def State.latchConv (s : State) (k n : Nat) (x : MeaConv) : State :=
  ((s.setConv k { x with lowpwr := s.flag F.meaConvCtlLowpwr k, osr := s.fld F.meaSlotConvOsrLog2 n }).setFlag
    F.meaConvStsBusy k true).setFld F.meaConvStsSlot k n

/-- A converter is idle. -/
def State.idleConv (s : State) (k : Nat) : State := (s.setConv k {}).setFlag F.meaConvStsBusy k false

/-- Converters stop (R410). -/
def State.stopConverters (s : State) : State := (List.range 4).foldl (fun t k => t.idleConv k) s

/-- A continuous converter that is idle converts its one slot (R400). -/
def State.startConv (s : State) (k : Nat) : State :=
  if s.convRuns k && !s.flag F.meaConvCtlMode k && (s.conv k).todo.isEmpty && (s.conv k).cont.isNone then
    match s.slotsOf k with
    | [n] => s.latchConv k n { cont := some n }
    | _ => s
  else s

/-- Every continuous converter that is idle starts. -/
def State.startConvs (s : State) : State := (List.range 4).foldl (fun t k => t.startConv k) s

/-- A sequence period begins: the enabled slots are converted in turn (R400). -/
def State.beginPeriod (s : State) (k : Nat) : State :=
  let l := s.slotsOf k
  match l with
  | [] => s.idleConv k
  | n :: _ => s.latchConv k n { todo := l }

/-- What a slot's conversion connects (R396, R397): the slot that a converter is converting. -/
def State.converting (s : State) (k : Nat) : Option Nat :=
  match (s.conv k).todo with
  | n :: _ => some n
  | [] => (s.conv k).cont

/-- The output of an excitation source (R397): 0 off, else one more than its pin times 8 and its CURRENT code. It drives only while a
slot of its owner that enables it is converting. -/
def State.excDrive (s : State) (j : Nat) : Nat :=
  match s.converting (s.fld F.meaExcOwner j) with
  | some n =>
    let on := if j = 0 then s.flag F.meaSlotExcExc0En n else s.flag F.meaSlotExcExc1En n
    let pin := if j = 0 then s.fld F.meaSlotExcExc0Pin n else s.fld F.meaSlotExcExc1Pin n
    if on then 1 + 8 * pin + s.fld F.meaExcCurrent j else 0
  | none => 0

/-- The bias of a converter (R396): 0 off, else one more than its pin; and its burn-out currents (R403): 0, 1 or 10 µA, as BO codes
them. -/
def State.biasDrive (s : State) (k : Nat) : Nat × Nat :=
  match s.converting k with
  | some n => (if s.flag F.meaSlotExcBiasEn n then 1 + s.fld F.meaSlotExcBiasPin n else 0, min 2 (s.fld F.meaSlotExcBo n))
  | none => (0, 0)

/-- Excitation, bias and burn-out as they have changed from one state to another. -/
def State.showDrives (s t : State) : State :=
  let t1 := (List.range 2).foldl (fun u j => if s.excDrive j = t.excDrive j then u else u.emit (.pin 13 j (t.excDrive j))) t
  (List.range 4).foldl (fun u k =>
    let p := s.biasDrive k
    let q := t.biasDrive k
    let u1 := if p.1 = q.1 then u else u.emit (.pin 14 k q.1)
    if p.2 = q.2 then u1 else u1.emit (.pin 15 k q.2)) t1

/-- A sequence period falls due; while the converter still converts, the period waits (R400, R402). -/
def State.sequencePeriod (s : State) (k : Nat) : State :=
  if s.convRuns k && s.flag F.meaConvCtlMode k then
    if (s.conv k).todo.isEmpty && (s.conv k).cont.isNone then s.beginPeriod k else s.setConv k { s.conv k with due := true }
  else s

/-- The conversion under way has ended: the next slot of the period, a period that waited, counted as late, or idle (R400,
R402). A MODE written meanwhile is in force from here on (R401). -/
def State.conversionEnds (s : State) (k : Nat) : State :=
  let x := s.conv k
  if s.flag F.meaConvCtlMode k then
    match x.todo.tail with
    | n :: l => s.latchConv k n { x with todo := n :: l }
    | [] => if x.due then (s.beginPeriod k).bump F.meaConvLateCntCount k 1 else s.idleConv k
  else (s.idleConv k).startConv k

/-- An urgent request for an enabled slot (R402): an idle sequence converter starts it, any other drops it. -/
def State.urgent (s : State) (n : Nat) : State :=
  let k := s.fld F.meaSlotInConv n
  if s.convRuns k && s.flag F.meaConvCtlMode k && (s.conv k).todo.isEmpty && (s.conv k).cont.isNone then
    s.latchConv k n { todo := [n], urgent := true }
  else (s.bump F.meaUrgDropCntCount 0 1).setFlag F.meaUrgUrgDrop 0 true

/-! The result chain (R405). -/

/-- The value of a binary32 number as m × 2^(e − 149), or none for an infinity or NaN. -/
def binary32 (w : Nat) : Option (Int × Nat) :=
  let ex := bitsOf w 30 23
  let sgn : Int := if bitOf w 31 then -1 else 1
  if ex = 255 then none
  else if ex = 0 then some (sgn * bitsOf w 22 0, 0)
  else some (sgn * (bitsOf w 22 0 + 2 ^ 23), ex - 1)

/-- One term c_ij x^i t^j of step 4, scaled by 2^264, with x = code / 2^23. -/
def polyTerm (w : Nat) (i j : Nat) (code t : Int) : Option Int :=
  (binary32 w).map fun c => c.1 * 2 ^ c.2 * code ^ i * 2 ^ (23 * (5 - i)) * t ^ j

/-- Linearisation (step 4), rounded to an integer with ties away from zero; none where a coefficient is no number. The sum
is formed exactly (log entry 13). -/
def State.linearise (s : State) (n : Nat) (code t : Int) : Option Int :=
  ((List.range 18).foldl (fun (a : Option Int) m =>
    match a, polyTerm (s.reg .meaPoly (18 * n + m)) (m / 3) (m % 3) code t with
    | some p, some q => some (p + q)
    | _, _ => none) (some 0)).map fun v => divAway v (2 ^ 264)

/-- Rounded square root of a quotient: the nearest integer to sqrt(a / n). -/
def rootMean (a n : Nat) : Nat := (isqrt (4 * a / n) + 1) / 2

/-- A free 32-bit result (log entry 6). -/
def State.unstated32 (s : State) : Int × State :=
  let r := s.draw
  (signed 32 (Config.unstated r.1).toNat, r.2)

/-- The measurement flags of a result (R409), SAT and OPEN given. -/
def State.mflags (s : State) (n k : Nat) (urgent sat opn : Bool) : Nat :=
  packBits [(1, b2n sat), (1, b2n opn), (1, b2n (decide (s.fld F.meaSlotInPos n = 33 ∨ s.fld F.meaSlotInNeg n = 33))),
    (1, b2n (s.conv k).lowpwr), (1, b2n (urgent || (s.conv k).cont.isNone)), (1, 0), (1, b2n urgent)]

/-- A slot's new value for loops, compensation and T_SRC (R408). -/
def State.newValue (s : State) (n : Nat) (v : Int) : State :=
  let x := s.slot n
  s.setSlot n { x with loopVal := some v, loopSeq := x.loopSeq + 1 }

/-! Supply states (R420). -/

/-- The state a value calls for. -/
def State.railCalls (s : State) (r : Nat) (v : Int) (bad : Bool) : Nat :=
  if bad then 3
  else if v < s.fld F.pwrSupCfgWarnLo r then 1
  else if (s.fld F.pwrSupCfgWarnHi r : Int) < v then 2 else 0

/-- Put the state of a rail; a change moves its source (R426). -/
def State.setRail (s : State) (r v : Nat) : State :=
  (s.setReg .pwrSupSts 0 (putBits (s.reg .pwrSupSts 0) (7 + 2 * r) (6 + 2 * r) v)).change (0x250 + r) 0x12 v false

/-- A supply slot's new result judges the rails that name it: a state changes only after two results in succession call
for it. -/
def State.judgeRails (s : State) (n : Nat) (v : Int) (bad : Bool) : State :=
  (List.range 6).foldl (fun t r =>
    if t.flag F.pwrSupCfgEn r && decide (t.fld F.pwrSupCfgSlot r = n) then
      let call := t.railCalls r v bad
      let twice := decide (smGet none t.dev.mea.called r = some call)
      let t1 := t.onDev fun d => { d with mea := { d.mea with called := smPut none d.mea.called r (some call) } }
      if twice then t1.setRail r call else t1
    else t) s

/-- A judged rail's slot has given no result for 1 s: the rail is UNKNOWN. -/
def State.railSilent (s : State) (r : Nat) : State :=
  if s.flag F.pwrSupCfgEn r then
    (s.onDev fun d => { d with mea := { d.mea with called := smPut none d.mea.called r none } }).setRail r 3
  else s

/-! Detectors and delivery (R406, R408). -/

/-- A value enters the detectors' window; a SETTLING value only counts. -/
def MeaSlot.detect (x : MeaSlot) (shift : Nat) (v : Int) (settling sat opn : Bool) : MeaSlot :=
  let y := { x with win := x.win + 1 }
  if settling then y
  else { y with
    winSat := x.winSat || sat, winOpen := x.winOpen || opn, used := x.used + 1, sumSq := x.sumSq + v.natAbs * v.natAbs
    peak := if x.used = 0 ∨ x.peak.natAbs < v.natAbs then v else x.peak
    env := max v.natAbs (x.env - x.env / 2 ^ shift) }

/-- Deliver one detector's result: to the records, and to loops where LOOP_DET selects it. -/
def State.detResult (s : State) (n det : Nat) (v : Int) (r : MeasRes) : State :=
  let s1 := s.measResult n { r with value := v, detector := det }
  if s.fld F.meaSlotDetLoopDet n = det then s1.newValue n v else s1

/-- A detector's window ends: each enabled detector delivers, and the peak and RMS windows restart. -/
def State.windowEnd (s : State) (n k : Nat) (urgent : Bool) (r : MeasRes) : State :=
  let x := s.slot n
  let r' := { r with flags := s.mflags n k urgent x.winSat x.winOpen }
  let s1 := s.setSlot n { x with win := 0, used := 0, sumSq := 0, peak := 0, winSat := false, winOpen := false }
  if x.used = 0 then s1
  else
    let en := s.fld F.meaSlotDetDetEn n
    let s2 := if bitOf en 0 then s1.detResult n 1 x.peak r' else s1
    let s3 := if bitOf en 1 then s2.detResult n 2 (rootMean x.sumSq x.used) r' else s2
    if bitOf en 2 then s3.detResult n 3 x.env r' else s3

/-- One output of step 5 passes steps 6 and 7 and is delivered; `age` is how long ago its instant lies, in 1/256 ns. -/
def State.deliverValue (s : State) (n k : Nat) (urgent : Bool) (y : Int) (age : Nat) (settling sat opn : Bool) : State :=
  let lo := s.sfld F.meaSlotMinOutMin n
  let hi := s.sfld F.meaSlotMaxOutMax n
  let v := clampI lo hi y
  let sat' := sat || decide (v ≠ y)
  let at' : Int := s.timeFix - (age : Int) * 2 ^ 24
  let r : MeasRes := { time := unsigned 64 (divFloor at' (2 ^ 32)), frac := unsigned 8 (divFloor at' (2 ^ 24))
                       value := v, detector := 0, flags := s.mflags n k urgent sat' opn }
  let s1 := ((s.setSfld F.meaSlotValValue n v).setFlag F.meaSlotStsValid n true).setFlag F.meaSlotStsSettling n settling
  let s2 := if sat' then s1.setFlag F.meaSlotStsSat n true else s1
  let s4 := if settling then s2
    else ((if s2.fld F.meaSlotDetLoopDet n = 0 then s2.newValue n v else s2).measResult n r).judgeRails n v (sat' || opn)
  if s4.fld F.meaSlotDetDetEn n = 0 then s4
  else
    let s5 := s4.setSlot n ((s4.slot n).detect (s4.fld F.meaSlotDetEnvShift n) v settling sat' opn)
    if s4.fld F.meaSlotDetDetWin n ≤ (s5.slot n).win then s5.windowEnd n k urgent r else s5

/-- OPEN of a slot follows its raw codes (R403); a change sets OPEN_EVT. -/
def State.judgeOpen (s : State) (n : Nat) (codes : List Int) : State :=
  let top : Int := 2 ^ 23 - 1
  let was := s.flag F.meaSlotStsOpen n
  let now := if s.fld F.meaSlotExcBo n ≠ 0 ∧ codes.any (· = top) then true
    else if codes.all fun c => decide (c.natAbs < 2 ^ 23 - 1) then false else was
  if now = was then s else (s.setFlag F.meaSlotStsOpen n now).raise F.meaSlotStsOpenEvt n 14 n

/-- The window of the raw code under way in 1/256 ns: 3 × OSR / f_mod (R399 to R401). -/
def State.rawWindow (s : State) (k : Nat) : Nat := 3 * 2 ^ (s.conv k).osr * 125000 * (if (s.conv k).lowpwr then 8 else 1)

/-- The conversion of a slot completes with its raw code and, where it has a lead conversion, the lead code (R399 to
R409). `outs` are the resampler's outputs of this step, each as its age in 1/256 ns. -/
def State.convert (s : State) (k n : Nat) (code lead : Int) (outs : List Nat) : State :=
  let urgent := (s.conv k).urgent
  let seq := (s.conv k).cont.isNone
  let hasLead := s.flag F.meaSlotRefLeadEn n && seq
  let w := s.rawWindow k
  let settle := s.fld F.meaSlotConvSettleUs n * 256000
  let age := if hasLead then 2 * w + settle else w
  let x := s.slot n
  let settling := decide ((256 * s.dev.time.c : Int) - age < 256 * (x.switchAt : Int) + settle)
  let codes := if hasLead then [code, lead] else [code]
  let s1 := s.judgeOpen n codes
  let s2 := if hasLead then s1.setSfld F.meaSlotLeadLead n lead else s1
  let sat := codes.any fun c => decide (2 ^ 23 - 1 ≤ c.natAbs)
  -- median
  let len := 2 * s.fld F.meaSlotConvMed n + 1
  let hist := ((if hasLead then code - lead else code, settling) :: x.hist).take 7
  let used := hist.take len
  let m := used.any (·.2)
  let marks := (m :: x.marks).take 16
  let s3 := s2.setSlot n { s2.slot n with hist := hist, marks := marks }
  let med : Int × State := if used.length < len then s3.unstated32
    else ((sortInts (used.map (·.1))).getD (len / 2) 0, s3)
  let s4 := med.2
  -- linearisation
  let src := s.fld F.meaSlotTTSrc n
  let tEn := s.flag F.meaSlotTTEn n
  let opn := s1.flag F.meaSlotStsOpen n || (tEn && s1.flag F.meaSlotStsOpen src)
  let t := if tEn then (s4.slot src).loopVal else some 0
  match t with
  | none => s4
  | some t =>
    if !seq && decide (s.fld F.meaSlotRateRate n ≠ 0) then
      outs.foldl (fun a g =>
        let r := a.unstated32
        r.2.deliverValue n k urgent r.1 g (marks.any id) sat opn) s4
    else match s4.linearise n med.1 t with
      | some y => s4.deliverValue n k urgent y (age - w / 2) m sat opn
      | none => let r := s4.unstated32; r.2.deliverValue n k urgent r.1 (age - w / 2) m sat opn

/-- A converter's window completes (R400, R405): the slot converting is the head of its sequence, or the one slot of a
continuous converter. -/
def State.conversion (s : State) (k : Nat) (code lead : Int) (outs : List Nat) : State :=
  match s.converting k with
  | some n =>
    if s.convRuns k then (if s.flag F.meaSlotInEn n then s.convert k n code lead outs else s).conversionEnds k else s
  | none => s

/-- MEA_CONVERSION on a converter, with the raw code and the lead code. -/
def execMeaConversion (k : Fin 4) (code lead : BitVec 24) (outs : List Nat) (s : State) :
    Host.Outcome State Fault Refusal :=
  .next (inDev (fun s => s.showDrives (s.conversion k (signed 24 code.toNat) (signed 24 lead.toNat) outs)) s)

/-- SEQUENCE_PERIOD. -/
def execSequencePeriod (k : Fin 4) (s : State) : Host.Outcome State Fault Refusal :=
  .next (inDev (fun s => s.showDrives (s.sequencePeriod k)) s)

/-- SUPPLY_SLOT_SILENT of a rail. -/
def execSupplySlotSilent (rail : Fin 6) (s : State) : Host.Outcome State Fault Refusal :=
  .next (inDev (State.railSilent · rail) s)

end Sys2Proof.Machine
end

