-- ==== Sys2Proof/Machine/Loops.lean ====
section
/-! DEFINITION. Scan-axis ports (R166 to R173) and the closed-loop engine (R174 to R186): feedback, the control law,
notches, targets, groups and set-point ramps. -/
namespace Sys2Proof.Machine

/-- A scan-axis port's record. -/
def State.axis (s : State) (n : Nat) : Axis := smGet {} s.dev.loop.axes n

/-- Put a scan-axis port's record. -/
def State.setAxis (s : State) (n : Nat) (x : Axis) : State :=
  s.onDev fun d => { d with loop := { d.loop with axes := smPut {} d.loop.axes n x } }

/-- A loop's record. -/
def State.loop (s : State) (n : Nat) : Loop := smGet {} s.dev.loop.loops n

/-- Put a loop's record. -/
def State.setLoop (s : State) (n : Nat) (x : Loop) : State :=
  s.onDev fun d => { d with loop := { d.loop with loops := smPut {} d.loop.loops n x } }

/-- An illuminator port's record. -/
def State.ill (s : State) (n : Nat) : IllSt := smGet {} s.dev.lin.ills n

/-- Put an illuminator port's record. -/
def State.setIll (s : State) (n : Nat) (x : IllSt) : State :=
  s.onDev fun d => { d with lin := { d.lin with ills := smPut {} d.lin.ills n x } }

/-- An illuminator bank's record. -/
def State.bank (s : State) (b : Nat) : BankSt := smGet {} s.dev.lin.banks b

/-- Put an illuminator bank's record. -/
def State.setBank (s : State) (b : Nat) (x : BankSt) : State :=
  s.onDev fun d => { d with lin := { d.lin with banks := smPut {} d.lin.banks b x } }

/-- The banks that name an illuminator port. -/
def State.banksOf (s : State) (i : Nat) : List Nat := (List.range 12).filter fun b => bitOf (s.fld F.linBankIllIllMask b) i

/-- An illuminator port stops carrying current: WARM of its bank clears and the count restarts (R204). -/
def State.coolPort (s : State) (i : Nat) : State :=
  (s.banksOf i).foldl (fun t b =>
    (t.setFlag F.linBankStsWarm b false).setBank b { t.bank b with means := [], calm := 0 }) s

/-! Encoder and Halls. -/

/-- The place of levels A and B in the quadrature sequence. -/
def quadPlace (a b : Bool) : Nat := if a then (if b then 2 else 1) else (if b then 3 else 0)

/-- The signed count of a legal transition; none for an illegal one. A leads B forward (log entry 14). -/
def quadStep (a b a' b' : Bool) : Option Int :=
  match (quadPlace a' b' + 4 - quadPlace a b) % 4 with
  | 0 => some 0
  | 1 => some 1
  | 3 => some (-1)
  | _ => none

/-- The azimuth code of a port (R172). -/
def State.azCode (s : State) (n : Nat) : Nat :=
  if s.flag F.loopSaxCtlAzFmt n then s.reg .loopSaxPos n % 2 ^ 20
  else if s.flag F.loopSaxAzIndexed n then
    ((s.axis n).rev % s.fld F.loopSaxCprCpr n).toNat * 2 ^ 20 / s.fld F.loopSaxCprCpr n
  else 0xFFFFF

/-- LOOP_SAX_AZ shows the present code. -/
def State.showAz (s : State) (n : Nat) : State := s.setFld F.loopSaxAzAz n (s.azCode n)

/-- The present time to 5 ns. -/
def State.time5 (s : State) : Nat := s.dev.time.c / 5 * 5

/-- A taken encoder sample with new levels (R171, R172): one count, or an illegal transition. The answer gives the
count. -/
def State.encoder (s : State) (n : Nat) (a b : Bool) : Int × State :=
  let x := s.axis n
  match quadStep x.a x.b a b with
  | none => (0, ((s.setAxis n { x with a := a, b := b }).setFlag F.loopSaxStsEncErr n true).bump F.loopSaxErrCntCount n 1)
  | some 0 => (0, s)
  | some d =>
    let cpr : Int := s.fld F.loopSaxCprCpr n
    let tol : Int := s.fld F.loopSaxCprIndexTol n
    let p := x.rev + d
    let miss := decide (cpr + tol < p ∨ p < -(cpr + tol))
    let rev := if cpr + tol < p then p - cpr else if p < -(cpr + tol) then p + cpr else p
    let s1 := s.setAxis n { x with a := a, b := b, rev := rev, tLast := s.time5, pLast := x.pLast + d, moved := true }
    let s2 := s1.setReg .loopSaxPos n (unsigned 32 ((s.reg .loopSaxPos n : Int) + d))
    (d, (if miss then s2.setFlag F.loopSaxStsIndexMiss n true else s2).showAz n)

/-- A rising edge of ENC_Z (R172). -/
def State.encoderIndex (s : State) (n : Nat) : State :=
  let x := s.axis n
  let cpr := s.fld F.loopSaxCprCpr n
  let p := (x.rev % cpr).toNat
  let s1 := if s.fld F.loopSaxCprIndexTol n < min p (cpr - p) then s.setFlag F.loopSaxStsIndexErr n true else s
  ((s1.setAxis n { x with rev := 0 }).setFlag F.loopSaxAzIndexed n true).showAz n

/-- A speed from edges (R173), in counts per second, truncated toward zero. -/
def edgeSpeed (moved : Bool) (pLast pRef : Int) (tLast : Nat) (tRef : Option Nat) (old : Int) (now : Nat) : Int :=
  if tLast + 1000000000 < now then 0
  else if moved then
    match tRef with
    | some t => if t < tLast then divZ ((pLast - pRef) * 1000000000) (tLast - t) else old
    | none => old
  else if now = tLast then old
  else
    let cap : Int := 1000000000 / (now - tLast)
    if old < 0 then -(min (-old) cap) else min old cap

/-- A port forms its encoder speed at a sample instant (R173). -/
def State.sampleEncoder (s : State) (n : Nat) : State :=
  let x := s.axis n
  let v := edgeSpeed x.moved x.pLast x.pRef x.tLast x.tRef (s.sfld F.loopSaxSpeedSpeed n) s.dev.time.c
  (s.setAxis n { x with
    moved := false
    tRef := if x.moved then some x.tLast else x.tRef
    pRef := if x.moved then x.pLast else x.pRef }).setSfld F.loopSaxSpeedSpeed n v

/-- A port forms its Hall speed at a sample instant (R173). -/
def State.sampleHall (s : State) (n : Nat) : State :=
  let x := s.axis n
  let v := edgeSpeed x.hallMoved x.hallPos x.hallRefPos x.hallLast x.hallRef x.hallSpeed s.dev.time.c
  s.setAxis n { x with
    hallMoved := false, hallSpeed := v
    hallRef := if x.hallMoved then some x.hallLast else x.hallRef
    hallRefPos := if x.hallMoved then x.hallPos else x.hallRefPos }

/-! Driving a target (R166 to R170, R179). -/

/-- The phases a Hall state selects for u > 0, as gates high U, low U, high V, low V, high W, low W (R167): the gate that
switches and the gate held on. -/
def hallGates (h : Nat) : Option (Nat × Nat) :=
  match h with
  | 5 => some (0, 3)
  | 4 => some (0, 5)
  | 6 => some (2, 5)
  | 2 => some (2, 1)
  | 3 => some (4, 1)
  | 1 => some (4, 3)
  | _ => none

/-- What stands at the six drive outputs: outputs held high, outputs switching, and their duty in 1/65,536 or their rate
in steps/s. -/
def drivePins (on pwm amount : Nat) : Nat := packBits [(6, on), (6, pwm), (32, amount)]

/-- The outputs of a word of `drivePins` that are high, or switch. -/
def pinGates (w : Nat) : Nat := bitsOf w 5 0 ||| bitsOf w 11 6

/-- A word of `drivePins` with only some of its outputs left. -/
def keepGates (w m : Nat) : Nat := drivePins (bitsOf w 5 0 &&& m) (bitsOf w 11 6 &&& m) (bitsOf w 43 12)

/-- The step-rate cap (R169): the lower of 4,000,000 and 1 / (2 × STEP_W × 20 ns). -/
def State.stepCap (s : State) (n : Nat) : Nat := min 4000000 (25000000 / s.fld F.loopSaxPwmStepW n)

/-- The use of a port (R166): MODE, of which 5 to 7 are treated as 0. -/
def State.axisMode (s : State) (n : Nat) : Nat := if s.fld F.loopSaxCtlMode n ≤ 4 then s.fld F.loopSaxCtlMode n else 0

/-- The outputs of a port for the demand it is driven with (R166 to R169). -/
def State.portPins (s : State) (n : Nat) : Nat :=
  match (s.axis n).drive with
  | none => 0
  | some u =>
    let duty := min u.natAbs 65536
    match s.axisMode n with
    | 1 =>
      if u = 0 then 0
      else match hallGates (s.fld F.loopSaxStsHall n) with
        | none => 0
        | some (hi, lo) =>
          -- for u < 0 the pair is turned: the other phase's high gate switches, this phase's low gate is held on
          if 0 < u then drivePins (2 ^ lo) (2 ^ hi) duty else drivePins (2 ^ (hi + 1)) (2 ^ (lo - 1)) duty
    | 2 => if 0 < u then drivePins 0 1 duty else if u < 0 then drivePins 0 2 duty else 0
    | 3 =>
      let dir := xor (decide (0 < u)) (s.flag F.loopSaxCtlDirInv n)
      drivePins (4 + 2 * b2n dir) (if u = 0 then 0 else 1) (min u.natAbs (s.stepCap n))
    | _ => 0

/-- The gates of the phases, or of the bridge's two outputs, of which one turns off with this change and another turns on
(R167, R168). -/
def crossing (mode was now : Nat) : Nat :=
  let pairs := if mode = 1 then [0, 1, 2] else if mode = 2 then [0] else []
  pairs.foldl (fun m p =>
    let a := bitsOf was (2 * p + 1) (2 * p)
    let b := bitsOf now (2 * p + 1) (2 * p)
    if a ≠ 0 ∧ b ≠ 0 ∧ a ≠ b then m + 3 * 4 ^ p else m) 0

/-- The levels a port passes through on its way to new ones, each with how long it lasts in ns (R167 to R169): DEADTIME with both
gates of a crossing phase off; or, in step mode, no new step while the pulse under way ends, then DIR_SETUP with the new
direction and no step. -/
def State.passing (s : State) (n was now : Nat) : List (Nat × Nat) :=
  let mode := s.axisMode n
  let m := crossing mode (pinGates was) (pinGates now)
  let dead := 5 * s.fld F.loopSaxCtlDeadtime n
  if m ≠ 0 then if dead = 0 then [] else [(keepGates now (63 - m), dead)]
  else if mode = 3 ∧ bitsOf was 1 0 ≠ bitsOf now 1 0 ∧ bitOf (pinGates was) 2 = true ∧ bitOf (pinGates now) 2 = true
      ∧ bitOf was 1 ≠ bitOf now 1 then
    (if bitOf was 6 then [(keepGates was 6, 20 * s.fld F.loopSaxPwmStepW n)] else [])
      ++ [(keepGates now 6, 20 * s.fld F.loopSaxCtlDirSetup n)]
  else []

/-- An auxiliary channel of a port in MODE 4 takes its duty, as a numerator and a denominator; 0 of 0 is low (R170). -/
def State.driveAux (s : State) (n j : Nat) : State :=
  let q := smGet (0, 0) (s.axis n).aux j
  s.emit (.pin 2 (3 * n + j) (packBits [(33, q.1), (33, q.2)]))

/-- The drive outputs of a port take their present levels, by way of the levels between (pin kind 11, with how long each lasts);
a step rate above the cap sets STEP_LIM (R166 to R170). -/
def State.drivePort (s : State) (n : Nat) : State :=
  let x := s.axis n
  let now := s.portPins n
  let lim := match x.drive with
    | some v => decide (s.axisMode n = 3 ∧ s.stepCap n < v.natAbs)
    | none => false
  let s1 := if lim then s.setFlag F.loopSaxStsStepLim n true else s
  let s2 := (s.passing n x.pins now).foldl (fun (t : State) p => t.emit (.pin 11 n (p.1 + p.2 * 2 ^ 44))) s1
  let s3 := (s2.setAxis n { x with pins := now }).emit (.pin 1 n now)
  if s.axisMode n = 4 then (List.range 3).foldl (fun t j => t.driveAux n j) s3 else s3

/-- A port is driven with a demand, or goes inactive. -/
def State.setDrive (s : State) (n : Nat) (u : Option Int) : State :=
  (s.setAxis n { s.axis n with drive := u }).drivePort n

/-- An auxiliary channel takes the demand of the loop that targets it: a share of its output range, from 0 to all of it (R170). -/
def State.setAux (s : State) (i : Nat) (q : Nat × Nat) : State :=
  let n := i / 3
  let s1 := s.setAxis n { s.axis n with aux := smPut (0, 0) (s.axis n).aux (i % 3) q }
  if s.axisMode n = 4 then s1.driveAux n (i % 3) else s1

/-- In three-phase mode an invalid Hall state is an error (R167). -/
def State.judgeHall (s : State) (n : Nat) : State :=
  if s.axisMode n = 1 ∧ (s.fld F.loopSaxStsHall n = 0 ∨ s.fld F.loopSaxStsHall n = 7) then
    (s.setFlag F.loopSaxStsHallErr n true).bump F.loopSaxErrCntCount n 1
  else s

/-- The Hall state changes (R167, R173): commutation follows; in three-phase mode an invalid state is an error. -/
def State.hallChange (s : State) (n h : Nat) : State :=
  let x := s.axis n
  let seqOf (v : Nat) : Option Nat := [5, 4, 6, 2, 3, 1].findIdx? (· = v)
  let s1 := s.setFld F.loopSaxStsHall n h
  let s2 := match seqOf (s.fld F.loopSaxStsHall n), seqOf h with
    | some i, some j =>
      let d : Int := if (j + 6 - i) % 6 = 1 then 1 else if (j + 6 - i) % 6 = 5 then -1 else 0
      if d = 0 then s1
      else s1.setAxis n { x with hallPos := x.hallPos + d, hallLast := s.time5, hallMoved := true }
    | _, _ => s1
  let s3 := s2.judgeHall n
  if x.drive.isSome then s3.drivePort n else s3

/-- The current a port carries in its strobe, µA (R194). -/
def State.strobeCurrent (s : State) (i : Nat) : Nat :=
  match (s.ill i).u with
  | some u => min u.toNat (s.fld F.linIllCtlImax i)
  | none => 0

/-- The demand word of an illuminator's driver (R447): outside strobes it is sent when the demand differs from the last complete
word's, from 100 ns after the strobe; 24 bits at 25 Mb/s end 960 ns later. -/
def State.sendDemand (s : State) (i : Nat) : State :=
  let x := s.ill i
  let u := s.strobeCurrent i
  if x.lit || decide (x.word = some u) then s
  else (s.setIll i { x with word := some u, wordEnd := max (max s.dev.time.c (x.fell + 100)) x.wordEnd + 960 }).emit
    (.pin 16 i (5 * 2 ^ 21 + u))

/-- A loop's target receives a demand, or goes inactive (R170, R179, R185, R194). -/
def State.setTarget (s : State) (n : Nat) (u : Option Int) : State :=
  let i := s.fld F.loopSrcTgtIdx n
  match s.fld F.loopSrcTgtKind n with
  | 1 => s.setDrive (i % 4) u
  | 2 =>
    let s1 := (s.setIll i { s.ill i with u := u }).sendDemand i
    match u with
    | some v =>
      if (s.fld F.linIllCtlImax i : Int) < v then s1.setFlag F.linIllStsLim i true
      else if v ≤ 0 then s1.coolPort i else s1
    | none => s1.coolPort i
  | 3 =>
    let lo := s.sfld F.loopOutMinOutMin n
    let hi := s.sfld F.loopOutMaxOutMax n
    match u with
    | some v => s.setAux i ((clampI 0 (hi - lo) (v - lo)).toNat, (hi - lo).toNat)
    | none => s.setAux i (0, 0)
  | _ => s

/-- Clusters that watch a loop blank after an output step above their limit (R77). -/
def State.biasWatch (s : State) (n : Nat) (step : Int) : State :=
  (List.range 48).foldl (fun t c =>
    if t.flag F.rcvClCtlBiasWatchEn c && decide (t.fld F.rcvClCtlBiasLoop c = n)
        && decide (10 * t.fld F.rcvClCtlBiasStepLimit c < step.natAbs)
        && decide (0 < t.fld F.rcvClCtlBiasBlankShots c) then
      (t.setClus c { t.clus c with blank := t.fld F.rcvClCtlBiasBlankShots c }).setFlag F.rcvClStsBlanking c true
    else t) s

/-- A loop's output is applied: shown, watched, and given to a target (R175, R179). -/
def State.applyOutput (s : State) (n : Nat) (u : Int) : State :=
  let old := s.sfld F.loopOutOut n
  (s.setSfld F.loopOutOut n u).biasWatch n (u - old)

/-! Ramps (R182, R183). Values are in 2^-32, times in 2^-40 s. -/

/-- One unit of the time scale. -/
def rampTick : Nat := 2 ^ 40

/-- A profile's pieces: how long each lasts, and the highest derivative in it. -/
abbrev Pieces := List (Nat × Int)

/-- The fastest profile of a value with rate, from (x, v) to (r, 0), with |v| ≤ q and |acceleration| ≤ j: toward the
cruise rate, cruise, and to rest. -/
def planRate (x v r : Int) (q j : Nat) : Pieces :=
  let d := r - x
  let brake := divZ (v * v.natAbs) (2 * j)
  if d = brake then [(v.natAbs * rampTick / j, if 0 < v then -(j : Int) else j)]
  else
    let g : Int := if brake < d then 1 else -1
    let d' := g * d
    let v' := g * v
    let vp : Int := min (isqrt ((j : Int) * d' + v' * v' / 2).toNat) q
    let dir : Int := if v' ≤ vp then 1 else -1
    let t1 := (vp - v').natAbs * rampTick / j
    let rest := d' - dir * divZ (vp * vp - v' * v') (2 * j) - divZ (vp * vp) (2 * j)
    let tc := if vp ≤ 0 then 0 else (rest.toNat * rampTick) / vp.toNat
    [(t1, g * dir * j), (tc, 0), (vp.toNat * rampTick / j, -g * j)]

/-- The value, rate and acceleration after `dt` under a constant third derivative. -/
def advance3 (p : Int × Int × Int) (dt : Nat) (j : Int) : Int × Int × Int :=
  let t : Int := dt
  let u : Int := rampTick
  (p.1 + p.2.1 * t / u + p.2.2 * t * t / (2 * u * u) + j * t * t * t / (6 * u * u * u),
    p.2.1 + p.2.2 * t / u + j * t * t / (2 * u * u), p.2.2 + j * t / u)

/-- Follow pieces of the third derivative for a time. -/
def follow3 (p : Int × Int × Int) : Nat → Pieces → Int × Int × Int
  | _, [] => p
  | t, (dt, j) :: l => if t ≤ dt then advance3 p t j else follow3 (advance3 p dt j) (t - dt) l

/-- Follow pieces of the second derivative for a time. -/
def follow2 (p : Int × Int) : Nat → Pieces → Int × Int
  | _, [] => p
  | t, (dt, a) :: l =>
    let step (dt : Nat) : Int × Int :=
      (p.1 + p.2 * dt / rampTick + a * dt * dt / (2 * rampTick * rampTick), p.2 + a * dt / rampTick)
    if t ≤ dt then step t else follow2 (step dt) (t - dt) l

/-- How long a profile lasts. -/
def piecesTime (l : Pieces) : Nat := l.foldl (fun t p => t + p.1) 0

/-- The distance of pieces of the third derivative from a rate and an acceleration. -/
def distance3 (v acc : Int) (l : Pieces) : Int := (follow3 (0, v, acc) (piecesTime l) l).1

/-- The first `t` of a profile. -/
def takeTime : Nat → Pieces → Pieces
  | _, [] => []
  | t, (dt, j) :: l => if t ≤ dt then [(t, j)] else (dt, j) :: takeTime (t - dt) l

/-- The longest time, below `hi`, of a monotone distance that does not reach past `d`, by halving. -/
def lastWithin (f : Nat → Int) (d : Int) : Nat → Nat → Nat → Nat
  | 0, lo, _ => lo
  | n + 1, lo, hi =>
    let m := (lo + hi) / 2
    if f m ≤ d then lastWithin f d n m hi else lastWithin f d n lo m

/-- The profile that heads for the rate `top` for a time and then comes to rest at once. -/
def headFor (v acc top : Int) (amax j : Nat) (t : Nat) : Pieces :=
  let up := planRate v acc top amax j
  let head := takeTime t (up ++ [(t, 0)])
  let p := follow3 (0, v, acc) t head
  head ++ planRate p.2.1 p.2.2 0 amax j

/-- The fastest profile of a value with three limited derivatives, from (x, v, acc) to rest at r (R182, R183): it heads for the
highest rate toward the side on which coming to rest at once would leave it short, as long as it can still come to rest at r;
where it cannot stop before r it passes it and returns. -/
def planThird (x v acc r : Int) (vmax amax j : Nat) : Pieces :=
  let d := r - x
  let stop := planRate v acc 0 amax j
  let d0 := distance3 v acc stop
  if d = d0 then stop
  else
    let g : Int := if d0 < d then 1 else -1
    let up := planRate v acc (g * vmax) amax j
    let hi := piecesTime up + (d.natAbs + (distance3 v acc up).natAbs) * rampTick / max 1 vmax + 2
    let f (t : Nat) : Int := g * distance3 v acc (headFor v acc (g * vmax) amax j t)
    headFor v acc (g * vmax) amax j (lastWithin f (g * d) (Nat.log2 hi + 1) 0 hi)

/-- A limit in 2^-32; 0 bounds nothing. -/
def rampLimit (v : Nat) : Nat := if v = 0 then 2 ^ 80 else v * 2 ^ 32

/-- One sample period of the ramp toward `r` (R182): the new value, rate and acceleration. `l1` to `l3` bound the first
to third derivative, 0 for no bound. -/
def rampStep (x v acc r : Int) (l1 l2 l3 t : Nat) : Int × Int × Int :=
  if l3 ≠ 0 then
    let l := planThird x v acc r (rampLimit l1) (rampLimit l2) (rampLimit l3)
    if piecesTime l ≤ t then (r, 0, 0) else follow3 (x, v, acc) t l
  else if l2 ≠ 0 then
    let l := planRate x v r (rampLimit l1) (rampLimit l2)
    if piecesTime l ≤ t then (r, 0, 0) else let p := follow2 (x, v) t l; (p.1, p.2, 0)
  else if l1 ≠ 0 then
    let step : Int := (rampLimit l1 : Int) * t / rampTick
    if (r - x).natAbs ≤ step.natAbs then (r, 0, 0)
    else if x < r then (x + step, rampLimit l1, 0) else (x - step, -(rampLimit l1 : Int), 0)
  else (r, 0, 0)

/-- The sample period of a loop in 2^-40 s (R174). -/
def State.loopPeriod (s : State) (n : Nat) : Nat := (s.fld F.loopSchedDiv n * 5 * rampTick + 500000) / 1000000

/-- A loop's ramp at a sample instant (R182, R183): the value has followed the profile planned at the instant before, for one
period and under the limits then in force, and plans anew toward the target in force now (in 2^-32). -/
def State.rampTo (s : State) (n : Nat) (target : Int) : State :=
  let k := s.loop n
  let mode := s.fld F.loopCtlRampMode n
  let vl := s.reg .loopVlim n
  let al := s.reg .loopAlim n
  let jl := s.reg .loopJlim n
  let q : Int × Int × Int := match k.plan with
    | some p => rampStep k.x k.v k.acc p.goal p.l1 p.l2 p.l3 p.t
    | none => (k.x, k.v, k.acc)
  let goal := if mode = 1 ∧ vl ≠ 0 then clampI (-(rampLimit vl : Int)) (rampLimit vl) target else target
  let plan : Option RampPlan := match mode with
    | 1 => some ⟨goal, al, jl, 0, s.loopPeriod n⟩
    | 2 => some ⟨goal, vl, al, jl, s.loopPeriod n⟩
    | _ => none
  let y := if plan.isSome then q else (target, 0, 0)
  ((s.setLoop n { k with x := y.1, v := y.2.1, acc := y.2.2, target := target, plan := plan }).setSfld F.loopXX n
    (divAway y.1 (2 ^ 32))).setFlag F.loopStsAtTarget n (decide (y = (goal, 0, 0)))

/-! Feedback (R176, R180, R184). -/

/-- Does a measurement slot report a broken wire: its own, or one it carries from the slot its linearisation reads (R403,
R405)? -/
def State.slotBroken (s : State) (i : Nat) : Bool :=
  s.flag F.meaSlotStsOpen i || (s.flag F.meaSlotTTEn i && s.flag F.meaSlotStsOpen (s.fld F.meaSlotTTSrc i))

/-- Every port forms its speeds at a sample instant (R173). -/
def State.sampleAxes (s : State) : State := (List.range 4).foldl (fun t n => (t.sampleEncoder n).sampleHall n) s

/-- The feedback of a loop at a sample instant: its value, whether it is new, whether its source has failed. -/
def State.feedback (s : State) (n : Nat) : (Int × Bool × Bool) × State :=
  let i := s.fld F.loopSrcFbIdx n
  match s.fld F.loopSrcFbKind n with
  | 1 => ((s.sfld F.loopSaxPosPos (i % 4), true, false), s)
  | 2 => ((s.sfld F.loopSaxSpeedSpeed (i % 4), true, false), s)
  | 3 => (((s.axis (i % 4)).hallSpeed, true, false), s)
  | 4 =>
    let x := s.slot i
    ((x.loopVal.getD 0, decide (x.loopSeq ≠ (s.loop n).seen), s.slotBroken i),
      s.setLoop n { s.loop n with seen := x.loopSeq })
  | 5 =>
    let x := s.ill i
    ((s.fld F.linIllStsISense i, decide (x.seq ≠ (s.loop n).seen), false), s.setLoop n { s.loop n with seen := x.seq })
  | _ => ((0, true, false), s)

/-- The target of a loop in 2^-32 (R184): SP, or SP with the compensation; a compensation input that reports a fault or is
stale leaves the last target and sets SENSOR_FAULT. -/
def State.loopTarget (s : State) (n : Nat) : Int × State :=
  let sp := s.sfld F.loopSpSp n
  if s.flag F.loopCtlSpMode n then
    let i := s.fld F.loopSrcTcSrc n
    let x := s.slot i
    let k := s.loop n
    let run := if x.loopSeq = k.tcSeen then k.tcStale + 1 else 0
    let lim := s.fld F.loopCtlStale n
    let s1 := s.setLoop n { k with tcSeen := x.loopSeq, tcStale := run }
    match x.loopVal with
    | some t =>
      if s.slotBroken i || (decide (lim ≠ 0) && decide (lim ≤ run)) then
        (k.target, s1.setFlag F.loopStsSensorFault n true)
      else (sp * 2 ^ 32 + s.sfld F.loopTcTc n * (t - s.sfld F.loopTrefTref n) * 2 ^ 16, s1)
    | none => (k.target, s1.setFlag F.loopStsSensorFault n true)
  else (sp * 2 ^ 32, s)

/-! The control law (R177, R178). -/

/-- A result of the control law in the 48-bit format it is carried in, 16 of them behind the point (R177; log entry 28); a
result that does not fit has no value in the spec and is free (log entry 6). -/
def State.fit48 (s : State) (v : Int) : Int × State :=
  if -(2 ^ 47 : Int) ≤ v ∧ v < 2 ^ 47 then (v, s)
  else
    let r := s.draw
    (signed 48 ((Config.unstated r.1).toNat % 2 ^ 48), r.2)

/-- One notch step (R178): the output and the notch after it. -/
def Notch.step (k : Notch) (s : State) (en : Bool) (w : Int) : Int × Notch × State :=
  if en then
    let c (i : Nat) : Int := k.coef.getD i 0
    let y := s.fit48 (divFloor (c 0 * w) (2 ^ 30) + k.s1)
    let a := y.2.fit48 (divFloor (c 1 * w - c 3 * y.1) (2 ^ 30) + k.s2)
    let b := a.2.fit48 (divFloor (c 2 * w - c 4 * y.1) (2 ^ 30))
    (y.1, { k with s1 := a.1, s2 := b.1 }, b.2)
  else (w, { k with s1 := 0, s2 := 0 }, s)

/-- The notch shadows come into use (R178). -/
def State.takeNotches (s : State) (n : Nat) : State :=
  if s.flag F.loopCtlCommit n then
    let l (j : Nat) : List Int := (List.range 5).map fun m => signed 32 (s.reg .loopNotch (10 * n + 5 * j + m))
    let k := s.loop n
    (s.setLoop n { k with n0 := { k.n0 with coef := l 0 }, n1 := { k.n1 with coef := l 1 } }).setFlag
      F.loopCtlCommit n false
  else s

/-- One update of the control law with feedback `fb` (R176, R177); `resume` where it is the first valid one again. -/
def State.controlLaw (s : State) (n : Nat) (fb : Int) (resume : Bool) : State :=
  let k := s.loop n
  let lo := s.sfld F.loopOutMinOutMin n
  let hi := s.sfld F.loopOutMaxOutMax n
  let e := k.x - fb * 2 ^ 32
  let pe := s.fit48 (divFloor (s.sfld F.loopKpKp n * e) (2 ^ 32))
  let pv := pe.2.fit48 (divFloor (s.sfld F.loopKfKf n * k.v) (2 ^ 32))
  let p := pv.2.fit48 (pe.1 + pv.1)
  let ie := p.2.fit48 (divFloor (s.sfld F.loopKiKi n * e) (2 ^ 40))
  let i0 := if resume then ie.2.fit48 (k.next.getD 0 * 2 ^ 16 - pe.1) else (k.i, ie.2)
  let i1 := clampI (lo * 2 ^ 16) (hi * 2 ^ 16) (i0.1 + ie.1)
  let w := i0.2.fit48 (p.1 + i1)
  let a := k.n0.step w.2 (s.flag F.loopCtlNotch0En n) w.1
  let b := k.n1.step a.2.2 (s.flag F.loopCtlNotch1En n) a.1
  let u := clampI lo hi (divAway b.1 (2 ^ 16))
  let i2 := if (u = hi ∧ 0 < e) ∨ (u = lo ∧ e < 0) then i0.1 else i1
  let s1 := b.2.2.setLoop n { k with p := p.1, i := i2, n0 := a.2.1, n1 := b.2.1, next := some u, held := false }
  if u = lo ∨ u = hi then s1.setFlag F.loopStsSat n true else s1

/-- A loop computes its next output from latched feedback (R176, R177, R182). -/
def State.computeLoop (s : State) (n : Nat) (f : Int × Bool × Bool) : State :=
  let s0 := s.takeNotches n
  let tg := s0.loopTarget n
  let s1 := tg.2.rampTo n tg.1
  let k := s1.loop n
  let run := if f.2.1 then 0 else k.stale + 1
  let lim := s1.fld F.loopCtlStale n
  let s2 := s1.setLoop n { k with stale := run }
  if f.2.2 then
    let u := clampI (s.sfld F.loopOutMinOutMin n) (s.sfld F.loopOutMaxOutMax n) (s.sfld F.loopFailOutFailOut n)
    (s2.setLoop n { s2.loop n with next := some u, held := true }).setFlag F.loopStsSensorFault n true
  else if lim ≠ 0 ∧ lim ≤ run then
    (s2.setLoop n { s2.loop n with held := true }).setFlag F.loopStsStale n true
  else if k.held ∧ !f.2.1 then s2
  else s2.controlLaw n f.1 k.held

/-! Groups and slots (R174, R175, R181, R185). -/

/-- The loops that may run in the present state. -/
def State.loopRuns (s : State) (n : Nat) : Bool := s.inOp [.init, .ready, .run] && s.flag F.loopCtlEn n

/-- The members of the group a leader leads. -/
def State.groupOf (s : State) (lead : Nat) : List Nat :=
  (List.range 32).filter fun n => s.flag F.loopCtlGrpEn n && decide (s.fld F.loopCtlGrpLead n = lead)

/-- A loop starts (R185). -/
def State.startLoop (s : State) (n : Nat) (fb : Int) : State :=
  if (s.loop n).active then s
  else
    let x := if s.fld F.loopCtlRampMode n = 1 ∨ s.fld F.loopCtlRampMode n = 2 then fb * 2 ^ 32
      else s.sfld F.loopSpSp n * 2 ^ 32
    (s.setLoop n { s.loop n with active := true, x := x, v := 0, acc := 0, i := 0, next := none, plan := none }).setFlag
      F.loopStsActive n true

/-- What a loop that stops keeps (R178, R184, R185): the notch coefficients in use, its last target, and the number of the newest
values it has seen. -/
def Loop.stopped (k : Loop) : Loop :=
  { n0 := { coef := k.n0.coef }, n1 := { coef := k.n1.coef }, target := k.target, seen := k.seen, tcSeen := k.tcSeen }

/-- A loop stops: its state is reset and its target driven as inactive (R185). -/
def State.stopLoop (s : State) (n : Nat) : State :=
  if (s.loop n).active then
    ((((s.setTarget n none).setLoop n (s.loop n).stopped).setFlag F.loopStsActive n false).setFlag F.loopStsWinner n
      false).setFlag F.loopStsAtTarget n false
  else s

/-- Every loop stops: the device has left the states in which loops run. -/
def State.stopLoops (s : State) : State := (List.range 32).foldl (fun t n => t.stopLoop n) s

/-- Of two members with outputs, the one with the smaller; of equal ones the lower-numbered, which comes first. -/
def lesserOutput (best : Option (Nat × Int)) (n : Nat) (u : Int) : Option (Nat × Int) :=
  match best with
  | none => some (n, u)
  | some (m, w) => if u < w then some (n, u) else some (m, w)

/-- The leader's sample instant applies the smallest member output (R181): WINNER shows whose it is, and every loser's
integrator is limited to the applied output less its own proportional part. -/
def State.applyGroup (s : State) (lead : Nat) (l : List Nat) : State :=
  let best := l.foldl (fun b n => match (s.loop n).active, (s.loop n).next with
    | true, some u => lesserOutput b n u
    | _, _ => b) (none : Option (Nat × Int))
  match best with
  | none => s
  | some (w, u) =>
    let s1 := (s.applyOutput w u).setTarget lead (some u)
    l.foldl (fun t n =>
      let k := t.loop n
      let t1 := t.setFlag F.loopStsWinner n (decide (n = w))
      if n = w then t1 else t1.setLoop n { k with i := min k.i (u * 2 ^ 16 - k.p) }) s1

/-- A loop latches its feedback, and LOOP_FB shows it. -/
def State.latchFb (s : State) (n : Nat) : (Int × Bool × Bool) × State :=
  let f := s.feedback n
  (f.1, f.2.setSfld F.loopFbFb n f.1.1)

/-- A loop's sample instant (R175): apply, latch, compute. A member of a group latches at its leader's instant. -/
def State.loopSlot (s : State) (n : Nat) : State :=
  if s.loopRuns n then
    let grouped := s.flag F.loopCtlGrpEn n
    let lead := s.fld F.loopCtlGrpLead n
    let s0 := s.sampleAxes
    if grouped && decide (lead ≠ n) then
      match (s0.loop n).latched with
      | some f => ((s0.setLoop n { s0.loop n with latched := none }).startLoop n f.1).computeLoop n f
      | none => s0
    else
      let members := if grouped then (s0.groupOf n).filter fun m => s0.loopRuns m else []
      let s1 := if grouped then s0.applyGroup n members
        else match (s0.loop n).active, (s0.loop n).next with
          | true, some u => ((s0.applyOutput n u).setTarget n (some u)).setFlag F.loopStsWinner n false
          | _, _ => s0
      let s2 := members.foldl (fun t m =>
        if m = n then t
        else let f := t.latchFb m; f.2.setLoop m { f.2.loop m with latched := some f.1 }) s1
      let f := s2.latchFb n
      (f.2.startLoop n f.1.1).computeLoop n f.1
  else s

/-! Schedule and group checks (R174, R181). -/

/-- Do two loops share a slot? -/
def State.shareSlot (s : State) (i j : Nat) : Bool :=
  let g := Nat.gcd (s.fld F.loopSchedDiv i) (s.fld F.loopSchedDiv j)
  decide (s.fld F.loopSchedPhase i % g = s.fld F.loopSchedPhase j % g)

/-- The enabled loops. -/
def State.enabledLoops (s : State) : List Nat := (List.range 32).filter fun n => s.flag F.loopCtlEn n

/-- No two enabled loops share a slot. -/
def State.slotsClear (s : State) : Bool :=
  s.enabledLoops.all fun i => s.enabledLoops.all fun j => decide (j ≤ i) || !s.shareSlot i j

/-- Does a group keep its rules? -/
def State.groupOk (s : State) (lead : Nat) : Bool :=
  let l := s.groupOf lead
  decide (l.length ≤ 4) && (l.isEmpty || decide (l.head? = some lead))
    && l.all (fun n => decide (s.fld F.loopSchedDiv n = s.fld F.loopSchedDiv lead)
      && (decide (n = lead) || decide (s.fld F.loopSrcTgtKind n = 0)))

/-- Do all groups keep their rules? -/
def State.groupsOk (s : State) : Bool := (List.range 32).all fun n => s.groupOk n

/-- Do two loops that are not in one group name the same target? -/
def State.sameTarget (s : State) (i j : Nat) : Bool :=
  decide (s.fld F.loopSrcTgtKind i ≠ 0 ∧ s.fld F.loopSrcTgtKind i = s.fld F.loopSrcTgtKind j
    ∧ s.fld F.loopSrcTgtIdx i = s.fld F.loopSrcTgtIdx j)
    && !(s.flag F.loopCtlGrpEn i && s.flag F.loopCtlGrpEn j && decide (s.fld F.loopCtlGrpLead i = s.fld F.loopCtlGrpLead j))

/-- No two enabled loops outside one group name the same target (R179). -/
def State.targetsClear (s : State) : Bool :=
  s.enabledLoops.all fun i => s.enabledLoops.all fun j => decide (j ≤ i) || !s.sameTarget i j

/-- LOOP_ENG_STS reports the aggregate rate in force. -/
def State.updateLoopAgg (s : State) : State :=
  s.setFld F.loopEngStsAgg 0 (s.enabledLoops.foldl (fun t n => t + 200000 / s.fld F.loopSchedDiv n) 0)

/-- LOOP_SLOT of a loop. -/
def execLoopSlot (n : Fin 32) (s : State) : Host.Outcome State Fault Refusal :=
  .next (inDev (State.loopSlot · n) s)

/-- ENCODER_INDEX of a scan-axis port. -/
def execEncoderIndex (port : Fin 4) (s : State) : Host.Outcome State Fault Refusal :=
  .next (inDev (State.encoderIndex · port) s)

/-- HALL_CHANGE of a scan-axis port to a Hall state. -/
def execHallChange (port : Fin 4) (h : Fin 8) (s : State) : Host.Outcome State Fault Refusal :=
  .next (inDev (State.hallChange · port h) s)

end Sys2Proof.Machine
end

