-- ==== Sys2Proof/Machine/Imaging.lean ====
section
/-! DEFINITION. The line-imaging front end (R188 to R206): segment timing, the line cycle, illuminators, the correction
chain, references, alignment, stitching, warm-up and cover detection. -/
namespace Sys2Proof.Machine

/-- The line-imaging record changed. -/
def State.onLin (s : State) (f : LinSt → LinSt) : State := s.onDev fun d => { d with lin := f d.lin }

/-- A segment's record. -/
def State.seg (s : State) (n : Nat) : SegmentSt := smGet {} s.dev.lin.segs n

/-- Put a segment's record. -/
def State.setSeg (s : State) (n : Nat) (x : SegmentSt) : State :=
  s.onLin fun l => { l with segs := smPut {} l.segs n x }

/-- A tracker's record. -/
def State.trk (s : State) (n : Nat) : Tracker := smGet {} s.dev.lin.trks n

/-- Put a tracker's record. -/
def State.setTrk (s : State) (n : Nat) (x : Tracker) : State :=
  s.onLin fun l => { l with trks := smPut {} l.trks n x }

/-- The motion record changed. -/
def State.onOdo (s : State) (f : OdoSt → OdoSt) : State := s.onDev fun d => { d with odo := f d.odo }

/-- The segment settings that writes in RUN hold for the segment's next start pulse (R206). -/
def heldSegRegs : List Reg := [.linSegCtl, .linSegPix, .linSegAdc, .linSegCover]

/-- The settings of a segment come into force. -/
def State.applySeg (s : State) (n : Nat) : State :=
  let s1 := heldSegRegs.foldl (fun t r => t.applyReg r n) s
  (List.range 3).foldl (fun t r => t.applyReg .linSegCol (3 * n + r)) s1

/-- The enabled segments. -/
def State.segments (s : State) : List Nat := (List.range 24).filter fun n => s.inForceFlag F.linSegCtlEn n

/-- The enabled segments of a bank. -/
def State.segmentsOf (s : State) (b : Nat) : List Nat :=
  s.segments.filter fun n => decide (s.inForce F.linSegCtlBank n = b)

/-- The banks that hold an enabled segment. -/
def State.usedBanks (s : State) : List Nat := (List.range 12).filter fun b => decide (s.segmentsOf b ≠ [])

/-! Timing (R189 to R192). -/

/-- The active word of the PLL output a segment is clocked from (R120, R189). -/
def State.pixelSource (s : State) (n : Nat) : Nat := s.dev.rng.pll.outs.getD (s.fld F.linSegCtlPixsrc n) 0

/-- The segment clock period in 1/4 ns (R120, R189). -/
def State.segPeriod (s : State) (n : Nat) : Nat := bitsOf (s.pixelSource n) 8 0 * (s.fld F.linSegCtlSclkDiv n + 1)

/-- The readout of a segment in clock periods (R190). -/
def State.readoutLen (s : State) (n : Nat) : Nat :=
  s.fld F.linSegPixLead n + s.fld F.linSegPixRefPix n + s.fld F.linSegPixActPix n

/-- T_min of a bank in ns, rounded up (R192). -/
def State.bankTmin (s : State) (b : Nat) : Nat :=
  let e := s.fld F.linBankExpExp b * 10
  ((s.segmentsOf b).foldl (fun m n =>
    let t := s.segPeriod n
    max m (max (s.readoutLen n * t + 2 * t) (4 * (e + 200) + 2 * t))) (4 * 20833) + 3) / 4

/-- T_min of the device in ns (R192). -/
def State.devTmin (s : State) : Nat := s.usedBanks.foldl (fun m b => max m (s.bankTmin b)) 20833

/-- T_min under throttling (R424). -/
def State.tmin (s : State) : Nat :=
  let l := s.fld F.thmStsLevel 0
  (s.devTmin * 8 + (7 - l)) / (8 - l)

/-- The stitched line width (R202). -/
def State.lineWidth (s : State) : Nat :=
  let l := s.segments
  let act := l.foldl (fun t n => t + s.inForce F.linSegPixActPix n) 0
  act + (l.filter (fun n => decide (s.inForce F.linSegCtlOrder n + 1 < l.length))).foldl
    (fun t n => t + s.inForce F.linSegPixGap n) 0

/-- SEG_CLK of a segment now: its period in 1/4 ns, 0 while it is held low or its source is disabled (R188, R189). -/
def State.segClk (s : State) (n : Nat) : Nat :=
  if s.inOp [.init, .ready, .run] && s.inForceFlag F.linSegCtlEn n && bitOf (s.pixelSource n) 31 then s.segPeriod n else 0

/-- The clock output of a segment takes a period. -/
def State.setClock (s : State) (n p : Nat) : State :=
  if (s.seg n).clk = p then s else (s.setSeg n { s.seg n with clk := p }).emit (.pin 12 n p)

/-- The clock outputs follow the states and the settings (R188). -/
def State.driveClocks (s : State) : State := (List.range 24).foldl (fun t n => t.setClock n (t.segClk n)) s

/-- Every clock output falls low, as at a reset (R188). -/
def State.stopClocks (s : State) : State := (List.range 24).foldl (fun t n => t.setClock n 0) s

/-- NO_CLK, TMIN, WIDTH and the clock outputs follow the settings (R188, R189, R192, R202). -/
def State.refreshTiming (s : State) : State :=
  let s1 := (List.range 24).foldl (fun t n => t.setFlag F.linSegStsNoClk n (!bitOf (t.pixelSource n) 31)) s
  let s2 := (List.range 12).foldl (fun t b => t.setFld F.linBankTminTmin b (satN 20 (t.bankTmin b))) s1
  ((s2.setFld F.linDevStsTmin 0 (satN 20 s2.devTmin)).setFld F.linDevWidthWidth 0 (satN 16 s2.lineWidth)).driveClocks

/-- E of the line cycle in ns: that of the lowest-numbered bank with an enabled segment (log entry 15). -/
def State.exposure (s : State) : Nat := s.fld F.linBankExpExp (s.usedBanks.headD 0) * 10

/-! Rules on the settings (R193, R200, R203). -/

/-- R193: no port in two banks, every enabled segment in a bank with illuminators. -/
def State.illuminatorsOk (s : State) : Bool :=
  ((List.range 12).all fun i => decide ((s.banksOf i).length ≤ 1))
    && (List.range 24).all fun n => !s.flag F.linSegCtlEn n || decide (s.fld F.linBankIllIllMask (s.fld F.linSegCtlBank n) ≠ 0)

/-- R203: the enabled segments hold ORDER 0 to N − 1 once each, and the width is within 49,152. -/
def State.stitchOk (s : State) : Bool :=
  let l := (List.range 24).filter fun n => s.flag F.linSegCtlEn n
  let width := l.foldl (fun t n => t + s.fld F.linSegPixActPix n
    + (if s.fld F.linSegCtlOrder n + 1 < l.length then s.fld F.linSegPixGap n else 0)) 0
  ((List.range l.length).all fun o => decide ((l.filter fun n => decide (s.fld F.linSegCtlOrder n = o)).length = 1))
    && decide (width ≤ 49152)

/-- ROW_POS of a row in µm. -/
def State.rowPos (s : State) (n r : Nat) : Int := s.sfld F.linSegRowRowPos (3 * n + r)

/-- Least and greatest of three. -/
def least3 (a b c : Int) : Int := min a (min b c)
/-- The greatest of three. -/
def greatest3 (a b c : Int) : Int := max a (max b c)

/-- The spread of a segment's rows in µm. -/
def State.rowSpread (s : State) (n : Nat) : Nat :=
  (greatest3 (s.rowPos n 0) (s.rowPos n 1) (s.rowPos n 2) - least3 (s.rowPos n 0) (s.rowPos n 1) (s.rowPos n 2)).toNat

/-- S_row of R214: over the enabled segments. -/
def State.spread (s : State) : Nat :=
  let l := (List.range 24).filter fun n => s.flag F.linSegCtlEn n
  match l with
  | [] => 0
  | n :: _ =>
    let hi := l.foldl (fun m k => max m (greatest3 (s.rowPos k 0) (s.rowPos k 1) (s.rowPos k 2))) (s.rowPos n 0)
    let lo := l.foldl (fun m k => min m (least3 (s.rowPos k 0) (s.rowPos k 1) (s.rowPos k 2))) (s.rowPos n 0)
    (hi - lo).toNat

/-- R200: no enabled segment's delay above 4,096 at the pitch set. -/
def State.delaysOk (s : State) : Bool :=
  (List.range 24).all fun n => !s.flag F.linSegCtlEn n
    || decide (divAway (256 * s.rowSpread n) (s.fld F.odoPitchPitch 0) ≤ 4096)

/-! The aligner (R200, R201). -/

/-- The pitch in force, µm (R212, R217). -/
def State.pitch (s : State) : Nat := s.fld F.odoPitchPitch 0 * (if s.dev.odo.wide then 2 else 1)

/-- Is the declared travel in the forward direction (R200, R214)? -/
def State.forward (s : State) : Bool := s.flag F.odoMotionDir 0 == s.flag F.odoStsBackward 0

/-- The delay of a row (R200). -/
def State.rowDelay (s : State) (n r : Nat) : Nat :=
  let p (k : Nat) := s.rowPos n k
  let d := if s.forward then p r - least3 (p 0) (p 1) (p 2) else greatest3 (p 0) (p 1) (p 2) - p r
  (divAway (256 * d) s.pitch).toNat

/-- A segment's aligner clears: its delays are formed, its history is empty, ceil(max δ / 256) lines prime (R201). -/
def State.clearSegment (s : State) (n : Nat) : State :=
  let s1 := (List.range 3).foldl (fun t r => t.setFld F.linSegRowDelay (3 * n + r) (satN 13 (t.rowDelay n r))) s
  let top := max (s1.rowDelay n 0) (max (s1.rowDelay n 1) (s1.rowDelay n 2))
  let p := (top + 255) / 256
  (s1.setSeg n { s1.seg n with rows := [[], [], []], prime := p }).setFlag F.linSegStsPriming n (decide (p ≠ 0))

/-- A direction declaration, a change of pitch or another clear cuts the line history of the trackers: no skew is formed
across it (R225). -/
def State.cutSkew (s : State) : State := s.onLin fun l => { l with cuts := l.cuts + 1 }

/-- The aligner clears for every enabled segment; priming lines on new track are lost under `reason`, 0 for none. -/
def State.clearAligner (s : State) (reason : Nat) : State :=
  ((s.segments.foldl (fun t n => t.clearSegment n) s).onLin fun l => { l with primeReason := reason }).cutSkew

/-- P_r of the line: the most priming lines any segment still needs. -/
def State.primingLines (s : State) : Nat := s.segments.foldl (fun m n => max m (s.seg n).prime) 0

/-! Shading (R197, R198). -/

/-- The instance of a shading entry: pixel `p` of row `r` of a segment. -/
def shadeAt (n r p : Nat) : Nat := 6144 * n + 2048 * r + p

/-- The entries of a segment's live table that are not at their Reset value, by entry number. -/
def State.shadeEntries (s : State) (n : Nat) : List (Nat × Nat) :=
  (s.dev.regs.filter fun p => decide (p.1 % 512 = Reg.linShade.ctorIdx ∧ p.1 / 512 / 6144 = n)).map
    fun p => (p.1 / 512 % 6144, p.2.toNat)

/-- WEAK shows the entries with W = 0 (R198). -/
def State.countWeak (s : State) (n : Nat) : State :=
  s.setFld F.linSegWeakWeak n (6144 - ((s.shadeEntries n).filter fun p => decide (p.2 / 65536 ≠ 0)).length)

/-- Is a segment's bank capturing? -/
def State.capturing (s : State) (n : Nat) : Bool := s.flag F.linBankStsCapBusy (s.fld F.linSegCtlBank n)

/-- Is a write to a segment's shading table taken (R198)? -/
def State.shadeAccepts (s : State) (n : Nat) : Bool :=
  if s.sys.op = .run then
    !s.flag F.linShadeStgHeld 0
      || (decide (s.fld F.linShadeStgOwner 0 = n) && !s.flag F.linShadeStgPend 0)
  else !s.capturing n

/-- An accepted write to entry `i` of a segment's shading table (R198, R243). -/
def State.shadeWrite (s : State) (n i v : Nat) : State :=
  if s.sys.op = .run then
    let s1 := if s.flag F.linShadeStgHeld 0 then s
      else ((s.setFlag F.linShadeStgHeld 0 true).setFld F.linShadeStgOwner 0 n).onLin fun l =>
        { l with stg := s.shadeEntries n }
    s1.onLin fun l => { l with stg := smPut 0 l.stg i v }
  else ((s.setReg .linShade (6144 * n + i) v).setSeg n { s.seg n with dirty := true }).countWeak n

/-- COMMIT: the staging buffer, where it is held, waits for its owner's next start pulse (R198). -/
def State.shadeCommit (s : State) : State :=
  if s.flag F.linShadeStgHeld 0 then (s.setFlag F.linShadeStgPend 0 true).setFlag F.linShadeStgCommit 0 true else s

/-- The shading generation of a segment counts on (R243). -/
def State.nextGen (s : State) (n : Nat) : State :=
  s.setSeg n { s.seg n with gen := ((s.seg n).gen + 1) % 256, dirty := false }

/-- The staging buffer is copied into its owner's live table (R198). -/
def State.shadeCopy (s : State) (n : Nat) : State :=
  let clean := s.onDev fun d => { d with
    regs := d.regs.filter fun p => !decide (p.1 % 512 = Reg.linShade.ctorIdx ∧ p.1 / 512 / 6144 = n) }
  let s1 := s.dev.lin.stg.foldl (fun t p => t.setReg .linShade (6144 * n + p.1) p.2) clean
  let s2 := (s1.onLin fun l => { l with stg := [] }).setReg .linShadeStg 0 (s1.fld F.linShadeStgOwner 0)
  (s2.nextGen n).countWeak n

/-! The line cycle (R191). -/

/-- A strobe switches on with its current; a demand word it cuts short is not applied by the driver (R191, R447). -/
def State.strobeOn (s : State) (i : Nat) : State :=
  let x := s.ill i
  (s.setIll i { x with lit := true, word := if s.dev.time.c < x.wordEnd then none else x.word }).emit
    (.pin 3 i (s.strobeCurrent i))

/-- A strobe switches off; a demand word that is due follows it (R191, R447). -/
def State.strobeOff (s : State) (i : Nat) : State :=
  ((s.setIll i { s.ill i with lit := false, fell := s.dev.time.c }).emit (.pin 3 i 0)).sendDemand i

/-- The strobes of a bank switch on with their currents (R191, R447). -/
def State.strobe (s : State) (b : Nat) : State :=
  (List.range 12).foldl (fun t i =>
    if bitOf (t.fld F.linBankIllIllMask b) i then t.strobeOn i else t) s

/-- Is a bank's lamp on: does some port of it carry current? -/
def State.lampsOn (s : State) (b : Nat) : Bool :=
  (List.range 12).any fun i => bitOf (s.fld F.linBankIllIllMask b) i && decide (0 < s.strobeCurrent i)

/-- Are the lamps of every used bank warm (R204)? -/
def State.allWarm (s : State) : Bool := s.usedBanks.all fun b => s.flag F.linBankStsWarm b

/-- A line cycle starts now for the segments it waits for: SEG_RST pulses (R188, R191). -/
def State.startLine (s : State) (l : Line) : State :=
  l.waits.foldl (fun t n => t.emit (.pin 4 n 1)) (s.onLin fun x => { x with
    nextId := x.nextId + 1, lines := x.lines ++ [{ l with id := x.nextId, trig := s.dev.time.c }] })

/-- The line of a capture or monitor cycle of a bank. -/
def State.bankLine (s : State) (b kind : Nat) : Line :=
  { id := 0, kind := kind, bank := b, idx := 0, grid := 0, pitch := 0, trig := 0
    centre := s.dev.time.c + 200 + s.fld F.linBankExpExp b * 5, record := false, waits := s.segmentsOf b }

/-- Change the first line that satisfies a test. -/
def mapFirst (p : Line → Bool) (f : Line → Line) : List Line → List Line
  | [] => []
  | l :: ls => if p l then f l :: ls else l :: mapFirst p f ls

/-- A strobe of an illuminator port ends; its mean current has been measured (R191, R194): OPEN sets where 16 strobes or more
in succession stay below half the demand, and a port whose strobe carried nothing stops being warm (R204). -/
def State.strobeMeasured (s : State) (i mean : Nat) : State :=
  let x := s.ill i
  let u := (x.u.getD 0).toNat
  let low := if 2 * mean < u then x.low + 1 else 0
  let s1 := (s.setIll i { x with low := low, seq := x.seq + 1 }).setFld F.linIllStsISense i (satN 21 mean)
  let s2 := if 16 ≤ low ∧ s1.flag F.linIllStsOpen i = false then s1.raise F.linIllStsOpen i 10 i else s1
  (if mean = 0 then s2.coolPort i else s2).strobeOff i

/-- Lines under way that are given up: what they strobe goes dark. -/
def State.dropLines (s : State) (p : Line → Bool) : State :=
  let gone := s.dev.lin.lines.filter fun l => p l && !l.waits.isEmpty
  let dark := (List.range 12).filter fun i => gone.any fun l => l.waits.any fun n =>
    bitOf (s.fld F.linBankIllIllMask (s.inForce F.linSegCtlBank n)) i
  dark.foldl (fun t i => t.strobeOff i) (s.onLin fun x => { x with lines := x.lines.filter fun l => !p l })

/-! The correction chain (R196, R197). -/

/-- Step 1 (R196). -/
def offsetGain (x ofs gain : Nat) : Nat := (clampI 0 65535 (divAway (((x : Int) - ofs) * gain) 1024)).toNat

/-- Step 2 of one pixel (R197); none marks it weak. -/
def shadePixel (y1 w d : Nat) (bad : Bool) : Option Nat :=
  if w = 0 || bad then none else some (clampI 0 65535 (divAway (((y1 : Int) - d) * w) 16384)).toNat

/-- The nearest values that are not weak, from one side. -/
def fillFrom (last : Option Nat) : List (Option Nat) → List (Option Nat)
  | [] => []
  | some v :: l => some v :: fillFrom (some v) l
  | none :: l => last :: fillFrom last l

/-- The value of a pixel from its own value or its neighbours on each side. -/
def fillPixel (own left right : Option Nat) : Nat :=
  match own with
  | some v => v
  | none => match left, right with
    | some a, some b => (a + b + 1) / 2
    | some a, none => a
    | none, some b => b
    | none, none => 0

/-- Weak pixels take the mean of their nearest neighbours (R197). -/
def fillWeak (l : List (Option Nat)) : List Nat :=
  let left := fillFrom none l
  let right := (fillFrom none l.reverse).reverse
  (l.zip (left.zip right)).map fun p => fillPixel p.1 p.2.1 p.2.2

/-- The settings of a row of a segment applied to its samples (R190, R196): its reference pixels and its active pixels
after step 1. -/
def State.rowStep1 (s : State) (n r : Nat) (x : List Nat) : List Nat × List Nat :=
  let refs := s.inForce F.linSegPixRefPix n
  let act := s.inForce F.linSegPixActPix n
  let y := ((x ++ List.replicate (refs + act - x.length) 0).take (refs + act)).map fun v =>
    offsetGain v (s.inForce F.linSegColOfs (3 * n + r)) (s.inForce F.linSegColGain (3 * n + r))
  (y.take refs, y.drop refs)

/-- Step 2 over a row; `bad` lists the pixels whose shading word read uncorrectable (R197, R273). -/
def State.rowStep2 (s : State) (n r : Nat) (y : List Nat) (bad : List Nat) : List Nat :=
  if s.inForceFlag F.linSegCtlShadeEn n then
    fillWeak (y.mapIdx fun p v =>
      let w := s.reg .linShade (shadeAt n r p)
      shadePixel v (w / 65536) (w % 65536) (bad.contains p))
  else y

/-- The aligned value of one pixel from row[k − n] and row[k − n − 1] (R200). -/
def alignPixel (f a b : Nat) : Nat := ((256 - f) * a + f * b + 128) / 256

/-- A row's aligned line from its history, newest first (R200). -/
def alignRow (delay : Nat) (hist : List (List Nat)) : List Nat :=
  let a := hist.getD (delay / 256) []
  let b := hist.getD (delay / 256 + 1) []
  a.mapIdx fun p v => alignPixel (delay % 256) v (b.getD p 0)

/-- Samples that OVR counts (R195): those read after LEAD. -/
def State.overrange (s : State) (n : Nat) (x : List Nat) : Nat :=
  ((x.take (s.inForce F.linSegPixRefPix n + s.inForce F.linSegPixActPix n)).filter
    fun v => decide (v = 0 ∨ v = 4095)).length

/-- Cover detection of one line of a segment (R205). -/
def State.judgeCover (s : State) (n : Nat) (refs : List (List Nat)) : State :=
  let k := s.inForce F.linSegPixRefPix n
  if k = 0 then s
  else
    let ovr := (refs.zipIdx).any fun p =>
      decide (p.1.foldl (· + ·) 0 > k * (s.fld F.linSegRefdarkRefDark (3 * n + p.2) + s.inForce F.linSegCoverCoverLim n))
    let is := s.flag F.linSegStsCoverOpen n
    let run := if ovr ≠ is then (s.seg n).coverRun + 1 else 0
    if ovr ≠ is ∧ s.inForce F.linSegCoverCoverLines n ≤ run then
      ((s.setSeg n { s.seg n with coverRun := 0 }).setFlag F.linSegStsCoverOpen n ovr).raise F.linSegStsCoverEvt n 12 n
    else s.setSeg n { s.seg n with coverRun := run }

/-- Aligned rows of a segment from the corrected rows of a line; a priming line counts down (R200, R201). -/
def State.alignSegment (s : State) (n : Nat) (rows : List (List Nat)) : (List (List Nat) × Bool) × State :=
  let x := s.seg n
  let hist := (x.rows.zip rows).map fun p => (p.2 :: p.1).take 17
  let out := hist.mapIdx fun r h => alignRow (s.fld F.linSegRowDelay (3 * n + r)) h
  let prime := decide (x.prime ≠ 0)
  ((out, prime), (s.setSeg n { x with rows := hist, prime := x.prime - 1 }).setFlag F.linSegStsPriming n
    (decide (1 < x.prime)))

/-- Strip pixels of a bank's warm-up reference enter the interval (R204). -/
def State.warmStrip (s : State) (n : Nat) (green : List Nat) : State :=
  (List.range 12).foldl (fun t b =>
    if t.flag F.linBankWrefWrefEn b && decide (t.fld F.linBankWrefWrefSeg b = n) then
      let first := t.fld F.linBankWrefFirst b
      let px := (green.drop first).take (t.fld F.linBankWrefLast b + 1 - first)
      t.setBank b { t.bank b with sum := (t.bank b).sum + px.foldl (· + ·) 0, count := (t.bank b).count + px.length }
    else t) s

/-! Reference capture (R199). -/

/-- Sums of two rows, element by element. -/
def addRows (a b : List Nat) : List Nat := if a.isEmpty then b else List.zipWith (· + ·) a b

/-- A capture takes a segment's rows of one line. -/
def Capture.add (c : Capture) (n : Nat) (act refs : List (List Nat)) : Capture :=
  let old := smGet [[], [], []] c.sums n
  let oldR := smGet [(0, 0), (0, 0), (0, 0)] c.refs n
  { c with
    taken := smInsert n (smGet 0 c.taken n + 1) (smErase c.taken n)
    sums := smInsert n (List.zipWith addRows old act) (smErase c.sums n)
    refs := smInsert n (List.zipWith (fun p r => (p.1 + r.foldl (· + ·) 0, p.2 + r.length)) oldR refs) (smErase c.refs n) }

/-- The white coefficient of a pixel from the sum of its values over `lines` (R199); a target over nothing is a value the
spec does not state. -/
def State.whiteCoef (s : State) (b sum lines d : Nat) : Nat × State :=
  if sum < (s.fld F.linBankCap2Wmin b + d) * lines then (0, s)
  else if sum = d * lines then
    let r := s.draw
    ((Config.unstated r.1).toNat % 65536, r.2)
  else (min 65535 (divAway (s.fld F.linBankCapTarget b * 16384 * lines) (sum - d * lines)).toNat, s)

/-- One entry of a finished capture. -/
def State.captureEntry (s : State) (b : Nat) (white : Bool) (i sum lines : Nat) : State :=
  let w := s.reg .linShade i
  if white then
    let r := s.whiteCoef b sum lines (w % 65536)
    r.2.setReg .linShade i (65536 * r.1 + w % 65536)
  else s.setReg .linShade i (w / 65536 * 65536 + (2 * sum + lines) / (2 * lines) % 65536)

/-- The results of a capture go to the live tables in one step (R199). -/
def State.finishCapture (s : State) (b : Nat) (c : Capture) : State :=
  let s1 := c.sums.foldl (fun t p =>
    let u := p.2.zipIdx.foldl (fun t q =>
      q.1.zipIdx.foldl (fun t v => t.captureEntry b c.white (shadeAt p.1 q.2 v.2) v.1 (smGet 1 c.taken p.1)) t) t
    (u.nextGen p.1).countWeak p.1) s
  let s2 := if c.white then s1 else c.refs.foldl (fun t p =>
    p.2.zipIdx.foldl (fun t q => if q.1.2 = 0 then t
      else t.setFld F.linSegRefdarkRefDark (3 * p.1 + q.2) ((2 * q.1.1 + q.1.2) / (2 * q.1.2))) t) s1
  (((s2.setBank b { s2.bank b with cap := none }).setFlag F.linBankStsCapBusy b false).setFlag F.linBankCapCap b
    false).raise F.linBankStsCapDone b 11 b

/-- CAP written for a bank (R199): a capture starts in READY, otherwise CAP_ERR sets. -/
def State.capture (s : State) (b : Nat) : State :=
  if s.flag F.linBankStsCapBusy b then s
  else
    ((s.setBank b { s.bank b with cap := some { white := s.flag F.linBankCapKind b
                                                left := 2 ^ s.fld F.linBankCapLinesLog2 b } }).setFlag
      F.linBankStsCapBusy b true).setFlag F.linBankCapCap b true

/-- Captures end without a result when the device leaves READY (R199); their lines end with them. -/
def State.endCaptures (s : State) : State :=
  (List.range 12).foldl (fun t b =>
    if t.flag F.linBankStsCapBusy b then
      (((t.setBank b { t.bank b with cap := none }).setFlag F.linBankStsCapBusy b false).setFlag F.linBankCapCap b
        false).setFlag F.linBankStsCapErr b true
    else t) (s.dropLines fun l => decide (l.kind = 2))

/-- A capture whose lines have all been taken and read is done (R199). -/
def State.settleCapture (s : State) (b : Nat) : State :=
  match (s.bank b).cap with
  | some c =>
    if c.left = 0 && !s.dev.lin.lines.any fun l => decide (l.kind = 2 ∧ l.bank = b) then s.finishCapture b c else s
  | none => s

/-- A segment goes out of use outside RUN: the lines under way go on without it. -/
def State.dropSegment (s : State) (n : Nat) : State :=
  let s1 := s.onLin fun x => { x with lines := (x.lines.map fun l => { l with
    waits := l.waits.filter (· ≠ n), reads := l.reads.filter (· ≠ n) }).filter fun l =>
      !(l.waits.isEmpty && l.reads.isEmpty) }
  (List.range 12).foldl (fun t b => t.settleCapture b) s1

/-- The capture timer of a bank takes the next line; a dark capture suppresses the strobes (R199). A bank with no enabled
segment reads nothing: its line is over at once. -/
def State.captureLine (s : State) (b : Nat) : State :=
  match (s.bank b).cap with
  | some c =>
    if c.left = 0 then s
    else
      let s1 := s.setBank b { s.bank b with cap := some { c with left := c.left - 1 } }
      if (s.segmentsOf b).isEmpty then s1.settleCapture b
      else
        let s2 := s1.startLine (s.bankLine b 2)
        if c.white then s2.strobe b else s2
  | none => s

/-- A monitor line of a bank (R204). -/
def State.monitorLine (s : State) (b : Nat) : State :=
  if s.inOp [.init, .ready] && s.flag F.linBankWrefWrefEn b && s.lampsOn b && !s.flag F.linBankStsCapBusy b then
    (s.startLine (s.bankLine b 1)).strobe b
  else s

/-- The drift between two means in 1/1,000 %/s, and whether it is below 0.2 %/s (R204); a drift against a mean of nothing is
a value the spec does not state. -/
def State.drift (s : State) (a b : Nat × Nat) : (Nat × Bool) × State :=
  let x := a.1 * b.2
  let y := b.1 * a.2
  if y = 0 then
    let r := s.draw
    let v := (Config.unstated r.1).toNat
    ((v, decide (v < 200)), r.2)
  else
    let diff := ((x : Int) - y).natAbs
    ((diff * 100000 / y, decide (500 * diff < y)), s)

/-- A warm-up interval of a bank ends (R204). -/
def State.warmupInterval (s : State) (b : Nat) : State :=
  let x := s.bank b
  if !s.flag F.linBankWrefWrefEn b || decide (x.count = 0) then s.setBank b { x with sum := 0, count := 0 }
  else
    let m := (x.sum, x.count)
    let y := { x with sum := 0, count := 0, means := (m :: x.means).take 11 }
    match x.means[9]? with
    | none => s.setBank b y
    | some old =>
      let r := s.drift m old
      let s1 := r.2.setFld F.linBankStsDrift b (satN 16 r.1.1)
      if s1.flag F.linBankStsWarm b then
        (if r.1.2 then s1 else s1.setFlag F.linBankStsDriftHi b true).setBank b y
      else
        let calm := if r.1.2 then y.calm + 1 else 0
        (s1.setBank b { y with calm := if calm = 20 then 0 else calm }).setFlag F.linBankStsWarm b (decide (calm = 20))

/-! Readout (R190 to R202). -/

/-- A line of a track leaves a segment corrected and aligned. -/
def State.trackReadout (s : State) (l : Line) (n : Nat) (rows : List (List Nat)) (ovr hist : Bool) : State :=
  -- a history word that reads uncorrectable clears the segment's history (R201, R273)
  let s1 := if hist then (s.clearSegment n).onLin fun x => { x with primeReason := 0x44 } else s
  let r := s1.alignSegment n rows
  r.2.onLin fun x => { x with lines := mapFirst (fun k => decide (k.id = l.id)) (fun k => { k with
    reads := k.reads.filter (· ≠ n), done := k.done ++ [(n, r.1.1)], prime := k.prime || r.1.2
    ovr := k.ovr || ovr, cover := k.cover || s1.flag F.linSegStsCoverOpen n
    dropped := k.dropped || hist }) x.lines }

/-- A segment of a capture line or monitor line has been read; after the last the line is done. -/
def State.bankReadout (s : State) (l : Line) (n : Nat) (act refs : List (List Nat)) : State :=
  let left := l.reads.filter (· ≠ n)
  let fin := left.isEmpty && l.waits.isEmpty
  let s1 := s.onLin fun x => { x with
    lines := if fin then x.lines.filter fun k => decide (k.id ≠ l.id)
      else mapFirst (fun k => decide (k.id = l.id)) (fun k => { k with reads := left }) x.lines }
  match l.kind, (s1.bank l.bank).cap with
  | 2, some c => (s1.setBank l.bank { s1.bank l.bank with cap := some (c.add n act refs) }).settleCapture l.bank
  | _, _ => s1

/-- A segment's readout completes with the samples of its rows (R190, R195 to R201, R204, R205). A line of
the track reads both its memories (R272, R273): `bad` names the shading entries that read uncorrectable, `hist` says that an
alignment-history word did, and `fixed` counts the words corrected. A monitor line only feeds the mean of its strip (R204). -/
def State.readoutComplete (s : State) (n : Nat) (x : List (List Nat)) (bad : List Nat) (hist : Bool) (fixed : Nat) : State :=
  match s.dev.lin.lines.find? fun l => l.reads.contains n with
  | none => s
  | some l =>
    let y := x.mapIdx fun r v => s.rowStep1 n r v
    let refs := y.map (·.1)
    let act := y.map (·.2)
    let strip (t : State) : State := t.warmStrip n (act.getD 1 [])
    if l.kind = 1 then (strip s).bankReadout l n act refs
    else
      let ovr := x.foldl (fun t r => t + s.overrange n r) 0
      let s1 := if ovr = 0 then s else (s.bump F.linSegOvrCntCount n ovr).setFlag F.linSegStsOvr n true
      let s2 := s1.judgeCover n refs
      if l.kind = 0 then
        let s3 := bad.foldl (fun t _ => t.sramUe 2) (if fixed = 0 then s2 else s2.bump F.memSramCeCntCount 0 fixed)
        let s4 := strip (if hist then s3.sramUe 1 else s3)
        let rows := act.mapIdx fun r v =>
          s4.rowStep2 n r v ((bad.filter fun i => decide (i / 2048 = r)).map (· % 2048))
        s4.trackReadout l n rows (decide (ovr ≠ 0)) hist
      else s2.bankReadout l n act refs

/-! Stitching (R202). -/

/-- The inserted pixels between two segments (R202). -/
def gapPixels (a b gap : Nat) : List Nat :=
  (List.range gap).map fun (j : Nat) => ((a : Int) + divAway (((b : Int) - a) * (j + 1)) (gap + 1)).toNat

/-- Segments of one colour joined in stitch order, each with its GAP. -/
def stitchRow : List (List Nat × Nat) → List Nat
  | [] => []
  | [(x, _)] => x
  | (x, g) :: (y, h) :: l => x ++ gapPixels (x.getLastD 0) (y.headD 0) g ++ stitchRow ((y, h) :: l)

/-- The three colour rows of the stitched line. -/
def State.stitch (s : State) (l : Line) : List (List Nat) :=
  let segs := (List.range 24).filterMap fun o =>
    l.done.find? fun p => decide (s.inForce F.linSegCtlOrder p.1 = o)
  (List.range 3).map fun r => stitchRow (segs.map fun p =>
    let x := p.2.getD r []
    (if s.inForceFlag F.linSegCtlReverse p.1 then x.reverse else x, s.inForce F.linSegPixGap p.1))

/-- MONITOR_LINE of a bank. -/
def execMonitorLine (bank : Fin 12) (s : State) : Host.Outcome State Fault Refusal :=
  .next (inDev (State.monitorLine · bank) s)

/-- CAPTURE_LINE of a bank. -/
def execCaptureLine (bank : Fin 12) (s : State) : Host.Outcome State Fault Refusal :=
  .next (inDev (State.captureLine · bank) s)

/-- WARMUP_INTERVAL of a bank. -/
def execWarmupInterval (bank : Fin 12) (s : State) : Host.Outcome State Fault Refusal :=
  .next (inDev (State.warmupInterval · bank) s)

/-- READOUT_COMPLETE of a segment with the samples of its rows and what its reads of shading and history found: the shading words that
are uncorrectable, whether a word of history is, and how many words were corrected. -/
def execReadoutComplete (seg : Fin 24) (r g b : List (BitVec 12)) (bad : List (Fin 6144)) (hist : Bool × BitVec 14) (s : State) :
    Host.Outcome State Fault Refusal :=
  .next (inDev (State.readoutComplete · seg [r.map BitVec.toNat, g.map BitVec.toNat, b.map BitVec.toNat]
    (bad.map Fin.val) hist.1 hist.2.toNat) s)

end Sys2Proof.Machine
end

