-- ==== Sys2Proof/Machine/Motion.lean ====
section
/-! DEFINITION. Distance and motion (R207 to R220): odometry inputs, speed, the line grid, direction, suppression,
overspeed, host stall and the depot carriage; line triggers (R192, R212, R213) and losses (R221). -/
namespace Sys2Proof.Machine

/-- An odometry input's record. -/
def State.odoIn (s : State) (n : Nat) : OdoIn := smGet {} s.dev.odo.ins n

/-- Put an odometry input's record. -/
def State.setOdoIn (s : State) (n : Nat) (x : OdoIn) : State :=
  s.onOdo fun o => { o with ins := smPut {} o.ins n x }

/-- C to 10 ns (R210). -/
def State.time10 (s : State) : Nat := s.dev.time.c / 10 * 10

/-- The position in 1/65,536 µm (R208). -/
def State.pos (s : State) : Int := signed 64 (s.pair .odoPosLo .odoPosHi 0)

/-- One count of the source in 1/65,536 µm (R208). -/
def State.countScale (s : State) : Nat :=
  if s.flag F.odoSrcKind 0 then s.fld F.odoCarScaleCarScale 0 else s.fld F.odoInScaleScale (s.fld F.odoSrcPrim 0)

/-! Speed and estimate (R210, R211). -/

/-- The last count's time. -/
def State.countAt (s : State) : Nat := (s.dev.odo.counts.headD (0, 0)).1

/-- The speed at an instant, in 1/65,536 µm per ns, as a fraction: formed from the counts of the window, or decayed to one
count over the time since the last. -/
def State.speedAt (s : State) (t : Nat) : Int × Nat :=
  let o := s.dev.odo
  let win := o.counts.filter fun p => decide (t ≤ p.1 + s.fld F.odoMotionSpdWin 0 * 1000000)
  match win, win.getLast? with
  | a :: _ :: _, some b => if b.1 < a.1 then (a.2 - b.2, a.1 - b.1) else (o.spNum, o.spDen)
  | _, _ =>
    let dt := t - s.countAt
    -- |spNum / spDen| against countScale / dt
    if dt = 0 ∨ o.spNum.natAbs * dt ≤ s.countScale * o.spDen then (o.spNum, o.spDen)
    else (if o.spNum < 0 then -(s.countScale : Int) else s.countScale, dt)

/-- est(t) (R211), in 1/65,536 µm. -/
def State.est (s : State) (t : Nat) : Int :=
  if s.flag F.odoStsStandstill 0 then s.pos
  else
    let v := s.speedAt t
    let d := divFloor (v.1 * ((t : Int) - s.countAt)) v.2
    let sc : Int := s.countScale
    s.pos + (if v.1 < 0 then clampI (-sc) 0 d else clampI 0 sc d)

/-- A position along D (R212). -/
def State.along (s : State) (p : Int) : Int := if s.flag F.odoMotionDir 0 then -p else p

/-- ODO_SPEED in µm/s (R210). -/
def State.showSpeed (s : State) : State :=
  let v := if s.flag F.odoStsStandstill 0 then (0, 1) else s.speedAt s.time10
  s.setSfld F.odoSpeedSpeed 0 (divZ (v.1 * 1000000000) (v.2 * 65536))

/-- The time tag of an instant of C. -/
def State.tagOf (s : State) (c : Nat) : Nat := unsigned 64 (divFloor ((c : Int) * 2 ^ 32 + s.dev.time.o) (2 ^ 32))

/-- Lines whose exposure centre has passed take their position and time tag (R191, R212). -/
def State.settleLines (s : State) : State :=
  s.onLin fun x => { x with lines := x.lines.map fun l =>
    if l.pos.isNone && decide (l.centre ≤ s.dev.time.c) then
      { l with pos := some (s.est l.centre), time := s.tagOf l.centre }
    else l }

/-! The grid (R212). -/

/-- The grid position of an index in µm along D. -/
def State.gridPos (s : State) (i : Int) : Int := s.dev.odo.u0 + i * s.fld F.odoPitchPitch 0

/-- The step between grid indices in force. -/
def State.gridStep (s : State) : Int := if s.dev.odo.wide then 2 else 1

/-- The least grid index of the pitch in force that is at or above `i`. -/
def State.alignIdx (s : State) (i : Int) : Int := if s.dev.odo.wide && decide (i % 2 = 1) then i + 1 else i

/-- The index of the first grid position beyond a position along D in 1/65,536 µm. -/
def State.nextIdx (s : State) (u : Int) : Int :=
  s.alignIdx (Int.fdiv (u - s.dev.odo.u0 * 65536) (s.fld F.odoPitchPitch 0 * 65536) + 1)

/-- Grid positions between two positions along D, at the pitch in force. -/
def State.gridCount (s : State) (a b : Int) : Nat :=
  ((s.nextIdx (max a b) - s.nextIdx (min a b)) / s.gridStep).toNat

/-! Losses (R221). -/

/-- The number of the hood, counted from the open one, in which a grid position lies: hoods follow one another at their
length, and one cut short begins a new count where it was cut (R221, R227). -/
def State.hoodOf (s : State) (g : Int) : Nat :=
  match s.dev.lin.hood with
  | some h =>
    let len : Int := s.fld F.linHoodLenLen 0 * 1000000
    let idx (p : Int) : Nat := if p < h.stop then 0 else ((p - h.stop) / len).toNat + 1
    match s.dev.lin.fresh with
    | some (p, _) =>
      if p ≤ g then
        idx p + (if h.stop ≤ p ∧ (p - h.stop) % len = 0 then 0 else 1) + ((g - p) / len).toNat
      else idx g
    | none => idx g
  | none => 0

/-- Put lost grid positions among the losses, which stand in the order of the grid. They join the piece before them where
nothing of the grid lies between, at one pitch and within one hood. -/
def addLineGap (hood : Int → Nat) (g : LineGap) : List LineGap → List LineGap
  | [] => [g]
  | h :: l =>
    if g.first < h.first then g :: h :: l
    else if h.last + g.pitch = g.first ∧ h.pitch = g.pitch ∧ hood h.first = hood g.first then
      { h with lost := h.lost + g.lost, last := g.last } :: l
    else h :: addLineGap hood g l

/-- Pieces with no recorded line between them are one run of loss: one record in each hood, every one under the reason of
the run's first loss (R221). -/
def joinGaps (hood : Int → Nat) (reason : Nat) : List LineGap → List LineGap
  | [] => []
  | g :: l =>
    match joinGaps hood reason l with
    | h :: rest =>
      if hood g.first = hood h.first then { g with reason := reason, lost := g.lost + h.lost, last := h.last } :: rest
      else { g with reason := reason } :: h :: rest
    | [] => [{ g with reason := reason }]

/-- A grid position is lost (R221); one at or behind H is no loss. -/
def State.loseLine (s : State) (reason : Nat) (g : Int) (time : Nat) : State :=
  if (match s.dev.odo.high with | some h => decide (g ≤ h) | none => false) then s
  else s.onLin fun x => { x with gaps := addLineGap s.hoodOf ⟨time, reason, 1, s.pitch, g, g⟩ x.gaps }

/-- A trigger that was held is lost (R213, R217). -/
def State.loseHeld (s : State) : State :=
  match s.dev.lin.held with
  | some i => (s.onLin fun x => { x with held := none }).loseLine 0x41 (s.gridPos i) s.tag
  | none => s

/-! The carriage (R219, R220). -/

/-- The carriage's running target in encoder counts/s, scaled under throttling (R219, R424). -/
def State.carRun (s : State) : Int := (s.fld F.odoCarSpeedCarSpeed 0 * (8 - s.fld F.thmStsLevel 0) / 8 : Nat)

/-- The target of the carriage loop now, along D (R219, R220). -/
def State.carTarget (s : State) : Int :=
  if s.sys.op ≠ .run then 0
  else if s.flag F.odoStsRestart 0 then
    if s.dev.odo.turned then s.carRun else -(s.fld F.odoCarBackBackSpeed 0 : Int)
  else if s.flag F.odoStsStall 0 then 0
  else s.carRun

/-- The imaging path sets the target of the carriage loop (R219). -/
def State.driveCarriage (s : State) : State :=
  if s.flag F.odoSrcKind 0 then s.setSfld F.loopSpSp (s.fld F.odoCarCtlCarLoop 0) (s.along s.carTarget) else s

/-- The line stream that is on. -/
def State.lineStream (s : State) : Option Nat := (s.streamsOf 1).head?

/-- STALL follows the watermarks (R218, R220). A carriage whose buffer has drained backs up; a back-up once begun runs to
its seam. -/
def State.followStall (s : State) : State :=
  if s.sys.op ≠ .run then s
  else
    let high := match s.lineStream with
      | some n => s.flag F.acqStrStsHigh n
      | none => false
    if s.flag F.odoSrcKind 0 then
      if s.flag F.odoStsRestart 0 then s
      else if s.flag F.odoStsStall 0 && !high then
        (((s.setFlag F.odoStsStall 0 false).setFlag F.odoStsRestart 0 true).onOdo fun o =>
          { o with turned := false }).driveCarriage
      else if high && !s.flag F.odoStsStall 0 then (s.setFlag F.odoStsStall 0 true).driveCarriage
      else s
    else s.setFlag F.odoStsStall 0 high

/-! Overspeed (R216, R217). -/

/-- speed_D times T_min, against a distance in µm: is speed_D × T_min × k ≥ m × distance? -/
def State.speedReaches (s : State) (um k m : Nat) : Bool :=
  let v := if s.flag F.odoStsStandstill 0 then (0, 1) else s.speedAt s.time10
  decide ((m : Int) * um * 65536 * v.2 ≤ s.along v.1 * s.tmin * k)

/-- ALONG2 shows a doubled pitch or pairing. -/
def State.showAlong (s : State) : State := s.setFlag F.odoStsAlong2 0 (s.dev.odo.wide || s.dev.lin.pairing)

/-- The first line of a pair that lost its partner is lost (R218). -/
def State.dropPair (s : State) : State :=
  let s1 := s.onLin fun x => { x with pair := none }
  match s.dev.lin.pair with
  | some (l, _) => s1.loseLine 0x40 l.grid l.time
  | none => s1

/-- The pitch switches (R217): the aligner clears, and its priming lines are lost with reason OVERSPEED; pairing ends. A held
position that the doubled pitch does not hold is lost. -/
def State.switchPitch (s : State) (wide : Bool) : State :=
  let s0 := if wide && (match s.dev.lin.held with | some i => decide (i % 2 = 1) | none => false) then s.loseHeld else s
  let s1 := s0.dropPair.onLin fun x => { x with pairing := false }
  let s2 := s1.onOdo fun o => { o with wide := wide }
  ((s2.onOdo fun o => { o with next := s2.alignIdx o.next }).clearAligner 0x41).showAlong

/-- OVERSPEED is judged at the pitch in force (R216). -/
def State.judgeLimit (s : State) : State :=
  if s.flag F.odoStsOverspeed 0 then
    if s.speedReaches s.pitch 20 19 then s
    else
      -- the GAP rule ends: the history behind the next lines is stale (R217)
      let s1 := s.setFlag F.odoStsOverspeed 0 false
      if !s.inForceFlag F.linAsmCtlPolicy 0 || s.dev.odo.wide then s1.clearAligner 0x41 else s1
  else if s.speedReaches s.pitch 1 1 then s.setFlag F.odoStsOverspeed 0 true
  else s

/-- Speed against the line-rate limit (R216, R217, R424). -/
def State.judgeSpeed (s : State) : State :=
  if s.sys.op ≠ .run then s
  else
    let s1 := s.judgeLimit
    if s1.inForceFlag F.linAsmCtlPolicy 0 && !s1.dev.odo.wide && s1.flag F.odoStsOverspeed 0 then
      let s2 := s1.switchPitch true
      if s2.speedReaches s2.pitch 20 19 then s2 else s2.setFlag F.odoStsOverspeed 0 false
    else if s1.dev.odo.wide && !s1.speedReaches (s1.fld F.odoPitchPitch 0) 20 19 then
      (s1.switchPitch false).setFlag F.odoStsOverspeed 0 false
    else s1

/-- Does the GAP rule stop lines now (R217)? -/
def State.gapRule (s : State) : Bool :=
  s.flag F.odoStsOverspeed 0 && (!s.inForceFlag F.linAsmCtlPolicy 0 || s.dev.odo.wide)

/-! Direction (R214, R215). -/

/-- SUPPRESS, and the seam that follows it (R215). -/
def State.judgeSuppress (s : State) (u : Int) : State :=
  let behind := match s.dev.odo.high with
    | some h => decide (u < h * 65536)
    | none => false
  let sup := s.flag F.odoStsBackward 0 || behind
  let s1 := s.setFlag F.odoStsSuppress 0 sup
  if sup then s1.onOdo fun o => { o with seam := true } else s1

/-- The next grid index after a declared turn back along D (R215): the priming lines start at R, or at the first grid
position not yet passed. -/
def State.restartGrid (s : State) (u : Int) : State :=
  let ahead := s.nextIdx u
  match s.dev.odo.high with
  | none => s.onOdo fun o => { o with next := ahead }
  | some h =>
    let first := s.alignIdx ((h - s.dev.odo.u0) / s.fld F.odoPitchPitch 0 + 1)
    let r := first - s.primingLines * s.gridStep
    if ahead ≤ r then s.onOdo fun o => { o with next := r }
    else (s.onOdo fun o => { o with next := ahead }).onLin fun x => { x with primeReason := 0x42 }

/-- Grid positions beyond H that were passed before the restart are lost with it (R215, R221). -/
def State.declare (s : State) (u : Int) : State :=
  let o := s.dev.odo
  let hyst : Int := s.fld F.odoRevHystRevHyst 0 * 65536
  if s.flag F.odoStsBackward 0 then
    let low := min o.uMin u
    if low + hyst ≤ u then
      let s1 := ((s.setFlag F.odoStsBackward 0 false).onOdo fun o => { o with uMax := u, uMin := u }).clearAligner 0
      let s2 := s1.restartGrid u
      -- grid positions between H and the first priming line have been passed unrecorded
      let from' := match o.high with
        | some h => s2.alignIdx ((h - o.u0) / s.fld F.odoPitchPitch 0 + 1)
        | none => s2.dev.odo.next
      (List.range ((s2.dev.odo.next - from') / s2.gridStep).toNat).foldl (fun t (k : Nat) =>
        t.loseLine 0x42 (t.gridPos (from' + k * t.gridStep)) t.tag) s2
    else s.onOdo fun o => { o with uMin := low }
  else
    let top := max o.uMax u
    if u + hyst ≤ top then
      ((s.setFlag F.odoStsBackward 0 true).onOdo fun o => { o with uMax := u, uMin := u }).clearAligner 0
    else s.onOdo fun o => { o with uMax := top }

/-- A carriage that backs up turns when u passes H − OVERTRAVEL (R220). -/
def State.turnCarriage (s : State) (u : Int) : State :=
  match s.dev.odo.high with
  | some h =>
    if s.flag F.odoStsRestart 0 && !s.dev.odo.turned
        && decide (u < (h - s.fld F.odoCarOverOvertravel 0) * 65536) then
      (s.onOdo fun o => { o with turned := true }).driveCarriage
    else s
  | none => s

/-- Grid positions passed under suppression between two positions along D (R215): all of them while travel against D is
declared, otherwise those up to H. -/
def State.suppressed (s : State) (a b : Int) : Nat :=
  if s.flag F.odoStsBackward 0 then s.gridCount a b
  else match s.dev.odo.high with
    | some h => s.gridCount (min a (h * 65536)) (min b (h * 65536))
    | none => 0

/-- A count of the source reaches the motion path: position, speed, and in RUN direction, suppression, overspeed and the
carriage turn (R208, R210, R214 to R216, R220). -/
def State.motionCount (s : State) (d : Int) : State :=
  let s0 := s.settleLines
  let now := s0.time10
  let u0 := s0.along s0.pos
  let p := s0.pos + d * s0.countScale
  let s1 := s0.setPair .odoPosLo .odoPosHi 0 (unsigned 64 p)
  let win := s1.fld F.odoMotionSpdWin 0 * 1000000
  let v := (s1.onOdo fun o => { o with
    counts := (now, p) :: o.counts.filter fun q => decide (now ≤ q.1 + win) }).speedAt now
  let s2 := ((s1.onOdo fun o => { o with
    counts := (now, p) :: o.counts.filter (fun q => decide (now ≤ q.1 + win)), spNum := v.1, spDen := v.2 }).setFlag
      F.odoStsStandstill 0 false).showSpeed
  if s2.sys.op ≠ .run then s2
  else
    let u := s2.along p
    let s3 := (s2.declare u).judgeSuppress u
    let s4 := s3.bump F.odoSuppressCntCount 0 (s2.suppressed u0 u)
    (s4.judgeSpeed).turnCarriage u

/-- Bit 3 of FLAGS sets in the line records of the interval that are still in their rings (R209, log entry 75). -/
def State.markRecords (s : State) : State :=
  s.dev.lin.marks.foldl (fun t p =>
    let m := t.ringSize p.1
    let at' := t.pair .acqStrBaseLo .acqStrBaseHi p.1 + (p.2 + 6) % m
    t.store at' [t.byte at' ||| 8#8]) s

/-- The lines of the interval are marked ODO_SUSPECT (R209): those under way, those that wait, and those recorded. -/
def State.markSuspect (s : State) : State :=
  let mark (l : Line) : Line := if s.dev.odo.slipAt ≤ l.trig then { l with suspect := true } else l
  (s.onLin fun x => { x with
    lines := x.lines.map mark, fifo := x.fifo.map fun p => (mark p.1, p.2)
    pair := x.pair.map fun p => (mark p.1, p.2) }).markRecords

/-- ERR or OVERRUN set on an input; on the source it marks the span (R207, R209). -/
def State.odoError (s : State) (n : Nat) : State :=
  if !s.flag F.odoSrcKind 0 && decide (s.fld F.odoSrcPrim 0 = n) then
    (s.onOdo fun o => { o with suspectLate := true }).markSuspect
  else s

/-- Counts passed by the prescaler: how many counts make one (R207). -/
def State.presc (s : State) (n : Nat) : Nat :=
  match s.fld F.odoInCtlPresc n with
  | 0 => 1
  | 1 => 8
  | _ => 64

/-- A prescaled count of an input (R207): counted, or lost above 10 million counts/s. -/
def State.prescaled (s : State) (n : Nat) (d : Int) : State :=
  let x := s.odoIn n
  let now := s.dev.time.c
  if (match x.lastAt with | some t => decide (now < t + 100) | none => false) then
    (s.setFlag F.odoInStsOverrun n true).odoError n
  else
    let s1 := (s.setOdoIn n { x with lastAt := some now, moved := x.moved + d * s.fld F.odoInScaleScale n }).setReg
      .odoInCnt n (unsigned 32 ((s.reg .odoInCnt n : Int) + d))
    if !s.flag F.odoSrcKind 0 && decide (s.fld F.odoSrcPrim 0 = n) then s1.motionCount d else s1

/-- A count of an input before the prescaler. -/
def State.rawCount (s : State) (n : Nat) (d : Int) : State :=
  let d := if s.flag F.odoInCtlDirInv n then -d else d
  let x := s.odoIn n
  let r := x.rest + d
  if s.presc n ≤ r.natAbs then (s.setOdoIn n { x with rest := 0 }).prescaled n (if r < 0 then -1 else 1)
  else s.setOdoIn n { x with rest := r }

/-- An accepted sample of an input with new levels (R207). -/
def State.odometryCount (s : State) (n : Nat) (a b : Bool) : State :=
  let x := s.odoIn n
  let s1 := s.setOdoIn n { x with a := a, b := b }
  if !s.flag F.odoInCtlEn n then s1
  else if s.flag F.odoInCtlMode n then
    if a && !x.a then s1.rawCount n (if b then 1 else -1) else s1
  else match quadStep x.a x.b a b with
    | none => ((s1.setFlag F.odoInStsErr n true).bump F.odoInStsErrCnt n 1).odoError n
    | some 0 => s1
    | some d => s1.rawCount n d

/-- A taken encoder transition of a scan-axis port (R171); the counts of the carriage's port move the position (R208). -/
def State.encoderEdge (s : State) (n : Nat) (a b : Bool) : State :=
  let r := s.encoder n a b
  if r.1 ≠ 0 ∧ s.flag F.odoSrcKind 0 = true ∧ s.fld F.odoCarCtlCarAxis 0 = n then r.2.motionCount r.1 else r.2

/-- The slip check (R209). -/
def State.slipCheck (s : State) : State :=
  let p := s.fld F.odoSrcPrim 0
  let k := s.fld F.odoSrcChk 0
  let a := (s.odoIn p).moved
  let b := (s.odoIn k).moved
  let larger := max a.natAbs b.natAbs
  let slip := s.flag F.odoSrcChkEn 0 && decide (larger * s.fld F.odoSrcDisPct 0 < 1000 * (a - b).natAbs)
    && decide (100000 * 65536 ≤ larger)
  let s1 := (List.range 4).foldl (fun t n => t.setOdoIn n { t.odoIn n with moved := 0 }) s
  let s2 := if slip then (s1.raise F.odoStsSlip 0 13 0).markSuspect else s1
  (s2.onOdo fun o => { o with
    suspectNow := slip || o.suspectLate, suspectLate := false, slipAt := s.dev.time.c }).onLin fun x => { x with marks := [] }

/-- STILL_MS have passed with no count (R210). -/
def State.standstill (s : State) : State :=
  ((((s.settleLines).onOdo fun o => { o with spNum := 0, spDen := 1 }).setFlag F.odoStsStandstill 0 true).showSpeed).judgeSpeed

/-! Line triggers (R191, R192, R212, R213, R217). -/

/-- A trigger for a grid index is accepted now. -/
def State.acceptTrigger (s : State) (i : Int) : State :=
  let g := s.gridPos i
  let o := s.dev.odo
  let l : Line := { id := 0, kind := 0, bank := 0, idx := i, grid := g, pitch := s.pitch, trig := 0
                    centre := s.dev.time.c + 200 + s.exposure / 2
                    record := match o.high with | some h => decide (h < g) | none => true
                    waits := s.segments, cold := !s.allWarm, cut := s.dev.lin.cuts
                    suspect := o.suspectNow || o.suspectLate }
  let s1 := (s.startLine l).onLin fun x => { x with lastTrig := some s.dev.time.c }
  s1.usedBanks.foldl (fun t b => t.strobe b) s1

/-- Does any enabled segment lack its clock (R189)? -/
def State.noClock (s : State) : Bool := s.segments.any fun n => !bitOf (s.pixelSource n) 31

/-- A trigger dropped under R192: counted, lost, and the aligner clears. -/
def State.dropTrigger (s : State) (i : Int) : State :=
  ((s.bump F.linTrigDropCntCount 0 1).loseLine 0x43 (s.gridPos i) s.tag).clearAligner 0x43

/-- Is the next grid position due now (R212): will the exposure centre of a line begun now reach it? At standstill none is
(R213). -/
def State.lineDue (s : State) : Bool :=
  let t := s.time10
  let v := s.speedAt t
  !s.flag F.odoStsStandstill 0
    && decide (0 ≤ 2 * (s.along (s.est t) - s.gridPos s.dev.odo.next * 65536) * v.2 + s.along v.1 * (400 + s.exposure))

/-- A tick at which the next grid position may fall due (R192, R212, R213, R217). -/
def State.lineTrigger (s : State) : State :=
  if s.sys.op ≠ .run ∨ s.flag F.odoStsBackward 0 = true ∨ s.lineDue = false then s
  else
    let i := s.dev.odo.next
    let s1 := s.onOdo fun o => { o with next := i + s.gridStep }
    if s.gapRule then s1.loseLine 0x41 (s.gridPos i) s.tag
    else if s.noClock then s1.dropTrigger i
    else
      let early := match s.dev.lin.lastTrig with
        | some t => decide (s.dev.time.c < t + s.tmin)
        | none => false
      if s.dev.lin.held.isSome then s1.loseHeld.onLin fun x => { x with held := some i }
      else if early then s1.onLin fun x => { x with held := some i }
      else s1.acceptTrigger i

/-- T_min has passed for a held trigger (R213); while the GAP rule stops lines its position is lost (R217). -/
def State.triggerRelease (s : State) : State :=
  match s.dev.lin.held with
  | none => s
  | some i =>
    let s1 := s.onLin fun x => { x with held := none }
    if s.sys.op ≠ .run ∨ s.flag F.odoStsBackward 0 = true then s1
    else if s.gapRule then s.loseHeld
    else if s.noClock then s1.dropTrigger i
    else s1.acceptTrigger i

/-- The start pulse of a segment (R188, R191, R194, R196, R198): the exposure ends, the readout starts, held settings and a
committed table apply, and with a new BANK the line periods follow (R192). `cur` gives the strobes measured that end with
it. -/
def State.startPulse (s : State) (n : Nat) (cur : List (Nat × Nat)) : State :=
  match s.dev.lin.lines.find? fun l => l.waits.contains n with
  | none => s
  | some l =>
    if !s.inOp [.init, .ready, .run] || !s.inForceFlag F.linSegCtlEn n then s
    else
      let s1 := s.settleLines
      let copy := s.flag F.linShadeStgPend 0 && decide (s.fld F.linShadeStgOwner 0 = n)
      let s2 := s1.onLin fun x => { x with lines := mapFirst (fun k => decide (k.id = l.id)) (fun k => { k with
        waits := k.waits.filter (· ≠ n), reads := k.reads ++ [n], fresh := k.fresh || copy }) x.lines }
      let s3 := (s2.applySeg n).emit (.pin 5 n 1)
      let s4 := if s3.inForce F.linSegCtlBank n = s.inForce F.linSegCtlBank n then s3 else s3.refreshTiming
      let s5 := if copy then s4.shadeCopy n else s4
      cur.foldl (fun t p => t.strobeMeasured p.1 p.2) s5

/-! START and the end of RUN (R208, R212, R215, R219, R243). -/

/-- START for the imaging path. -/
def State.startImaging (s : State) : State :=
  let s0 := (s.applyReg .linAsmCtl 0).dropLines fun _ => true
  let p := s0.pos
  let now := s0.time10
  let s1 := (s0.setPair .odoPosLo .odoPosHi 0 0).onOdo fun o => { o with
    counts := o.counts.map fun q => (q.1, q.2 - p) }
  let u := s1.along (s1.est now)
  let s2 := s1.onOdo fun o => { o with
    u0 := divRound u 65536, next := 1, high := none, uMax := u, uMin := u, seam := false, wide := false, turned := false }
  let s3 := [F.odoStsBackward, F.odoStsSuppress, F.odoStsOverspeed, F.odoStsAlong2, F.odoStsStall, F.odoStsRestart].foldl
    (fun t f => t.setFlag f 0 false) s2
  let s4 := (s3.setPair .odoHighLo .odoHighHi 0 0).setReg .linHoodNum 0 0
  let s5 := s4.onLin fun x => { x with
    lastTrig := none, held := none, hood := none, closed := 3, hood0 := none, fresh := none, gaps := [], pair := none
    pairing := false, lastU := none, lastPitch := 0, fifo := [], marks := [] }
  let s6 := s5.segments.foldl (fun t n => if (t.seg n).dirty then t.nextGen n else t) s5
  let s7 := (List.range 4).foldl (fun t n =>
    (t.setTrk n { t.trk n with past := [], ang := none }).setReg .linTrkAng n 0x80000000) (s6.clearAligner 0)
  ((s7.judgeSpeed).followStall).driveCarriage

/-- The imaging path stops as the device leaves RUN: lines in flight are not recorded, a back-up ends, held settings
apply. -/
def State.stopImaging (s : State) : State :=
  let s1 := (s.dropLines fun _ => true).onLin fun x => { x with
    held := none, gaps := [], pair := none, pairing := false, fifo := [], marks := [] }
  let s2 := ((s1.setFlag F.odoStsRestart 0 false).setFlag F.odoStsStall 0 false).showAlong
  ((List.range 24).foldl (fun t n => t.applySeg n) (s2.applyReg .linAsmCtl 0)).refreshTiming.driveCarriage

/-! Rules on the settings (R208, R214, R219). -/

/-- R208: SCALE and CAR_SCALE are not 0. -/
def State.scalesOk (s : State) : Bool :=
  ((List.range 4).all fun n => decide (s.fld F.odoInScaleScale n ≠ 0)) && decide (s.fld F.odoCarScaleCarScale 0 ≠ 0)

/-- R214: REV_HYST is at least max(S_row + P, 2 × scale of the source). -/
def State.hystOk (s : State) : Bool :=
  decide (s.spread + s.pitch ≤ s.fld F.odoRevHystRevHyst 0)
    && decide (2 * s.countScale ≤ s.fld F.odoRevHystRevHyst 0 * 65536)

/-- R219: is d_acc at most `um` µm? -/
def State.accWithin (s : State) (um : Int) : Bool :=
  let k := s.fld F.odoCarCtlCarLoop 0
  let v := s.fld F.odoCarSpeedCarSpeed 0
  let a := s.reg .loopAlim k
  let j := s.reg .loopJlim k
  let sc := s.fld F.odoCarScaleCarScale 0
  if a = 0 then decide (0 ≤ um)
  else if j = 0 then decide ((v * v * sc : Int) ≤ um * 65536 * (2 * a))
  else if a * a ≤ v * j then decide ((v * (v * j + a * a) * sc : Int) ≤ um * 65536 * (2 * a * j))
  else decide (0 ≤ um) && decide ((v * v * v * sc * sc : Int) ≤ (um * 65536) * (um * 65536) * j)

/-- R219: the carriage loop's settings, CAR_SPEED below the limit, OVERTRAVEL long enough. -/
def State.carriageOk (s : State) : Bool :=
  if s.flag F.odoSrcKind 0 then
    let k := s.fld F.odoCarCtlCarLoop 0
    let x := s.fld F.odoCarCtlCarAxis 0
    decide (s.fld F.loopSrcTgtKind k = 1) && decide (s.fld F.loopSrcTgtIdx k = x)
      && decide (s.fld F.loopSaxCtlMode x = 3) && decide (s.fld F.loopSrcFbKind k = 2)
      && decide (s.fld F.loopSrcFbIdx k = x) && decide (s.fld F.loopCtlRampMode k = 1)
      && decide (s.fld F.odoCarSpeedCarSpeed 0 * s.fld F.odoCarScaleCarScale 0 * s.devTmin * 20
          < 19 * s.fld F.odoPitchPitch 0 * 65536 * 1000000000)
      && s.accWithin ((s.fld F.odoCarOverOvertravel 0 : Int) - s.fld F.odoRevHystRevHyst 0 - s.spread)
  else true

/-- ODOMETRY_COUNT of an input: its accepted levels. -/
def execOdometryCount (n : Fin 4) (a b : Bool) (s : State) : Host.Outcome State Fault Refusal :=
  .next (inDev (State.odometryCount · n a b) s)

/-- ENCODER_EDGE of a scan-axis port: its sampled levels. -/
def execEncoderEdge (port : Fin 4) (a b : Bool) (s : State) : Host.Outcome State Fault Refusal :=
  .next (inDev (State.encoderEdge · port a b) s)

/-- SLIP_CHECK. -/
def execSlipCheck (s : State) : Host.Outcome State Fault Refusal := .next (inDev State.slipCheck s)

/-- STANDSTILL. -/
def execStandstill (s : State) : Host.Outcome State Fault Refusal := .next (inDev State.standstill s)

/-- LINE_TRIGGER. -/
def execLineTrigger (s : State) : Host.Outcome State Fault Refusal := .next (inDev State.lineTrigger s)

/-- TRIGGER_RELEASE. -/
def execTriggerRelease (s : State) : Host.Outcome State Fault Refusal := .next (inDev State.triggerRelease s)

/-- START_PULSE of a segment, with the strobes measured. -/
def execStartPulse (seg : Fin 24) (cur : List (Fin 12 × BitVec 21)) (s : State) : Host.Outcome State Fault Refusal :=
  .next (inDev (State.startPulse · seg (cur.map fun p => (p.1.val, p.2.toNat))) s)

end Sys2Proof.Machine
end

