-- ==== Sys2Proof/Machine/Assembly.lean ====
section
/-! DEFINITION. The stitched line (R222 to R227): the conformateur trackers, binning and packing, flags, hoods, gap records
and line records. -/
namespace Sys2Proof.Machine

/-! The conformateur (R224 to R226). -/

/-- Four times the luminance of every pixel of a line (R224). -/
def luminance (rows : List (List Nat)) : Array Int :=
  (List.zipWith (fun (rg : Nat × Nat) b => ((rg.1 + 2 * rg.2 + b : Nat) : Int))
    ((rows.getD 0 []).zip (rows.getD 1 [])) (rows.getD 2 [])).toArray

/-- The luminance at a pixel; outside the line, that of the nearest pixel. -/
def lumAt (y : Array Int) (p : Int) : Int := y.getD (clampI 0 (y.size - 1 : Nat) p).toNat 0

/-- The gradient at a pixel (R224), four times. -/
def gradient (y : Array Int) (pol : Bool) (p : Int) : Int :=
  let g := lumAt y (p + 2) - lumAt y (p - 2)
  if pol then -g else g

/-- Is pixel `p` an edge? -/
def isEdge (y : Array Int) (pol : Bool) (th : Nat) (p : Int) : Bool :=
  let g := gradient y pol p
  decide (4 * (th : Int) ≤ g) && decide (gradient y pol (p - 1) ≤ g) && decide (gradient y pol (p + 1) < g)

/-- The position of an edge in 1/16 pixel (R224), rounded to the nearest. -/
def edgePos (y : Array Int) (pol : Bool) (p : Int) : Int :=
  let a := gradient y pol (p - 1)
  let c := gradient y pol (p + 1)
  let den := a - 2 * gradient y pol p + c
  if den = 0 then 16 * p + 8
  else 16 * p + 8 + (if den < 0 then divAway (-(8 * (a - c))) den.natAbs else divAway (8 * (a - c)) den.natAbs)

/-- The first edge of a window, LO to HI (R224). Beyond the pixel after the line's last every pixel reads as that last one:
the gradient is 0 and no edge lies there. -/
def findEdge (y : Array Int) (pol : Bool) (th lo hi : Nat) : Option Int :=
  ((List.range (min hi y.size + 1 - lo)).find? fun (k : Nat) => isEdge y pol th ((lo + k : Nat) : Int)).map
    fun k => edgePos y pol ((lo + k : Nat) : Int)

/-- The edge of line k − N among past lines, newest first: N lines back at that distance on the grid, with no cut between
(R225). -/
def edgeBefore (past : List (Int × Nat × Option Int)) (n : Nat) (l : Line) : Option Int :=
  match past[n - 1]? with
  | some (g, c, some x) => if g + n * l.pitch = l.grid ∧ c = l.cut then some x else none
  | _ => none

/-- Terms of Euler's series for the arc tangent of n / d with |n| ≤ d, in 2^-80. -/
def atanTerms (num den : Int) : Nat → Int → Nat → Int
  | 0, _, _ => 0
  | fuel + 1, term, k =>
    term + atanTerms num den fuel (term * (2 * (k + 1)) * num * num / ((2 * k + 3) * (num * num + den * den))) (k + 1)

/-- The arc tangent of n / d for 0 ≤ n ≤ d, 0 < d, in 2^-80. -/
def atanUnit (n d : Int) : Int := atanTerms n d 100 (2 ^ 80 * n * d / (n * n + d * d)) 0

/-- The arc tangent of a / b (0 < b) in µrad, rounded to the nearest (R225). -/
def atanMicro (a : Int) (b : Nat) : Int :=
  let n : Int := a.natAbs
  let v := if n ≤ b then atanUnit n b else 2 * atanUnit 1 1 - atanUnit b n
  let r := divAway (v * 1000000) (2 ^ 80)
  if a < 0 then -r else r

/-- theta of R225: dx over N_ANG lines at a pitch; dx is in 1/16 pixel. -/
def skew (dx : Int) (pixPitch n pitch : Nat) : Int := atanMicro (dx * pixPitch) (4096 * n * pitch)

/-- A tracker reports the lost value of its two sources (R226). -/
def State.trackerLost (s : State) (n time : Nat) : State :=
  let s1 := ((s.setFlag F.linTrkStsLost n true).setReg .linTrkPos n 0xFFFFFFFF).setReg .linTrkAng n 0x80000000
  (s1.changeForced (0x400 + 2 * n) 0x10 0xFFFFFFFF true time).changeForced (0x401 + 2 * n) 0x11 0x80000000 true time

/-- A tracker's window of a line: its own where it has moved, else LO and HI. -/
def State.trackerWindow (s : State) (n : Nat) : Nat × Nat :=
  ((s.trk n).win).getD (s.fld F.linTrkWinLo n, s.fld F.linTrkWinHi n)

/-- One tracker works on a line (R224 to R226). -/
def State.track (s : State) (n : Nat) (y : Array Int) (l : Line) : State :=
  let x := s.trk n
  let w := s.trackerWindow n
  let span := s.fld F.linTrkDeadNAng n
  match findEdge y (s.flag F.linTrkCtlPol n) (s.fld F.linTrkCtlEdgeTh n) w.1 w.2 with
  | none =>
    let miss := x.miss + 1
    let x1 := { x with miss := miss, past := ((l.grid, l.cut, none) :: x.past).take 255 }
    if s.fld F.linTrkCtlLostLines n ≤ miss ∧ s.flag F.linTrkStsLost n = false then
      (s.setTrk n { x1 with win := none, pos := none, ang := none }).trackerLost n l.time
    else s.setTrk n x1
  | some e =>
    let s1 := (s.setFlag F.linTrkStsLost n false).setReg .linTrkPos n (unsigned 32 e)
    let win := if s.flag F.linTrkCtlFollow n then
        let wide := w.2 - w.1
        let lo := (clampI 0 (y.size - 1 - wide : Nat) (e / 16 - wide / 2)).toNat
        some (lo, lo + wide)
      else none
    let recPos := match x.pos with
      | some p => decide (s.fld F.linTrkDeadDeadPos n ≤ (e - p).natAbs)
      | none => true
    let theta := (edgeBefore x.past span l).map fun e0 => skew (e - e0) (s.fld F.linAsmPixPixPitch 0) span l.pitch
    let recAng := match theta, x.ang with
      | some t, some a => decide (100 * s.fld F.linTrkDeadDeadAng n ≤ (t - a).natAbs)
      | some _, none => true
      | none, _ => false
    let s2 := s1.setTrk n { x with
      miss := 0, win := win, past := ((l.grid, l.cut, some e) :: x.past).take 255
      pos := if recPos then some e else x.pos, ang := if recAng then theta else x.ang }
    let s3 := match theta with
      | some t => s2.setReg .linTrkAng n (unsigned 32 t)
      | none => s2
    let s4 := if recPos then s3.changeForced (0x400 + 2 * n) 0x10 (unsigned 32 e) false l.time else s3
    match theta, recAng with
    | some t, true => s4.changeForced (0x401 + 2 * n) 0x11 (unsigned 32 t) false l.time
    | _, _ => s4

/-- The enabled trackers work on a line. -/
def State.trackAll (s : State) (rows : List (List Nat)) (l : Line) : State :=
  let y := luminance rows
  (List.range 4).foldl (fun t n => if t.flag F.linTrkCtlEn n then t.track n y l else t) s

/-! Binning and packing (R222, R242). -/

/-- Means over groups of `k` pixels, rounded to the nearest with ties upward. -/
def binRow (k : Nat) : Nat → List Nat → List Nat
  | 0, _ => []
  | f + 1, l =>
    match l with
    | [] => []
    | _ =>
      let g := l.take k
      (2 * g.foldl (· + ·) 0 + g.length) / (2 * g.length) :: binRow k f (l.drop k)

/-- Red, green and blue of every output pixel in turn. -/
def interleave (r g b : List Nat) : List Nat :=
  (r.zip (g.zip b)).flatMap fun p => [p.1, p.2.1, p.2.2]

/-- The samples of a line after cross-track binning. -/
def State.binLine (s : State) (rows : List (List Nat)) : List Nat :=
  let k := s.inForce F.linAsmCtlBinX 0 + 1
  let row (n : Nat) := binRow k (rows.getD n []).length (rows.getD n [])
  interleave (row 0) (row 1) (row 2)

/-- Samples packed by FORMAT. -/
def packPixels (fmt : Nat) (l : List Nat) : List Byte :=
  match fmt with
  | 0 => l.map fun v => BitVec.ofNat 8 (min 65535 (v + 0x80) / 256)
  | 1 => pack12 (l.map fun v => min 65535 (v + 8) / 16)
  | _ => l.flatMap fun v => leBytes 2 v

/-! Hoods (R227, R243). -/

/-- The MODE byte of a hood header: the assembly settings in force. -/
def State.hoodMode (s : State) : Nat :=
  packBits [(2, s.inForce F.linAsmCtlBinX 0), (2, s.inForce F.linAsmCtlFormat 0), (1, s.fld F.odoMotionDir 0),
    (1, s.inForce F.linAsmCtlPolicy 0)]

/-- The bytes of a hood header or closing header. -/
def State.hoodHeader (s : State) (h : Hood) (time flags : Nat) (start : Int) : List Byte :=
  let segs := s.segments
  let k := s.inForce F.linAsmCtlBinX 0 + 1
  hoodBytes { time := time, hood := h.num, hflags := flags, mode := s.hoodMode, start := start
              pitch := s.fld F.odoPitchPitch 0, len := s.fld F.linHoodLenLen 0
              width := (s.lineWidth + k - 1) / k
              warm := (List.range 12).foldl (fun t b => t + s.fld F.linBankStsWarm b * 2 ^ b) 0
              segs := segs.foldl (fun t n => t + 2 ^ n) 0
              shadeGen := (List.range 24).map fun n => (s.seg n).gen }

/-- HFLAGS of a hood's header: FIRST, and why the previous hood closed. -/
def State.hoodFlags (s : State) (h : Hood) : Nat := 2 * b2n (decide (h.num = 0)) + 8 * s.dev.lin.closed

/-- A hood opens at a grid position: the settings held for a hood boundary apply; the answer gives its header. -/
def State.openHood (s : State) (start : Int) (time closed : Nat) : List Byte × State :=
  let h : Hood := { num := s.reg .linHoodNum 0, start := start, time := time
                    stop := start + s.fld F.linHoodLenLen 0 * 1000000
                    lastPos := (s.dev.lin.hood.map (·.lastPos)).getD start }
  let s1 := ((s.applyReg .linAsmCtl 0).bump F.linHoodNumCount 0 1).onLin fun x => { x with
    hood := some h, closed := closed
    hood0 := if x.hood0.isNone then some start else x.hood0
    fresh := x.fresh.filter fun p => decide (start < p.1) }
  (s1.hoodHeader h time (s1.hoodFlags h) start, s1)

/-- Hoods close and open until the open one holds grid position `g` (R227). -/
def reachHood (g : Int) (time : Nat) : Nat → List (List Byte) × State → List (List Byte) × State
  | 0, p => p
  | f + 1, (l, s) =>
    match s.dev.lin.hood with
    | none => let r := s.openHood g time 3; (l ++ [r.1], r.2)
    | some h =>
      match s.dev.lin.fresh with
      | some (at', why) =>
        if at' ≤ g ∧ at' < h.stop then
          let r := s.openHood at' time why
          reachHood g time f (l ++ [r.1], r.2)
        else if h.stop ≤ g then let r := s.openHood h.stop time 0; reachHood g time f (l ++ [r.1], r.2)
        else (l, s)
      | none =>
        if h.stop ≤ g then let r := s.openHood h.stop time 0; reachHood g time f (l ++ [r.1], r.2)
        else (l, s)

/-- How many hoods may have to open to reach a grid position. -/
def State.hoodFuel (s : State) (g : Int) : Nat := s.hoodOf g + 3

/-! Gap records of lines (R221). -/

/-- The lost distances of the losses, in µm: the way from the last recorded line to the first after the gap, less the pitch,
cut at the hood boundaries that the gap crosses (log entry 16). With no line recorded before, the spec states none. -/
def gapDistances (last : Int) (pitch : Int) (cuts : List Int) (fin : Int) : List Int :=
  match cuts with
  | [] => [fin - last - pitch]
  | c :: cs => (c - last - pitch) :: gapDistances c 0 cs fin

/-- The losses before grid position `g` become gap records, each in its hood; the answer gives the records with the headers
they need. `u` is where the line at `g` was taken. -/
def State.lineGaps (s : State) (g u : Int) : List (List Byte) × State :=
  let due := s.dev.lin.gaps.filter fun p => decide (p.first < g)
  let gs := joinGaps s.hoodOf ((due.head?.map (·.reason)).getD 0) due
  if gs.isEmpty then ([], s)
  else
    let free := s.draw
    let dists := match s.dev.lin.lastU with
      | some v => gapDistances v s.dev.lin.lastPitch (gs.tail.map (·.first)) u
      | none => gs.map fun _ => signed 64 (Config.unstated free.1).toNat
    let s0 := if s.dev.lin.lastU.isNone then free.2 else s
    let r := (gs.zip dists).foldl (fun (p : List (List Byte) × State) q =>
      let h := if p.2.dev.lin.hood.isNone then p else reachHood q.1.first q.1.time (p.2.hoodFuel q.1.first) p
      (h.1 ++ [gapBytes ⟨q.1.time, q.1.lost, 0xFFFF, q.1.reason, q.2, false⟩],
        h.2.bump F.linGapLinesCount 0 q.1.lost)) ([], s0)
    (r.1, r.2.onLin fun x => { x with gaps := x.gaps.filter fun p => !decide (p.first < g) })

/-! The line record (R223, R242). -/

/-- Is the carriage's speed off by more than 1 % (R220)? -/
def State.offSpeed (s : State) : Bool :=
  let v := s.speedAt s.time10
  let want := s.fld F.odoCarSpeedCarSpeed 0 * s.fld F.odoCarScaleCarScale 0
  decide (want * v.2 < 100 * ((v.1.natAbs * 1000000000 : Int) - want * v.2).natAbs)

/-- A line to be recorded: its POSITION in µm, flags and binned samples, and the second of the two lines it stands for as a
pair (R218). -/
structure OutLine where
  line : Line
  mate : Option Line := none
  pos : Int
  along2 : Bool
  samples : List Nat

/-- The FLAGS of a line record (R223). -/
def State.lineFlags (s : State) (o : OutLine) (seam : Bool) : Nat :=
  packBits [(1, b2n seam), (1, b2n o.along2), (1, b2n (seam && s.flag F.odoSrcKind 0 && s.offSpeed)),
    (1, b2n o.line.suspect), (1, b2n o.line.cold), (1, b2n o.line.cover), (1, b2n o.line.ovr)]

/-- A hood whose DELTA_US would overflow closes short at the line before (R242). -/
def State.deltaLimit (s : State) (l : Line) : State :=
  match s.dev.lin.hood with
  | some h =>
    if 2 ^ 32 ≤ (l.time - h.time) / 1000 ∧ l.grid < h.stop then
      s.onLin fun x => { x with fresh := some (x.fresh.getD (l.grid, 2)) }
    else s
  | none => s

/-- The records a line makes: gap records of the losses before it, hood headers, and the line (R221, R227, R242). Where
the first hood after START opens, its header stands first. -/
def State.lineRecords (s : State) (o : OutLine) : List (List Byte) × State :=
  let l := o.line
  let u := s.along o.pos
  let first := if s.dev.lin.hood.isNone then reachHood l.grid l.time 1 ([], s) else ([], s)
  let gaps := first.2.lineGaps l.grid u
  let s1 := gaps.2.deltaLimit l
  let hoods := reachHood l.grid l.time (s1.hoodFuel l.grid) (first.1 ++ gaps.1, s1)
  let t := hoods.2
  let seam := t.dev.odo.seam
  let base := match t.dev.lin.hood with | some h => h.time | none => l.time
  let rec' := lineHeaderBytes o.pos (t.lineFlags o seam) ((l.time - base) / 1000) ((l.time - base) % 1000)
    ++ packPixels (t.inForce F.linAsmCtlFormat 0) o.samples
  (hoods.1 ++ [rec'], t)

/-- A line has been recorded: H, the seam and the counters follow (R215, R220). -/
def State.lineDone (s : State) (o : OutLine) : State :=
  let l := o.line
  let high := match o.mate with | some b => b.grid | none => l.grid
  let s1 := (s.bump F.linLineCntCount 0 1).setPair .odoHighLo .odoHighHi 0 (unsigned 64 high)
  let s2 := s1.onLin fun x => { x with
    lastU := some (s.along o.pos), lastPitch := l.pitch, hood := x.hood.map fun h => { h with lastPos := o.pos } }
  let seam := s.dev.odo.seam
  let s3 := s2.onOdo fun d => { d with high := some high, seam := false }
  if seam then
    let s4 := s3.bump F.odoSeamCntCount 0 1
    if s4.flag F.odoStsRestart 0 then ((s4.setFlag F.odoStsRestart 0 false).followStall).driveCarriage else s4
  else s3

/-- Where the record written last stands in its ring, for the marks of the odometry interval (R209). -/
def State.markLine (s : State) (n : Nat) (rec' : List Byte) (l : Line) : State :=
  if s.dev.odo.slipAt ≤ l.trig then
    let m := s.ringSize n
    s.onLin fun x => { x with marks := (n, (s.reg .acqStrWr n + m - (pad8 rec').length % m) % m) :: x.marks }
  else s

/-- A line enters the line stream as one unit (R231, R235); where it does not fit, every grid position it stands for is
lost. -/
def State.recordLine (s : State) (o : OutLine) : State :=
  let r := s.lineRecords o
  match s.lineStream with
  | none => r.2.lineDone o
  | some n =>
    if s.fits n r.1 then ((r.2.putUnit n r.1).markLine n (r.1.getLastD []) o.line).lineDone o
    else
      let s1 := (s.setFlag F.acqStrStsFull n true).loseLine 0x40 o.line.grid o.line.time
      match o.mate with
      | some b => s1.loseLine 0x40 b.grid b.time
      | none => s1

/-- Marks of records that RD has passed go (R209, R233). -/
def State.pruneMarks (s : State) (n : Nat) : State :=
  let m := s.ringSize n
  let kept (p : Nat × Nat) : Bool := decide (p.1 ≠ n) || decide ((p.2 + m - s.reg .acqStrRd n % m) % m < s.fill n)
  s.onLin fun x => { x with marks := x.marks.filter kept }

/-- POSITION of a line in µm (R212). -/
def Line.micro (l : Line) : Int := divRound (l.pos.getD 0) 65536

/-- Is a line the first of a new hood (R227, R242)? -/
def State.opensHood (s : State) (l : Line) : Bool :=
  decide (s.hoodOf l.grid ≠ 0) || (match s.dev.lin.hood with
    | some h => decide (2 ^ 32 ≤ (l.time - h.time) / 1000)
    | none => true)

/-- The first line of a hood is offered under the settings held for the hood's start (R222); the second of a pair goes with
its first. -/
def State.hoodSettings (s : State) (l : Line) : State :=
  if s.opensHood l && !(s.dev.lin.pair.isSome && decide (l.idx % 2 = 1)) then s.applyReg .linAsmCtl 0 else s

/-- A recordable line under the stall policies (R218): recorded alone, as half of a pair, or lost. -/
def State.offerLine (s0 : State) (l : Line) (rows : List (List Nat)) : State :=
  let s := s0.hoodSettings l
  let samples := s.binLine rows
  let stall := s.flag F.odoStsStall 0 && !s.flag F.odoSrcKind 0
  let alone : OutLine := { line := l, pos := l.micro, along2 := decide (l.pitch ≠ s.fld F.odoPitchPitch 0), samples := samples }
  if !s.inForceFlag F.linAsmCtlPolicy 0 && stall then s.loseLine 0x40 l.grid l.time
  else if s.dev.odo.wide || !s.inForceFlag F.linAsmCtlPolicy 0 then s.recordLine alone
  else
    let start := stall && decide (l.idx % 2 = 0)
    let s1 := if start && !s.dev.lin.pairing then (s.onLin fun x => { x with pairing := true }).showAlong else s
    if !s1.dev.lin.pairing then s1.recordLine alone
    else if l.idx % 2 = 0 then (s1.dropPair).onLin fun x => { x with pair := some (l, samples) }
    else match s1.dev.lin.pair with
      | some (a, sa) =>
        if a.idx + 1 = l.idx then
          let both : OutLine :=
            { line := { a with ovr := a.ovr || l.ovr, cover := a.cover || l.cover, cold := a.cold || l.cold
                               suspect := a.suspect || l.suspect, fresh := a.fresh || l.fresh }
              mate := some l, pos := divRound (a.micro + l.micro) 2, along2 := true
              samples := List.zipWith (fun p q => (p + q + 1) / 2) sa samples }
          let s2 := (s1.onLin fun x => { x with pair := none }).recordLine both
          if stall then s2 else (s2.onLin fun x => { x with pairing := false }).showAlong
        else s1.dropPair.loseLine 0x40 l.grid l.time
      | none => s1.loseLine 0x40 l.grid l.time

/-- The core side takes a line of the track (R215, R218, R224): one that still lies beyond H goes to the trackers and to the
line assembly. -/
def State.takeLine (s : State) (l : Line) (rows : List (List Nat)) : State :=
  if match s.dev.odo.high with | some h => decide (h < l.grid) | none => true then
    ((s.trackAll rows l).offerLine l rows).followStall
  else s

/-- The core side takes what waits in the line FIFO, in order (R24). -/
def State.drainFifo (s : State) : State :=
  s.dev.lin.fifo.foldl (fun t p => t.takeLine p.1 p.2) (s.onLin fun x => { x with fifo := [] })

/-- A finished line of the track reaches the line FIFO (R24): with `lag` the core side is behind and the line waits, lost
where 8 lines wait already; otherwise all that waits is taken, and then this line. -/
def State.enqueueLine (s : State) (l : Line) (rows : List (List Nat)) (lag : Bool) : State :=
  if lag then
    if 8 ≤ s.dev.lin.fifo.length then s.loseLine 0x43 l.grid l.time
    else s.onLin fun x => { x with fifo := x.fifo ++ [(l, rows)] }
  else s.drainFifo.takeLine l rows

/-- A stitched line leaves the stitcher (R202, R215, R218, R224): `lag` says that the core side is behind (R24), `bad` that
a word of the line read uncorrectable (R273). -/
def State.stitchedLine (s : State) (lag bad : Bool) : State :=
  match s.dev.lin.lines.find? fun l => decide (l.kind = 0) && l.waits.isEmpty && l.reads.isEmpty with
  | none => s
  | some l0 =>
    let s0 := s.settleLines
    let l := (s0.dev.lin.lines.find? fun k => decide (k.id = l0.id)).getD l0
    let s1 := s0.onLin fun x => { x with
      lines := x.lines.filter fun k => decide (k.id ≠ l.id)
      fresh := if l.fresh && x.fresh.isNone then some (l.grid, 1) else x.fresh }
    let s2 := if bad then s1.sramUe 1 else s1
    if s2.sys.op ≠ .run then s2
    else if l.prime then
      if s2.dev.lin.primeReason = 0 then s2 else s2.loseLine s2.dev.lin.primeReason l.grid l.time
    else if bad || l.dropped then s2.loseLine 0x43 l.grid l.time
    else if l.record then s2.enqueueLine l (s2.stitch l) lag
    else s2

/-- The closing header of the open hood (R243). -/
def State.closingHeader (s : State) : List (List Byte) :=
  match s.dev.lin.hood with
  | some h => [s.hoodHeader h s.tag (1 + s.hoodFlags h) h.lastPos]
  | none => []

/-- The losses not yet recorded when the lines end (R221): their gap records, each behind the headers of the hoods it opens.
No line follows, so the distance of the last is unstated (log entry 6). -/
def State.endGaps (s : State) : List (GapRec ⊕ List Byte) × State :=
  let gs := joinGaps s.hoodOf ((s.dev.lin.gaps.head?.map (·.reason)).getD 0) s.dev.lin.gaps
  if gs.isEmpty then ([], s)
  else
    let free := s.draw
    let last := signed 64 (Config.unstated free.1).toNat
    let dists := match s.dev.lin.lastU with
      | some v => (gapDistances v s.dev.lin.lastPitch (gs.tail.map (·.first)) 0).dropLast ++ [last]
      | none => gs.map fun _ => last
    let r := (gs.zip dists).foldl (fun (p : List (GapRec ⊕ List Byte) × State) q =>
      let h := if p.2.dev.lin.hood.isNone then ([], p.2) else reachHood q.1.first q.1.time (p.2.hoodFuel q.1.first) ([], p.2)
      (p.1 ++ h.1.map .inr ++ [.inl ⟨q.1.time, q.1.lost, 0xFFFF, q.1.reason, q.2, true⟩],
        h.2.bump F.linGapLinesCount 0 q.1.lost)) ([], free.2)
    (r.1, r.2.onLin fun x => { x with gaps := [] })

/-- What a closing line stream writes: its losses and the closing header (R39, R243, R457). -/
def State.lineEnd (s : State) : List (GapRec ⊕ List Byte) × State :=
  let r := s.endGaps
  (r.1 ++ r.2.closingHeader.map .inr, r.2)

/-- The header a line stream turned on in mid-hood begins with (R243). -/
def State.joinHeader (s : State) : List (List Byte) :=
  match s.dev.lin.hood with
  | some h => [s.hoodHeader h h.time (4 + s.hoodFlags h) h.start]
  | none => []

/-- STITCHED_LINE. -/
def execStitchedLine (lag bad : Bool) (s : State) : Host.Outcome State Fault Refusal :=
  .next (inDev (State.stitchedLine · lag bad) s)

end Sys2Proof.Machine
end

