-- ==== Sys2Proof/Machine/Crypto.lean ====
section
/-! DEFINITION. SHA-512 and RSASSA-PSS to RFC 8017 with an RSA-4096 key, exponent 65537, SHA-512, MGF1 with SHA-512 and a
salt of 64 bytes (R375). Byte strings of keys and signatures are most significant byte first. -/
namespace Sys2Proof

/-! SHA-512. -/

/-- Round constants 0 to 7. -/
def shaK0 : List Nat :=
  [0x428a2f98d728ae22, 0x7137449123ef65cd, 0xb5c0fbcfec4d3b2f, 0xe9b5dba58189dbbc,
   0x3956c25bf348b538, 0x59f111f1b605d019, 0x923f82a4af194f9b, 0xab1c5ed5da6d8118]

/-- Round constants 8 to 15. -/
def shaK1 : List Nat :=
  [0xd807aa98a3030242, 0x12835b0145706fbe, 0x243185be4ee4b28c, 0x550c7dc3d5ffb4e2,
   0x72be5d74f27b896f, 0x80deb1fe3b1696b1, 0x9bdc06a725c71235, 0xc19bf174cf692694]

/-- Round constants 16 to 23. -/
def shaK2 : List Nat :=
  [0xe49b69c19ef14ad2, 0xefbe4786384f25e3, 0x0fc19dc68b8cd5b5, 0x240ca1cc77ac9c65,
   0x2de92c6f592b0275, 0x4a7484aa6ea6e483, 0x5cb0a9dcbd41fbd4, 0x76f988da831153b5]

/-- Round constants 24 to 31. -/
def shaK3 : List Nat :=
  [0x983e5152ee66dfab, 0xa831c66d2db43210, 0xb00327c898fb213f, 0xbf597fc7beef0ee4,
   0xc6e00bf33da88fc2, 0xd5a79147930aa725, 0x06ca6351e003826f, 0x142929670a0e6e70]

/-- Round constants 32 to 39. -/
def shaK4 : List Nat :=
  [0x27b70a8546d22ffc, 0x2e1b21385c26c926, 0x4d2c6dfc5ac42aed, 0x53380d139d95b3df,
   0x650a73548baf63de, 0x766a0abb3c77b2a8, 0x81c2c92e47edaee6, 0x92722c851482353b]

/-- Round constants 40 to 47. -/
def shaK5 : List Nat :=
  [0xa2bfe8a14cf10364, 0xa81a664bbc423001, 0xc24b8b70d0f89791, 0xc76c51a30654be30,
   0xd192e819d6ef5218, 0xd69906245565a910, 0xf40e35855771202a, 0x106aa07032bbd1b8]

/-- Round constants 48 to 55. -/
def shaK6 : List Nat :=
  [0x19a4c116b8d2d0c8, 0x1e376c085141ab53, 0x2748774cdf8eeb99, 0x34b0bcb5e19b48a8,
   0x391c0cb3c5c95a63, 0x4ed8aa4ae3418acb, 0x5b9cca4f7763e373, 0x682e6ff3d6b2b8a3]

/-- Round constants 56 to 63. -/
def shaK7 : List Nat :=
  [0x748f82ee5defb2fc, 0x78a5636f43172f60, 0x84c87814a1f0ab72, 0x8cc702081a6439ec,
   0x90befffa23631e28, 0xa4506cebde82bde9, 0xbef9a3f7b2c67915, 0xc67178f2e372532b]

/-- Round constants 64 to 71. -/
def shaK8 : List Nat :=
  [0xca273eceea26619c, 0xd186b8c721c0c207, 0xeada7dd6cde0eb1e, 0xf57d4f7fee6ed178,
   0x06f067aa72176fba, 0x0a637dc5a2c898a6, 0x113f9804bef90dae, 0x1b710b35131c471b]

/-- Round constants 72 to 79. -/
def shaK9 : List Nat :=
  [0x28db77f523047d84, 0x32caab7b40c72493, 0x3c9ebe0a15c9bebc, 0x431d67c49c100d4c,
   0x4cc5d4becb3e42b6, 0x597f299cfc657e2a, 0x5fcb6fab3ad6faec, 0x6c44198c4a475817]

/-- The 80 round constants. -/
def shaK : List Nat := shaK0 ++ shaK1 ++ shaK2 ++ shaK3 ++ shaK4 ++ shaK5 ++ shaK6 ++ shaK7 ++ shaK8 ++ shaK9

/-- The initial hash value. -/
def shaInit : List Nat :=
  [0x6a09e667f3bcc908, 0xbb67ae8584caa73b, 0x3c6ef372fe94f82b, 0xa54ff53a5f1d36f1,
   0x510e527fade682d1, 0x9b05688c2b3e6c1f, 0x1f83d9abfb41bd6b, 0x5be0cd19137e2179]

/-- A 64-bit rotation to the right. -/
def rotr64 (x n : Nat) : Nat := x / 2 ^ n + x % 2 ^ n * 2 ^ (64 - n)

/-- The schedule's functions sigma 0 and 1, and the rounds' Sigma 0 and 1. -/
def shaS0 (x : Nat) : Nat := rotr64 x 1 ^^^ rotr64 x 8 ^^^ (x / 2 ^ 7)
/-- sigma 1. -/
def shaS1 (x : Nat) : Nat := rotr64 x 19 ^^^ rotr64 x 61 ^^^ (x / 2 ^ 6)
/-- Sigma 0. -/
def shaB0 (x : Nat) : Nat := rotr64 x 28 ^^^ rotr64 x 34 ^^^ rotr64 x 39
/-- Sigma 1. -/
def shaB1 (x : Nat) : Nat := rotr64 x 14 ^^^ rotr64 x 18 ^^^ rotr64 x 41

/-- The eight working words. -/
structure ShaRegs where
  a : Nat
  b : Nat
  c : Nat
  d : Nat
  e : Nat
  f : Nat
  g : Nat
  h : Nat
deriving DecidableEq, Repr

/-- One round with schedule word `w` and constant `k`. -/
def ShaRegs.round (r : ShaRegs) (w k : Nat) : ShaRegs :=
  let ch := (r.e &&& r.f) ^^^ ((2 ^ 64 - 1 - r.e) &&& r.g)
  let maj := (r.a &&& r.b) ^^^ (r.a &&& r.c) ^^^ (r.b &&& r.c)
  let t1 := r.h + shaB1 r.e + ch + k + w
  { a := (t1 + shaB0 r.a + maj) % 2 ^ 64, b := r.a, c := r.b, d := r.c, e := (r.d + t1) % 2 ^ 64, f := r.e, g := r.f, h := r.g }

/-- The rounds of a block; `w` holds the next 16 schedule words. -/
def shaRounds : List Nat → List Nat → ShaRegs → ShaRegs
  | [], _, r => r
  | k :: ks, w, r =>
    let w0 := w.headD 0
    let next := (shaS1 (w.getD 14 0) + w.getD 9 0 + shaS0 (w.getD 1 0) + w0) % 2 ^ 64
    shaRounds ks (w.tail ++ [next]) (r.round w0 k)

/-- Words of eight bytes, most significant first. -/
def shaWords : Nat → List Byte → List Nat
  | 0, _ => []
  | n + 1, l => beNat (l.take 8) :: shaWords n (l.drop 8)

/-- One block of 128 bytes. -/
def shaBlock (h : ShaRegs) (l : List Byte) : ShaRegs :=
  let r := shaRounds shaK (shaWords 16 l) h
  let add := fun x y => (x + y) % 2 ^ 64
  { a := add h.a r.a, b := add h.b r.b, c := add h.c r.c, d := add h.d r.d
    e := add h.e r.e, f := add h.f r.f, g := add h.g r.g, h := add h.h r.h }

/-- The blocks of a padded message. -/
def shaBlocks : Nat → List Byte → ShaRegs → ShaRegs
  | 0, _, h => h
  | n + 1, l, h => shaBlocks n (l.drop 128) (shaBlock h (l.take 128))

/-- SHA-512 of a byte string. -/
def sha512 (l : List Byte) : List Byte :=
  let zeros := (128 - (l.length + 17) % 128) % 128
  let m := l ++ [0x80#8] ++ List.replicate zeros 0#8 ++ beBytes 16 (8 * l.length)
  let g := fun i => shaInit.getD i 0
  let r := shaBlocks (m.length / 128) m ⟨g 0, g 1, g 2, g 3, g 4, g 5, g 6, g 7⟩
  [r.a, r.b, r.c, r.d, r.e, r.f, r.g, r.h].flatMap (beBytes 8)

/-! RSASSA-PSS. -/

/-- b^e mod n, from the lowest bit of e upward. -/
def powMod (n : Nat) : Nat → Nat → Nat → Nat → Nat
  | 0, _, _, acc => acc
  | f + 1, b, e, acc => powMod n f (b * b % n) (e / 2) (if e % 2 = 1 then acc * b % n else acc)

/-- MGF1 with SHA-512: the first `n` bytes of eight blocks. -/
def mgf1 (seed : List Byte) (n : Nat) : List Byte :=
  ((List.range 8).flatMap fun i => sha512 (seed ++ beBytes 4 i)).take n

/-- Two byte strings, bit by bit. -/
def xorBytes (a b : List Byte) : List Byte := List.zipWith (· ^^^ ·) a b

/-- A byte string with the top bit of its first byte clear. -/
def clearTop : List Byte → List Byte
  | [] => []
  | b :: l => (b &&& 0x7F#8) :: l

/-- The hash H of EMSA-PSS over a message hash and a salt. -/
def pssHash (mHash salt : List Byte) : List Byte := sha512 (List.replicate 8 0#8 ++ mHash ++ salt)

/-- EMSA-PSS encoding of a message with a salt, 512 bytes. -/
def pssEncode (msg salt : List Byte) : List Byte :=
  let h := pssHash (sha512 msg) salt
  let db := List.replicate 382 0#8 ++ [0x01#8] ++ salt
  clearTop (xorBytes db (mgf1 h 447)) ++ h ++ [0xBC#8]

/-- EMSA-PSS verification of a message against an encoding of 512 bytes. -/
def pssCheck (msg em : List Byte) : Bool :=
  let masked := em.take 447
  let h := (em.drop 447).take 64
  let db := clearTop (xorBytes masked (mgf1 h 447))
  decide (em.length = 512) && decide (em.drop 511 = [0xBC#8]) && decide (masked.headD 0#8 < 0x80#8)
    && decide (db.take 383 = List.replicate 382 0#8 ++ [0x01#8])
    && decide (pssHash (sha512 msg) (db.drop 383) = h)

/-- Does a signature verify under a modulus of 4,096 bits? -/
def rsaVerify (modulus sig msg : List Byte) : Bool :=
  let n := beNat modulus
  let s := beNat sig
  decide (2 ^ 4095 ≤ n) && decide (s < n) && pssCheck msg (beBytes 512 (powMod n 17 s 65537 1))

/-- The signature of a message by a modulus and its private exponent. -/
def rsaSign (n d : Nat) (msg salt : List Byte) : List Byte :=
  beBytes 512 (powMod n 4096 (beNat (pssEncode msg salt)) d 1)

/-- A signer entry (R375): INDEX, modulus, signature. -/
structure Signer where
  index : Nat
  modulus : List Byte
  sig : List Byte
deriving DecidableEq, Repr

/-- The signer entry at an offset of a byte string. -/
def signerAt (l : List Byte) (off : Nat) : Signer := ⟨leAt l off 1, sliceB l (off + 4) 512, sliceB l (off + 516) 512⟩

/-- Does a signer's signature over a message verify? -/
def Signer.verifies (g : Signer) (msg : List Byte) : Bool := rsaVerify g.modulus g.sig msg

end Sys2Proof
end

