-- ==== Sys2Proof/Machine/Link.lean ====
section
/-! DEFINITION. The Krevan links (R287 to R296): link states, frames and replay, lane sparing, eye scan. What an accepted
frame does stands with the frames. -/
namespace Sys2Proof.Machine

/-- A link's state changes (R291, R436); EAST_OK and WEST_OK follow links 0 and 1. -/
def State.setLinkState (s : State) (n v : Nat) : State :=
  if s.fld F.lnkStsState n = v then s
  else
    let s1 := s.setFld F.lnkStsState n v
    let s2 := if n = 0 then s1.setFlag F.lnkRingEastOk 0 (decide (v = 4))
      else if n = 1 then s1.setFlag F.lnkRingWestOk 0 (decide (v = 4)) else s1
    s2.post 15 n

/-- May a link be in service (R288, R291, R416)? -/
def State.linkAllowed (s : State) (n : Nat) : Bool :=
  decide (s.fld F.lnkCtlRole n ≠ 0) && s.flag F.lnkCtlEn n && s.inOp [.init, .ready, .run, .safeHold] && s.domainOn (128 + n)

/-- A link leaves DOWN or returns to it as its settings and the operating state say; TEST holds it in test (R288, R291,
R296). -/
def State.linkService (s : State) (n : Nat) : State :=
  let st := s.fld F.lnkStsState n
  if st = 6 then (if s.flag F.lnkCtlTest n then s else s.setLinkState n 0)
  else if st = 0 ∧ s.flag F.lnkCtlTest n = true then s.setLinkState n 6
  else if s.linkAllowed n then (if st = 0 then s.setLinkState n 1 else s)
  else s.setLinkState n 0

/-- Every link follows the operating state. -/
def State.linksService (s : State) : State := (List.range 4).foldl (fun t n => t.linkService n) s

/-- A frame leaves again (R292). -/
def State.resend (s : State) (n : Nat) (f : LinkFrame) : State :=
  (s.bump F.lnkReplayCntCount n 1).emit (.linkFrame n f.type f.dst f.payload)

/-- A link enters RECOVER (R291); its replay buffer survives. -/
def State.linkRecover (s : State) (n : Nat) : State :=
  let l := s.link n
  ((s.setLink n { l with alignSeen := 0, replay := l.replay.map fun f => { f with resent := 0 } }).bump
    F.lnkRetrainCntCount n 1).setLinkState n 5

/-- Every frame of the replay buffer leaves again; one resent for the eighth time moves the link to RECOVER (R292). -/
def State.resendAll (s : State) (n : Nat) : State :=
  let l := s.link n
  let s1 := l.replay.foldl (fun t f => t.resend n f) s
  let s2 := s1.setLink n { l with replay := l.replay.map fun f => { f with resent := f.resent + 1 } }
  if l.replay.any fun f => decide (8 ≤ f.resent + 1) then s2.linkRecover n else s2

/-- A link comes into service: frames not acknowledged leave again, then those that wait (R292, R301). -/
def State.linkUp (s : State) (n : Nat) : State :=
  let s1 := s.setLinkState n 4
  let l := s1.link n
  (l.replay.foldl (fun t f => t.resend n f) s1).linkPump n

/-- The lanes of a link that are usable: locked and not failed. -/
def State.usableLanes (s : State) (n : Nat) : Nat :=
  ((List.range 4).filter fun j => s.flag F.lnkLaneStsCdrLock (4 * n + j) && !s.flag F.lnkLaneStsFailed (4 * n + j)).length

/-- The taps of a lane (R294): adapted while its CDR lock holds and FREEZE is 0, else as they were left. -/
def State.dfeTaps (s : State) (lane : Nat) : Nat :=
  if s.flag F.lnkLaneStsCdrLock lane && !s.flag F.lnkDfeFreeze lane then (Config.dfeTaps lane s.dev.time.c).toNat
  else s.fld F.lnkDfeTaps lane

/-- Adaption of a lane's taps ends here. -/
def State.keepTaps (s : State) (lane : Nat) : State := s.setFld F.lnkDfeTaps lane (s.dfeTaps lane)

/-- CDR lock and polarity as found on the lanes of a link; a lane that loses lock keeps its taps (R294). In DETECT three usable
lanes lead to TRAIN, fewer hold the link in DETECT, which enters the fault map (R291, R368). -/
def State.cdrLock (s : State) (n lock inv : Nat) : State :=
  let s1 := (List.range 4).foldl (fun t j =>
    ((if bitOf lock j then t else t.keepTaps (4 * n + j)).setFlag F.lnkLaneStsCdrLock (4 * n + j) (bitOf lock j)).setFlag
      F.lnkLaneStsInverted (4 * n + j) (bitOf inv j)) s
  if s.fld F.lnkStsState n ≠ 1 then s1
  else if 3 ≤ s1.usableLanes n then s1.setLinkState n 2
  else if bitOf (s1.fld F.fmkMapMiscLinks 0) n then s1
  else (s1.mapMisc F.fmkMapMiscLinks n true).logFault 0x11 2 0x08 (4 * n) 0xFFFF

/-- Training has succeeded at both ends (R291). -/
def State.linkTrained (s : State) (n : Nat) : State :=
  if s.fld F.lnkStsState n = 2 ∨ s.fld F.lnkStsState n = 5 then
    (s.setLink n { s.link n with alignSeen := 0 }).setLinkState n 3
  else s

/-- TRAIN has lasted 10 ms (R291). -/
def State.trainFail (s : State) (n : Nat) : State :=
  if s.fld F.lnkStsState n = 2 then (s.setFlag F.lnkStsTrainFail n true).setLinkState n 1 else s

/-- RECOVER has lasted 1 ms (R291). -/
def State.recoverTimeout (s : State) (n : Nat) : State :=
  if s.fld F.lnkStsState n = 5 then s.setLinkState n 1 else s

/-- The physical lane of a logical lane in a map word, and the map with another lane in its place (LNK_MAP). -/
def laneOf (map j : Nat) : Nat := map / 16 ^ j % 16

/-- A map word with a logical lane moved. -/
def moveLane (map j v : Nat) : Nat := map - laneOf map j * 16 ^ j + v * 16 ^ j

/-- The physical lane that a map leaves idle: the spare. -/
def spareOf (map : Nat) : Nat := 6 - (laneOf map 0 + laneOf map 1 + laneOf map 2)

/-- A spare has come into use (R293, R369). -/
def State.spareInUse (s : State) (n : Nat) : State := (s.setFlag F.lnkStsSpareUsed n true).miscMapChanged

/-- A deskew marker arrives (R289, R291, R293): `good` has a bit for each physical lane whose marker came within the skew
limit, `spare` is the logical number on the idle lane's marker. -/
def State.deskewMarker (s : State) (n good spare : Nat) : State :=
  let map := s.fld F.lnkMapRxMap n
  let active := (List.range 3).filter fun j => bitOf good (laneOf map j)
  let l := s.link n
  match s.fld F.lnkStsState n with
  | 3 =>
    if active.length = 3 then
      if l.alignSeen = 0 then s.setLink n { l with alignSeen := 1 }
      else (s.setLink n { l with alignSeen := 0 }).linkUp n
    else s.setLink n { l with alignSeen := 0 }
  | 4 =>
    let s1 := match l.rxSpare with
      | some j =>
        if spare = j then
          ((s.setLink n { l with rxSpare := none }).setFld F.lnkMapRxMap n (moveLane map j (spareOf map))).spareInUse n
        else s
      | none => s
    if active.length < 2 then s1.linkRecover n else s1
  | _ => s

/-- A deskew marker leaves on all four lanes (R289); a lane named by SPARE moves onto the spare (R293). -/
def State.deskewSend (s : State) (n : Nat) : State :=
  if s.fld F.lnkStsState n = 3 ∨ s.fld F.lnkStsState n = 4 then
    let l := s.link n
    let map := s.fld F.lnkMapTxMap n
    let s1 := match l.sparePend with
      | some j =>
        ((s.setLink n { l with sparePend := none }).setFld F.lnkMapTxMap n (moveLane map j (spareOf map))).spareInUse n
      | none => s
    let c := (s1.link n).deskewCount
    (s1.setLink n { s1.link n with deskewCount := (c + 1) % 256 }).emit (.linkMarker n 0x7C c (s1.fld F.lnkMapTxMap n))
  else s

/-- RETRAIN (R291). -/
def State.retrain (s : State) (n : Nat) : State :=
  let s1 := s.setFlag F.lnkCtlRetrain n false
  if s1.fld F.lnkStsState n = 4 then s1.linkRecover n else s1

/-! Frames on the wire (R290, R292). -/

/-- A frame as received. -/
structure WireFrame where
  type : Nat
  hdr : Nat
  lseq : Nat
  hops : Nat
  rseq : Nat
  payload : List Byte

/-- A frame read from its bytes: header, payload and check; none where its length or its check fails (R290). -/
def readFrame (b : List Byte) : Option WireFrame :=
  let len := leAt b 6 2 % 1024
  if b.length = 12 + len ∧ len ≤ 512 ∧ crc32c (b.take (8 + len)) = leAt b (8 + len) 4 then
    some { type := leAt b 0 1, hdr := leAt b 1 1, lseq := leAt b 2 2 % 4096, hops := leAt b 2 2 / 4096
           rseq := leAt b 4 2, payload := sliceB b 8 len }
  else none

/-- NAK with the next LSEQ expected; further bad frames are dropped without one until that LSEQ arrives (R292). -/
def State.sendNak (s : State) (n : Nat) : State :=
  let l := s.link n
  if l.nakSent then s else (s.setLink n { l with nakSent := true }).emit (.linkCtl n 2 l.expSeq)

/-- The receiver's decision on a frame in UP, or in ALIGN, where time status already travels (R292, R328): accepted with an
ACK, or dropped with a NAK. -/
def State.receiveFrame (s : State) (n : Nat) (b : List Byte) : Option WireFrame × State :=
  if s.fld F.lnkStsState n ≠ 4 ∧ s.fld F.lnkStsState n ≠ 3 then (none, s)
  else match readFrame b with
    | none => (none, (s.bump F.lnkCrcCntCount n 1).sendNak n)
    | some f =>
      let l := s.link n
      if f.lseq = l.expSeq then
        (some f, (s.setLink n { l with expSeq := (l.expSeq + 1) % 4096, nakSent := false }).emit (.linkCtl n 1 f.lseq))
      else (none, s.sendNak n)

/-- An ACK frees the frames up to its LSEQ (R292). -/
def State.linkAck (s : State) (n q : Nat) : State :=
  let l := s.link n
  (s.setLink n { l with replay := l.replay.filter fun f => decide (2048 ≤ (q + 4096 - f.lseq) % 4096) }).linkPump n

/-- A NAK acknowledges what lies before its LSEQ and asks for the rest again (R292). -/
def State.linkNak (s : State) (n q : Nat) : State :=
  let s1 := s.linkAck n ((q + 4095) % 4096)
  if s1.fld F.lnkStsState n = 4 then s1.resendAll n else s1

/-- 4 µs without an ACK (R292). -/
def State.replayTimeout (s : State) (n : Nat) : State :=
  if s.fld F.lnkStsState n = 4 ∧ (s.link n).replay ≠ [] then s.resendAll n else s

/-- The peer names a lane to move onto the spare (R293). -/
def State.spareReceived (s : State) (n j : Nat) : State := s.setLink n { s.link n with sparePend := some j }

/-- Has a receiving lane failed (R293): are its errors of the window above the limit, or has it lost CDR lock? One that has
failed fails once. -/
def State.laneBad (s : State) (n j errs : Nat) : Bool :=
  (decide (s.fld F.lnkCtlLaneErrLim n < errs) || !s.flag F.lnkLaneStsCdrLock (4 * n + j))
    && !s.flag F.lnkLaneStsFailed (4 * n + j)

/-- A receiving lane is judged (R293): a failure is logged, and SPARE names its logical lane while the spare is free. -/
def State.laneFailed (s : State) (n j errs : Nat) : State :=
  let map := s.fld F.lnkMapRxMap n
  let sp := spareOf map
  let s0 := s.bump F.lnkLaneStsErr (4 * n + j) errs
  if !s.laneBad n j errs then s0
  else
    let s1 := s0.setFlag F.lnkLaneStsFailed (4 * n + j) true
    match (List.range 3).find? fun k => decide (laneOf map k = j) with
    | none => s1.logFault 0x10 0 0x08 (4 * n + j) 0xFFFF
    | some k =>
      if (s.link n).rxSpare.isNone && !s1.flag F.lnkLaneStsFailed (4 * n + sp) then
        ((s1.setLink n { s1.link n with rxSpare := some k }).emit (.linkCtl n 3 k)).logFault 0x10 1 0x08 (4 * n + k)
          (4 * n + sp)
      else s1.logFault 0x10 0 0x08 (4 * n + k) 0xFFFF

/-- An eye scan has counted its bits (R295). -/
def State.eyeDone (s : State) (lane count : Nat) : State :=
  if s.flag F.lnkEyeCtlStart lane then
    ((s.setFlag F.lnkEyeCtlStart lane false).setFlag F.lnkEyeCtlDone lane true).setReg .lnkEyeRes lane (satN 32 count)
  else s

/-- A pattern test ends with the bit errors counted on each lane (R296). -/
def State.countPrbs (s : State) (n : Nat) (errs : List Nat) : State :=
  (errs.take 4).zipIdx.foldl (fun t p => t.bump F.lnkPrbsCntCount (4 * n + p.2) p.1) s

/-- LINK_CDR_LOCK of a link: the lanes that are locked and those that are inverted. -/
def execLinkCdrLock (link : Fin 4) (lock inv : BitVec 4) (s : State) : Host.Outcome State Fault Refusal :=
  .next (inDev (State.cdrLock · link lock.toNat inv.toNat) s)

/-- LINK_TRAINED. -/
def execLinkTrained (link : Fin 4) (s : State) : Host.Outcome State Fault Refusal :=
  .next (inDev (State.linkTrained · link) s)

/-- TRAIN_FAIL. -/
def execTrainFail (link : Fin 4) (s : State) : Host.Outcome State Fault Refusal :=
  .next (inDev (State.trainFail · link) s)

/-- RECOVER_TIMEOUT. -/
def execRecoverTimeout (link : Fin 4) (s : State) : Host.Outcome State Fault Refusal :=
  .next (inDev (State.recoverTimeout · link) s)

/-- DESKEW_MARKER: the lanes whose marker came within the skew limit, and the logical number on the spare's. -/
def execDeskewMarker (link : Fin 4) (good : BitVec 4) (spare : BitVec 8) (s : State) :
    Host.Outcome State Fault Refusal :=
  .next (inDev (State.deskewMarker · link good.toNat spare.toNat) s)

/-- DESKEW_MARKER_SEND. -/
def execDeskewMarkerSend (link : Fin 4) (s : State) : Host.Outcome State Fault Refusal :=
  .next (inDev (State.deskewSend · link) s)

/-- ACK with an LSEQ. -/
def execAck (link : Fin 4) (lseq : BitVec 12) (s : State) : Host.Outcome State Fault Refusal :=
  .next (inDev (State.linkAck · link lseq.toNat) s)

/-- NAK with an LSEQ. -/
def execNak (link : Fin 4) (lseq : BitVec 12) (s : State) : Host.Outcome State Fault Refusal :=
  .next (inDev (State.linkNak · link lseq.toNat) s)

/-- SPARE naming a logical lane. -/
def execSpare (link : Fin 4) (lane : Fin 3) (s : State) : Host.Outcome State Fault Refusal :=
  .next (inDev (State.spareReceived · link lane) s)

/-- REPLAY_TIMEOUT. -/
def execReplayTimeout (link : Fin 4) (s : State) : Host.Outcome State Fault Refusal :=
  .next (inDev (State.replayTimeout · link) s)

/-- LANE_FAILED: the judgement of a physical lane of a link, with the errors of its window. -/
def execLaneFailed (link lane : Fin 4) (errs : BitVec 16) (s : State) : Host.Outcome State Fault Refusal :=
  .next (inDev (State.laneFailed · link lane errs.toNat) s)

/-- EYE_SCAN_DONE of a lane with its count. -/
def execEyeScanDone (lane : Fin 16) (count : BitVec 41) (s : State) : Host.Outcome State Fault Refusal :=
  .next (inDev (State.eyeDone · lane count.toNat) s)

end Sys2Proof.Machine
end

