-- ==== Sys2Proof/Machine/Eth.lean ====
section
/-! DEFINITION. The Ethernet ports (R307 to R312): transmit queues and shapers, redundancy pairs, transmit timestamps, and
the receive rings. What a received frame does stands with the frames. -/
namespace Sys2Proof.Machine

/-- A port's record. -/
def State.ethPort (s : State) (p : Nat) : EthPort := smGet {} s.dev.eth p

/-- Put a port's record. -/
def State.setEthPort (s : State) (p : Nat) (x : EthPort) : State :=
  s.onDev fun d => { d with eth := smPut {} d.eth p x }

/-- A redundancy pair's record. -/
def State.ethPair (s : State) (k : Nat) : EthPair := smGet {} s.dev.pairs k

/-- Put a pair's record. -/
def State.setEthPair (s : State) (k : Nat) (x : EthPair) : State :=
  s.onDev fun d => { d with pairs := smPut {} d.pairs k x }

/-- A 48-bit MAC from its two registers. -/
def State.mac (s : State) (lo hi : Reg) (i : Nat) : Nat := s.reg lo i + 2 ^ 32 * (s.reg hi i % 65536)

/-- A MAC address as octets, the most significant first. -/
def macBytes (m : Nat) : List Byte := beBytes 6 m

/-- Does a port carry: has a block been accepted, is it in use and its link up (R307)? -/
def State.portUp (s : State) (p : Nat) : Bool :=
  s.dev.boot.accepted && s.flag F.ethPortCtlEn p && s.flag F.ethPortStsLink p

/-- One bit step of the frame check sequence of IEEE 802.3. -/
def fcsBit (c : Nat) : Nat := if c % 2 = 1 then (c / 2) ^^^ 0xEDB88320 else c / 2

/-- One byte step. -/
def fcsByte (c : Nat) (b : Byte) : Nat :=
  fcsBit (fcsBit (fcsBit (fcsBit (fcsBit (fcsBit (fcsBit (fcsBit (c ^^^ b.toNat))))))))

/-- The frame check sequence of IEEE 802.3 over a frame. -/
def fcs (l : List Byte) : List Byte := leBytes 4 ((l.foldl fcsByte 0xFFFFFFFF) ^^^ 0xFFFFFFFF)

/-- A frame padded to 60 bytes. -/
def pad60 (l : List Byte) : List Byte := l ++ List.replicate (60 - l.length) 0#8

/-- The EtherType of PTP at layer 2 (R311). -/
def ptpType : Nat := 0x88F7

/-- The mode of a port's pair: 0 independent, 1 PRP, 2 HSR (R310). -/
def State.redMode (s : State) (p : Nat) : Nat := s.fld F.ethRedCtlMode (p / 2)

/-! Building frames (R308, R310). The layouts of the PRP trailer and the HSR tag are those of IEC 62439-3 (log entry 17). -/

/-- The 802.1Q tag. -/
def vlanTag (pcp vid : Nat) : List Byte := beBytes 2 0x8100 ++ beBytes 2 (pcp * 8192 + vid)

/-- A frame before redundancy and padding: addresses, tag, EtherType and payload. -/
structure TxFrame where
  dst : Nat
  src : Nat
  tag : List Byte
  etype : Nat
  payload : List Byte

/-- The frame as it leaves without redundancy. -/
def TxFrame.plain (f : TxFrame) : List Byte :=
  pad60 (macBytes f.dst ++ macBytes f.src ++ f.tag ++ beBytes 2 f.etype ++ f.payload)

/-- The frame with the PRP redundancy control trailer of LAN A or B. -/
def TxFrame.prp (f : TxFrame) (seq lan : Nat) : List Byte :=
  let b := macBytes f.dst ++ macBytes f.src ++ f.tag ++ beBytes 2 f.etype ++ f.payload
  let padded := b ++ List.replicate (54 - b.length) 0#8
  let lsdu := padded.length - 14 - f.tag.length + 6
  padded ++ beBytes 2 seq ++ beBytes 2 ((10 + lan) * 4096 + lsdu % 4096) ++ beBytes 2 0x88FB

/-- The frame with the HSR tag of port A or B. -/
def TxFrame.hsr (f : TxFrame) (seq lan : Nat) : List Byte :=
  let body := beBytes 2 f.etype ++ f.payload
  pad60 (macBytes f.dst ++ macBytes f.src ++ f.tag ++ beBytes 2 0x892F
    ++ beBytes 2 (lan * 4096 + (body.length + 4) % 4096) ++ beBytes 2 seq ++ body)

/-- Frames waiting in queue `q` of a port. -/
def State.queued (s : State) (p q : Nat) : Nat := ((s.ethPort p).queues.filter fun x => decide (x.1 = q)).length

/-- Is there room in queue `q` of a port (R308)? -/
def State.queueRoom (s : State) (p q : Nat) : Bool := decide (s.queued p q < Config.txQueueFrames)

/-- A frame enters a queue; a queue whose port is down holds it, or with FLUSH_DOWN discards and counts it (R308). -/
def State.enqueue (s : State) (p q : Nat) (frame : List Byte) : State :=
  if !s.portUp p && s.flag F.ethPortCtlFlushDown p then s.bump F.ethTxDropCntCount p 1
  else s.setEthPort p { s.ethPort p with queues := (s.ethPort p).queues ++ [(q, frame)] }

/-- The ports a frame leaves on: PTP and independent ports alone, a redundant pair on both (R310, R311). -/
def State.duplicates (s : State) (p etype : Nat) : Bool := decide (etype ≠ ptpType ∧ s.redMode p ≠ 0)

/-- A frame leaves through queue `q` of port `p` or of its pair. -/
def State.sendFrame (s : State) (p q : Nat) (f : TxFrame) : State :=
  if s.duplicates p f.etype then
    let k := p / 2
    let x := s.ethPair k
    let make (lan : Nat) : List Byte :=
      let g := { f with src := s.mac .ethMacLo .ethMacHi (2 * k + lan) }
      if s.redMode p = 1 then g.prp x.seq lan else g.hsr x.seq lan
    ((s.setEthPair k { x with seq := (x.seq + 1) % 65536 }).enqueue (2 * k) q (make 0)).enqueue (2 * k + 1) q (make 1)
  else s.enqueue p q f.plain

/-- Is there room for a frame of window n = 8p + q? -/
def State.windowRoom (s : State) (n : Nat) : Bool :=
  let p := n / 8
  let q := n % 8
  if s.duplicates p (s.fld F.ethTxqTagEtype n) then s.queueRoom (p / 2 * 2) q && s.queueRoom (p / 2 * 2 + 1) q
  else s.queueRoom p q

/-- The longest payload of a transmit window (R308). -/
def State.maxPayload (s : State) (p : Nat) : Nat := if s.flag F.ethPortCtlJumbo p then 9000 else 1500

/-- A payload written to transmit window n becomes one frame (R308). PTP frames are never tagged (R311). -/
def State.windowFrame (s : State) (n : Nat) (payload : List Byte) : State :=
  let p := n / 8
  let e := s.fld F.ethTxqTagEtype n
  let tag := if s.flag F.ethTxqTagVlanEn n && decide (e ≠ ptpType) then
      vlanTag (s.fld F.ethTxqTagPcp n) (s.fld F.ethTxqTagVid n) else []
  s.sendFrame p (n % 8) { dst := s.mac .ethTxqDstLo .ethTxqDstHi n, src := s.mac .ethMacLo .ethMacHi p, tag := tag
                          etype := e, payload := payload }

/-! Leaving the port (R309, R311). -/

/-- The depth of a shaper in thousandths of a bit: two maximal frames (R309). -/
def State.shaperDepth (s : State) (p : Nat) : Nat := 2 * (if s.flag F.ethPortCtlJumbo p then 9022 else 1522) * 8000

/-- The shapers of a port are refilled to now. -/
def State.refillShapers (s : State) (p : Nat) : State :=
  let x := s.ethPort p
  let dt := s.dev.time.c - x.shortAt
  s.setEthPort p { x with
    short := (List.range 8).foldl (fun m q =>
      smPut 0 m q (smGet 0 m q - s.fld F.ethTxqRateRate (8 * p + q) * dt)) x.short
    shortAt := s.dev.time.c }

/-- The bytes of a frame on the wire, with its check sequence. -/
def wireBytes (frame : List Byte) : Nat := frame.length + 4

/-- May the first frame of a queue leave under its shaper? -/
def State.shaperOk (s : State) (p q : Nat) (frame : List Byte) : Bool :=
  decide (s.fld F.ethTxqRateRate (8 * p + q) = 0)
    || decide (smGet 0 (s.ethPort p).short q + wireBytes frame * 8000 ≤ s.shaperDepth p)

/-- The frame that leaves next: strict priority, queue 7 first (R309). -/
def State.nextFrame (s : State) (p : Nat) : Option (Nat × List Byte) :=
  ((List.range 8).reverse.filterMap fun q =>
    ((s.ethPort p).queues.find? fun x => decide (x.1 = q)).bind fun x =>
      if s.shaperOk p q x.2 then some x else none).head?

/-- Drop the first element equal to `x`. -/
def dropFirst (x : Nat × List Byte) : List (Nat × List Byte) → List (Nat × List Byte)
  | [] => []
  | y :: l => if y = x then l else y :: dropFirst x l

/-- The EtherType of a frame, behind its 802.1Q tag if it has one, and the offset of what follows it. -/
def frameType (b : List Byte) : Nat × Nat :=
  let t := beNat (sliceB b 12 2)
  if t = 0x8100 then (beNat (sliceB b 16 2), 18) else (t, 14)

/-- ETH_TS_INFO and ETH_TS show the head of the timestamp FIFO (R311). -/
def State.showStamp (s : State) (p : Nat) : State :=
  match (s.ethPort p).stamps with
  | [] => ((s.setReg .ethTsInfo p (2 ^ 30 * s.fld F.ethTsInfoOvf p)).setReg .ethTsLo p 0).setReg .ethTsHi p 0
  | x :: _ =>
    (s.setReg .ethTsInfo p (packBits [(16, x.seqId), (8, x.frac), (4, x.msgType), (2, 0), (1, s.fld F.ethTsInfoOvf p),
      (1, 1)])).setPair .ethTsLo .ethTsHi p x.time

/-- The time tag and fraction of an instant `age` / 256 ns ago, moved by a latency in 1/16 ns. -/
def State.stampAt (s : State) (age : Nat) (lat : Int) : Nat × Nat :=
  let at' : Int := s.timeFix - (age : Int) * 2 ^ 24 + lat * 2 ^ 28
  (unsigned 64 (divFloor at' (2 ^ 32)), unsigned 8 (divFloor at' (2 ^ 24)))

/-- The timestamp of a PTP frame sent enters the FIFO of 16; a full FIFO drops it and sets OVF; entering an empty FIFO posts
event 18 (R311, R436). -/
def State.pushStamp (s : State) (p age : Nat) (frame : List Byte) : State :=
  let x := s.ethPort p
  let at' := s.stampAt age (s.fld F.ethAsymTxLat p)
  let off := (frameType frame).2
  let e : TxStamp := { time := at'.1, frac := at'.2, msgType := leAt frame off 1 % 16, seqId := beNat (sliceB frame (off + 30) 2) }
  if 16 ≤ x.stamps.length then s.setFlag F.ethTsInfoOvf p true
  else
    let s1 := (s.setEthPort p { x with stamps := x.stamps ++ [e] }).showStamp p
    if x.stamps.isEmpty then s1.post 18 p else s1

/-- A read of ETH_TS_HI removes the head (R315). -/
def State.popStamp (s : State) (p : Nat) : State :=
  (s.setEthPort p { s.ethPort p with stamps := (s.ethPort p).stamps.tail }).showStamp p

/-- A queued frame finishes leaving a port; the first bit after its SFD crossed `age` / 256 ns ago (R309, R311). -/
def State.frameSent (s : State) (p age : Nat) : State :=
  if !s.portUp p then s
  else
    let s1 := s.refillShapers p
    match s1.nextFrame p with
    | none => s1
    | some x =>
      let e := s1.ethPort p
      let short := if s1.fld F.ethTxqRateRate (8 * p + x.1) = 0 then e.short
        else smPut 0 e.short x.1 (smGet 0 e.short x.1 + wireBytes x.2 * 8000)
      let s2 := ((s1.setEthPort p { e with queues := dropFirst x e.queues, short := short }).bump F.ethTxCntCount p 1).emit
        (.ethFrame p (x.2 ++ fcs x.2))
      if (frameType x.2).1 = ptpType then s2.pushStamp p age x.2 else s2

/-- A port that is down with FLUSH_DOWN set discards what it holds, and counts it (R308). -/
def State.flushDown (s : State) (p : Nat) : State :=
  if !s.portUp p && s.flag F.ethPortCtlFlushDown p then
    (s.bump F.ethTxDropCntCount p (s.ethPort p).queues.length).setEthPort p { s.ethPort p with queues := [] }
  else s

/-- A_OK and B_OK of a pair follow its ports (R310). -/
def State.showPair (s : State) (k : Nat) : State :=
  (s.setFlag F.ethRedCtlAOk k (s.portUp (2 * k))).setFlag F.ethRedCtlBOk k (s.portUp (2 * k + 1))

/-- A port's link changes (R308, R310, R315, R370). -/
def State.ethLink (s : State) (p : Nat) (up : Bool) (speed : Nat) : State :=
  let was := s.flag F.ethPortStsLink p
  let s1 := (s.setFlag F.ethPortStsLink p up).setFld F.ethPortStsSpeed p speed
  let s2 := if was ≠ up then s1.raise F.ethPortStsLinkEvt p 17 p else s1
  let s3 := s2.showPair (p / 2)
  (if was && !up && decide (s.redMode p ≠ 0) then s3.logFault 0x12 1 0x09 p (p / 2 * 2 + (1 - p % 2)) else s3).flushDown p

/-! Redundancy on receive (R310). -/

/-- The device's supervision frame of a pair. -/
def State.supervision (s : State) (k : Nat) : State :=
  if s.fld F.ethRedCtlMode k = 0 then s
  else
    let mac := s.mac .ethMacLo .ethMacHi (2 * k)
    let tlv := if s.fld F.ethRedCtlMode k = 1 then 20 else 23
    s.sendFrame (2 * k) 7 { dst := 0x01154E000100, src := mac, tag := [], etype := 0x88FB
                            payload := beBytes 2 1 ++ beBytes 2 (s.ethPair k).seq ++ leBytes 1 tlv ++ leBytes 1 6
                              ++ macBytes mac ++ leBytes 2 0 }

/-- A frame as received: addresses, tag, EtherType, payload, with the redundancy information taken out: sequence and LAN. -/
structure RxFrame where
  dst : Nat
  src : Nat
  vid : Option Nat
  etype : Nat
  payload : List Byte
  red : Option (Nat × Nat)

/-- A received frame read from its bytes; the trailer or tag of the pair's mode is taken out. -/
def parseFrame (mode : Nat) (b : List Byte) : RxFrame :=
  let tagged := decide (beNat (sliceB b 12 2) = 0x8100)
  let o := if tagged then 16 else 12
  let vid := if tagged then some (beNat (sliceB b 14 2) % 4096) else none
  let e := beNat (sliceB b o 2)
  let dst := beNat (sliceB b 0 6)
  let src := beNat (sliceB b 6 6)
  if mode = 2 ∧ e = 0x892F then
    { dst := dst, src := src, vid := vid, etype := beNat (sliceB b (o + 6) 2), payload := b.drop (o + 8)
      red := some (beNat (sliceB b (o + 4) 2), beNat (sliceB b (o + 2) 2) / 4096 % 2) }
  else if mode = 1 ∧ o + 8 ≤ b.length ∧ beNat (b.drop (b.length - 2)) = 0x88FB then
    let lan := beNat (sliceB b (b.length - 4) 2) / 4096
    { dst := dst, src := src, vid := vid, etype := e, payload := (b.take (b.length - 6)).drop (o + 2)
      red := some (beNat (sliceB b (b.length - 6) 2), if lan = 10 then 0 else if lan = 11 then 1 else 2) }
  else { dst := dst, src := src, vid := vid, etype := e, payload := b.drop (o + 2), red := none }

/-- Is a MAC address one of the pair's own? -/
def State.ownMac (s : State) (k m : Nat) : Bool :=
  decide (m = s.mac .ethMacLo .ethMacHi (2 * k) ∨ m = s.mac .ethMacLo .ethMacHi (2 * k + 1))

/-- Is a received frame an HSR frame of this node that has come round the ring? It is removed (R310). -/
def State.hsrReturned (s : State) (p : Nat) (f : RxFrame) : Bool :=
  decide (s.redMode p = 2) && f.red.isSome && s.ownMac (p / 2) f.src

/-- An HSR frame that is not addressed only to this node leaves on the pair's other port, once in each direction (R310, log
entry 17). -/
def State.hsrForward (s : State) (p : Nat) (f : RxFrame) (b : List Byte) : State :=
  let o := p / 2 * 2 + (1 - p % 2)
  match f.red with
  | none => s
  | some (seq, _) =>
    if s.redMode p ≠ 2 ∨ s.ownMac (p / 2) f.dst = true ∨ s.portUp o = false
        ∨ ((s.ethPair (p / 2)).table.any fun e => decide (e.1 = f.src ∧ e.2.1 = seq ∧ (e.2.2.1 = p ∨ e.2.2.2 = true))) = true then s
    else (s.bump F.ethTxCntCount o 1).emit (.ethFrame o (b ++ fcs b))

/-- Duplicate discard of a pair: is the frame a second copy? The table holds 512 entries. -/
def State.redundant (s : State) (p : Nat) (f : RxFrame) : Bool × State :=
  match f.red with
  | none => (false, s)
  | some (seq, lan) =>
    let k := p / 2
    let x := s.ethPair k
    let s1 := if s.redMode p = 1 && decide (lan ≠ p % 2) then s.bump F.ethRedLanerrCntCount k 1 else s
    match x.table.find? fun e => decide (e.1 = f.src ∧ e.2.1 = seq) with
    | some e =>
      (true, (s1.setEthPair k { x with table := x.table.map fun y =>
        if y.1 = f.src ∧ y.2.1 = seq then (e.1, e.2.1, e.2.2.1, e.2.2.2 || decide (e.2.2.1 ≠ p)) else y }).bump
          F.ethRedDupCntCount k 1)
    | none => (false, s1.setEthPair k { x with table := ((f.src, seq, p, false) :: x.table).take 512 })

/-- An entry of the duplicate table is 400 ms old: counted if its partner never came, and forgotten (R310). -/
def State.redTimeout (s : State) (k src seq : Nat) : State :=
  let x := s.ethPair k
  match x.table.find? fun e => decide (e.1 = src ∧ e.2.1 = seq) with
  | none => s
  | some e =>
    let s1 := s.setEthPair k { x with table := x.table.filter fun y => !decide (y.1 = src ∧ y.2.1 = seq) }
    if e.2.2.2 then s1 else s1.bump F.ethRedSingleCntCount k 1

/-! Receive rings (R312). -/

/-- The fill of a receive ring. -/
def State.rxFill (s : State) (r : Nat) : Nat :=
  let m := 2 ^ s.fld F.ethRxrSizeSizeLog2 r
  (s.reg .ethRxrWr r + m - s.reg .ethRxrRd r % m) % m

/-- Bytes stored in a receive ring, wrapping. -/
def State.rxStore (s : State) (r off : Nat) (bs : List Byte) : State :=
  let m := 2 ^ s.fld F.ethRxrSizeSizeLog2 r
  let base := sramBase + s.fld F.ethRxrBaseBase r * 4096
  (s.store (base + off) (bs.take (m - off))).store base (bs.drop (m - off))

/-- A frame enters a receive ring: 16 bytes of header, the frame, padding; one that does not fit is dropped. -/
def State.rxPut (s : State) (r p age : Nat) (tagged : Bool) (frame : List Byte) : State :=
  let at' := s.stampAt age (-(s.fld F.ethAsymRxLat p : Int))
  let bs := pad8 (leBytes 8 at'.1 ++ leBytes 2 frame.length ++ leBytes 1 (p + 4 * b2n tagged) ++ leBytes 1 at'.2
    ++ leBytes 4 0 ++ frame)
  let m := 2 ^ s.fld F.ethRxrSizeSizeLog2 r
  if s.rxFill r + bs.length < m then
    (s.rxStore r (s.reg .ethRxrWr r) bs).setReg .ethRxrWr r ((s.reg .ethRxrWr r + bs.length) % m)
  else s.bump F.ethRxrDropCntCount r 1

/-- ETH_FRAME_SENT of a port: how long ago the instant of its timestamp lies, in 1/256 ns. -/
def execEthFrameSent (port : Fin 4) (age : BitVec 40) (s : State) : Host.Outcome State Fault Refusal :=
  .next (inDev (State.frameSent · port age.toNat) s)

/-- ETH_LINK_CHANGE of a port to a state and speed. -/
def execEthLinkChange (port : Fin 4) (up : Bool) (speed : BitVec 3) (s : State) : Host.Outcome State Fault Refusal :=
  .next (inDev (State.ethLink · port up speed.toNat) s)

/-- SUPERVISION_FRAME of a pair. -/
def execSupervisionFrame (pair : Fin 2) (s : State) : Host.Outcome State Fault Refusal :=
  .next (inDev (State.supervision · pair) s)

/-- RED_SINGLE_TIMEOUT: an entry of a pair's table, by source and sequence. -/
def execRedSingleTimeout (pair : Fin 2) (src : BitVec 48) (seq : BitVec 16) (s : State) :
    Host.Outcome State Fault Refusal :=
  .next (inDev (State.redTimeout · pair src.toNat seq.toNat) s)

end Sys2Proof.Machine
end

