-- ==== Sys2Proof/Machine/Dma.lean ====
section
/-! DEFINITION. The DMA engine (R249 to R269): descriptors, chains, segments, reshuffling, completion, errors, quotas,
completion queues and appending. Chains are named 0 to 4095, completion queue k is queue 4096 + k. -/
namespace Sys2Proof.Machine

/-- A chain's record. -/
def State.chain (s : State) (c : Nat) : Chain := smGet {} s.dev.dma.chains c

/-- Put a chain's record. -/
def State.setChain (s : State) (c : Nat) (x : Chain) : State :=
  s.onDev fun d => { d with dma := { d.dma with chains := smPut {} d.dma.chains c x } }

/-- Does the DMA engine run (R269)? -/
def State.dmaRuns (s : State) : Bool := s.inOp [.init, .ready, .run, .safeHold]

/-- CUR of a chain. -/
def State.cur (s : State) (c : Nat) : Nat := s.pair .dmaQCurLo .dmaQCurHi c

/-- Put CUR. -/
def State.setCur (s : State) (c a : Nat) : State := s.setPair .dmaQCurLo .dmaQCurHi c a

/-- HEAD of a chain. -/
def State.headOf (s : State) (c : Nat) : Nat := s.pair .dmaQHeadLo .dmaQHeadHi c

/-- STATE of a chain: 0 IDLE, 1 RUNNING, 2 PARKED, 3 HALTED (R253). -/
def State.setChainState (s : State) (c v : Nat) : State := s.setFld F.dmaQStsState c v

/-! Descriptors (R250, R251). -/

/-- A descriptor read from its 32 bytes. -/
def readDesc (b : List Byte) : Desc :=
  { next := leAt b 0 8, src := leAt b 8 8, dst := leAt b 16 8, len := leAt b 24 3, control := leAt b 27 3 }

/-- EOC as fetched. -/
def Desc.eoc (d : Desc) : Bool := bitOf d.control 0
/-- IRQ. -/
def Desc.irq (d : Desc) : Bool := bitOf d.control 1
/-- HALT. -/
def Desc.halt (d : Desc) : Bool := bitOf d.control 2
/-- RESHUF. -/
def Desc.mode (d : Desc) : Nat := bitsOf d.control 7 5
/-- PARAM. -/
def Desc.param (d : Desc) : Nat := bitsOf d.control 11 8
/-- CQ. -/
def Desc.cq (d : Desc) : Nat := bitsOf d.control 23 12
/-- The sample size of modes 1 and 2. -/
def Desc.sample (d : Desc) : Nat := 1 + d.param % 2

/-- The unit of the mode (R257). -/
def Desc.unit (d : Desc) : Nat :=
  match d.mode with
  | 1 => 3 * d.sample
  | 2 => 3 * d.sample
  | 3 => 16
  | 4 => 2
  | 5 => 4
  | _ => 1

/-- How many bytes reach DST. -/
def Desc.out (d : Desc) : Nat := if d.mode = 3 then d.len / 16 else d.len

/-- Does the descriptor break R257? A LENGTH of 0 lies outside the range of R250. -/
def Desc.bad (d : Desc) : Bool :=
  decide (d.len = 0) || decide (6 ≤ d.mode) || decide (d.len % d.unit ≠ 0)
    || (decide (3 ≤ d.mode) && (decide (d.src % d.unit ≠ 0) || decide (d.dst % d.unit ≠ 0)))
    || (decide (d.mode = 3) && decide (12 ≤ d.param))

/-- The Ethernet transmit window an address lies in (R301). -/
def ethWindow (a : Nat) : Option Nat :=
  if 0x2080000000 ≤ a ∧ a < 0x20A0000000 then some ((a - 0x2080000000) / 0x1000000) else none

/-- The bridge link an address leads to (R301). -/
def bridgeLink (a : Nat) : Option Nat :=
  if 0x2000000000 ≤ a ∧ a < 0x2040000000 then some 2
  else if 0x2040000000 ≤ a ∧ a < 0x2080000000 then some 3 else none

/-- Does a span lie wholly in one populated range of R249? -/
def State.spanOk (s : State) (a n : Nat) : Bool :=
  decide (s.spanTarget a n ≠ .none) && decide (a + n ≤ 2 ^ 64)

/-- The code a fetched descriptor ends with before any byte moves, 0 for none (R257, R260, R263, R308). -/
def State.descCheck (s : State) (d : Desc) : Nat :=
  if d.bad then 5
  else if !s.spanOk d.src d.len || !s.spanOk d.dst d.out then 4
  else if (ethWindow d.src).isSome then 2
  else match ethWindow d.dst with
    | some n => if d.dst % 0x1000000 ≠ 0 ∨ s.maxPayload (n / 8) < d.len then 3 else 0
    | none => 0

/-- The lengths of segments of modes 1 to 3, from what is left. -/
def unitSegs (step : Nat) : Nat → Nat → Nat → List Seg
  | 0, _, _ => []
  | f + 1, off, left => if left = 0 then [] else
      let n := min step left
      { off := off, len := n } :: unitSegs step f (off + n) (left - n)

/-- The segments of modes 0, 4 and 5: they break at 4 KiB boundaries of the source. -/
def pageSegs (src : Nat) : Nat → Nat → Nat → List Seg
  | 0, _, _ => []
  | f + 1, off, left => if left = 0 then [] else
      let n := min (4096 - (src + off) % 4096) left
      { off := off, len := n } :: pageSegs src f (off + n) (left - n)

/-- The segments of a descriptor (R257). -/
def Desc.segs (d : Desc) : List Seg :=
  if d.mode = 1 ∨ d.mode = 2 ∨ d.mode = 3 then
    unitSegs (4096 / d.unit * d.unit) (d.len / (4096 / d.unit * d.unit) + 1) 0 d.len
  else pageSegs d.src (d.len / 4096 + 2) 0 d.len

/-- The source spans a segment reads: one, or one in each plane in mode 2 (R257). -/
def Desc.spans (d : Desc) (g : Seg) : List (Nat × Nat) :=
  if d.mode = 2 then (List.range 3).map fun p => (d.src + p * (d.len / 3) + g.off / 3, g.len / 3)
  else [(d.src + g.off, g.len)]

/-! Reshuffling (R257). -/

/-- A byte string cut into units. -/
def unitsOf (n : Nat) (l : List Byte) : List (List Byte) := chunksOf n (l.length / n + 1) l

/-- Every third element from place `p`. -/
def everyThird {α : Type} (p : Nat) (l : List α) : List α := (l.zipIdx.filter fun q => decide (q.2 % 3 = p)).map (·.1)

/-- Bits packed eight to a byte, the first in bit 0. -/
def packBools : Nat → List Bool → List Byte
  | 0, _ => []
  | f + 1, l => if l.isEmpty then [] else
      BitVec.ofNat 8 (((l.take 8).zipIdx).foldl (fun t p => t + b2n p.1 * 2 ^ p.2) 0) :: packBools f (l.drop 8)

/-- What a segment's data becomes, and where each piece goes. -/
def Desc.writes (d : Desc) (g : Seg) : List (Nat × List Byte) :=
  match d.mode with
  | 1 => (List.range 3).map fun p =>
      (d.dst + p * (d.len / 3) + g.off / 3, (everyThird p (unitsOf d.sample g.data)).flatten)
  | 2 =>
    let plane (p : Nat) := unitsOf d.sample (sliceB g.data (p * (g.len / 3)) (g.len / 3))
    [(d.dst + g.off, ((plane 0).zip ((plane 1).zip (plane 2))).flatMap fun q => q.1 ++ q.2.1 ++ q.2.2)]
  | 3 => [(d.dst + g.off / 16,
      packBools (g.len / 16 + 1) ((unitsOf 2 g.data).map fun u => bitOf (leNat u % 4096) d.param))]
  | 4 => [(d.dst + g.off, (unitsOf 2 g.data).flatMap List.reverse)]
  | 5 => [(d.dst + g.off, (unitsOf 4 g.data).flatMap List.reverse)]
  | _ => [(d.dst + g.off, g.data)]

/-! Quotas (R266, R267). -/

/-- The instances of a register that are not at their Reset value. -/
def State.listed (s : State) (r : Reg) : List Nat :=
  (s.dev.regs.filter fun p => decide (p.1 % 512 = r.ctorIdx)).map fun p => p.1 / 512

/-- The owner of a resource, 0xFFFF for none (R52). -/
def State.ownerOf (s : State) (res : Nat) : Nat := smGet 0xFFFF s.dev.own.owner res

/-- The quota slot of a stream's owner. -/
def State.streamSlot (s : State) (n : Nat) : Option Nat :=
  let f := s.ownerOf (0x08000000 + n)
  (List.range 64).find? fun k => decide (s.fld F.dmaQuotaOwnFeature k = f ∧ f ≠ 0xFFFF)

/-- Segments in flight with a DRAM destination of an owner. -/
def State.slotSegs (s : State) (k : Nat) : Nat :=
  s.dev.dma.chains.foldl (fun t p =>
    if s.fld F.dmaQCtlOwner p.1 = k then
      p.2.works.foldl (fun t w =>
        if w.desc.dst < 2 ^ 35 then
          t + (w.segs.filter fun g => decide (g.st = .reading ∨ g.st = .filled)).length else t) t
    else t) 0

/-- USE of a quota slot in 4 KiB units (R266). -/
def State.useOf (s : State) (k : Nat) : Nat :=
  let streams := ((List.range 64).filter fun n => s.flag F.acqStrCtlOn n && decide (s.streamSlot n = some k)).foldl
    (fun t n => t + (s.ringSize n + 4095) / 4096) 0
  let queues := ((s.listed .dmaCqCtl).filter fun q =>
    s.flag F.dmaCqCtlEn q && decide (s.fld F.dmaCqCtlOwner q = k ∧ s.pair .dmaCqBaseLo .dmaCqBaseHi q < 2 ^ 35)).foldl
      (fun t q => t + (16 * 2 ^ s.fld F.dmaCqCtlSizeLog2 q + 4095) / 4096) 0
  streams + queues + s.slotSegs k

/-- USE and OVER follow; each entry into over-quota counts (R267). -/
def State.refreshUse (s : State) (k : Nat) : State :=
  let u := s.useOf k
  let ovr := decide (s.fld F.dmaQuotaQuota k ≤ u)
  let s1 := (s.setFld F.dmaUseUse k (satN 23 u)).setFlag F.dmaUseOver k ovr
  if ovr && !s.flag F.dmaUseOver k then (s1.setFlag F.dmaUseOverSeen k true).bump F.dmaOverCntCount k 1 else s1

/-- May the owner of a chain fetch, or issue to DRAM? -/
def State.quotaOpen (s : State) (c : Nat) : Bool :=
  let k := s.fld F.dmaQCtlOwner c
  decide (s.useOf k < s.fld F.dmaQuotaQuota k)

/-! Issuing segments (R255). -/

/-- Segments in flight in a descriptor. -/
def DescWork.flying (w : DescWork) : Nat := (w.segs.filter fun g => decide (g.st = .reading ∨ g.st = .filled)).length

/-- The descriptor of a chain that has segments to issue. -/
def Chain.issuing (x : Chain) : Option DescWork :=
  x.works.find? fun w => decide (w.error = 0) && w.segs.any fun g => decide (g.st = .waiting)

/-- Is a descriptor held by a read engine: some segment issued? -/
def DescWork.begun (w : DescWork) : Bool := w.segs.any fun g => decide (g.st ≠ .waiting)

/-- Does a read engine hold the descriptor: some segment has been issued, and not every read has returned (R255)? -/
def DescWork.inReads (w : DescWork) : Bool :=
  w.begun && w.segs.any fun g => decide (g.st = .reading) || (decide (g.st = .waiting) && decide (w.error = 0))

/-- How many of the eight read engines hold a descriptor. -/
def State.engines (s : State) : Nat :=
  s.dev.dma.chains.foldl (fun t p => t + (p.2.works.filter (·.inReads)).length) 0

/-- A span cut at 4 KiB boundaries: the place of each piece in the span, and its length. -/
def pagePieces (a : Nat) : Nat → Nat → Nat → List (Nat × Nat)
  | 0, _, _ => []
  | f + 1, off, left => if left = 0 then [] else
      let n := min (4096 - (a + off) % 4096) left
      (off, n) :: pagePieces a f (off + n) (left - n)

/-- The reads of a segment: for each piece of a page its address, its place in the segment and its length. -/
def Desc.reads (d : Desc) (g : Seg) : List (Nat × Nat × Nat) :=
  ((d.spans g).foldl (fun (p : List (Nat × Nat × Nat) × Nat) q =>
    (p.1 ++ (pagePieces q.1 3 0 q.2).map (fun k => (q.1 + k.1, p.2 + k.1, k.2)), p.2 + q.2)) ([], 0)).1

/-- Has a link tags for the reads of the descriptor's next segment (R300)? -/
def State.tagsOpen (s : State) (w : DescWork) : Bool :=
  match bridgeLink w.desc.src, w.segs.find? fun g => decide (g.st = .waiting) with
  | some n, some g => decide ((s.link n).reads.length + (w.desc.reads g).length ≤ 64)
  | _, _ => true

/-- The chain that issues next: one whose descriptor an engine holds and that has fewer than 8 segments in flight, or,
while an engine is free, the chain of highest PRIO, among equals the next in turn. -/
def State.nextIssue (s : State) : Option Nat :=
  let l := s.dev.dma.chains.filterMap fun p => p.2.issuing.map fun w => (p.1, w)
  let open' (p : Nat × DescWork) : Bool :=
    (decide (2 ^ 35 ≤ p.2.desc.dst) || s.quotaOpen p.1) && s.tagsOpen p.2
  match l.find? fun p => p.2.begun && decide (p.2.flying < 8) && open' p with
  | some p => some p.1
  | none =>
    if 8 ≤ s.engines then none
    else
      let free := l.filter fun p => !p.2.begun && open' p
      let top := free.foldl (fun m p => max m (s.fld F.dmaQCtlPrio p.1)) 0
      let best := free.filter fun p => decide (s.fld F.dmaQCtlPrio p.1 = top)
      match best.find? fun p => decide (s.dev.dma.robin < p.1) with
      | some p => some p.1
      | none => best.head?.map (·.1)

/-- Change the first waiting segment of a list. -/
def firstWaiting (f : Seg → Seg) : List Seg → List Seg
  | [] => []
  | g :: l => if g.st = .waiting then f g :: l else g :: firstWaiting f l

/-- Change the descriptor at an address. -/
def mapWork (a : Nat) (f : DescWork → DescWork) (l : List DescWork) : List DescWork :=
  l.map fun w => if w.addr = a then f w else w

/-- The lowest tag of a link that no read uses (R300). -/
def freeTag (l : List BridgeRead) : Nat := ((List.range 64).find? fun t => l.all fun r => decide (r.tag ≠ t)).getD 64

/-- The reads of a segment leave, rounded outward to beats of 64 bytes (R256); reads through a bridge window go to the peer as
MEM_RD frames. -/
def State.readSpans (s : State) (c : Nat) (d : Desc) (g : Seg) : State :=
  match bridgeLink d.src with
  | none => s
  | some n => (d.reads g).foldl (fun (t : State) q =>
      let l := t.link n
      let tag := freeTag l.reads
      let lo := q.1 / 64 * 64
      let len := (q.1 + q.2.2 + 63) / 64 * 64 - lo
      (t.setLink n { l with reads := l.reads ++ [⟨tag, c, g.off, q.2.1, q.1 - lo, q.2.2, len⟩] }).linkSend n 0x11 0 0 0
        (leBytes 8 ((t.pair .lnkBrBaseLo .lnkBrBaseHi n + lo % 0x40000000) % 2 ^ 64) ++ leBytes 2 len ++ leBytes 2 tag)) s

/-- One segment is issued; an engine that takes a descriptor moves the turn of its chain on. -/
def State.issueOne (s : State) (c : Nat) : State :=
  match (s.chain c).issuing with
  | none => s
  | some w =>
    match w.segs.find? fun g => decide (g.st = .waiting) with
    | none => s
    | some g =>
      let bridge := (bridgeLink w.desc.src).isSome
      let s1 := s.setChain c { s.chain c with works := mapWork w.addr (fun v => { v with
        segs := firstWaiting (fun k => { k with st := .reading, left := if bridge then k.len else 0 }) v.segs }) (s.chain c).works }
      let s2 := if w.begun then s1 else s1.onDev fun d => { d with dma := { d.dma with robin := c } }
      (s2.readSpans c w.desc g).refreshUse (s2.fld F.dmaQCtlOwner c)

/-- All segments in flight in the device. -/
def State.flying (s : State) : Nat :=
  s.dev.dma.chains.foldl (fun t p => t + p.2.works.foldl (fun t w => t + w.flying) 0) 0

/-- Issue segments while slots, engines and quotas allow (R255, R267). -/
def issueAll : Nat → State → State
  | 0, s => s
  | f + 1, s => if 64 ≤ s.flying then s else
      match s.nextIssue with
      | some c => issueAll f (s.issueOne c)
      | none => s

/-- Issue what can be issued. -/
def State.issue (s : State) : State := issueAll 64 s

/-! Halting (R263, R265, R269). -/

/-- A chain halts with a cause; descriptors fetched behind the one that halted it are given up, and its owner's use falls
(R263, R267). -/
def State.halt (s : State) (c cause : Nat) : State :=
  (((s.setChain c { s.chain c with works := [], fetch := none, reread := false, newHead := false, stopping := false }).setChainState
    c 3).setFld F.dmaQStsHaltCause c cause).refreshUse (s.fld F.dmaQCtlOwner c)

/-- A fetch begins; where the chain holds no descriptor CUR names what is fetched (R253). -/
def State.startFetch (s : State) (c a : Nat) : State :=
  let s1 := s.setChain c { s.chain c with fetch := some a, reread := false, newHead := false }
  if (s.chain c).works.isEmpty then s1.setCur c a else s1

/-- A fetch has failed (R265): CUR names the address, event 9 is posted. -/
def State.fetchError (s : State) (c a : Nat) : State := ((s.halt c 6).setCur c a).post 9 c

/-- A stopping chain without work enters IDLE, where CUR shows the last descriptor completed (R253). -/
def State.settleStop (s : State) (c : Nat) : State :=
  let x := s.chain c
  if x.stopping && x.works.isEmpty && x.waitCq.isNone then
    ((s.setChain c { x with stopping := false, fetch := none, reread := false }).setChainState c 0).setCur c x.lastDone
  else s

/-- The chain goes on behind a completed descriptor (R262, R265): its NEXT is followed, or its control word re-read. -/
def State.follow (s : State) (c : Nat) : State :=
  let x := s.chain c
  if x.stopping then s.settleStop c
  else if x.lastEoc then s.setChain c { x with reread := true }
  else if x.works.isEmpty && x.fetch.isNone then s.startFetch c x.lastNext
  else s

/-! Completion (R258, R259, R260, R264). -/

/-- STATUS of a finished descriptor: CODE and DATA_SUSPECT. -/
def statusOf (w : DescWork) : Nat := if w.error ≠ 0 then w.error else if w.suspect then 0x101 else 0

/-- The record of a finished descriptor. -/
def recordOf (w : DescWork) : CqRec :=
  { low7 := descLow7 w.addr, done := if w.error = 0 then w.desc.len else w.doneBytes, status := statusOf w, time := none }

/-- The descriptor counts as the last one completed: what its chain follows (R262, R265). -/
def State.descDone (s : State) (c : Nat) (w : DescWork) : State :=
  let x := s.chain c
  s.setChain c { x with
    works := x.works.filter fun v => decide (v.addr ≠ w.addr)
    lastEoc := w.desc.eoc, lastNext := w.desc.next, lastDone := w.addr }

/-- What follows the record of a descriptor: the counters, CUR, and the chain's way on. -/
def State.afterRecord (s : State) (c : Nat) (w : DescWork) : State :=
  let s1 := (s.descDone c w).bump F.dmaQDescCntCount c 1
  let s2 := if w.suspect && decide (w.error = 0) then s1.bump F.dmaQSuspectCntCount c 1 else s1
  let s3 := s2.setCur c (match (s2.chain c).works with
    | v :: _ => v.addr
    | [] => if w.desc.eoc then w.addr else w.desc.next)
  if w.error ≠ 0 then s3.halt c w.error
  else if w.suspect && w.desc.halt then s3.halt c 1
  else s3.follow c

/-- A descriptor ends without a record (R249, R260): its chain halts with a cause and CUR names it. -/
def State.haltBare (s : State) (c cause : Nat) (w : DescWork) : State := ((s.descDone c w).halt c cause).setCur c w.addr

/-- STATUS is written into a descriptor (R252, R258). -/
def State.putStatus (s : State) (w : DescWork) (sts : Nat) : State := s.dmaWrite (w.addr + 30) (leBytes 2 (sts + 0x8000))

/-- A descriptor's completion record has no place in R249: it ends with ADDR_ERR (log entry 76). -/
def State.lostRecord (s : State) (c : Nat) (w : DescWork) : State := (s.putStatus w 4).haltBare c 4 w

/-- Write a descriptor's record into queue k and go on, or wait for room (R249, R260). -/
def State.writeRecord (s : State) (c k : Nat) (w : DescWork) : State :=
  if s.cqFull k then
    ((s.setChain c { s.chain c with waitCq := some (k, recordOf w) }).setFlag F.dmaCqStsFull k true).onDev fun d =>
      { d with dma := { d.dma with cqWait := d.dma.cqWait ++ [c] } }
  else if s.cqReachable k then
    (s.cqWrite k (recordOf w) (w.desc.irq || decide (statusOf w ≠ 0))).afterRecord c w
  else s.lostRecord c w

/-- A descriptor is finished: STATUS, then its record (R255, R258). With its queue disabled the record goes to the fallback
queue; with that disabled too, the chain halts with neither, and event 9 is posted as under R265 (R260). -/
def State.finishDesc (s : State) (c : Nat) (w : DescWork) : State :=
  let k := if w.fallback then s.fld F.dmaQCtlFbCq c else w.desc.cq
  if w.fallback && !s.flag F.dmaCqCtlEn k then (s.haltBare c w.error w).post 9 c
  else if !s.cqFull k && !s.cqReachable k then s.lostRecord c w
  else (s.putStatus w (statusOf w)).writeRecord c k w

/-- Finish the oldest descriptor of a chain once all its segments are written, and those behind it that are. -/
def finishAll (c : Nat) : Nat → State → State
  | 0, s => s
  | n + 1, s =>
    match (s.chain c).works with
    | w :: _ =>
      if (s.chain c).waitCq.isNone && w.segs.all fun g => decide (g.st = .written) then finishAll c n (s.finishDesc c w) else s
    | [] => s

/-- Finish every descriptor of a chain that can be finished, in order. -/
def State.tryFinish (s : State) (c : Nat) : State := finishAll c (s.chain c).works.length s

/-! Fetching (R250, R265). -/

/-- Bytes at an address of the device, or the bytes given where it lies in host memory; none where they cannot be read. -/
def State.fetchBytes (s : State) (a n : Nat) (host : List Byte) (err : Bool) : Option (List Byte) :=
  match s.spanTarget a n with
  | .dram => if err || s.poisoned a n then none else some (s.bytes a n)
  | .sram => if err || s.poisoned a n then none else some (s.bytes a n)
  | .host => if err then none else some (sliceB host 0 n)
  | _ => none

/-- A read of general SRAM that meets uncorrectable words counts and reports each (R273). -/
def State.readUe (s : State) (a n : Nat) : State :=
  if s.spanTarget a n = .sram then (s.dev.poison.filter (poisonHits a n)).foldl (fun t _ => t.sramUe 3) s else s

/-- A descriptor fetch returns (R250, R257, R265). `host` gives the bytes where the descriptor lies in host memory. -/
def State.descFetched (s : State) (c : Nat) (host : List Byte) (err : Bool) : State :=
  let x := s.chain c
  match x.fetch with
  | none => s
  | some a =>
    if !s.dmaRuns || !s.quotaOpen c || x.waitCq.isSome then s
    else
      let bytes := if a % 32 ≠ 0 then none else s.fetchBytes a 32 host err
      match bytes with
      | none => (if a % 32 ≠ 0 then s else s.readUe a 32).fetchError c a
      | some b =>
        let d := readDesc b
        let off := !s.flag F.dmaCqCtlEn d.cq
        let code := if off then 5 else s.descCheck d
        let w : DescWork := { addr := a, desc := d, segs := if code = 0 then d.segs else [], error := code, fallback := off }
        let s1 := s.setChain c { x with fetch := none, works := x.works ++ [w] }
        let s2 := if x.works.isEmpty then s1.setCur c a else s1
        if code = 0 then s2.issue else s2.tryFinish c

/-- When every read of the newest descriptor has returned and its EOC was clear, the next fetch begins (R255). -/
def State.fetchAhead (s : State) (c : Nat) : State :=
  let x := s.chain c
  match x.works.getLast? with
  | some w =>
    if w.segs.all (fun g => decide (g.st = .filled ∨ g.st = .written)) && !w.desc.eoc && decide (w.error = 0)
        && !x.stopping && x.fetch.isNone && decide (x.works.length < 2) && !(w.suspect && w.desc.halt) then
      s.setChain c { x with fetch := some w.desc.next }
    else s
  | none => s

/-! Segments (R255, R256, R263, R264). -/

/-- The longest prefix of the source whose segments are all written (R263). -/
def prefixDone : List Seg → Nat
  | [] => 0
  | g :: l => if g.st = .written then g.len + prefixDone l else 0

/-- A segment ends a descriptor with an error: what is in flight completes, nothing more is issued (R263). -/
def DescWork.fail (w : DescWork) (off code : Nat) : DescWork :=
  if w.error ≠ 0 then { w with segs := w.segs.filter fun g => decide (g.off ≠ off) }
  else { w with
    error := code, doneBytes := prefixDone w.segs
    segs := w.segs.filter fun g => decide (g.off ≠ off ∧ g.st ≠ .waiting) }

/-- Change one segment of a descriptor. -/
def DescWork.onSeg (w : DescWork) (off : Nat) (f : Seg → Seg) : DescWork :=
  { w with segs := w.segs.map fun g => if g.off = off then f g else g }

/-- The descriptor and segment a chain has in a state at an offset. -/
def Chain.findSeg (x : Chain) (off : Nat) (st : SegSt) : Option (DescWork × Seg) :=
  (x.works.filterMap fun w => (w.segs.find? fun g => decide (g.off = off ∧ g.st = st)).map fun g => (w, g)).head?

/-- `n` free bytes: data received with an error (log entry 6). -/
def State.freeBytes (s : State) : Nat → List Byte × State
  | 0 => ([], s)
  | n + 1 =>
    let r := s.draw
    let t := r.2.freeBytes n
    (BitVec.ofNat 8 (Config.unstated r.1).toNat :: t.1, t.2)

/-- How the reads of a segment from the device's own memory end: 0 well, 1 an error, 2 an error in the last beat of the
descriptor alone (R256, R263, R264). -/
def State.localError (s : State) (d : Desc) (g : Seg) : Nat :=
  let spans := d.spans g
  let bad := spans.flatMap fun p => (burstsOf p.1 p.2).filter fun b => s.poisoned (64 * b) 64
  match spans.getLast? with
  | some e =>
    if bad = [] then 0
    else if g.off + g.len = d.len ∧ bad = [(e.1 + e.2 - 1) / 64] then 2 else 1
  | none => 0

/-- The bytes of a segment that lie in the last beat. -/
def Desc.lastBeat (d : Desc) (g : Seg) : Nat :=
  match (d.spans g).getLast? with
  | some e => min e.2 ((e.1 + e.2 - 1) % 64 + 1)
  | none => 0

/-- What the reads of a segment bring: its data and how they ended. An error is one of the last beat only where the segment
holds the descriptor's last bytes (R264). -/
def State.segData (s : State) (d : Desc) (g : Seg) (host : List Byte) (err : Nat) : (List Byte × Nat) × State :=
  let err := if err = 2 ∧ g.off + g.len ≠ d.len then 1 else err
  match s.spanTarget d.src d.len with
  | .host => ((sliceB host 0 g.len, err), s)
  | .window => ((g.data, min err 1), s)
  | _ =>
    let e := if err = 0 then s.localError d g else err
    let own := (d.spans g).flatMap fun p => s.bytes p.1 p.2
    let s1 := (d.spans g).foldl (fun t p => t.readUe (p.1 / 64 * 64) ((p.1 + p.2 + 63) / 64 * 64 - p.1 / 64 * 64)) s
    if e = 2 then
      let k := d.lastBeat g
      let r := s1.freeBytes k
      ((own.take (g.len - k) ++ r.1, 2), r.2)
    else ((own, e), s1)

/-- A segment's reads have returned into its slot (R255). `host` gives the data of host memory; `err` says how the reads
ended: 0 well, 1 an error, 2 an error answering the last beat (R264). -/
def State.segRead (s : State) (c off : Nat) (host : List Byte) (err : Nat) : State :=
  match (s.chain c).findSeg off .reading with
  | none => s
  | some (w, g) =>
    if !s.dmaRuns || decide (g.left ≠ 0 ∧ err = 0) then s
    else
      let r := s.segData w.desc g host err
      let x := r.2.chain c
      if r.1.2 = 1 then
        (((r.2.setChain c { x with works := mapWork w.addr (fun v => v.fail off 2) x.works }).tryFinish c).issue).refreshUse
          (s.fld F.dmaQCtlOwner c)
      else
        let s1 := r.2.setChain c { x with works := mapWork w.addr (fun v =>
          ({ v with suspect := v.suspect || decide (r.1.2 = 2) }).onSeg off fun k =>
            { k with st := .filled, data := r.1.1, left := 0 }) x.works }
        (s1.fetchAhead c).issue

/-- May the last write of a segment be accepted now (R301, R306, R308)? -/
def State.writeOpen (s : State) (d : Desc) (last : Bool) : Bool :=
  match s.spanTarget d.dst d.out with
  | .host => s.flag F.pciStsDlUp 0
  | .window =>
    match ethWindow d.dst, bridgeLink d.dst with
    | some n, _ => !last || s.windowRoom n
    | none, some n => decide (s.fld F.lnkStsState n = 4)
    | none, none => true
  | _ => true

/-- Does a piece fall into the firmware region, or onto grains that no channel serves (R285, R386)? -/
def State.writeRefused (s : State) (a n : Nat) : Bool :=
  match s.spanTarget a n with
  | .dram => decide (a < s.fwSize) || (s.channels.any s.channelDead && (burstsOf a n).any fun p => s.deadByte (64 * p))
  | _ => false

/-- Insert a piece by its address. -/
def insertPiece (p : Nat × List Byte) : List (Nat × List Byte) → List (Nat × List Byte)
  | [] => [p]
  | q :: l => if p.1 ≤ q.1 then p :: q :: l else q :: insertPiece p l

/-- The payload a finished descriptor wrote to a transmit window, in address order. -/
def DescWork.payload (w : DescWork) : List Byte :=
  ((w.segs.flatMap fun g => w.desc.writes g).foldl (fun l p => insertPiece p l) []).flatMap (·.2)

/-- The last write of a segment is accepted by its target (R255, R256); `err` is an error response to it. -/
def State.segWritten (s : State) (c off : Nat) (err : Bool) : State :=
  match (s.chain c).findSeg off .filled with
  | none => s
  | some (w, g) =>
    let last := w.segs.all fun k => decide (k.off = off ∨ k.st = .written)
    if !s.dmaRuns || !s.writeOpen w.desc last then s
    else
      let pieces := w.desc.writes g
      let posted := decide (s.spanTarget w.desc.dst w.desc.out = .host)
      let refused := !posted && (err || pieces.any fun p => s.writeRefused p.1 p.2.length)
      let done (x : Chain) : Chain := { x with works := mapWork w.addr (fun v => v.onSeg off fun k =>
        { k with st := .written, data := if (ethWindow w.desc.dst).isSome then k.data else [] }) x.works }
      let s1 := if refused then s.setChain c { s.chain c with works := mapWork w.addr (fun v => v.fail off 3) (s.chain c).works }
        else match ethWindow w.desc.dst with
          | some n =>
            let t := s.setChain c (done (s.chain c))
            if last && decide (w.error = 0) then t.windowFrame n w.payload else t
          | none =>
            let t := pieces.foldl (fun t p => t.dmaWrite p.1 p.2) s
            t.setChain c (done (t.chain c))
      (((s1.refreshUse (s.fld F.dmaQCtlOwner c)).tryFinish c).fetchAhead c).issue

/-! Re-reads (R262). -/

/-- The re-read of a tail's control word returns (R262): bytes 24 to 31, and NEXT where EOC has been cleared. `host` gives
bytes 0 to 31 where the descriptor lies in host memory. -/
def State.reread (s : State) (c : Nat) (host : List Byte) (err : Bool) : State :=
  let x := s.chain c
  if !x.reread || !s.dmaRuns then s
  else
    let a := x.lastDone
    match s.fetchBytes (a + 24) 8 (host.drop 24) err with
    | none => (s.readUe (a + 24) 8).fetchError c a
    | some b =>
      if !bitOf (leAt b 3 1) 0 then
        match s.fetchBytes a 8 host err with
        | none => (s.readUe a 8).fetchError c a
        | some n => ((s.startFetch c (leAt n 0 8)).setFlag F.dmaQStsDbPend c false).setChainState c 1
      else if s.flag F.dmaQStsDbPend c then s.setFlag F.dmaQStsDbPend c false
      else ((s.setChain c { x with reread := false }).setChainState c 2).setCur c a

/-! What registers start (R253, R254). -/

/-- A doorbell (R254, R262, R265). -/
def State.doorbell (s : State) (c : Nat) : State :=
  let x := s.chain c
  if !s.flag F.dmaQCtlEn c then s.bump F.dmaQStsDbIgn c 1
  else match s.fld F.dmaQStsState c with
    | 0 => (s.startFetch c (s.headOf c)).setChainState c 1
    | 1 => s.setFlag F.dmaQStsDbPend c true
    | 2 => (s.setChain c { x with reread := true }).setChainState c 1
    | _ =>
      let cause := s.fld F.dmaQStsHaltCause c
      let s1 := s.setChainState c 1
      if x.newHead then s1.startFetch c (s.headOf c)
      else if cause = 6 ∨ cause = 7 then s1.startFetch c (s.cur c)
      else s1.follow c

/-- EN has been written to a chain (R253): 0 ends fetching. -/
def State.chainEn (s : State) (c : Nat) (was : Bool) : State :=
  if was && !s.flag F.dmaQCtlEn c then
    let x := s.chain c
    if s.fld F.dmaQStsState c = 1 then (s.setChain c { x with stopping := true, fetch := none, reread := false }).settleStop c
    else ((s.setChain c { x with fetch := none, reread := false }).setChainState c 0).setCur c x.lastDone
  else s

/-- HEAD has been written to a chain in IDLE or HALTED (R253). -/
def State.headWritten (s : State) (c : Nat) : State := s.setChain c { s.chain c with newHead := true }

/-- May HEAD be written (R253)? -/
def State.headOpen (s : State) (c : Nat) : Bool := decide (s.fld F.dmaQStsState c = 0 ∨ s.fld F.dmaQStsState c = 3)

/-! Completion queues (R260, R266, R268, R438). -/

/-- A chain that waits for queue k writes its record and goes on. -/
def State.releaseChain (s : State) (c k : Nat) : State :=
  match (s.chain c).works with
  | w :: _ => ((((s.setChain c { s.chain c with waitCq := none }).writeRecord c k w).fetchAhead c).tryFinish c).issue
  | [] => s

/-- Waiting completion records of a queue are written while it has room, in order of waiting. -/
def drainChains (k : Nat) : Nat → State → State
  | 0, s => s
  | f + 1, s =>
    if s.cqFull k then s
    else match s.dev.dma.cqWait.find? fun c => decide (((s.chain c).waitCq.map (·.1)) = some k) with
      | none => s
      | some c => drainChains k f ((s.onDev fun d => { d with dma := { d.dma with
          cqWait := d.dma.cqWait.filter (· ≠ c) } }).releaseChain c k)

/-- Pending event slots routed to a queue are written while it has room (R438). -/
def State.drainEvents (s : State) (k : Nat) : State :=
  (List.range 64).foldl (fun t e =>
    match t.evtSlot e with
    | some x => if t.fld F.sysEvtRouteEq e = k ∧ t.cqFull k = false then (t.setEvtSlot e none).cqWrite k (evtRec e x) true else t
    | none => t) s

/-- FULL shows a record waiting for room. -/
def State.showFull (s : State) (k : Nat) : State :=
  s.setFlag F.dmaCqStsFull k ((s.dev.dma.cqWait.any fun c => decide (((s.chain c).waitCq.map (·.1)) = some k))
    || (List.range 64).any fun e => (s.evtSlot e).isSome && decide (s.fld F.sysEvtRouteEq e = k))

/-- Room has come in a completion queue (R260). -/
def State.drainQueue (s : State) (k : Nat) : State :=
  ((drainChains k s.dev.dma.cqWait.length s).drainEvents k).showFull k

/-- An RD write of a queue that does not move RD past WR (R260). -/
def State.cqRdLegal (s : State) (k v : Nat) : Bool :=
  let m := 2 ^ s.fld F.dmaCqCtlSizeLog2 k
  decide (v < m) && decide ((v + m - s.reg .dmaCqRd k % m) % m ≤ (s.reg .dmaCqWr k + m - s.reg .dmaCqRd k % m) % m)

/-- COAL_US has passed since the first pending record (R268); 0 disables this timer. -/
def State.coalesce (s : State) (k : Nat) : State :=
  if s.cqPending k = 0 ∨ s.fld F.dmaCqCoalCoalUs k = 0 then s else s.cqInterrupt k

/-- Would enabling a ring of `units` take a slot's use above its quota (R266)? -/
def State.overQuota (s : State) (slot units : Nat) : Bool :=
  decide (s.fld F.dmaQuotaQuota slot < s.useOf slot + units)

/-! Stops (R269, R306). -/

/-- A chain that holds a descriptor, or fetches one, halts with STATE; CUR names the first descriptor without a record. -/
def State.abandonChain (s : State) (c : Nat) : State :=
  let x := s.chain c
  if s.fld F.dmaQStsState c ≠ 1 then s
  else
    let cur := match x.works, x.fetch with
      | w :: _, _ => some w.addr
      | [], f => f
    match cur with
    | some a => ((s.setChain c { x with waitCq := none, stopping := false }).halt c 7).setCur c a
    | none => ((s.setChain c { x with reread := false, stopping := false }).setChainState c (if x.stopping then 0 else 2)).setCur
        c x.lastDone

/-- Records that no chain waits with any longer leave FULL. -/
def State.showWaits (s : State) (l : List (Nat × Chain)) : State :=
  l.foldl (fun t p => match p.2.waitCq with | some (k, _) => t.showFull k | none => t) s

/-- Entry to STABLED or FAULT (R269). -/
def State.abandonChains (s : State) : State :=
  let s1 := s.dev.dma.chains.foldl (fun t p => t.abandonChain p.1) s
  (s1.onDev fun d => { d with dma := { d.dma with cqWait := [] }
                              links := d.links.map fun p => (p.1, { p.2 with reads := [] }) }).showWaits s.dev.dma.chains

/-- Chains that hold a descriptor with a host address halt (R306). -/
def State.abandonHost (s : State) : State :=
  let s1 := s.dev.dma.chains.foldl (fun t p =>
    if p.2.works.any fun w => decide (2 ^ 63 ≤ w.addr ∨ 2 ^ 63 ≤ w.desc.src ∨ 2 ^ 63 ≤ w.desc.dst) then
      (t.abandonChain p.1).onDev fun d => { d with dma := { d.dma with cqWait := d.dma.cqWait.filter (· ≠ p.1) } }
    else t) s
  (s1.showWaits s.dev.dma.chains).issue

/-- A host read of a segment has not completed in time (R306). -/
def State.completionTimeout (s : State) (c off : Nat) : State :=
  match (s.chain c).findSeg off .reading with
  | some (w, _) =>
    if s.spanTarget w.desc.src w.desc.len = .host then (s.bump F.pciCplToCntCount 0 1).segRead c off [] 1 else s
  | none => s

/-- DESCRIPTOR_FETCHED of a chain. -/
def execDescriptorFetched (chain : Fin 4096) (host : List Byte) (err : Bool) (s : State) :
    Host.Outcome State Fault Refusal :=
  .next (inDev (State.descFetched · chain host err) s)

/-- Words of general SRAM that the reads of a segment have corrected (R272). -/
def State.segFixed (s : State) (c off n : Nat) : State :=
  match (s.chain c).findSeg off .reading with
  | some (w, _) =>
    if s.dmaRuns ∧ n ≠ 0 ∧ s.spanTarget w.desc.src w.desc.len = .sram then s.bump F.memSramCeCntCount 0 n else s
  | none => s

/-- SEGMENT_READ_DONE of the segment at an offset of a chain's descriptor: how its reads ended, and how many words of general SRAM they
corrected. -/
def execSegmentReadDone (chain : Fin 4096) (off : BitVec 24) (host : List Byte) (err : Fin 3 × BitVec 10) (s : State) :
    Host.Outcome State Fault Refusal :=
  .next (inDev (fun s => (s.segFixed chain off.toNat err.2.toNat).segRead chain off.toNat host err.1) s)

/-- SEGMENT_WRITE_ACCEPTED of the segment at an offset of a chain's descriptor. -/
def execSegmentWriteAccepted (chain : Fin 4096) (off : BitVec 24) (err : Bool) (s : State) :
    Host.Outcome State Fault Refusal :=
  .next (inDev (State.segWritten · chain off.toNat err) s)

/-- CONTROL_REREAD of a chain. -/
def execControlReread (chain : Fin 4096) (host : List Byte) (err : Bool) (s : State) :
    Host.Outcome State Fault Refusal :=
  .next (inDev (State.reread · chain host err) s)

/-- COALESCING_TIMEOUT of a completion queue. -/
def execCoalescingTimeout (queue : Fin 4096) (s : State) : Host.Outcome State Fault Refusal :=
  .next (inDev (State.coalesce · queue) s)

/-- COMPLETION_TIMEOUT of a host read of a chain's segment. -/
def execCompletionTimeout (chain : Fin 4096) (off : BitVec 24) (s : State) : Host.Outcome State Fault Refusal :=
  .next (inDev (State.completionTimeout · chain off.toNat) s)

end Sys2Proof.Machine
end

