-- ==== Sys2Proof/Machine/Time.lean ====
section
/-! DEFINITION. The time base (R316 to R333): the advance of C and O, the servo, holdover, TIME_STEP, the ring's time
markers and status frames, and the reference PLL's choice of reference (R326, R366). -/
namespace Sys2Proof.Machine

/-- Apply a change to the time base. -/
def State.onTime (s : State) (f : TimeSt → TimeSt) : State := s.onDev fun d => { d with time := f d.time }

/-- Which time source the block selected; 3 is treated as 0 (R320, R333). -/
def State.timeSrc (s : State) : Nat := if s.fld F.timCtlSrc 0 = 3 then 0 else s.fld F.timCtlSrc 0

/-- The rate correction r and the phase slew s, in 2^-32 ns per ns (R317). -/
def State.rate (s : State) : Int := s.sfld F.timRateR 0
/-- The phase slew. -/
def State.slew (s : State) : Int := s.sfld F.timSlewS 0

/-- The nominal period of the clock C runs on, in ns (R32, R318). -/
def State.tickNs (s : State) : Nat :=
  match s.sys.op with
  | .off => 0
  | .stabled => if s.dev.rng.pll.relock then 10 else 1
  | _ => if s.dev.rng.pll.relock then 40 else 1

/-- C advances by one period of its clock; O accumulates, but not while STABLED lasts (R317, R318). Every period but that of
the reference PLL's output is an edge of the timing clock (R32, R82). -/
def State.tick (s : State) : State :=
  s.onTime fun t => { t with
    c := t.c + s.tickNs
    edges := if s.tickNs = 0 ∨ s.tickNs = 10 then t.edges else t.edges + 1
    o := if s.sys.op = .stabled then t.o else t.o + s.tickNs * (s.rate + s.slew) }

/-- The state of the time base changes; ALIGNED belongs to ACQUIRING and LOCKED, and each change posts event 1 (R320,
R436). -/
def State.setTimState (s : State) (v : Nat) : State :=
  if s.fld F.timStsState 0 = v then s
  else
    let s1 := s.setFld F.timStsState 0 v
    (if v = 2 ∨ v = 3 then s1 else s1.setFlag F.timStsAligned 0 false).post 1 v

/-- LOSS_MS in ns. -/
def State.lossNs (s : State) : Nat := s.fld F.timCtlLossMs 0 * 1000000

/-- Instants of this device kept for later measurements, moved with a step of T (R325). -/
def RingTime.shift (r : RingTime) (ns : Int) : RingTime :=
  let f := fun t : Nat => unsigned 64 ((t : Int) + ns * 256)
  { r with rxArrival := f r.rxArrival, t3 := f r.t3, sent := r.sent.map fun p => (p.1, f p.2) }

/-- O is stepped, in 2^-32 ns; the step counts as an update for T_u (R322, R325). -/
def State.stepO (s : State) (fix : Int) : State :=
  s.onTime fun t => { t with
    o := t.o + fix, lastUpdate := t.c, sum := []
    ring0 := t.ring0.shift (divFloor fix (2 ^ 32)), ring1 := t.ring1.shift (divFloor fix (2 ^ 32)) }

/-- The slew limit, and the limit of r: 200 ppm, in 2^-32 ns per ns (R317). -/
def State.slewLimit (s : State) : Int := divFloor (s.fld F.timCtlSlewMax 0 * 2 ^ 32) 1000000

/-- The limit of r. -/
def rateLimit : Int := 858993

/-- One quotient of the servo in 2^-32 ns per ns: e over 2^gain T_u, to the nearest (R322). -/
def servoTerm (e : Int) (gain tu : Nat) : Int := divAway (e * 2 ^ 24) (2 ^ gain * tu)

/-- Does the phase term exceed SLEW_MAX? -/
def State.slewClamps (s : State) (e : Int) (tu : Nat) : Bool :=
  decide (s.fld F.timCtlSlewMax 0 * 2 ^ 32 * (2 ^ s.fld F.timServoFpLog2 0 * tu) < e.natAbs * 2 ^ 24 * 1000000)

/-- The mean of a list of integers to the nearest. -/
def meanI (l : List Int) : Int := if l.isEmpty then 0 else divAway (l.foldl (· + ·) 0) l.length

/-- One update of the servo (R322), and the state it leads to (R320). -/
def State.servo (s : State) (e : Int) : State :=
  let t := s.dev.time
  let tu := min (max 256 (t.c - t.lastUpdate)) (max 256 s.lossNs)
  let clamped := s.slewClamps e tu
  let sl := clampI (-s.slewLimit) s.slewLimit (-servoTerm e (s.fld F.timServoFpLog2 0) tu)
  let r := if clamped then s.rate
    else clampI (-rateLimit) rateLimit (s.rate - servoTerm e (s.fld F.timServoFiLog2 0) tu)
  let run := if e.natAbs < s.fld F.timServoLockThr 0 then t.lockRun + 1 else 0
  let s1 := s.onTime fun t => { t with
    lastUpdate := t.c, lastE := some e, rHist := (r :: t.rHist).take 64, lockRun := run, sum := [] }
  let s2 := ((((s1.setSfld F.timRateR 0 r).setSfld F.timSlewS 0 sl).setFlag F.timStsClamped 0 clamped).setSfld F.timErrE 0
    (clampI (-2 ^ 31) (2 ^ 31 - 1) e)).setFlag F.timStsAligned 0 (decide (e.natAbs ≤ s.fld F.timAlignAlignTol 0 * 256))
  match s.fld F.timStsState 0 with
  | 2 => if 16 ≤ run then s2.setTimState 3 else s2
  | 3 => if 4 * s.fld F.timServoLockThr 0 ≤ e.natAbs then (s2.onTime fun t => { t with lockRun := 0 }).setTimState 2 else s2
  | _ => s2

/-- May measurements arrive in this operating state (R321)? -/
def State.measures (s : State) : Bool := s.inOp [.init, .ready, .run, .safeHold]

/-- The first valid measurement, or the first after holdover, has its effect at once (R321, R324); the answer is whether
the measurement remains for an update. -/
def State.firstMeasure (s : State) (e : Int) : Bool × State :=
  let s1 := s.onTime fun t => { t with lastMeas := t.c }
  match s.fld F.timStsState 0 with
  | 0 =>
    if s.inOp [.init, .ready] then
      (false, (((s1.stepO (-e * 2 ^ 24)).onTime fun t => { t with lockRun := 0 }).setFlag F.timStsLoaded 0 true).setFlag
        F.timStsLoadPend 0 false |>.setTimState 2)
    else (false, s1.setFlag F.timStsLoadPend 0 true)
  | 1 => (false, s1)
  | 4 =>
    let s2 := (s1.setPair .timRetErrLo .timRetErrHi 0 (unsigned 64 e)).onTime fun t => { t with lockRun := 0 }
    (false, (s2.setTimState 2).servo e)
  | _ => (true, s1)

/-- A measurement that is an update of its own, as every one of SRC 2 is (R322). -/
def State.measure (s : State) (e : Int) : State :=
  let r := s.firstMeasure e
  if r.1 then r.2.servo e else r.2

/-- The time base enters HOLDOVER (R323). -/
def State.holdoverNow (s : State) : State :=
  let t := s.dev.time
  let s1 := if t.rHist.isEmpty then s else s.setSfld F.timRateR 0 (meanI t.rHist)
  (((s1.setSfld F.timSlewS 0 0).onTime fun t => { t with sum := [], lockRun := 0 }).bump F.timHoldCntCount 0 1).setTimState 4
    |>.logFault 0x0C 0 0x0E 0 0xFFFF

/-- LOSS_MS has passed with no valid measurement (R320). -/
def State.holdover (s : State) : State :=
  let st := s.fld F.timStsState 0
  if (st = 2 ∨ st = 3) ∧ s.sys.op ≠ .stabled then s.holdoverNow else s

/-- The time base on leaving STABLED (R318). -/
def State.timeWakes (s : State) : State :=
  let st := s.fld F.timStsState 0
  if (st = 2 ∨ st = 3) ∧ s.dev.time.stabledAt + s.lossNs ≤ s.dev.time.c then s.holdoverNow else s

/-- TIME_STEP with its 64-bit argument (R325): none where a step to the source has no update to step by. -/
def State.timeStep (s : State) (arg : Nat) : Option State :=
  let ns : Option Int :=
    if arg = 2 ^ 63 then s.dev.time.lastE.map fun e => divAway (-e) 256 else some (signed 64 arg)
  ns.map fun n =>
    let s1 := (s.stepO (n * 2 ^ 32)).bump F.timStepCntCount 0 1
    if s.fld F.timStsState 0 = 0 then
      let s2 := ((s1.setFlag F.timStsLoaded 0 true).setFlag F.timStsLoadPend 0 false).onTime fun t =>
        { t with lastMeas := t.c, lockRun := 0 }
      s2.setTimState (if s.timeSrc = 0 then 1 else 2)
    else s1

/-! Chains. -/

/-- What the device knows of the neighbour on ring link n. -/
def State.ringTime (s : State) (n : Nat) : RingTime := if n = 0 then s.dev.time.ring0 else s.dev.time.ring1

/-- Put it. -/
def State.setRingTime (s : State) (n : Nat) (r : RingTime) : State :=
  s.onTime fun t => if n = 0 then { t with ring0 := r } else { t with ring1 := r }

/-- Is link n a ring link in ALIGN or UP? -/
def State.ringTimed (s : State) (n : Nat) : Bool :=
  decide (n < 2 ∧ s.fld F.lnkCtlRole n = n + 1 ∧ (s.fld F.lnkStsState n = 3 ∨ s.fld F.lnkStsState n = 4))

/-- T in 1/256 ns as a 64-bit instant: bits [55:0] in ns and the fraction (R297). -/
def State.instant (s : State) : Nat := unsigned 64 s.tag256

/-- An instant as a signed distance from another, both extended with the same upper bits (R327). -/
def instantDiff (a b : Nat) : Int := signed 64 (unsigned 64 ((a : Int) - b))

/-- Has the neighbour on link n made itself an upstream candidate in the last 200 µs (R329)? -/
def State.upstreamOk (s : State) (n : Nat) : Bool :=
  let r := s.ringTime n
  (match r.statusAt with
    | some t => decide (s.dev.time.c ≤ t + 200000)
    | none => false) && r.nbLoaded && decide (r.tdist < 0xFF)

/-- The upstream of R329: the least TDIST, link 1 of equals. -/
def State.chooseUp (s : State) : Option Nat :=
  if s.upstreamOk 1 ∧ (s.upstreamOk 0 = false ∨ (s.ringTime 1).tdist ≤ (s.ringTime 0).tdist) then some 1
  else if s.upstreamOk 0 then some 0 else none

/-- Take an upstream: UP_LINK and the own TDIST follow (R329). -/
def State.setUp (s : State) (u : Option Nat) : State :=
  let s1 := s.onTime fun t => { t with up := u, sum := if t.up = u then t.sum else [] }
  match u with
  | some n =>
    let d := (s.ringTime n).tdist + 1
    (s1.setFld F.timStsUpLink 0 n).setFld F.timStsTdist 0 (if 7 < d then 0xFF else d)
  | none => s1.setFld F.timStsTdist 0 0xFF

/-- The offset and the delay of a link from the four instants (R327), in 1/256 ns. -/
def State.linkTheta (s : State) (n t1 t2 : Nat) (r : RingTime) : Int × Int :=
  let a := instantDiff t2 t1
  let b := instantDiff r.t4 r.t3
  (divAway (a - b) 2 - s.sfld F.timLinkAsymAsym n, divAway (a + b) 2)

/-- A measurement of the upstream link (R321, R322, R327). -/
def State.chainMeasure (s : State) (e : Int) : State :=
  let r := s.firstMeasure e
  if r.1 then r.2.onTime fun t => { t with sum := e :: t.sum } else r.2

/-- A time marker arrives on ring link n: its count, and the departure instant of the one before it (R297, R327). -/
def State.timeMarker (s : State) (n count dep : Nat) : State :=
  if s.ringTimed n then
    let r := s.ringTime n
    let s1 := s.setRingTime n { r with rxCount := some count, rxArrival := s.instant }
    if r.rxCount.map (fun k => (k + 1) % 256) = some count ∧ r.t34Valid then
      let p := s.linkTheta n dep r.rxArrival r
      let s2 := s1.setSfld F.timLinkDelayD n p.2
      if s.timeSrc = 1 ∧ s.dev.time.up = some n ∧ s.upstreamOk n ∧ s.measures then s2.chainMeasure p.1 else s2
    else s1
  else s

/-- A time marker leaves on link n (R297). -/
def State.timeMarkerSend (s : State) (n : Nat) : State :=
  if s.fld F.lnkStsState n = 3 ∨ s.fld F.lnkStsState n = 4 then
    let l := s.link n
    let s1 := (s.setLink n { l with timeCount := (l.timeCount + 1) % 256, lastDeparture := s.instant }).emit
      (.linkMarker n 0x3C l.timeCount l.lastDeparture)
    if n < 2 then
      let r := s.ringTime n
      s1.setRingTime n { r with sent := (l.timeCount, s.instant) :: (r.sent.filter fun p => decide (p.1 ≠ l.timeCount)) }
    else s1
  else s

/-- 2^AVG_LOG2 markers of the upstream link make one update; a change of upstream is made there (R322, R329). -/
def State.chainUpdate (s : State) : State :=
  let k := 2 ^ s.fld F.timCtlAvgLog2 0
  let l := s.dev.time.sum
  if s.timeSrc = 1 ∧ k ≤ l.length ∧ (s.fld F.timStsState 0 = 2 ∨ s.fld F.timStsState 0 = 3) ∧ s.sys.op ≠ .stabled then
    let s1 := s.servo (meanI (l.drop (l.length - k)))
    s1.setUp s1.chooseUp
  else s

/-- A time status arrives on ring link n (R328): TDIST, STATE and LOADED of the neighbour, and the arrival of a marker
this device sent. -/
def State.timeStatus (s : State) (n : Nat) (l : List Byte) : State :=
  if s.ringTimed n then
    let r := s.ringTime n
    let dep := (r.sent.find? fun p => decide (p.1 = leAt l 2 1)).map (·.2)
    let s1 := s.setRingTime n { r with
      tdist := leAt l 0 1, nbState := leAt l 1 1 % 8, nbLoaded := bitOf (leAt l 1 1) 3, statusAt := some s.dev.time.c
      t3 := dep.getD r.t3, t4 := if dep.isSome then leAt l 4 8 else r.t4, t34Valid := r.t34Valid || dep.isSome }
    if s.timeSrc = 1 then
      match s.dev.time.up with
      | some u => if s1.upstreamOk u ∧ u ≠ n then s1 else if s1.upstreamOk u then s1.setUp (some u) else s1.setUp s1.chooseUp
      | none => s1.setUp s1.chooseUp
    else s1
  else s

/-- The distance to the time master that this device sends: it has no upstream once its candidate has gone silent (R329). -/
def State.ownDist (s : State) : Nat :=
  if s.timeSrc = 1 then
    match s.dev.time.up with
    | some u => if s.upstreamOk u then s.fld F.timStsTdist 0 else 0xFF
    | none => 0xFF
  else 0

/-- TDIST as TIM_STS shows it (R329, R333): before a block has given the device its source there is no time master. -/
def State.shownDist (s : State) : Nat := if s.dev.boot.accepted then s.ownDist else 0xFF

/-- SLEW_MAX has been written: |s| never exceeds it (R317). -/
def State.limitSlew (s : State) : State := s.setSfld F.timSlewS 0 (clampI (-s.slewLimit) s.slewLimit s.slew)

/-- The payload of a time status (R328); what it says of a marker that never came is unstated (log entry 6). -/
def State.timeStatusBytes (s : State) (n : Nat) : List Byte × State :=
  let r := s.ringTime n
  let head := leBytes 1 s.ownDist ++ leBytes 1 (s.fld F.timStsState 0 % 8 + 8 * s.fld F.timStsLoaded 0)
  match r.rxCount with
  | some k => (head ++ leBytes 1 k ++ leBytes 1 0 ++ leBytes 8 r.rxArrival, s)
  | none =>
    let a := s.draw
    let b := a.2.draw
    (head ++ leBytes 1 (Config.unstated a.1).toNat ++ leBytes 1 0 ++ leBytes 8 (Config.unstated b.1).toNat, b.2)

/-- A time status leaves on ring link n, in ALIGN and in UP (R328). -/
def State.timeStatusSend (s : State) (n : Nat) : State :=
  if s.ringTimed n then
    let p := s.timeStatusBytes n
    let size := max 1 (s.fld F.lnkRingSize 0)
    let h := s.ringHeader ((s.fld F.lnkRingPos 0 + (if n = 0 then 1 else size - 1)) % size) false
    let l := p.2.link n
    let f : LinkFrame := ⟨l.sendSeq, 0x40, h, 0, 0, p.1, 0⟩
    if l.replay.foldl (fun t g => t + g.size) f.size ≤ 16384 then
      (p.2.setLink n { l with replay := l.replay ++ [f], sendSeq := (l.sendSeq + 1) % 4096 }).emit (.linkFrame n 0x40 h p.1)
    else p.2
  else s

/-! The reference PLL (R326, R366). -/

/-- The PLL takes a reference: 0 A, 1 B, 2 none. The switch is logged, shown, and posts event 2; an entry to holdover is
counted (R366, R369, R436). -/
def State.setRef (s : State) (v : Nat) : State :=
  let old := s.fld F.fmkStsRef 0
  if old = v then s
  else
    let s1 := ((s.setFld F.fmkStsRef 0 v).setFlag F.timRefStsSel 0 (decide (v = 1))).setFlag F.timRefStsHold 0 (decide (v = 2))
    let s2 := if v = 2 then s1.bump F.timRefHoldCntCount 0 1 else s1
    ((s2.logFault 0x0B (b2n (decide (v ≠ 2))) 0x0A (if old = 2 then v else old) (if v = 2 then 0xFFFF else v)).change
      0x134 0x12 v false).post 2 v

/-- The reference the PLL may use now: A while it is present, B where the block allows it, none (R366). -/
def State.usableRef (s : State) : Nat :=
  if s.flag F.timRefStsAOk 0 then 0 else if s.flag F.timRefStsBOk 0 && s.flag F.timRefStsBEn 0 then 1 else 2

/-- The presence flag of a reference. -/
def refField (b : Bool) : RegField := if b then F.timRefStsBOk else F.timRefStsAOk

/-- A reference is lost (R326, R366): LOST_EVT sets, and the PLL leaves a reference it was locked to. -/
def State.refLost (s : State) (b : Bool) : State :=
  if s.sys.op = .off then s
  else if s.flag (refField b) 0 ∨ s.fld F.fmkStsRef 0 = b2n b then
    let s1 := s.setFlag (refField b) 0 false
    let s2 := s1.raise F.timRefStsLostEvt 0 2 (s.fld F.fmkStsRef 0)
    if s.fld F.fmkStsRef 0 = b2n b then s2.setRef s2.usableRef else s2
  else s

/-- A 1 ms window has found a reference good (R326); a PLL without a reference takes it. -/
def State.refPresent (s : State) (b : Bool) : State :=
  if s.sys.op = .off then s
  else
    let s1 := s.setFlag (refField b) 0 true
    if s.fld F.fmkStsRef 0 = 2 then s1.setRef s1.usableRef else s1

/-- Reference A has been present for 10 s (R366). -/
def State.returnToA (s : State) : State :=
  if s.sys.op ≠ .off ∧ s.fld F.fmkStsRef 0 = 1 ∧ s.flag F.timRefStsAOk 0 then s.setRef 0 else s

/-- TIME_MARKER (R297, R327). -/
def execTimeMarker (link : Fin 2) (count : BitVec 8) (departure : BitVec 64) (s : State) :
    Host.Outcome State Fault Refusal := .next (inDev (fun s => s.timeMarker link count.toNat departure.toNat) s)

/-- TIME_MARKER_SEND (R297). -/
def execTimeMarkerSend (link : Fin 4) (s : State) : Host.Outcome State Fault Refusal :=
  .next (inDev (fun s => s.timeMarkerSend link) s)

/-- CHAIN_UPDATE (R322). -/
def execChainUpdate (s : State) : Host.Outcome State Fault Refusal := .next (inDev State.chainUpdate s)

/-- TIME_STATUS (R328, R329). -/
def execTimeStatus (link : Fin 2) (payload : List Byte) (s : State) : Host.Outcome State Fault Refusal :=
  .next (inDev (fun s => s.timeStatus link payload) s)

/-- TIME_STATUS_SEND (R328). -/
def execTimeStatusSend (link : Fin 2) (s : State) : Host.Outcome State Fault Refusal :=
  .next (inDev (fun s => s.timeStatusSend link) s)

/-- HOLDOVER (R320, R323). -/
def execHoldover (s : State) : Host.Outcome State Fault Refusal := .next (inDev State.holdover s)

/-- REFERENCE_LOST (R326, R366): reference A, or B. -/
def execReferenceLost (b : Bool) (s : State) : Host.Outcome State Fault Refusal := .next (inDev (fun s => s.refLost b) s)

/-- REFERENCE_PRESENT (R326). -/
def execReferencePresent (b : Bool) (s : State) : Host.Outcome State Fault Refusal :=
  .next (inDev (fun s => s.refPresent b) s)

/-- RETURN_TO_A (R366). -/
def execReturnToA (s : State) : Host.Outcome State Fault Refusal := .next (inDev State.returnToA s)

end Sys2Proof.Machine
end

