-- ==== Sys2Proof/Machine/Power.lean ====
section
/-! DEFINITION. Power domains (R36, R37, R416 to R418): which registers lie in which domain, switching domains on and off,
and the fields the block fills. -/
namespace Sys2Proof.Machine

/-- The domains that power a register instance: any of those listed, or none listed for a register that is always
reachable. The tables give the domains' blocks, not each register's; log entry 18 says how registers are placed. -/
def Reg.domains (r : Reg) (i : Nat) : List Nat :=
  match r with
  | .rcvChCtl | .rcvChThr | .rcvChThrEff | .rcvChGate | .rcvChDc | .rcvChOvlCnt | .rcvChOogCnt | .rcvChSts
  | .tdcTrim | .rejChStat => [48 + i / 16]
  | .rcvClCtl | .rcvClDropCnt | .rcvClNorefCnt | .rcvClBlankCnt | .rcvClSts
  | .felClCtl | .felClBg | .felClDet | .felClWin | .felClOut | .felClSts | .felClHistCnt | .felClMissCnt
  | .felClCoarseCnt | .felClShortCnt | .rejClAdapt | .rejClCoinc | .rejClWx | .rejClXs | .rejClBi | .rejClLoneCnt
  | .rejClWxCnt | .rejClXsCnt => [48 + i]
  | .felWin => [48 + i / 64]
  | .tdcEngCal | .tdcEngSts | .tdcEngGbow | .tdcEngBowCnt | .tdcEngBowTimeLo | .tdcEngBowTimeHi | .tdcEngSkipCnt
  | .tdcEngRejCnt => if i < 1632 then [48 + i / 34] else [139]
  | .pciSts | .pciBar2MapLo | .pciBar2MapHi | .pciCplTo | .pciCplToCnt | .pciBar2ErrCnt | .pciIntPath | .pciMsixTab
  | .pciMsixPba => [132]
  | .rcvTileCtl | .tdcTileCtl | .tdcTabSel | .felExtLoad | .felExtAbandonCnt | .felSnap =>
    [48 + 4 * i, 49 + 4 * i, 50 + 4 * i, 51 + 4 * i]
  | .rcvWalk =>
    let t := if i < 2048 then i / 128 else (i % 0x100000 - 2048) / 512
    [48 + 4 * t, 49 + 4 * t, 50 + 4 * t, 51 + 4 * t]
  | .tdcTab => [48 + 4 * (i / 64), 49 + 4 * (i / 64), 50 + 4 * (i / 64), 51 + 4 * (i / 64)]
  | .tdcUtilCtl | .tdcUtilSts | .tdcUtilResLo | .tdcUtilResHi
  | .emtSts | .emtAgg | .emtSseSpare | .emtPllDiv | .emtPllLock | .emtPllCtl | .emtPllSts | .emtPllOut | .emtClSrc
  | .emtPortCtl | .emtPortPeriod | .emtPortOffset | .emtPortDither | .emtPortSeed | .emtPortSense | .emtPortSts
  | .emtPortLast | .emtPortFireCnt | .emtPortNosenseCnt | .emtPortWithdrawnCnt => [139]
  | .linSegCtl | .linSegPix | .linSegAdc | .linSegCover | .linSegSts | .linSegOvrCnt | .linSegWeak => [96 + i]
  | .linSegCol | .linSegRow | .linSegRefdark => [96 + i / 3]
  | .linShade => [96 + i / 6144]
  | .ethPortCtl | .ethPortSts | .ethMacLo | .ethMacHi | .ethAsym | .ethTsInfo | .ethTsLo | .ethTsHi | .ethRxCnt
  | .ethRxErrCnt | .ethRxDropCnt | .ethTxCnt | .ethTxDropCnt => [124 + i]
  | .ethTxqDstLo | .ethTxqDstHi | .ethTxqTag | .ethTxqRate => [124 + i / 8]
  | .lnkCtl | .lnkSts | .lnkMap | .lnkCrcCnt | .lnkReplayCnt | .lnkRetrainCnt | .lnkBrBaseLo | .lnkBrBaseHi => [128 + i]
  | .lnkLaneSts | .lnkDfe | .lnkEyeCtl | .lnkEyeRes | .lnkPrbsCnt => [128 + i / 4]
  | .meaConvCtl | .meaConvSts | .meaConvLateCnt => [137 + i / 2]
  | .meaExc | .meaTdac | .meaUrg | .meaUrgDropCnt | .meaSlotIn | .meaSlotExc | .meaSlotRef | .meaSlotConv | .meaSlotRate
  | .meaSlotDet | .meaSlotT | .meaSlotMin | .meaSlotMax | .meaSlotVal | .meaSlotSts | .meaSlotLead | .meaPoly => [137]
  | _ => []

/-- The register of a stored key, and its instance. -/
def keyReg (k : Nat) : Reg × Nat := (Reg.all.getD (k % 512) .sysState, k / 512 % 0x100000)

/-- Registers that lie in no switched domain but run on the timing clock or a pixel clock, both sourced by domain 139 (R33,
R37): while it is off they keep what they hold and are not reachable. -/
def Reg.clocked : Reg → Bool
  | .felKern | .felKpar | .felKsel
  | .rejSchedCtl | .rejSchedPeriod | .rejSchedSlotsLo | .rejSchedSlotsHi | .rejSchedEpochLo | .rejSchedEpochHi
  | .rejSchedGuard | .rejSchedSts | .rejSchedSlipCnt | .rejSchedFrameLo | .rejSchedFrameHi
  | .rejBiCtl | .rejBiDelay | .rejBiSts | .rejBiUnconfCnt
  | .linBankExp | .linBankIll | .linBankWref | .linBankCap | .linBankCap2 | .linBankSts | .linBankTmin
  | .linIllCtl | .linIllSts | .linDevSts | .linDevWidth | .linShadeStg => true
  | _ => false

/-- Is a register instance reachable now: its domain on and its clock running (R33, R37)? Under the fallback identity the
endpoint's registers and its MSI-X table work as in every other state (R303). -/
def State.powered (s : State) (r : Reg) (i : Nat) : Bool :=
  let l := Reg.domains r i
  (l.isEmpty || l.any s.domainOn || (l.contains 132 && decide (s.dev.pci.ident = 2)))
    && (!Reg.clocked r || s.domainOn 139)

/-- Drop registers back to their reset values, those that `p` names. -/
def State.dropRegs (s : State) (p : Reg → Nat → Bool) : State :=
  s.onDev fun d => { d with regs := d.regs.filter fun q => !p (keyReg q.1).1 (keyReg q.1).2 }

/-- Put a list of values into successive instances of a field. -/
def State.setFlds (s : State) (f : RegField) (l : List Nat) : State :=
  l.zipIdx.foldl (fun t p => t.setFld f p.2 p.1) s

/-- The fields marked "block" take the values of the accepted block (R374, R380, R434). -/
def State.blockFields (s : State) : State :=
  if s.dev.boot.accepted then
    let d := s.dev.boot.device
    let s1 := ((s.setFld F.lnkRingSize 0 d.size).setFld F.lnkRingPos 0 d.position).setFld F.lnkRingChain 0 d.chain
    let s2 := ((s1.setFlds F.lnkCtlRole d.roles).setFld F.timCtlSrc 0 d.timSrc).setFld F.timCtlProfile 0 d.profile
    let s3 := ((s2.setFld F.timPtpPtpDomain 0 d.ptpDomain).setFld F.timPtpPorts 0 d.ptpPorts).setFlag
      F.timRefStsBEn 0 d.refBEn
    let s4 := ((s3.setFlds F.pciIntPathPath d.intPath).setFlds F.ethPortCtlMode d.ethModes).setFlds F.ethRedCtlMode d.pairModes
    let s5 := (s4.setFlds F.ethMacLoMac (d.macs.map (· % 2 ^ 32))).setFlds F.ethMacHiMac (d.macs.map (· / 2 ^ 32))
    let s6 := (s5.setFlds F.ethMgmtLoMac (d.mgmtMacs.map (· % 2 ^ 32))).setFlds F.ethMgmtHiMac (d.mgmtMacs.map (· / 2 ^ 32))
    ((s6.setFld F.ethMgmtCfgVid 0 d.mgmtVid).setFld F.ethMgmtCfgEtype 0 d.mgmtType).setReg .memCfg 0 d.memCfg
  else s

/-- Is the domain bit set in a group of domain registers? -/
def State.domBit (s : State) (r : Reg) (d : Nat) : Bool := bitOf (s.reg r (d / 32)) (d % 32)

/-- Put a domain bit. -/
def State.setDomBit (s : State) (r : Reg) (d : Nat) (b : Bool) : State :=
  s.setReg r (d / 32) (putBits (s.reg r (d / 32)) (d % 32) (d % 32) (b2n b))

/-- Remove keys from a per-unit map. -/
def dropKeys {α : Type} (p : Nat → Bool) (m : List (Nat × α)) : List (Nat × α) := m.filter fun q => !p q.1

/-- A lockstep pair without power holds no writes and recovers nothing; its recoveries stay counted. -/
def State.dropCores (s : State) (b : Bool) : State :=
  let keep (x : Pair) : Pair := { recoveries := x.recoveries }
  (s.onDev fun v => { v with fmk :=
    if b then { v.fmk with pair1 := keep v.fmk.pair1 } else { v.fmk with pair0 := keep v.fmk.pair0 } }).setFld F.fmkStsRecovering 0
      (putBits (s.fld F.fmkStsRecovering 0) (b2n b) (b2n b) 0)

/-- What a domain's blocks hold beside their registers is lost with it (R275, R418). -/
def State.dropDomain (s : State) (d : Nat) : State :=
  if d < 48 then (List.range 16).foldl (fun t p =>
    let ch := 16 * d + p
    t.setChan ch { t.chan ch with clamped := false, lowUntil := 0, holder := none }) s
  else if d < 96 then
    let c := d - 48
    let x : ClusterSt := { onAt := (s.clus c).onAt }
    let s1 := (s.abandon c).onDev fun v => { v with rng := { v.rng with
      chans := dropKeys (fun k => decide (k / 16 = c)) v.rng.chans
      clusters := dropKeys (fun k => decide (k = c)) v.rng.clusters
      engines := dropKeys (fun k => decide (k / 34 = c ∧ k < 1632)) v.rng.engines
      tiles := if (List.range 4).any fun j => decide (4 * (c / 4) + j ≠ c) && s.clusterOn (4 * (c / 4) + j) then v.rng.tiles
        else dropKeys (fun k => decide (k = c / 4)) v.rng.tiles } }
    -- the front ends of the cluster run on
    (List.range 16).foldl (fun t p => t.setChan (16 * c + p) { clamped := (s.chan (16 * c + p)).clamped }) (s1.setClus c x)
  else if 96 ≤ d ∧ d < 120 then
    ((if (List.range 12).any fun b => s.flag F.linBankStsCapBusy b then s.endCaptures else s).setClock (d - 96) 0).onLin fun l =>
      { l with segs := dropKeys (fun k => decide (k = d - 96)) l.segs }
  else if 124 ≤ d ∧ d < 128 then
    ((s.setFlag F.ethPortCtlEn (d - 124) false).onDev fun v => { v with eth := dropKeys (fun k => decide (k = d - 124)) v.eth }).showPair
      ((d - 124) / 2)
  else if 128 ≤ d ∧ d < 132 then
    (s.setLinkState (d - 128) 0).onDev fun v => { v with links := dropKeys (fun k => decide (k = d - 128)) v.links }
  else if d = 132 then s.setFlag F.pciStsDlUp 0 false
  else if 133 ≤ d ∧ d < 137 then s.dropCores (decide (135 ≤ d))
  else if d = 137 then s.onDev fun v => { v with mea := { v.mea with
    slots := [], convs := dropKeys (fun k => decide (k < 2)) v.mea.convs } }
  else if d = 138 then s.onDev fun v => { v with mea := { v.mea with
    convs := dropKeys (fun k => decide (2 ≤ k)) v.mea.convs } }
  else if d = 139 then s.onDev fun v => { v with rng := { v.rng with
    ports := [], pll := {}, sources := [], sched := {}, engines := dropKeys (fun k => decide (1632 ≤ k)) v.rng.engines } }
  else s

/-- A domain goes off: PGOOD clears, what it held is lost, and its registers return to their reset values (R33, R418). -/
def State.domainOff (s : State) (d : Nat) : State :=
  let s1 := (s.dropDomain d).setDomBit .pwrDomSts d false
  let s2 := s1.dropRegs fun r i => (Reg.domains r i).contains d && !s1.powered r i
  s.showDrives s2.blockFields.refreshTiming

/-- Domains go off together. -/
def State.domainsOff (s : State) (l : List Nat) : State := l.foldl (fun t d => if t.domBit .pwrDomSts d then t.domainOff d else t) s

/-- Can the power-good of a domain rise now: it is to be on and is not, and its supply is there (R51, R418)? -/
def State.pgoodDue (s : State) (d : Nat) : Bool :=
  s.domBit .pwrDomCtl d && !s.domBit .pwrDomSts d && decide (s.sys.op ≠ .off) && (decide (s.sys.op ≠ .stabled) || s.waking)

/-- A domain that is to be on has powered and zeroed its SRAM (R418). -/
def State.pgood (s : State) (d : Nat) : State :=
  let s1 := (((s.setDomBit .pwrDomSts d true).blockFields).refreshTiming).startConvs
  if d < 48 then s1.setClus d { s1.clus d with onAt := some s1.dev.time.c } else s1

/-- May PWR_DOM_CTL_n take this value (R418)? -/
def State.domainWriteOk (s : State) (n v : Nat) : Bool :=
  s.inOp [.init, .ready, .safeHold] && (List.range 32).all fun i =>
    let d := 32 * n + i
    let was := s.domBit .pwrDomCtl d
    let now := bitOf v i
    if was = now then true
    else if 120 ≤ d ∧ d < 124 then false
    else if now then s.domBit .pwrDomOwn d
    else !keptOn.contains d

/-- A PWR_DOM_CTL write: domains are switched, or the write is discarded and counted (R418). -/
def State.domainWrite (s : State) (n v : Nat) : State :=
  let w := if n = 4 then v % 2 ^ 12 else v
  if s.domainWriteOk n w then
    (s.setReg .pwrDomCtl n w).domainsOff (((List.range 32).filter fun i => !bitOf w i).map (32 * n + ·))
  else s.bump F.pwrRefusedCntCount 0 1

/-- The cluster and segment domains: analog, digital and video. -/
def workDomains : List Nat := List.range 120

/-- The thermal shutdown switches off every cluster and segment domain (R425). -/
def State.shutDown (s : State) : State :=
  let s1 := (workDomains.foldl (fun t d => t.setDomBit .pwrDomCtl d false) s).domainsOff workDomains
  (s1.setFlag F.thmStsShutdown 0 true).change 0x242 0x12 2 false

/-- The domains return as the block first powered them (R425). -/
def State.shutDownEnds (s : State) : State :=
  if s.flag F.thmStsShutdown 0 then
    let s1 := workDomains.foldl (fun t d => t.setDomBit .pwrDomCtl d (t.domBit .pwrDomOwn d)) s
    (s1.setFlag F.thmStsShutdown 0 false).change 0x242 0x12 (b2n (s.flag F.thmStsFast 0)) false
  else s

/-- The domain that gates a resource (R52, R416): none where it lies in none. -/
def resourceDomain (res : Nat) : List Nat :=
  let i := res % 65536
  match res / 2 ^ 24 with
  | 0x02 => [i / 16, 48 + i / 16]
  | 0x03 => [48 + i / 34]
  | 0x04 => [48 + i]
  | 0x05 =>
    match i / 256 with
    | 0x00 => [139]
    | 0x02 => [96 + i % 256]
    | 0x07 => [137]
    | 0x08 => [120 + i % 256]
    | 0x09 => [124 + i % 256]
    | 0x0B => [128 + i % 256 / 4]
    | 0x0C => [132]
    | _ => []
  | 0x0A => [137 + i / 2]
  | 0x0B => [139]
  | _ => []

end Sys2Proof.Machine
end

