-- ==== Sys2Proof/Machine/SafetyChannels.lean ====
section
/-! DEFINITION. The two safety channels (R334 to R360): the set and the seal, the cycle with its image and comparison,
door zones, drives and the safe stop, the start-up test, discretes, the laser interlock, the band, and the mirror. Every
function of the first part maps channels to channels and sees nothing else of the device. -/
namespace Sys2Proof.Machine

/-- A channel by name: false A, true B. -/
def Saf.chan (f : Saf) (b : Bool) : SafChan := if b then f.b else f.a

/-- Put a channel. -/
def Saf.setChan (f : Saf) (b : Bool) (x : SafChan) : Saf := if b then { f with b := x } else { f with a := x }

/-- Change a channel. -/
def Saf.on (f : Saf) (b : Bool) (g : SafChan → SafChan) : Saf := f.setChan b (g (f.chan b))

/-- A channel's record of a zone. -/
def SafChan.zone (x : SafChan) (z : Nat) : SafZone := smGet {} x.zones z
/-- Put a channel's record of a zone. -/
def SafChan.setZone (x : SafChan) (z : Nat) (v : SafZone) : SafChan := { x with zones := smPut {} x.zones z v }
/-- A channel's record of a drive. -/
def SafChan.drv (x : SafChan) (n : Nat) : SafDrv := smGet {} x.drives n
/-- Put a channel's record of a drive. -/
def SafChan.setDrv (x : SafChan) (n : Nat) (v : SafDrv) : SafChan := { x with drives := smPut {} x.drives n v }
/-- A channel's record of a band connection. -/
def SafChan.band (x : SafChan) (k : Nat) : SafBand := smGet {} x.bands k
/-- Put a channel's record of a band connection. -/
def SafChan.setBand (x : SafChan) (k : Nat) (v : SafBand) : SafChan := { x with bands := smPut {} x.bands k v }
/-- A channel's record of a discrete pair. -/
def SafChan.disc (x : SafChan) (m : Nat) : SafDisc := smGet {} x.discs m
/-- Put a channel's record of a discrete pair. -/
def SafChan.setDisc (x : SafChan) (m : Nat) (v : SafDisc) : SafChan := { x with discs := smPut {} x.discs m v }

/-- The zones of the set in force. -/
def SafChan.zoneSets (x : SafChan) : List SafZoneSet := (x.set.map (·.zones)).getD []
/-- A drive's parameters in the set in force; an unlisted drive is not supervised. -/
def SafChan.driveSet (x : SafChan) (n : Nat) : SafDriveSet := ((x.set.map (·.drives)).getD []).getD n {}
/-- A band connection of the set in force. -/
def SafChan.bandSet (x : SafChan) (k : Nat) : SafBandSet := ((x.set.map (·.bands)).getD []).getD k {}
/-- A discrete pair of the set in force. -/
def SafChan.discSet (x : SafChan) (m : Nat) : SafDiscSet := ((x.set.map (·.discs)).getD []).getD m {}

/-- Milliseconds since power-up, at the last cycle end (R335). -/
def SafChan.ms (x : SafChan) : Nat := 2 * x.now

/-! State and outputs (R336). -/

/-- A drive loses torque at once: both skip STOPPING (R347, R348). A stop that was under way has lasted from its own t = 0. -/
def SafDrv.cut (d : SafDrv) (cause now : Nat) : SafDrv :=
  { d with state := 1, torque := false, decel := false, cause := cause, ending := 3,
           duration := if d.state = 4 then satN 16 (2 * (now - d.t0)) else 0, newStop := true, armed := false }

/-- Leaving NORMAL, every drive enters STOPPED with its outputs low, and the discrete outputs go off (R336, R346). -/
def SafChan.leaveNormal (x : SafChan) : SafChan :=
  { x with
    drives := x.drives.map fun p =>
      (p.1, if p.2.state = 2 ∨ p.2.state = 3 ∨ p.2.state = 4 then { p.2.cut p.2.cause x.now with newStop := false } else p.2)
    dout := 0 }

/-- A powered channel enters SAFE_STATE; it keeps the cause it first entered with (R336). -/
def SafChan.toSafe (x : SafChan) (cause : Nat) : SafChan :=
  if x.powered ∧ x.state ≠ 2 then { x.leaveNormal with state := 2, cause := cause } else x

/-- A channel in NORMAL finds a cause of SAFE_STATE and tells its partner (R336). -/
def Saf.safeState (f : Saf) (b : Bool) (cause : Nat) : Saf :=
  if (f.chan b).powered ∧ (f.chan b).state = 1 then { a := f.a.toSafe cause, b := f.b.toSafe cause } else f

/-! The set and the seal (R337, R339). -/

/-- Does the switch reading match a set: its number and the check code of its CRC (R339)? -/
def sealMatches (s : SafSet) (sw : Nat) : Bool := decide (sw % 16 = s.number ∧ bitsOf sw 11 4 = s.crc % 256)

/-- The boot sequencer hands a set to a channel (R337): a channel without one accepts it when its CRC and the seal are
good; a channel with one keeps it. -/
def SafChan.handSet (x : SafChan) (s : SafSet) : SafChan :=
  if !x.powered then x
  else match x.set with
    | some t => if t.crc = s.crc then x else { x with mismatch := true }
    | none => if s.crcOk && sealMatches s x.sw then { x with
        set := some s, sealOk := true
        drives := (List.range 8).foldl (fun l n =>
          if (s.drives.getD n {}).supervised then smPut {} l n { smGet {} l n with state := 1 } else l) x.drives }
      else x

/-- The set number a channel reports from its poles (R337): none without power. -/
def SafChan.reports (x : SafChan) : Option Nat := if x.powered then some (x.sw % 16) else none

/-- The set the switch bank chooses: none where the readings differ or a channel has not reported (R337). -/
def Saf.chosen (f : Saf) : Option Nat := if f.a.reports = f.b.reports then f.a.reports else none

/-- The set is handed to both channels. -/
def Saf.handSet (f : Saf) (s : SafSet) : Saf := { a := f.a.handSet s, b := f.b.handSet s }

/-! Taps and zones (R26, R27, R340 to R343). -/

/-- Add one hit to the 1 ms step of a tapped channel of a zone. -/
def addStep (ms intr flo shots : Nat) (l : List (Nat × Nat × Nat × Nat)) : List (Nat × Nat × Nat × Nat) :=
  match l with
  | (m, i, f, k) :: r => if m = ms then (m, i + intr, f + flo, k + shots) :: r else (ms, intr, flo, shots) :: (m, i, f, k) :: r
  | [] => [(ms, intr, flo, shots)]

/-- Change the frame of a tapped channel of a zone. -/
def SafChan.onFrame (x : SafChan) (z ch : Nat) (g : List (Nat × Nat × Nat × Nat) → List (Nat × Nat × Nat × Nat)) : SafChan :=
  { x with hits := smPut [] x.hits (128 * z + ch) (g (smGet [] x.hits (128 * z + ch))) }

/-- The 1 ms step now running: the first or the second of the cycle. -/
def SafChan.step (x : SafChan) (second : Bool) : Nat := x.ms + b2n second

/-- A shot that no longer counts is taken from the newest step that has one. -/
def dropShot : List (Nat × Nat × Nat × Nat) → List (Nat × Nat × Nat × Nat)
  | [] => []
  | (m, i, f, k) :: r => if k = 0 then (m, i, f, k) :: dropShot r else (m, i, f, k - 1) :: r

/-- The shot of a word with the dropped-hits flag does not count toward its channel's shots, once for each shot (R340). -/
def SafChan.spoilShot (x : SafChan) (z : Nat) (w : TapWord) : SafChan :=
  let key := 128 * z + w.ch
  if smGet 0 x.spoilt key = w.shotId + 1 then x
  else { x.onFrame z w.ch dropShot with spoilt := smPut 0 x.spoilt key (w.shotId + 1) }

/-- A tap word reaches a channel (R26, R27, R340): a word that fails parity spoils the cycle; a word with the dropped-hits
flag counts toward neither, nor does its shot; a word inside the zone gate is intruding below FLOOR_NEAR, a floor hit
above. -/
def SafChan.tapWord (x : SafChan) (w : TapWord) (parityOk second : Bool) : SafChan :=
  if !x.powered ∨ x.set.isNone then x
  else if !parityOk then { x with tapBad := true }
  else x.zoneSets.zipIdx.foldl (fun y p =>
    match p.1.taps.find? fun t => decide (t.ch = w.ch) with
    | some t =>
      if t.zgOpen ≤ w.code ∧ w.code < t.zgClose then
        if w.dropped then y.spoilShot p.2 w
        else y.onFrame p.2 w.ch (addStep (x.step second) (b2n (decide (w.code < t.floorNear)))
          (b2n (decide (t.floorNear ≤ w.code))) 0)
      else y
    | none => y) x

/-- The tap FIFO of a channel has overflowed (R27). -/
def SafChan.tapOverflow (x : SafChan) : SafChan := { x with tapBad := true }

/-- A start-sense event of a port reaches a channel (R27): it counts for the cycle, and as a shot of the tapped channels
of the zones it lights (R340). -/
def SafChan.senseEvent (x : SafChan) (port : Nat) : SafChan :=
  if !x.powered ∨ x.set.isNone then x
  else
    let y := { x with sense := smPut 0 x.sense port (smGet 0 x.sense port + 1) }
    x.zoneSets.zipIdx.foldl (fun y p =>
      if bitOf p.1.emitters port then p.1.taps.foldl (fun z t => z.onFrame p.2 t.ch (addStep (x.step false) 0 0 1)) y else y) y

/-- A start-sense event reaches both channels. -/
def Saf.senseEvent (f : Saf) (port : Nat) : Saf := { a := f.a.senseEvent port, b := f.b.senseEvent port }

/-- Sums over the last FRAME_MS steps of a tapped channel: intruding and floor hits. -/
def frameSums (first : Nat) (l : List (Nat × Nat × Nat × Nat)) : Nat × Nat :=
  l.foldl (fun t p => if first ≤ p.1 then (t.1 + p.2.1, t.2 + p.2.2.1) else t) (0, 0)

/-- Does the tap of a channel feed safety channel b (R25)? -/
def tapSide (b : Bool) (t : SafTap) : Bool := decide (t.ch % 2 = b2n b)

/-- One zone at a cycle end (R340, R341): `off` names the clusters whose taps are silent. -/
def SafChan.evalZone (x : SafChan) (b : Bool) (off : List Nat) (z : Nat) (c : SafZoneSet) : SafChan :=
  let first := x.ms - c.frameMs
  let own := c.taps.filter (tapSide b)
  let sums := own.map fun t => frameSums first (smGet [] x.hits (128 * z + t.ch))
  let intr := (sums.filter fun p => decide (c.hitMin ≤ p.1)).length
  let blind := (sums.filter fun p => decide (p.1 < c.hitMin ∧ p.2 < c.floorMin)).length
  let seen := x.sense.foldl (fun n p => if bitOf c.emitters p.1 then n + p.2 else n) 0
  let bad := x.tapBad || (own.any fun t => off.contains (t.ch / 16)) || decide (seen < c.shotsMin)
  let old := x.zone z
  let bads := (if bad then [x.now] else []) ++ old.bad.filter fun n => decide (x.ms < 2 * n + c.frameMs)
  let pz := ((x.img.map (·.zones)).getD []).getD z (false, false)
  let ownOcc := decide (c.chMin ≤ intr)
  let ownUnv := decide (0 < blind) || !bads.isEmpty
  let occ := ownOcc || pz.1
  let unv := ownUnv || pz.2
  x.setZone z { ownOcc := ownOcc, ownUnv := ownUnv, occ := occ, unv := unv, intruded := intr, blind := blind, bad := bads
                lastOcc := if occ then some x.now else old.lastOcc, lastUnv := if unv then some x.now else old.lastUnv }

/-- Every zone at a cycle end; a cycle unverified for any zone counts (R341); what lies before the frame is dropped. -/
def SafChan.evalZones (x : SafChan) (b : Bool) (off : List Nat) : SafChan :=
  let y := x.zoneSets.zipIdx.foldl (fun y p => y.evalZone b off p.2 p.1) x
  let bad := (List.range x.zoneSets.length).any fun z => (y.zone z).bad.contains x.now
  { y with
    unverified := if bad then satN 16 (y.unverified + 1) else y.unverified
    hits := (y.hits.map fun p => (p.1, p.2.filter fun q => decide (x.ms < q.1 + 60))).filter fun p => !p.2.isEmpty
    tapBad := false, sense := [] }

/-- The stop cause a zone is for its drives now (R343): it clears when the zone has been clear and verified for one whole
frame. -/
def SafChan.zoneCause (x : SafChan) (z : Nat) (c : SafZoneSet) : Nat :=
  let within := fun o : Option Nat => match o with
    | some n => decide (x.ms < 2 * n + c.frameMs)
    | none => false
  if within (x.zone z).lastOcc then 1 else if within (x.zone z).lastUnv then 2 else 0

/-! Discretes (R350). -/

/-- Is a pair of this function an input pair (R350)? -/
def discInputs (fn : Nat) : Bool := decide (1 ≤ fn ∧ fn ≤ 3)

/-- The partner's contact of a pair as its latest image shows it; before any image it is taken as agreeing. -/
def SafChan.partnerLevel (x : SafChan) (m : Nat) : Bool :=
  match x.img with
  | some i => i.discs.getD m false
  | none => (x.disc m).level != (x.discSet m).anti

/-- Contact 0 and contact 1 of a pair, as channel b sees them. -/
def SafChan.contacts (x : SafChan) (b : Bool) (m : Nat) : Bool × Bool :=
  if b then (x.partnerLevel m, (x.disc m).level) else ((x.disc m).level, x.partnerLevel m)

/-- One pair at a cycle end: the reading follows contacts that agree with the mode; after a DISC_ERR it stays 0 until both
contacts have returned to the 0 state (R350). -/
def SafChan.evalDisc (x : SafChan) (b : Bool) (m : Nat) : SafChan :=
  let p := x.contacts b m
  let d := x.disc m
  let anti := (x.discSet m).anti
  let zero := !p.1 && (p.2 == anti)
  let agree := (p.1 != p.2) == anti
  if d.err then x.setDisc m { d with reading := false, err := !zero }
  else if agree then x.setDisc m { d with reading := p.1 }
  else x

/-- A contact of a pair changes. -/
def SafChan.discInput (x : SafChan) (m : Nat) (level : Bool) : SafChan :=
  if x.powered then x.setDisc m { x.disc m with level := level } else x

/-- Every pair of the set at a cycle end. -/
def SafChan.evalDiscs (x : SafChan) (b : Bool) : SafChan :=
  (List.range 8).foldl (fun y m => if discInputs (y.discSet m).fn then y.evalDisc b m else y) x

/-! The band's effect (R354, R356). -/

/-- A byte of the last control message accepted on a connection. -/
def SafChan.control (x : SafChan) (k i : Nat) : Nat :=
  if (x.bandSet k).dir = 1 ∧ (x.band k).kind = 1 ∧ (x.band k).payload.length = 4 then leAt (x.band k).payload i 1 else 0

/-- The permit of a drive: of its band connection, or of the discrete inputs mapped to it (R346, R350). -/
def SafChan.permit (x : SafChan) (n : Nat) : Bool :=
  match (x.driveSet n).band with
  | some k => bitOf (x.control k 0) n
  | none =>
    let l := (List.range 8).filter fun m => decide ((x.discSet m).fn = 3) && bitOf (x.discSet m).drives n
    !l.isEmpty && l.all fun m => (x.disc m).reading

/-- The stop causes active for a drive at a cycle end, but for speed and permit (R343, R347, R350, R354, R356). -/
def SafChan.stopCauses (x : SafChan) (n : Nat) : List Nat :=
  let zones := x.zoneSets.zipIdx.filterMap fun p =>
    if bitOf p.1.drives n ∧ x.zoneCause p.2 p.1 ≠ 0 then some (x.zoneCause p.2 p.1) else none
  let ask := (List.range 4).any fun k => bitOf (x.control k 1) n
  let silent := match (x.driveSet n).band with
    | some k => (x.band k).timeout
    | none => false
  let stopIn := (List.range 8).any fun m =>
    decide ((x.discSet m).fn = 2) && bitOf (x.discSet m).drives n && !(x.disc m).reading
  zones ++ (if ask then [3] else []) ++ (if silent then [4] else []) ++ (if stopIn then [5] else [])
    ++ (if (x.drv n).disagree then [0x0B] else [])

/-! Drives (R345 to R348). Speeds are kept as counts times SCALE over the window, so a limit of v mm/s is v times 512
SPD_CYC. -/

/-- The factor of a drive between mm/s and the kept speed. -/
def driveUnit (c : SafDriveSet) : Nat := 512 * max 1 c.spdCyc

/-- A kept speed against a limit in mm/s. -/
def speedWithin (c : SafDriveSet) (v : Int) (mm : Nat) : Bool := decide (v.natAbs ≤ mm * driveUnit c)

/-- Is the speed above the envelope t ms into the stop (R348)? -/
def aboveEnvelope (c : SafDriveSet) (v v0 : Int) (t : Nat) : Bool :=
  decide ((v0.natAbs * 1000 : Int) + ((c.vTol * 1000 : Nat) - (c.aDec * (t - c.tDelay) : Nat) : Int) * driveUnit c < v.natAbs * 1000)

/-- The least of a list of causes. -/
def leastCause (l : List Nat) : Nat := l.foldl min 0xFF

/-- The counts of the cycle enter the window and the speed is formed (R345). -/
def SafDrv.sample (d : SafDrv) (c : SafDriveSet) : SafDrv :=
  let l := (d.cur :: d.counts).take (max 1 c.spdCyc)
  { d with counts := l, cur := 0, vN := l.foldl (· + ·) 0 * c.scale }

/-- A stop begins (R348). -/
def SafDrv.stop (d : SafDrv) (cause now : Nat) : SafDrv :=
  { d with state := 4, cause := cause, t0 := now, v0 := d.vN, decel := true, newStop := true }

/-- A stop ends: torque-off low, the request falls (R348). -/
def SafDrv.endStop (d : SafDrv) (ending now : Nat) : SafDrv :=
  { d with state := 1, torque := false, decel := false, ending := ending, duration := satN 16 (2 * (now - d.t0)), armed := false }

/-- What ends a stop at this cycle end, if anything does: its own checks, or the partner's torque-off (R348). -/
def SafDrv.ends (d : SafDrv) (c : SafDriveSet) (now : Nat) (partner : Option Nat) : Option Nat :=
  let t := 2 * (now - d.t0)
  if speedWithin c d.vN c.vStill then some 0
  else if aboveEnvelope c d.vN d.v0 t then some 1
  else if c.tMax ≤ t then some 2
  else partner

/-- A supervised drive at a cycle end (R346 to R348). `partner` is how the partner's image shows its own stop ended. -/
def SafDrv.cycle (d : SafDrv) (c : SafDriveSet) (normal : Bool) (now : Nat) (causes : List Nat) (permit : Bool)
    (partner : Option Nat) : SafDrv :=
  let fresh := causes.filter fun k => !d.causes.contains k
  let e := { d with causes := causes, lastPermit := permit }
  match d.state with
  | 2 =>
    if !speedWithin c d.vN c.vCreep then e.cut 6 now
    else if !causes.isEmpty then e.stop (leastCause causes) now
    else if d.lastPermit && !permit then e.stop 0x0A now
    else if d.testDone then { e with state := 3 } else e
  | 3 =>
    if !speedWithin c d.vN c.vMax then e.cut 6 now
    else if !causes.isEmpty then e.stop (leastCause causes) now
    else if d.lastPermit && !permit then e.stop 0x0A now
    else e
  | 4 =>
    let r := if fresh.isEmpty then e else { e with cause := leastCause fresh }
    match d.ends c now partner with
    | some k => r.endStop k now
    | none => r
  | 1 =>
    let r := if fresh.isEmpty then e else { e with cause := leastCause fresh }
    if !(normal && causes.isEmpty && speedWithin c d.vN c.vStill) then { r with armed := false }
    else if !d.armed then { r with armed := true, low := !permit }
    else if !permit then { r with low := true }
    else if d.low then { r with state := if d.testDone then 3 else 2, torque := true, armed := false }
    else r
  | _ => e

/-- How the partner's torque-off ends a drive's stop here (R348): its latest image shows STOPPED where the one before shows STOPPING,
or where the stop here has run for two cycles, more than the skew of one cycle. -/
def SafChan.partnerEnd (x : SafChan) (n : Nat) (d : SafDrv) : Option Nat :=
  match x.img with
  | some i =>
    let before := match x.imgPrev with
      | some p => decide ((p.drives.getD n (0, 0)).1 = 4)
      | none => false
    if decide ((i.drives.getD n (0, 0)).1 = 1) && (before || decide (d.t0 + 2 ≤ x.now)) then some (i.endings.getD n 0) else none
  | none => none

/-- Every supervised drive of a channel at a cycle end. -/
def SafChan.evalDrives (x : SafChan) : SafChan :=
  (List.range 8).foldl (fun y n =>
    let c := y.driveSet n
    let d := (y.drv n).sample c
    if c.supervised then
      y.setDrv n (d.cycle c (decide (y.state = 1)) y.now (y.stopCauses n) (y.permit n) (y.partnerEnd n d))
    else y.setDrv n d) x

/-- The discrete outputs (R350): band control bits, every zone clear and verified, every supervised drive STOPPED. -/
def SafChan.outputs (x : SafChan) : Nat :=
  if x.state ≠ 1 then 0
  else
    let clear := (List.range x.zoneSets.length).all fun z => !(x.zone z).occ && !(x.zone z).unv
    let still := (List.range 8).all fun n => !(x.driveSet n).supervised || decide ((x.drv n).state = 1)
    (List.range 8).foldl (fun v m =>
      let on := match (x.discSet m).fn with
        | 4 => (List.range 4).any fun k => bitOf (x.control k 2) m
        | 5 => clear
        | 6 => still
        | _ => false
      if on then v + 2 ^ m else v) 0

/-! The start-up test (R349). -/

/-- A guard's switches change in a channel. -/
def SafDrv.switches (d : SafDrv) (c : SafDriveSet) (now : Nat) (closed locked : Bool) : SafDrv :=
  let e := { d with closed := closed, locked := locked }
  if d.testDone || !c.supervised then e
  else if d.closed && !closed && decide (d.phase ≠ 2) then { e with phase := 1, travel := 0 }
  else if d.phase = 1 ∧ closed ∧ locked ∧ c.testCnt ≤ d.travel then { e with phase := 2, doneAt := some now }
  else e

/-- Has a channel completed its half within the last 100 ms of its own cycles? -/
def SafChan.halfDone (x : SafChan) (n : Nat) : Bool :=
  decide ((x.drv n).phase = 2) && match (x.drv n).doneAt with
    | some t => decide (2 * (x.now - t) ≤ 100)
    | none => false

/-- TEST_DONE sets when both halves stand within 100 ms of each other. -/
def Saf.joinTest (f : Saf) (n : Nat) : Saf :=
  if f.a.halfDone n && f.b.halfDone n then
    { a := f.a.setDrv n { f.a.drv n with testDone := true, phase := 0 }, b := f.b.setDrv n { f.b.drv n with testDone := true, phase := 0 } }
  else f

/-- A half that found no partner in time is discarded. -/
def SafChan.dropTests (x : SafChan) : SafChan :=
  (List.range 8).foldl (fun y n =>
    if decide ((y.drv n).phase = 2) && !y.halfDone n then
      { y.setDrv n { y.drv n with phase := 0 } with testDisc := satN 8 (y.testDisc + 1) }
    else y) x

/-- A guard switch input of a channel changes (R349); a disagreement ends when both channels agree again (R345). -/
def Saf.guardInput (f : Saf) (b : Bool) (n : Nat) (closed locked : Bool) : Saf :=
  if (f.chan b).powered then
    let g := (f.on b fun x => x.setDrv n ((x.drv n).switches (x.driveSet n) x.now closed locked)).joinTest n
    let da := g.a.drv n
    let db := g.b.drv n
    if da.closed = db.closed ∧ da.locked = db.locked then
      { a := g.a.setDrv n { da with disagree := false }, b := g.b.setDrv n { db with disagree := false } }
    else g
  else f

/-- A guard's switches have differed between the channels for 100 ms (R345). -/
def Saf.disagree (f : Saf) (n : Nat) : Saf :=
  let da := f.a.drv n
  let db := f.b.drv n
  if f.a.powered ∧ f.b.powered ∧ (da.closed ≠ db.closed ∨ da.locked ≠ db.locked) then
    { a := f.a.setDrv n { da with disagree := true }, b := f.b.setDrv n { db with disagree := true } }
  else f

/-- An encoder transition of a drive is counted by a channel: for its speed, and as travel of the test (R345, R349). -/
def SafChan.encoder (x : SafChan) (n : Nat) (back : Bool) : SafChan :=
  if x.powered then
    let d := x.drv n
    x.setDrv n { d with cur := d.cur + (if back then -1 else 1), travel := if d.phase = 1 then d.travel + 1 else d.travel }
  else x

/-- The contacts of a pair have disagreed with its mode for DISC_MS (R350). -/
def Saf.discError (f : Saf) (m : Nat) : Saf :=
  let anti := (f.a.discSet m).anti
  if f.a.powered ∧ f.b.powered ∧ discInputs (f.a.discSet m).fn = true ∧ (((f.a.disc m).level != (f.b.disc m).level) != anti) then
    { a := f.a.setDisc m { f.a.disc m with err := true, reading := false }
      b := f.b.setDisc m { f.b.disc m with err := true, reading := false } }
  else f

/-! The image and the comparison (R335). -/

/-- The image a channel sends. -/
def SafChan.image (x : SafChan) : SafImage :=
  { state := x.state, set := x.set.map fun s => (s.number, s.crc), sw := x.sw
    zones := (List.range 4).map fun z => ((x.zone z).ownOcc, (x.zone z).ownUnv)
    speeds := (List.range 8).map fun n => (x.drv n).vN
    drives := (List.range 8).map fun n => ((x.drv n).state, (x.drv n).cause)
    endings := (List.range 8).map fun n => (x.drv n).ending
    bands := (List.range 4).map fun k => if (x.bandSet k).dir = 1 then ((x.band k).seq, (x.band k).payload) else (none, [])
    discs := (List.range 8).map fun m => (x.disc m).level }

/-- Is an item equal in the two images, allowing one cycle of skew? -/
def skewEq {α : Type} [DecidableEq α] (own ownPrev other otherPrev : α) : Bool :=
  decide (own = other ∨ ownPrev = other ∨ own = otherPrev)

/-- Are the speeds of a drive within SPD_TOL and 1/16 of the larger? -/
def SafChan.speedOk (x : SafChan) (n : Nat) (v w : Int) : Bool :=
  decide (16 * (v - w).natAbs ≤ 16 * ((x.driveSet n).spdTol * driveUnit (x.driveSet n)) + max v.natAbs w.natAbs)

/-- Does the partner's latest image agree with the own one in every item? -/
def SafChan.agrees (x : SafChan) (own : SafImage) (other : SafImage) : Bool :=
  let prev := x.own.getD own
  let oprev := x.imgPrev.getD other
  decide (own.set = other.set) && decide (own.sw = other.sw)
    && ((List.range 8).all fun n => !(x.driveSet n).supervised
      || (x.speedOk n (own.speeds.getD n 0) (other.speeds.getD n 0)
        && skewEq (own.drives.getD n (0, 0)) (prev.drives.getD n (0, 0)) (other.drives.getD n (0, 0)) (oprev.drives.getD n (0, 0))))
    && ((List.range 4).all fun k =>
      skewEq (own.bands.getD k (none, [])) (prev.bands.getD k (none, [])) (other.bands.getD k (none, [])) (oprev.bands.getD k (none, [])))

/-! The cycle (R335, R336). -/

/-- The switch bank at a cycle end, and START to NORMAL (R336, R339). -/
def SafChan.seal (x : SafChan) (sw : Nat) : SafChan :=
  let ok := (x.set.map fun s => sealMatches s sw).getD false
  let y := { x with sw := sw, sealOk := ok }
  if decide (x.state = 0) && x.selfOk && ok then
    match x.img with
    | some i => if i.state ≠ 2 ∧ i.set.isSome ∧ i.set = x.set.map (fun s => (s.number, s.crc)) then { y with state := 1, sw0 := sw } else y
    | none => y
  else y

/-- The work of a channel at its cycle end, before the comparison: the switch bank, zones, discretes, drives, outputs. -/
def SafChan.work (x : SafChan) (b : Bool) (sw : Nat) (off : List Nat) : SafChan :=
  let x1 := { x with now := x.now + 1, missing := if x.got then 0 else x.missing + 1, got := false }
  let y := ((((x1.seal sw).evalZones b off).evalDiscs b).evalDrives).dropTests
  { y with dout := y.outputs }

/-- What SAFE_STATE cause the cycle finds: the switch bank changed, the partner silent, a mismatch for the third time. -/
def SafChan.finds (x : SafChan) (agree : Bool) : Nat :=
  if x.sw ≠ x.sw0 then 3 else if 2 ≤ x.missing then 4 else if !agree ∧ 3 ≤ x.run + 1 then 1 else 0

/-- The comparison at a cycle end (R335): one mismatched cycle counts, three in succession lead to SAFE_STATE. -/
def SafChan.compare (x : SafChan) (agree : Bool) : SafChan :=
  if x.state = 1 then
    if agree then { x with run := 0 } else { x with run := x.run + 1, xcmp := satN 8 (x.xcmp + 1) }
  else x

/-- A channel receives its partner's image. -/
def SafChan.receive (x : SafChan) (i : SafImage) : SafChan := { x with imgPrev := x.img, img := some i, got := true }

/-- A drive that lost torque at once in one channel loses it in the other (R348). -/
def Saf.cutBoth (f : Saf) (b : Bool) : Saf :=
  (List.range 8).foldl (fun g n =>
    let d := (g.chan b).drv n
    let e := (g.chan (!b)).drv n
    if d.newStop ∧ d.state = 1 ∧ d.ending = 3 ∧ (e.state = 2 ∨ e.state = 3 ∨ e.state = 4) then
      g.on (!b) fun y => y.setDrv n (e.cut d.cause y.now)
    else g) f

/-- The end of a channel's cycle. -/
def Saf.cycleEnd (f : Saf) (b : Bool) (sw : Nat) (off : List Nat) : Saf :=
  if (f.chan b).powered then
    let x := (f.chan b).work b sw off
    let own := x.image
    let agree := match x.img with
      | some i => x.agrees own i
      | none => false
    let f1 := f.setChan b { x.compare agree with own := some own }
    let f2 := f1.cutBoth b
    let f3 := if x.state = 1 ∧ x.finds agree ≠ 0 then f2.safeState b (x.finds agree) else f2
    f3.on (!b) fun y => if y.powered then y.receive (f3.chan b).image else y
  else f

/-! The laser interlock (R127). -/

/-- A channel's emission permit. -/
def SafChan.emission (x : SafChan) : Bool :=
  x.powered && decide (x.state = 1) && match x.set with
    | some s => decide (x.cover ≠ s.coverLevel) && (s.fixedOptics || x.scanOk)
    | none => false

/-! The band (R351 to R356). -/

/-- The safety code of a message (R352). -/
def bandCode (ident : Nat) (body : List Byte) : Nat := crc32c (leBytes 8 ident ++ body)

/-- Is a message well formed for a receive connection of the set (R351, R353)? -/
def SafChan.bandForm (x : SafChan) (l : List Byte) : Bool :=
  decide (leAt l 0 1 = 1) && decide (leAt l 1 1 = 1 ∨ leAt l 1 1 = 2) && decide ((x.bandSet (leAt l 2 2)).dir = 1)
    && decide (leAt l 8 1 ≤ 64) && decide (16 + leAt l 8 1 ≤ l.length)

/-- Count a message discarded. -/
def SafChan.bandDrop (x : SafChan) (k : Nat) (g : SafBand → SafBand) : SafChan :=
  if k < 4 then x.setBand k { g (x.band k) with okRun := 0 } else x

/-- A band message reaches a channel (R353, R354). -/
def SafChan.bandMessage (x : SafChan) (l : List Byte) : SafChan :=
  let k := leAt l 2 2
  let n := leAt l 8 1
  let crc := fun c : SafBand => { c with crcCnt := satN 8 (c.crcCnt + 1) }
  if !x.powered ∨ x.set.isNone then x
  else if !x.bandForm l then x.bandDrop k crc
  else if leAt l (12 + n) 4 ≠ bandCode (x.bandSet k).ident (l.take (12 + n)) then x.bandDrop k crc
  else
    let c := x.band k
    let seq := leAt l 4 4
    let step := match c.seq with
      | some q => (seq + 2 ^ 32 - q) % 2 ^ 32
      | none => 1
    if step = 0 ∨ (x.bandSet k).seqGap < step then x.bandDrop k fun c => { c with seqCnt := satN 8 (c.seqCnt + 1) }
    else
      x.setBand k { c with
        seq := some seq, kind := leAt l 1 1, payload := (l.drop 12).take n, seqCnt := if 1 < step then satN 8 (c.seqCnt + 1) else c.seqCnt
        okRun := c.okRun + 1, timeout := c.timeout && decide (c.okRun + 1 < 2) }

/-- A message reaches both channels. -/
def Saf.bandMessage (f : Saf) (l : List Byte) : Saf := { a := f.a.bandMessage l, b := f.b.bandMessage l }

/-- No message has been accepted for WINDOW ms (R354). -/
def SafChan.bandTimeout (x : SafChan) (k : Nat) : SafChan :=
  if x.powered ∧ (x.bandSet k).dir = 1 then x.setBand k { x.band k with timeout := true, okRun := 0 } else x

/-- The speed of a drive in mm/s, to the nearest (R345). -/
def SafChan.speedMm (x : SafChan) (n : Nat) : Int := clampI (-32768) 32767 (divAway (x.drv n).vN (driveUnit (x.driveSet n)))

/-- The status payload (R356), as channel b sees it. -/
def SafChan.status (x : SafChan) (b : Bool) : List Byte :=
  let occ := (List.range 4).foldl (fun v z => v + 2 ^ z * b2n (x.zone z).occ + 2 ^ (z + 4) * b2n
    (decide (z < x.zoneSets.length) && !(x.zone z).unv)) 0
  let drive := fun n : Nat =>
    let d := x.drv n
    packBits [(3, d.state), (1, b2n d.testDone), (1, b2n d.closed), (1, b2n d.locked), (1, b2n d.torque), (1, b2n d.decel)]
  let ins := (List.range 8).foldl (fun v m => v + 2 ^ m * b2n (x.disc m).reading) 0
  let other := (x.img.map (·.state)).getD 0
  leBytes 1 occ ++ (List.range 8).flatMap (fun n => leBytes 1 (drive n)) ++ leBytes 1 ins
    ++ leBytes 1 (if b then other + 4 * x.state else x.state + 4 * other) ++ leBytes 1 0
    ++ (List.range 8).flatMap fun n => leBytes 2 (unsigned 16 (x.speedMm n))

/-- A channel forms the next status message of a transmit connection (R355). -/
def SafChan.transmit (x : SafChan) (b : Bool) (k : Nat) : SafChan :=
  if x.powered ∧ (x.bandSet k).dir = 2 then
    let c := x.band k
    let seq := match c.seq with
      | some q => (q + 1) % 2 ^ 32
      | none => 0
    let body := leBytes 1 1 ++ leBytes 1 2 ++ leBytes 2 k ++ leBytes 4 seq ++ leBytes 1 28 ++ leBytes 3 0 ++ x.status b
    x.setBand k { c with
      seq := some seq, gen := (c.gen + 1) % 65536, msg := body ++ leBytes 4 (bandCode (x.bandSet k).ident body) }
  else x

/-- Both channels form it. -/
def Saf.transmit (f : Saf) (k : Nat) : Saf := { a := f.a.transmit false k, b := f.b.transmit true k }

/-! Power and tests. -/

/-- Both supplies of the channels are good again: both start in START, reading their poles (R336, R339, R415). -/
def Saf.powerUp (f : Saf) (swA swB : Nat) : Saf :=
  if f.a.powered ∧ f.b.powered then f else { a := { sw := swA }, b := { sw := swB } }

/-- A supply of the channels has left its trip limits: the clamps drive every output low and the channels lose what they
held (R415). -/
def Saf.powerDown : Saf := { a := { powered := false }, b := { powered := false } }

/-- The self-test of a channel (R336). -/
def Saf.selfTest (f : Saf) (b pass : Bool) : Saf :=
  let g := f.on b fun x => if x.powered then { x with selfOk := pass } else x
  if pass then g else g.safeState b 2

/-- The pulse test of the outputs of a channel that are high (R344, R350): drives 0 to 7, discretes as 8 to 15. -/
def SafChan.pulseTest (x : SafChan) : SafChan :=
  if x.powered then { x with
    tests := x.tests + 1
    pulsed := ((List.range 8).filter fun n => (x.drv n).torque) ++ ((List.range 8).filter fun m => bitOf x.dout m).map (8 + ·) }
  else x

/-- Drives whose ports fire for a zone of the set in force: zone emitters are never throttled (R424). -/
def Saf.zoneEmitter (f : Saf) (n : Nat) : Bool := f.a.zoneSets.any fun z => bitOf z.emitters n

/-! The rest of the device: permits, tapped channels, the mirror. -/

/-- The two permits reach the emitters (R127, R128). -/
def State.syncPermits (s : State) : State := s.setPermits s.saf.a.emission s.saf.b.emission

/-- Change the channels; permits follow, and a change of a channel's state posts event 21 (R336, R436). -/
def State.onSaf (s : State) (f : Saf → Saf) : State :=
  let t := { s with saf := f s.saf }
  let t1 := if t.saf.a.state ≠ s.saf.a.state ∧ t.saf.a.powered then t.post 21 0 else t
  let t2 := if t.saf.b.state ≠ s.saf.b.state ∧ t.saf.b.powered then t1.post 21 1 else t1
  t2.syncPermits

/-- The fields of R69 of one tapped channel hold what the set in force says: its words are taken, with the rules for new values
(R73, R149, R153), and SAFETY_LOCKED reads 1. -/
def State.lockTap (s : State) (p : SafTap) : State :=
  let ctl := s.reg .rcvChCtl p.ch
  let s1 := (s.setReg .rcvChCtl p.ch (putBits (putBits (putBits (putBits ctl 7 7 (bitsOf p.ctl 7 7)) 6 6 0) 3 2
    (bitsOf p.ctl 3 2)) 1 0 (bitsOf p.ctl 1 0))).setReg .rcvChThr p.ch p.thr
  let s2 := (s1.setReg .rcvChGate p.ch p.gate).setFlag F.rcvChStsSafetyLocked p.ch true
  ((s2.takeAdapt p.ch).takeChan p.ch).recomputeThr p.ch

/-- The fields of R69 of the tapped channels hold what the set in force says. -/
def State.lockTaps (s : State) : State :=
  let put := fun (b : Bool) (t : State) => (s.saf.chan b).zoneSets.foldl (fun t z => z.taps.foldl (fun t p =>
    if tapSide b p ∧ t.clusterOn (p.ch / 16) then t.lockTap p else t) t) t
  put true (put false s)

/-- The value of a zone's source (R359). -/
def zoneValue (z : SafZone) : Nat := if z.occ then 1 else if z.unv then 2 else 0

/-- Report a source of group 0 where its value changes at this mirror update. -/
def State.safSource (s : State) (src kind v : Nat) : State :=
  if (s.srcVal src).value = v then s else s.change src kind v false

/-- A value of a source is recorded whether it differs or not. -/
def State.writeSource (s : State) (src kind v : Nat) : State :=
  let x : SrcVal := ⟨v, kind, false⟩
  (s.onDev fun d => { d with acq := { d.acq with src := smPut {} d.acq.src src x } }).recordChange src x s.tag

/-- The sources of a channel's cycle (R359): channel A's copy serves all but channel B's state; a stop cause is written at
each stop. -/
def State.safSources (s : State) (b : Bool) : State :=
  if b then s.safSource 0x21 0x12 s.saf.b.state
  else
    let x := s.saf.a
    let s1 := (List.range 4).foldl (fun t z => t.safSource z 0x12 (zoneValue (x.zone z))) s
    let s2 := (List.range 8).foldl (fun t n => t.safSource (0x10 + n) 0x12 (x.drv n).state) s1
    let s3 := (List.range 8).foldl (fun t n =>
      if (x.drv n).newStop then t.writeSource (0x18 + n) 0x12 (x.drv n).cause else t) s2
    let s4 := (s3.safSource 0x20 0x12 x.state).safSource 0x30 0x13
      ((List.range 8).foldl (fun v m => v + 2 ^ m * b2n (x.disc m).reading) 0)
    (List.range 4).foldl (fun t k => t.safSource (0x40 + k) 0x12 (b2n (x.band k).timeout)) s4

/-- The mirror takes the state of a channel (R29, R360). -/
def State.mirror (s : State) (b : Bool) : State :=
  let x := s.saf.chan b
  let i := b2n b
  let crc := (x.set.map (·.crc)).getD 0
  let bits := fun f : Nat → Bool => (List.range 8).foldl (fun v m => v + 2 ^ m * b2n (f m)) 0
  let s1 := ((s.setReg .safSts i (packBits [(8, 0), (8, x.cause), (4, 0), (1, b2n (x.img.isSome && decide (x.missing < 2))),
    (1, b2n x.emission), (1, b2n x.mismatch), (1, b2n x.sealOk), (4, (x.set.map (·.number)).getD 0), (4, x.state)])).setReg
    .safCycle i (satN 32 x.now)).setReg .safSeal i (packBits [(12, x.sw), (4, 0), (8, crc % 256)])
  let s2 := s1.setReg .safDisc i (packBits [(8, bits fun m => (x.disc m).reading), (8, x.dout), (8, bits fun m => (x.disc m).err)])
  let s3 := (List.range 4).foldl (fun t z =>
    let v := x.zone z
    t.setReg .safZone (4 * i + z) (packBits [(8, 0), (6, v.blind), (2, 0), (6, v.intruded), (8, 0),
      (1, b2n (decide (z < x.zoneSets.length) && !v.unv)), (1, b2n v.occ)])) s2
  let s4 := (List.range 8).foldl (fun t n =>
    let d := x.drv n
    (t.setReg .safDrv (8 * i + n) (packBits [(16, unsigned 16 (x.speedMm n)), (7, 0), (1, b2n d.decel), (1, b2n d.torque),
      (1, b2n d.locked), (1, b2n d.closed), (1, b2n d.testDone), (4, d.state)])).setReg .safDrvStop (8 * i + n)
      (packBits [(16, d.duration), (6, 0), (2, d.ending), (8, d.cause)])) s3
  let s5 := (List.range 4).foldl (fun t k =>
    let c := x.band k
    let t1 := (t.setReg .safBand (4 * i + k) (c.seq.getD 0)).setReg .safBandSts (4 * i + k)
      (packBits [(8, c.seqCnt), (8, c.crcCnt), (15, 0), (1, b2n c.timeout)])
    let t2 := t1.setReg .safTxCtl (4 * i + k) (packBits [(16, c.gen), (8, c.msg.length)])
    (List.range 20).foldl (fun u m => u.setReg .safTxData (80 * i + 20 * k + m) (leAt c.msg (4 * m) 4)) t2) s4
  s5.setReg .safCnt i (packBits [(8, x.xcmp), (8, x.testDisc), (16, x.unverified)])

/-- The stop marks of a channel have been recorded. -/
def SafChan.recorded (x : SafChan) : SafChan := { x with drives := x.drives.map fun p => (p.1, { p.2 with newStop := false }) }

/-- The clusters of tiles 0 and 1 whose taps are silent because they are off (R27). -/
def State.silentClusters (s : State) : List Nat := (List.range 8).filter fun c => !s.domainOn c || !s.domainOn (48 + c)

/-- The end of a channel's cycle, its mirror and its change records (R335, R359, R360). -/
def State.safCycle (s : State) (b : Bool) (sw : Nat) : State :=
  if (s.saf.chan b).powered then
    let s1 := s.onSaf fun f => f.cycleEnd b sw s.silentClusters
    ((s1.mirror b).safSources b).onSaf fun f => f.on b SafChan.recorded
  else s

/-- SAFETY_POWER_GOOD (R336, R415): the switch readings of the two channels. -/
def execSafetyPowerGood (swA swB : BitVec 12) (s : State) : Host.Outcome State Fault Refusal :=
  .next (inDevSaf (fun s => s.onSaf fun f => f.powerUp swA.toNat swB.toNat) s)

/-- TAP_WORD: a safety channel takes the next word of its tap FIFO, that of the even channels for A, of the odd for B (R25, R28,
R340). `ch`, `code` and `dropped` are the word as received: with good parity it is the word that was sent, and nothing arrives that was
not. `second` says which half of the cycle; a parity that fails, or a FIFO that overflowed with the word, spoils the cycle (R27). -/
def State.takeTap (s : State) (ch code : Nat) (dropped parityOk second overflow : Bool) : State :=
  let b := decide (ch % 2 = 1)
  match if b then s.dev.rng.tapB else s.dev.rng.tapA with
  | [] => s
  | w :: l =>
    if parityOk && !overflow && decide (w.ch ≠ ch ∨ w.code ≠ code ∨ w.dropped ≠ dropped) then s
    else
      let s1 := s.onDev fun d => { d with rng := if b then { d.rng with tapB := l } else { d.rng with tapA := l } }
      { s1 with saf := s1.saf.on b fun x => if overflow then x.tapOverflow else x.tapWord w parityOk second }

/-- TAP_WORD: the channel, the timestamp code and the dropped-hits flag of the word received, whether its parity holds, which half of
the cycle it falls into, and whether the FIFO overflowed with it. -/
def execTapWord (ch : Fin 768) (code : BitVec 23) (dropped parityOk second overflow : Bool) (s : State) :
    Host.Outcome State Fault Refusal :=
  .next (inDevSaf (State.takeTap · ch code.toNat dropped parityOk second overflow) s)

/-- SAFETY_CYCLE_END of channel A (false) or B (true) with its switch bank reading (R335). -/
def execSafetyCycleEnd (b : Bool) (sw : BitVec 12) (s : State) : Host.Outcome State Fault Refusal :=
  .next (inDevSaf (fun s => s.safCycle b sw.toNat) s)

/-- SELF_TEST of a channel, passed or failed (R336). -/
def execSelfTest (b pass : Bool) (s : State) : Host.Outcome State Fault Refusal :=
  .next (inDevSaf (fun s => s.onSaf fun f => f.selfTest b pass) s)

/-- SET_CRC_CHECK of a channel, good or not (R336). -/
def execSetCrcCheck (b good : Bool) (s : State) : Host.Outcome State Fault Refusal :=
  .next (inDevSaf (fun s => s.onSaf fun f => if good then f else f.safeState b 6) s)

/-- STO_PULSE_TEST of a channel's outputs (R344). -/
def execStoPulseTest (b : Bool) (s : State) : Host.Outcome State Fault Refusal :=
  .next (inSaf (fun s => { s with saf := s.saf.on b SafChan.pulseTest }) s)

/-- READBACK_MISMATCH of a channel (R344, R350). -/
def execReadbackMismatch (b : Bool) (s : State) : Host.Outcome State Fault Refusal :=
  .next (inDevSaf (fun s => s.onSaf fun f => f.safeState b 5) s)

/-- GUARD_SWITCH_INPUT of a drive at a channel (R344, R349). -/
def execGuardSwitchInput (b : Bool) (drive : Fin 8) (closed locked : Bool) (s : State) : Host.Outcome State Fault Refusal :=
  .next (inSaf (fun s => { s with saf := s.saf.guardInput b drive closed locked }) s)

/-- SWITCH_DISAGREE of a drive (R345). -/
def execSwitchDisagree (drive : Fin 8) (s : State) : Host.Outcome State Fault Refusal :=
  .next (inSaf (fun s => { s with saf := s.saf.disagree drive }) s)

/-- DISCRETE_INPUT of a pair at a channel (R350). -/
def execDiscreteInput (b : Bool) (pair : Fin 8) (level : Bool) (s : State) : Host.Outcome State Fault Refusal :=
  .next (inSaf (fun s => { s with saf := s.saf.on b (·.discInput pair level) }) s)

/-- DISC_ERR of a pair (R350). -/
def execDiscErr (pair : Fin 8) (s : State) : Host.Outcome State Fault Refusal :=
  .next (inSaf (fun s => { s with saf := s.saf.discError pair }) s)

/-- COVER_INPUT of a channel: the level of its window-cover input (R127). -/
def execCoverInput (b level : Bool) (s : State) : Host.Outcome State Fault Refusal :=
  .next (inDevSaf (fun s => s.onSaf fun f => f.on b fun x => if x.powered then { x with cover := level } else x) s)

/-- SCAN_SENSE_TIMEOUT of a channel (R127). -/
def execScanSenseTimeout (b : Bool) (s : State) : Host.Outcome State Fault Refusal :=
  .next (inDevSaf (fun s => s.onSaf fun f => f.on b fun x => { x with scanOk := false }) s)

/-- SCAN_SENSE_PULSE of a channel (R127). -/
def execScanSensePulse (b : Bool) (s : State) : Host.Outcome State Fault Refusal :=
  .next (inDevSaf (fun s => s.onSaf fun f => f.on b fun x => if x.powered then { x with scanOk := true } else x) s)

/-- BAND_MESSAGE, delivered by the classifier to both channels (R353). -/
def execBandMessage (bytes : List Byte) (s : State) : Host.Outcome State Fault Refusal :=
  .next (inSaf (fun s => { s with saf := s.saf.bandMessage bytes }) s)

/-- BAND_TIMEOUT of a receive connection at a channel (R354). -/
def execBandTimeout (b : Bool) (conn : Fin 4) (s : State) : Host.Outcome State Fault Refusal :=
  .next (inSaf (fun s => { s with saf := s.saf.on b fun x => x.bandTimeout conn }) s)

/-- BAND_TRANSMIT of a transmit connection (R355). -/
def execBandTransmit (conn : Fin 4) (s : State) : Host.Outcome State Fault Refusal :=
  .next (inSaf (fun s => { s with saf := s.saf.transmit conn }) s)

/-- DRIVE_ENCODER_EDGE of a drive at a channel, forward or back (R345, R349). -/
def execDriveEncoderEdge (b : Bool) (drive : Fin 8) (back : Bool) (s : State) : Host.Outcome State Fault Refusal :=
  .next (inSaf (fun s => { s with saf := s.saf.on b fun x => x.encoder drive back }) s)

/-- PERMIT_WITHDRAWN: the permits as they stand reach the triggers (R127, R128). -/
def execPermitWithdrawn (s : State) : Host.Outcome State Fault Refusal := .next (inDev State.syncPermits s)

end Sys2Proof.Machine
end

