-- ==== Sys2Proof/Machine/States.lean ====
section
/-! DEFINITION. The operating states (R38 to R43, R51, R55): SYS_STATE, what a transition does, the hold causes, FAULT,
STABLED and the wake, the two kinds of reset (R433, R434), and the end of a mailbox command (R45 to R49, R313), which a
transition may bring about. -/
namespace Sys2Proof.Machine

/-- SYS_STATE (R55). -/
def State.sysWord (s : State) : Nat :=
  packBits [(4, s.sys.op.code), (4, 0), (4, s.sys.prev.code), (4, 0), (8, s.sys.cause), (1, b2n s.sys.holdCmd),
    (1, b2n s.sys.holdThermal), (1, b2n s.sys.holdDram)]

/-! The end of a command. -/

/-- Apply a change to the command executor. -/
def State.onCmd (s : State) (f : CmdSt → CmdSt) : State := s.onDev fun d => { d with cmd := f d.cmd }

/-- The reply to the management request whose command has ended (R313), on the port or pair it came from. -/
def State.mgmtReply (s : State) (c : MbxCmd) (st result : Nat) : State :=
  match s.dev.cmd.reply with
  | some (p, mac) =>
    if c.mbx = 1 then
      let res := (List.range 8).flatMap fun k => leBytes 4 (s.reg .sysMbxRes (8 + k))
      let f : TxFrame :=
        { dst := mac, src := s.mac .ethMacLo .ethMacHi p
          tag := vlanTag (s.fld F.ethTxqTagPcp (8 * p + 5)) (s.fld F.ethMgmtCfgVid 0)
          etype := s.fld F.ethMgmtCfgEtype 0
          payload := leBytes 1 1 ++ leBytes 1 c.opcode ++ leBytes 1 c.tag ++ leBytes 1 result ++ leBytes 1 st ++ leBytes 3 0 ++ res }
      let s1 := s.onCmd fun x => { x with reply := none }
      s1.keepCmd (s1.sendFrame p 5 f)
    else s
  | none => s

/-- A command of a mailbox ends with a result; `st` is the state code at its take-up (R45, R48, R49). A wake event, held
under mailbox 2, leaves none (R51). -/
def State.endCmd (s : State) (c : MbxCmd) (st result : Nat) : State :=
  if c.mbx < 2 then
    let s1 := (s.setReg .sysMbxSts c.mbx (packBits [(8, result), (8, 0), (8, c.tag), (4, st), (2, 0), (1, 1), (1, 0)]))
    s.takeDev ((if result = 1 then s1.bump F.sysCmdCntStateRefusedCnt 0 1 else s1).mgmtReply c st result)
  else s

/-- The command executing ends with a result (R51, R381). -/
def State.endRunning (s : State) (result : Nat) : State :=
  match s.dev.cmd.running with
  | some (c, st) => (s.onCmd fun x => { x with running := none }).endCmd c st result
  | none => s

/-! Transitions. -/

/-- The states in which a set of blocks runs (R38). -/
def OpState.loops : OpState → Bool
  | .init | .ready | .run => true
  | _ => false

/-- Firmware runs, and with it measurement and the links. -/
def OpState.firmware : OpState → Bool
  | .init | .ready | .run | .safeHold => true
  | _ => false

/-- A change of SYS_STATE is a change of source 0x0300; a transition out of a recording state is recorded before the
streams hold (R230, R245). -/
def State.reportState (s : State) (old : OpState) : State :=
  let v : SrcVal := ⟨s.sysWord, 0x12, false⟩
  if v = s.srcVal 0x300 then s
  else
    let s1 := s.onDev fun d => { d with acq := { d.acq with src := smPut {} d.acq.src 0x300 v } }
    if old.records || s.sys.op.records then
      (s1.streamsOf 2).foldl (fun t n => if t.selects n 0x300 then t.offerChange n 0x300 v 0 t.tag else t) s1
    else s1

/-- The line stream ends its lines as RUN ends: the lines that wait in the FIFO, then losses, then the closing header (R24,
R39, R243). -/
def State.closeLines (s : State) : State :=
  let r := s.drainFifo.lineEnd
  match s.lineStream with
  | some n => r.2.closeWith n r.1
  | none => r.2

/-- The gap records of a stop by SAFE_HOLD or FAULT (R39, R237): point-cloud and line streams stop with RUN, state and
measurement streams with the last state that records them. -/
def State.stopGaps (s : State) (old : OpState) : State :=
  (List.range 64).foldl (fun t n =>
    if t.flag F.acqStrCtlOn n then
      let cls := t.fld F.acqStrCtlClass n
      if (if cls < 2 then decide (old = .run) else old.records && decide (t.sys.op = .fault)) then t.stopGap n t.sys.cause
      else t
    else t) s

/-- What ends with RUN: the schedule's epoch, felting, imaging and the shots not yet fired (R39). -/
def State.stopRun (s : State) : State :=
  let s1 := (s.stopSchedule.stopFelting).stopImaging
  (List.range 32).foldl (fun t n => t.setPort n { t.port n with drawn := none }) s1

/-- Pending changes are written once a state stream records again (R230, R235). -/
def State.resumeStreams (s : State) : State :=
  (s.streamsOf 2).foldl (fun t n => flushPend n (t.stream n).pend.length t) s

/-- What a state that the device leaves takes with it (R38, R185, R199, R410). -/
def State.leaveBlocks (s : State) (old : OpState) : State :=
  let new := s.sys.op
  let s1 := if old = .run then s.stopRun else s
  let s2 := if old = .ready then s1.endCaptures else s1
  let s3 := if old.loops && !new.loops then
      ((List.range 12).foldl (fun t i => t.coolPort i) s2.stopLoops).dropLines fun _ => true
    else s2
  let s4 := if old.firmware && !new.firmware then s3.showDrives s3.stopConverters else s3
  if !old.records && new.records then s4.resumeStreams else s4

/-- What a state that the device enters brings (R269, R288, R407). -/
def State.enterBlocks (s : State) : State :=
  let s1 := if s.sys.op.firmware then s.showDrives (if s.sys.op = .init then s.switchAll else s).startConvs else s
  let s2 := if s.sys.op = .stabled ∨ s.sys.op = .fault then s1.abandonChains else s1
  s2.linksService.driveClocks

/-- A state change (R39, R55): SYS_STATE, event 0, the change record, the gap records of the stop, and the blocks that stop
or start with the state; a command executing when SAFE_HOLD or FAULT is entered ends with ABORTED (R47). CAUSE is written
where the transition has a cause of its own. -/
def State.enter (s : State) (new : OpState) (cause : Option Nat) : State :=
  let old := s.sys.op
  let s1 := if old = .run then s.keepCmd (inDev State.closeLines s) else s
  let s2 := { s1 with sys := { s1.sys with op := new, prev := old, cause := cause.getD s1.sys.cause } }
  let s3 := (s2.post 0 new.code).reportState old
  let s4 := if new = .safeHold ∨ new = .fault then (s3.stopGaps old).endRunning 6 else s3
  s2.takeDev (s4.keepCmd (s4.leaveBlocks old).enterBlocks)

/-! FAULT and SAFE_HOLD. -/

/-- The states from which a cause leads to FAULT (R41). -/
def OpState.faults (o : OpState) (cause : Nat) : Bool :=
  match o with
  | .init | .ready | .run | .stabled | .safeHold => true
  | .blockLoad => decide (cause = 0x23 ∨ cause = 0x11)
  | .wipe | .awaitFw | .verify => decide (cause = 0x23)
  | _ => false

/-- A cause of FAULT arises (R41): one found during RESET waits for the SRAM overwrite. -/
def State.toFault (s : State) (cause : Nat) : State :=
  if s.sys.op = .reset ∧ cause = 0x23 then { s with sys := { s.sys with found23 := true } }
  else if s.sys.op.faults cause then
    s.enter .fault (some cause)
  else s

/-- The HOLD bit of a cause (R55): the command, the junction, DRAM channel 0. -/
def Sys.setHold (y : Sys) (cause : Nat) (b : Bool) : Sys :=
  match cause with
  | 0x10 => { y with holdThermal := b }
  | 0x12 => { y with holdDram := b }
  | _ => { y with holdCmd := b }

/-- A hold cause arises (R41, R42): READY and RUN go to SAFE_HOLD with it, SAFE_HOLD adds its bit. -/
def State.hold (s : State) (cause : Nat) : State :=
  if s.sys.op = .ready ∨ s.sys.op = .run then
    ({ s with sys := s.sys.setHold cause true }).enter .safeHold (some cause)
  else if s.sys.op = .safeHold then inDev (·.reportState .safeHold) { s with sys := s.sys.setHold cause true }
  else s

/-- A hold cause clears (R42). -/
def State.unhold (s : State) (cause : Nat) : State :=
  inDev (·.reportState s.sys.op) { s with sys := s.sys.setHold cause false }

/-! STABLED (R51, R282, R318). -/

/-- Every DRAM channel in service goes into self-refresh, or comes out of it (R282). -/
def State.selfRefresh (s : State) (sleep : Bool) : State :=
  s.channels.foldl (fun t n =>
    let st := t.fld F.memChStsState n
    if sleep then if st = 2 ∨ st = 4 then t.setFld F.memChStsState n 3 else t
    else if st = 3 then t.setFld F.memChStsState n (if (t.dram n).degraded then 4 else 2) else t) s

/-- Entry to STABLED: every switched domain goes off, PWR_DOM_CTL keeps which are to return, and DRAM alone keeps its
contents. -/
def State.stable (s : State) : State :=
  let s1 := s.enter .stabled (some 1)
  let s2 := (s1.domainsOff (List.range 140)).onTime fun t => { t with stabledAt := t.c }
  s1.takeDev ((s2.onDev fun d => { d with
    mem := smEraseRange d.mem sramBase (2 ^ 23)
    poison := d.poison.filter (fun p => decide (p < sramBase ∨ mirrorBase ≤ p)) }).selfRefresh true)

/-- A wake begins (R51): DRAM leaves self-refresh; the domains that were on return with PGOOD, and the emitter PLL locks. -/
def State.beginWake (s : State) (c : MbxCmd) : State :=
  inDev (·.selfRefresh false) (s.onCmd fun x => { x with running := some (c, OpState.code .stabled) })

/-- Have both lockstep pairs been started by a wake: is the wake under way, the emitter PLL locked and are the cores on? -/
def State.wakeStarted (s : State) : Bool :=
  s.waking && !s.dev.rng.pll.relock && [133, 134, 135, 136, 139].all fun d => s.domBit .pwrDomSts d

/-- During a wake, firmware reports ready: READY is entered and WAKE ends with OK. A wake event leaves CAUSE (R55). -/
def State.wakeReady (s : State) : State :=
  if s.wakeStarted then
    let cause := match s.dev.cmd.running with | some (c, _) => if c.mbx < 2 then some 1 else none | none => none
    inDev (fun t => (t.endRunning 0).lockTaps) ((inDev State.timeWakes s).enter .ready cause)
  else s

/-! Resets (R433, R434). -/

/-- The registers a warm reset keeps: RWS fields, and what belongs to the fault log. -/
def keptWarm : List Reg :=
  [.sysOwnConflict0, .sysOwnConflict1, .fmkPair, .fmkLogTail, .fmkLogHead, .fmkLog]

/-- The live fields of the reference PLL, of the supply monitors and of temperature sampling, which no reset stops (R417, R434);
the times that sampling keeps start afresh with C (log entry 46). -/
def State.keepLive (s old : State) : State :=
  let ref := old.reg .timRefSts 0
  let s1 := [F.timRefStsAOk, F.timRefStsBOk, F.timRefStsSel, F.timRefStsHold].foldl
    (fun t f => t.setFld f 0 (bitsOf ref f.hi f.lo)) s
  let s2 := (s1.setFld F.fmkStsRef 0 (old.fld F.fmkStsRef 0)).setFld F.pwrSupStsGood 0 (old.fld F.pwrSupStsGood 0)
  let s3 := [F.thmStsFast, F.thmStsLevel, F.thmStsHotIdx, F.thmStsHot].foldl (fun t f => t.setFld f 0 (old.fld f 0)) s2
  let s4 := (List.range 64).foldl (fun t i => t.setReg .thmSens i (old.reg .thmSens i)) s3
  s4.onDev fun d => { d with thm := { lastWarm := if old.flag F.thmStsFast 0 then some 0 else none } }

/-- Sources that show parts a reset does not stop start from what those show (R244). -/
def State.keepSources (s : State) : State :=
  let thermal : List (Nat × Nat) := [(0x240, unsigned 32 (s.sfld F.thmStsHot 0)), (0x241, s.fld F.thmStsLevel 0),
    (0x242, s.fld F.thmStsFast 0)] ++ (List.range 64).map fun i => (0x200 + i, unsigned 32 (s.sfld F.thmSensValue i))
  let kept : List (Nat × Nat) := [(0x134, s.fld F.fmkStsRef 0), (0x136, s.fld F.fmkLogHeadHead 0)]
    ++ thermal.filter (fun (p : Nat × Nat) => decide (p.2 ≠ 0))
  kept.foldl (fun t p => t.onDev fun d =>
    { d with acq := { d.acq with src := smPut {} d.acq.src p.1 ⟨p.2, sourceKind p.1, false⟩ } }) s

/-- The hash seed drawn in RESET is odd (R278). -/
def State.drawSeed (s : State) : State :=
  let d := s.draw
  d.2.setReg .memHash 0 ((Config.random d.1).toNat % 2 ^ 32 ||| 1)

/-- A reset (R41, R433): cold or warm, with its SOURCE and its CAUSE. Every part but the safety channels, the fuses, what a
warm reset keeps and the live state of the always-on parts starts afresh, with the targets of the loops
that ran driven as inactive (R185); DRAM is wiped later, in WIPE. -/
def State.resetNow (s : State) (cold : Bool) (source cause : Nat) : State :=
  let keep := if cold then [] else s.dev.regs.filter fun q => keptWarm.contains (keyReg q.1).1
  let d : Dev :=
    { regs := keep, mem := smEraseRange s.dev.mem sramBase (2 ^ 23)
      poison := s.dev.poison.filter (fun p => decide (p < sramBase ∨ mirrorBase ≤ p))
      freeCtr := s.dev.freeCtr, out := s.stopLoops.stopClocks.dev.out }
  let prev := if s.sys.op = .off then .reset else s.sys.op
  let s1 : State := { s with dev := d, sys := ⟨.reset, prev, cause, false, false, false, false⟩ }
  let warm := if cold then 0 else satN 16 (s.fld F.sysRstWarmCnt 0 + 1)
  let s2 := (s1.setReg .sysRst 0 (packBits [(16, warm), (3, source), (12, 0), (1, b2n cold)])).keepLive s
  s1.takeDev s2.keepSources.drawSeed.syncPermits

/-- A supply lies outside its trip limits (R414, R415): a cold reset; with VDD_CORE or VDDIO_3V3 the channels lose power. -/
def State.supplyFails (s : State) (rail : Nat) : State :=
  if s.sys.op = .off then s
  else
    let good := putBits (s.fld F.pwrSupStsGood 0) rail rail 0
    let s1 := (s.setFld F.pwrSupStsGood 0 good).resetNow true 1 0x03
    if rail = 0 ∨ rail = 5 then inDev State.syncPermits { s1 with saf := Saf.powerDown } else s1

/-- All six rails have been good for 10 ms (R41, R415): OFF is left. -/
def State.suppliesGood (s : State) : State :=
  let s1 := s.setFld F.pwrSupStsGood 0 0x3F
  if s.sys.op = .off then s1.resetNow true 0 0 else s1

/-- The SRAM overwrite completes (R41): BLOCK_LOAD, or FAULT for a cause 0x23 found meanwhile. -/
def State.sramDone (s : State) : State :=
  if s.sys.op = .reset then
    if s.sys.found23 then ({ s with sys := { s.sys with found23 := false } }).enter .fault (some 0x23)
    else (s.onDev fun d => { d with boot := { d.boot with loadAt := d.time.c } }).enter .blockLoad none
  else s

/-- Firmware reports initialisation complete (R41, R281): the channels hold their full training at the block's rate. While
the clusters are shut down it has R99 still to meet (R425). -/
def State.initDone (s : State) : State :=
  if s.sys.op = .init ∧ s.flag F.thmStsShutdown 0 = false then
    let s1 := s.channels.foldl (fun t n =>
      if t.fld F.memChStsState n = 2 ∨ t.fld F.memChStsState n = 1 then
        ((t.setFld F.memChStsState n 2).setFlag F.memChStsFastExit n true).setFld F.memChStsRateTrained n (t.fld F.memCfgRate 0)
      else t) s
    (s.takeDev s1).enter .ready none
  else s

end Sys2Proof.Machine
end

