-- ==== Sys2Proof/Machine/Streams.lean ====
section
/-! DEFINITION. Turning streams on and off, and the initial and refreshed values of state streams (R232, R243, R244, R266,
R457). -/
namespace Sys2Proof.Machine

/-- The present value of a source (R226, R244, R245, R359, R369, R426); those of the safety function are the mirror's. -/
def State.presentVal (s : State) (src : Nat) : SrcVal :=
  let v (n : Nat) : SrcVal := ⟨n % 2 ^ 32, sourceKind src, false⟩
  if src < 0x100 then s.srcVal src
  else if src < 0x130 then v (s.mapBits (src - 0x100))
  else match src with
    | 0x130 => v (s.reg .fmkMapPort 0)
    | 0x131 => v (s.fld F.fmkMapMiscLost 0 + 16 * s.fld F.fmkMapMiscRetired 0)
    | 0x132 => v (s.fld F.fmkMapMiscLinks 0 + 16 * (List.range 4).foldl (fun t n => t + s.fld F.lnkStsSpareUsed n * 2 ^ n) 0)
    | 0x133 => v (s.fld F.fmkMapMiscUtil 0)
    | 0x134 => v (s.fld F.fmkStsRef 0)
    | 0x135 => v s.dev.fmk.recTotal
    | 0x136 => v (s.fld F.fmkLogHeadHead 0)
    | 0x240 => v (unsigned 32 (s.sfld F.thmStsHot 0))
    | 0x241 => v (s.fld F.thmStsLevel 0)
    | 0x242 => v (if s.flag F.thmStsShutdown 0 then 2 else s.fld F.thmStsFast 0)
    | 0x300 => v s.sysWord
    | _ =>
      if src < 0x240 then v (unsigned 32 (s.sfld F.thmSensValue (src - 0x200)))
      else if src < 0x300 then v (bitsOf (s.reg .pwrSupSts 0) (7 + 2 * (src - 0x250)) (6 + 2 * (src - 0x250)))
      else if src % 2 = 0 then
        let k := (src - 0x400) / 2
        ⟨s.reg .linTrkPos k, 0x10, s.flag F.linTrkStsLost k⟩
      else
        let k := (src - 0x400) / 2
        ⟨s.reg .linTrkAng k, 0x11, decide (s.reg .linTrkAng k = 0x80000000)⟩

/-- Every source id that a home chapter defines, in ascending order (R245). -/
def sourceIds : List Nat :=
  List.range 4 ++ (List.range 16).map (0x10 + ·) ++ [0x20, 0x21, 0x30] ++ (List.range 4).map (0x40 + ·)
    ++ (List.range 55).map (0x100 + ·) ++ (List.range 67).map (0x200 + ·) ++ (List.range 6).map (0x250 + ·)
    ++ [0x300] ++ (List.range 8).map (0x400 + ·)

/-- A state stream writes the present value of every selected source, with INITIAL (1) or REFRESH (4) (R244). -/
def State.writeSources (s : State) (n flags : Nat) : State :=
  sourceIds.foldl (fun t src => if t.selects n src then t.offerChange n src (t.presentVal src) flags t.tag else t) s

/-- The refresh timer of a state stream expires (R244). -/
def State.refreshStream (s : State) (n : Nat) : State :=
  if s.streamOn n 2 ∧ 1 ≤ s.fld F.acqStrCtlParam n ∧ s.sys.op.records then s.writeSources n 4 else s

/-- The timer of a measurement stream expires (R246): one record for each selected slot that has delivered a result. -/
def State.measTimer (s : State) (n : Nat) : State :=
  if s.streamOn n 3 ∧ s.flag F.acqStrCtlTimer n ∧ s.sys.op.records then
    (List.range 64).foldl (fun t k =>
      if bitOf (t.pair .acqStrSelLo .acqStrSelHi n) k && t.dev.acq.newest.any (fun p => decide (p.1 = k)) then t.offerMeas n k
      else t) s
  else s

/-- The checks of STREAM_ON on a stream's settings (R232). -/
def State.streamLegal (s : State) (n : Nat) : Bool :=
  let base := s.pair .acqStrBaseLo .acqStrBaseHi n
  decide (base + s.ringSize n ≤ s.dramCap)
    && decide (s.fld F.acqStrWmLwm n < s.fld F.acqStrWmHwm n)
    && (decide (s.fld F.acqStrCtlClass n ≠ 3) || !s.flag F.acqStrCtlTimer n || decide (1 ≤ s.fld F.acqStrCtlParam n))
    && (decide (s.fld F.acqStrCtlClass n ≠ 1) || (s.streamsOf 1).isEmpty)

/-- Does the owner of a stream have room for its ring in its quota (R266)? -/
def State.streamQuota (s : State) (n : Nat) : Bool :=
  match s.streamSlot n with
  | some k => !s.overQuota k ((s.ringSize n + 4095) / 4096)
  | none => true

/-- A stream turns on: its ring starts empty at its base; a state stream writes every value with INITIAL, a line stream
turned on in RUN begins with the header of the open hood (R232, R243, R244). -/
def State.streamStart (s : State) (n : Nat) : State :=
  let s1 := (((s.setReg .acqStrWr n 0).setReg .acqStrRd n 0).setFlag F.acqStrCtlOn n true).setStream n {}
  let s2 := ((s1.setFlag F.acqStrStsFull n false).setFlag F.acqStrStsHigh n false).onLin fun x => { x with
    marks := x.marks.filter fun p => decide (p.1 ≠ n) }
  let s3 : State := match s2.fld F.acqStrCtlClass n with
    | 2 => s2.writeSources n 1
    | 1 => if s2.inOp [.run] then (s2.ringPutAll n s2.joinHeader).followStall else s2
    | _ => s2
  match s3.streamSlot n with
  | some k => s3.refreshUse k
  | none => s3

/-- STREAM_OFF (R457). -/
def State.streamStop (s : State) (n : Nat) : State :=
  let slot := s.streamSlot n
  let p := if s.streamOn n 1 && decide (s.sys.op = .run) then s.lineEnd else ([], s)
  let s1 := (p.2.drainStream n p.1).setFlag F.acqStrCtlOn n false
  let s2 := if s1.sys.op = .run then s1.followStall else s1
  match slot with
  | some k => (s2.refreshUse k).issue
  | none => s2

/-- RD written to a stream (R233): an illegal value is discarded, counted, and sets RD_ERR. -/
def State.rdWrite (s : State) (m : Master) (n v addr : Nat) : State :=
  if s.rdLegal n v then
    let s1 := (s.advanceRd n v).pruneMarks n
    if s1.streamOn n 1 then s1.followStall else s1
  else (s.setFlag F.acqStrStsRdErr n true).accErr m 4 addr

/-- MEASUREMENT_TIMER of a stream (R246). -/
def execMeasurementTimer (n : Fin 64) (s : State) : Host.Outcome State Fault Refusal := .next (inDev (fun s => s.measTimer n) s)

/-- STATE_REFRESH of a stream (R244). -/
def execStateRefresh (n : Fin 64) (s : State) : Host.Outcome State Fault Refusal := .next (inDev (fun s => s.refreshStream n) s)

end Sys2Proof.Machine
end

