-- ==== Sys2Proof/Machine/Protection.lean ====
section
/-! DEFINITION. The fuses, the life cycle, the dual-control mailbox, PROT_CHANGE and attestation (R376, R377, R387 to R394),
and resource ownership (R52 to R54, R458). -/
namespace Sys2Proof.Machine

/-! Life cycle and key slots. -/

/-- The life-cycle state as report byte 1 codes it (R387, R394). -/
def Fuse.state (f : Fuse) : Nat :=
  if f.ended then 4 else if f.lc = 0 then 0 else if f.lc = 1 then 1 else if f.lc % 2 = 0 then 2 else 3

/-- The key hash of a slot: slots 8 and 9 were burned at manufacture (R376). -/
def Fuse.slotHash (f : Fuse) (k : Nat) : List Byte :=
  if 8 ≤ k then (List.range 64).map fun i => Config.vendorHash k i
  else ((f.hash.find? fun p => decide (p.1 = k)).map (·.2)).getD (List.replicate 64 0#8)

/-- The group of a slot: 0 A, 1 B, 2 V (R376). -/
def slotGroup (k : Nat) : Nat := if k < 4 then 0 else if k < 8 then 1 else 2

/-- Is a slot programmed and not revoked? -/
def Fuse.live (f : Fuse) (k : Nat) : Bool := decide (k < 10) && bitOf f.programmed k && !bitOf f.revoked k

/-- Is a slot usable in the present life-cycle state (R376)? -/
def Fuse.usable (f : Fuse) (k : Nat) : Bool :=
  f.live k && (if 8 ≤ k then decide (f.state = 3) else decide (f.state ≠ 0 ∧ f.state ≠ 4))

/-- Is a signer's key usable: its slot usable, its modulus hashing to the slot's hash (R375, R376)? -/
def Fuse.keyOk (f : Fuse) (g : Signer) : Bool := f.usable g.index && decide (sha512 g.modulus = f.slotHash g.index)

/-- Do two signers meet the two-party rule and verify over a message (R376)? -/
def Fuse.twoParty (f : Fuse) (a b : Signer) (msg : List Byte) : Bool :=
  f.keyOk a && f.keyOk b && decide (slotGroup a.index ≠ slotGroup b.index) && a.verifies msg && b.verifies msg

/-- The debug level in force (R389); in FIELD, PROT_DEBUG holds what DEBUG_OPEN has opened. -/
def State.debugLevel (s : State) : Nat :=
  match s.fuse.state with
  | 2 => s.fld F.protDebugLevel 0
  | 4 => 0
  | _ => s.dev.boot.debugMax

/-! The dual-control mailbox (R390). -/

/-- Bytes of a slot's buffer: `n` words from word `w`. -/
def State.dcBytes (s : State) (slot w n : Nat) : List Byte :=
  (List.range n).flatMap fun i => leBytes 4 (s.reg .protDcBuf (1024 * slot + w + i))

/-- Words of a slot's buffer written. -/
def State.dcPut (s : State) (slot w : Nat) (l : List Nat) : State :=
  l.zipIdx.foldl (fun t p => t.setReg .protDcBuf (1024 * slot + w + p.2) p.1) s

/-- The nonce of a slot is cleared, and VALID with it. -/
def State.dcClear (s : State) (slot : Nat) : State :=
  (s.dcPut slot 32 (List.replicate 8 0)).setFlag F.protDcCtlValid slot false

/-- `n` words of 64 bits of the random source. -/
def State.draws (s : State) : Nat → List Nat × State
  | 0 => ([], s)
  | n + 1 =>
    let d := s.draw
    let r := d.2.draws n
    ((Config.random d.1).toNat :: r.1, r.2)

/-- ARM: a fresh nonce of 32 bytes, and VALID (R390). -/
def State.dcArm (s : State) (slot : Nat) : State :=
  let r := (s.dcClear slot).draws 4
  (r.2.dcPut slot 32 (r.1.flatMap fun v => [v % 2 ^ 32, v / 2 ^ 32 % 2 ^ 32])).setFlag F.protDcCtlValid slot true

/-! PROT_CHANGE (R388, R391, R392). -/

/-- A request as copied at take-up: its slot, whether its nonce was valid, the nonce, REQUEST and the two signers. -/
structure ProtReq where
  slot : Nat
  valid : Bool
  nonce : List Byte
  req : List Byte
  a : Signer
  b : Signer
deriving DecidableEq, Repr

/-- The request in a slot. -/
def State.protReq (s : State) (slot : Nat) : ProtReq :=
  { slot := slot, valid := s.flag F.protDcCtlValid slot, nonce := s.dcBytes slot 32 8, req := s.dcBytes slot 0 32
    a := signerAt (s.dcBytes slot 64 257) 0, b := signerAt (s.dcBytes slot 384 257) 0 }

/-- The operation of a request. -/
def ProtReq.op (p : ProtReq) : Nat := leAt p.req 0 1

/-- Byte 1 of a request. -/
def ProtReq.arg (p : ProtReq) : Nat := leAt p.req 1 1

/-- The message the signers sign (R390). -/
def ProtReq.message (p : ProtReq) : List Byte :=
  leBytes 8 Config.serial.toNat ++ p.nonce ++ leBytes 1 p.slot ++ p.req

/-- Is a life-cycle transition listed, its further condition met (R388)? -/
def Fuse.transition (f : Fuse) (target : Nat) : Bool :=
  match f.state, target with
  | 0, 1 => (List.range 4).any (fun k => bitOf f.programmed k) && (List.range 4).any (fun k => bitOf f.programmed (4 + k))
  | 1, 2 => true
  | 2, 3 => decide (f.lc < 31)
  | 3, 2 => true
  | 1, 4 => true
  | 2, 4 => true
  | 3, 4 => true
  | _, _ => false

/-- Is a slot the last live one of group A or B? -/
def Fuse.lastOfGroup (f : Fuse) (k : Nat) : Bool :=
  decide (k < 8) && decide (((List.range 8).filter fun j => decide (slotGroup j = slotGroup k) && f.live j).length = 1)

/-- Are the operation and fields of a request valid (R391)? -/
def State.protValid (s : State) (p : ProtReq) : Bool :=
  let f := s.fuse
  let v := leAt p.req 4 4
  match p.op with
  | 1 => f.transition p.arg
  | 2 => decide (p.arg < 8) && !bitOf f.programmed p.arg && !bitOf f.spoiled p.arg
  | 3 => decide (p.arg < 10) && f.live p.arg && !f.lastOfGroup p.arg
  | 4 => decide (f.genMin < v ∧ v ≤ s.dev.boot.protGen ∧ v ≤ 64)
  | 5 => decide (f.state = 2 ∧ 1 ≤ p.arg ∧ p.arg ≤ 2 ∧ p.arg ≤ s.dev.boot.debugMax)
  | _ => false

/-- The result PROT_CHANGE ends with (R391): BAD_ARG, NOT_PERMITTED or OK. -/
def State.protResult (s : State) (c : MbxCmd) (p : ProtReq) : Nat :=
  if !(decide (p.slot < 4) && p.valid && s.protValid p) then 3
  else if (decide (c.mbx = 1) && s.dev.boot.mgmtProt) || !(decide (s.fuse.state = 0) || s.fuse.twoParty p.a p.b p.message) then 5
  else 0

/-- The fuses after a permitted change (R388, R391 to R393). -/
def Fuse.change (f : Fuse) (p : ProtReq) : Fuse :=
  match p.op with
  | 1 => if p.arg = 4 then { f with ended := true }
      else if p.arg = 1 then { f with lc := f.lc + 1, idGen := f.idGen + 1 } else { f with lc := f.lc + 1 }
  | 2 => { f with
      programmed := putBits f.programmed p.arg p.arg 1
      hash := (p.arg, sliceB p.req 64 64) :: f.hash.filter fun q => decide (q.1 ≠ p.arg) }
  | 3 => { f with revoked := putBits f.revoked p.arg p.arg 1 }
  | 4 => { f with genMin := leAt p.req 4 4 }
  | _ => f

/-- PROT_CHANGE (R390 to R392); `st` is the state code at take-up. A life-cycle change ends in a cold reset (R388). -/
def State.protChange (s : State) (c : MbxCmd) (st : Nat) : State :=
  let slot := c.args.headD 0
  let p := s.protReq slot
  let s1 := if slot < 4 then inDev (·.dcClear slot) s else s
  let r := s.protResult c p
  if r = 0 then
    let s2 := { s1 with fuse := s1.fuse.change p }
    let s3 := if p.op = 5 then s2.setFld F.protDebugLevel 0 (max p.arg (s2.fld F.protDebugLevel 0)) else s2
    let s4 := s3.endCmd c st 0
    if p.op = 1 then s4.resetNow true 3 0x30 else s4
  else s1.endCmd c st r

/-! Attestation (R394). -/

/-- Bytes 0 to 191 of the report. -/
def State.attestBody (s : State) (nonce : List Nat) (st : Nat) : List Byte :=
  let b := s.dev.boot
  leBytes 1 1 ++ leBytes 1 s.fuse.state ++ leBytes 1 st ++ leBytes 1 s.debugLevel
    ++ leBytes 4 (packBits [(10, s.fuse.programmed), (6, 0), (10, s.fuse.revoked)])
    ++ leBytes 8 Config.serial.toNat ++ leBytes 4 s.dev.boot.protGen ++ leBytes 4 s.fuse.genMin
    ++ leBytes 4 b.svn ++ leBytes 4 (b2n b.accepted + 2 * b2n b.viaNet)
    ++ nonce.flatMap (leBytes 4) ++ sliceB b.blockMeas 0 64 ++ sliceB b.fwMeas 0 64

/-- Write a byte string into the report registers. -/
def State.putReport (s : State) (l : List Byte) : State :=
  (List.range 176).foldl (fun t i => t.setReg .protAtt i (leAt l (4 * i) 4)) s

/-- ATTEST (R394), with a fresh salt. -/
def State.attest (s : State) (c : MbxCmd) (st : Nat) : State :=
  if s.fuse.state = 0 ∨ s.fuse.state = 4 then s.endCmd c st 5
  else
    let body := s.attestBody (c.args.take 8) st
    let r := s.draws 8
    let sig := rsaSign (Config.identityModulus s.fuse.idGen).toNat (Config.identityExponent s.fuse.idGen).toNat body
      (r.1.flatMap (leBytes 8))
    ((r.2.putReport (body ++ sig)).setReg .sysMbxRes (8 * c.mbx) 704).endCmd c st 0

/-! Resource ownership (R52, R54, R458). -/

/-- Ports of each kind. -/
def portCounts : List Nat := [32, 4, 24, 12, 4, 8, 8, 32, 4, 4, 4, 16, 1, 1, 1, 1]

/-- Does a resource id name a resource (R458)? -/
def resourceOk (res : Nat) : Bool :=
  let i := res % 65536
  decide (res / 65536 % 256 = 0) && match res / 2 ^ 24 with
    | 0x01 => decide (i ≤ 934)
    | 0x02 => decide (i < 768)
    | 0x03 => decide (i / 34 < 48 ∧ i % 34 < 32)
    | 0x04 => decide (i < 48)
    | 0x05 => decide (i % 256 < portCounts.getD (i / 256) 0)
    | 0x06 => decide (i < 64)
    | 0x07 => decide (i < 8192)
    | 0x08 => decide (i < 64)
    | 0x09 => decide (i < 32)
    | 0x0A => decide (i < 4)
    | 0x0B => decide (i < 12)
    | 0x0C => decide (i < 128)
    | _ => false

/-- Apply a change to the ownership record. -/
def State.onOwn (s : State) (f : OwnSt → OwnSt) : State := s.onDev fun d => { d with own := f d.own }

/-- A refusal for ownership: counted, and SYS_OWN_LAST loaded (R54). -/
def State.ownRefused (s : State) (res who : Nat) : State :=
  ((s.bump F.sysOwnRefusedCntCount 0 1).setReg .sysOwnLast0 0 (who % 65536 + 65536 * s.ownerOf res)).setReg .sysOwnLast1 0 res

/-- CLAIM and UNCLAIM of a resource by a feature (R54): the result and the state. What feature 0xFFFE owns is never transferred. -/
def State.claim (s : State) (give : Bool) (res who : Nat) : Nat × State :=
  if !(resourceOk res && s.dev.own.enabled.contains who) then (3, s)
  else if give then
    if s.ownerOf res = who ∧ who ≠ 0xFFFE then (0, s.onOwn fun o => { o with owner := smPut 0xFFFF o.owner res 0xFFFF })
    else (4, s.ownRefused res who)
  else if who ≠ 0xFFFE ∧ s.dev.own.pool.contains res ∧ s.ownerOf res = 0xFFFF ∧ (resourceDomain res).all s.domainOn then
    (0, s.onOwn fun o => { o with owner := smPut 0xFFFF o.owner res who })
  else (4, s.ownRefused res who)

end Sys2Proof.Machine
end

