-- ==== Sys2Proof/Machine/Executor.lean ====
section
/-! DEFINITION. The mailboxes and the command executor (R45 to R51): ringing a mailbox, taking commands up in order, and every
command. A row of the table that is a command stands for all of R45: its argument words are written, its GO rings the
mailbox, and the executor runs it at once unless it is held or another command is executing. -/
namespace Sys2Proof.Machine

/-- The states in which a command is legal (R50). -/
def legalIn (op : Nat) (st : OpState) : Bool :=
  let afterBoot := [OpState.awaitFw, .verify, .init, .ready, .run, .stabled, .safeHold, .fault].contains st
  match op with
  | 0x00 => afterBoot
  | 0x01 => decide (st = .awaitFw)
  | 0x02 => decide (st = .ready)
  | 0x03 => decide (st = .run)
  | 0x04 => decide (st = .ready)
  | 0x05 => decide (st = .stabled)
  | 0x06 => [OpState.ready, .run].contains st
  | 0x07 => decide (st = .safeHold)
  | 0x08 => [OpState.ready, .run].contains st
  | 0x09 => [OpState.ready, .run].contains st
  | 0x0A => decide (st = .ready)
  | 0x0B => decide (st = .ready)
  | 0x0C => decide (st = .ready)
  | 0x0D => [OpState.awaitFw, .init, .ready, .run, .safeHold, .fault].contains st
  | 0x0E => decide (st = .ready)
  | 0x0F => afterBoot
  | 0x10 => afterBoot
  | _ => false

/-- The states in which the boot sequencer executes, and the commands it knows (R46, R50). -/
def bootServes (st : OpState) : Bool := !st.firmware && decide (st ≠ .off)

/-- The commands the boot sequencer executes. -/
def bootOps : List Nat := [0x00, 0x01, 0x05, 0x0D, 0x0F, 0x10]

/-- START (R41): RUN is entered; felting, the schedule, the grid and the trackers start afresh, and every state stream writes
its values with INITIAL (R109, R149, R161, R212, R244). -/
def State.start (s : State) : State :=
  let s0 := s.enter .run (some 1)
  let s1 := s0.startFelting.startSchedule.startImaging
  s0.takeDev ((s1.streamsOf 2).foldl (fun t n => t.writeSources n 1) s1)

/-- RELEASE (R42, R425): the result and the state. -/
def State.release (s : State) : Nat × State :=
  if s.sys.holdThermal ∨ s.sys.holdDram then (8, s)
  else (0, (inDev State.shutDownEnds { s with sys := { s.sys with holdCmd := false } }).enter .ready (some 1))

/-- STREAM_ON (R232, R266): the result and the state. -/
def State.streamOnCmd (s : State) (n : Nat) : Nat × State :=
  if 64 ≤ n then (3, s)
  else if s.flag F.acqStrCtlOn n then (0, s)
  else if !s.streamLegal n then (3, s)
  else if !s.streamQuota n then
    let res := 0x08000000 + n
    let s1 := match s.streamSlot n with | some k => s.bump F.dmaOverCntCount k 1 | none => s
    (4, s1.ownRefused res (s.ownerOf res))
  else (0, s.streamStart n)

/-- STREAM_OFF (R457): the result and the state. -/
def State.streamOffCmd (s : State) (n : Nat) : Nat × State :=
  if 64 ≤ n then (3, s) else if s.flag F.acqStrCtlOn n then (0, s.streamStop n) else (0, s)

/-- FW_COMMIT (R382, R384): the result of its checks. -/
def State.commitCheck (s : State) (len off : Nat) : Nat :=
  if off ≠ 0 ∨ len < 4096 ∨ 2 ^ 24 < len ∨ s.fwSize < len then 3
  else if s.dev.boot.bootPath = 1 ∨ s.flag F.bootStsNet 0 then 5 else 0

/-- Apply a change to the boot record. -/
def State.onBoot (s : State) (f : BootSt → BootSt) : State := s.onDev fun d => { d with boot := f d.boot }

/-- An accepted FW_COMMIT ends the fetch; the image goes to VERIFY, and the command ends there (R381, R384). -/
def State.commit (s : State) (c : MbxCmd) (st : Nat) : State :=
  let s1 := s.onBoot fun b => { b with
    imageLen := c.args.getD 0 0, viaNet := false, fetching := false, server := none, held := [], requested := [] }
  ((s1.setFld F.bootFetchChunks 0 0).onCmd fun x => { x with running := some (c, st) }).enter .verify (some 1)

/-- The executor runs a command taken up in state `st` (R46 to R50): opcode, then state, then arguments, ownership and
protection. -/
def State.execute (s : State) (c : MbxCmd) : State :=
  let op := s.sys.op
  let st := op.code
  let ends (p : Nat × State) : State := (s.takeDev p.2).endCmd c st p.1
  let arg (k : Nat) : Nat := c.args.getD k 0
  if 0x10 < c.opcode then s.endCmd c st 2
  else if !legalIn c.opcode op || (bootServes op && !bootOps.contains c.opcode) then s.endCmd c st 1
  else match c.opcode with
    | 0x01 =>
      let r := s.commitCheck (arg 0) (arg 1)
      if r = 0 then s.commit c st else s.endCmd c st r
    | 0x02 => s.start.endCmd c st 0
    | 0x03 => (s.enter .ready (some 1)).endCmd c st 0
    | 0x04 => s.stable.endCmd c st 0
    | 0x05 => s.beginWake c
    | 0x06 => (s.hold 1).endCmd c st 0
    | 0x07 => s.release.2.endCmd c st s.release.1
    | 0x08 => ends (s.streamOnCmd (arg 0))
    | 0x09 => ends (s.streamOffCmd (arg 0))
    | 0x0A =>
      match s.timeStep (arg 0 + 2 ^ 32 * arg 1) with
      | some t => (s.takeDev t).endCmd c st 0
      | none => s.endCmd c st 3
    | 0x0B => ends (s.claim false (arg 0) (arg 1))
    | 0x0C => ends (s.claim true (arg 0) (arg 1))
    | 0x0D => s.takeDev (s.attest c st)
    | 0x0E => s.protChange c st
    | 0x0F => if c.mbx = 1 ∧ s.dev.boot.mgmtProt then s.endCmd c st 5 else (s.endCmd c st 0).resetNow false 4 0x02
    | 0x10 => if c.mbx = 1 ∧ s.dev.boot.mgmtProt then s.endCmd c st 5 else (s.endCmd c st 0).resetNow true 2 0x03
    | _ => s.endCmd c st 0

/-- Is a GO held in this state (R50)? It is taken up in the state that follows. R50 names AWAIT_FIRMWARE and the FAULT entered
because BLOCK_LOAD refused every copy; that the FAULT of cause 0x23 takes it up too is the model's choice (log entry 74). -/
def OpState.held : OpState → Bool
  | .off | .reset | .blockLoad | .wipe => true
  | _ => false

/-- Take commands up in the order of their GO while the executor is free (R46). -/
def runQueue : Nat → State → State
  | 0, s => s
  | n + 1, s =>
    if s.dev.cmd.running.isSome || s.sys.op.held then s
    else match s.dev.cmd.queue with
      | [] => s
      | c :: rest => runQueue n ((((s.onCmd fun x => { x with queue := rest }).setFlag F.sysMbxCmdGo c.mbx false)).execute c)

/-- The executor takes up what waits. -/
def State.pump (s : State) : State := runQueue s.dev.cmd.queue.length s

/-- SYS_MBX_CMD of a mailbox is written (R45): a GO taken copies the arguments, clears DONE and sets BUSY; one written
while BUSY is discarded and counted. `reply` names the port and source MAC of a management request (R313). -/
def State.mbxRing (s : State) (m tag opcode : Nat) (go : Bool) (reply : Option (Nat × Nat)) : State :=
  let old := s.fld F.sysMbxCmdGo m
  let s1 := s.setReg .sysMbxCmd m (packBits [(8, opcode), (8, 0), (8, tag), (7, 0), (1, old)])
  if !go then s1
  else if s.flag F.sysMbxStsBusy m then s1.bump F.sysCmdCntBusyDiscards 0 1
  else
    let args := (List.range 16).map fun k => s.reg .sysMbxArg (16 * m + k)
    let s2 := (s1.setFlag F.sysMbxCmdGo m true).setFlag F.sysMbxStsBusy m true
    ((s2.setFlag F.sysMbxStsDone m false).onCmd fun x => { x with
      queue := x.queue ++ [⟨m, tag, opcode, args⟩], reply := if m = 1 then reply else x.reply }).pump

/-- A register write of SYS_MBX_CMD. -/
def State.mbxWrite (s : State) (m tag opcode : Nat) (go : Bool) : State := s.mbxRing m tag opcode go none

/-- The three steps of R45 for a command: its argument words from word 0, then its opcode and tag with GO. -/
def State.command (s : State) (m : Fin 2) (tag : BitVec 8) (opcode : Nat) (args : List Nat) : State :=
  (inDev (fun s => args.zipIdx.foldl (fun t p => t.setReg .sysMbxArg (16 * m + p.2) p.1) s) s).mbxWrite m tag.toNat opcode
    true

/-- NOP: it ends with OK wherever it is legal (R50). -/
def execNop (m : Fin 2) (tag : BitVec 8) (s : State) : Host.Outcome State Fault Refusal :=
  .next (inCore (fun s => s.command m tag 0x00 []) s)

/-- FW_COMMIT with an image length and a BAR2 offset (R382, R384). -/
def execFwCommit (m : Fin 2) (tag : BitVec 8) (len off : BitVec 32) (s : State) : Host.Outcome State Fault Refusal :=
  .next (inCore (fun s => s.command m tag 0x01 [len.toNat, off.toNat]) s)

/-- START (R41, R50). -/
def execStart (m : Fin 2) (tag : BitVec 8) (s : State) : Host.Outcome State Fault Refusal :=
  .next (inCore (fun s => s.command m tag 0x02 []) s)

/-- STOP (R41, R50). -/
def execStop (m : Fin 2) (tag : BitVec 8) (s : State) : Host.Outcome State Fault Refusal :=
  .next (inCore (fun s => s.command m tag 0x03 []) s)

/-- STABLE (R51, R282, R318). -/
def execStable (m : Fin 2) (tag : BitVec 8) (s : State) : Host.Outcome State Fault Refusal :=
  .next (inCore (fun s => s.command m tag 0x04 []) s)

/-- WAKE (R51). -/
def execWake (m : Fin 2) (tag : BitVec 8) (s : State) : Host.Outcome State Fault Refusal :=
  .next (inCore (fun s => s.command m tag 0x05 []) s)

/-- HOLD (R42). -/
def execHold (m : Fin 2) (tag : BitVec 8) (s : State) : Host.Outcome State Fault Refusal :=
  .next (inCore (fun s => s.command m tag 0x06 []) s)

/-- RELEASE (R42). -/
def execRelease (m : Fin 2) (tag : BitVec 8) (s : State) : Host.Outcome State Fault Refusal :=
  .next (inCore (fun s => s.command m tag 0x07 []) s)

/-- STREAM_ON of a stream (R232). -/
def execStreamOn (m : Fin 2) (tag : BitVec 8) (stream : BitVec 32) (s : State) : Host.Outcome State Fault Refusal :=
  .next (inCore (fun s => s.command m tag 0x08 [stream.toNat]) s)

/-- STREAM_OFF of a stream (R457). -/
def execStreamOff (m : Fin 2) (tag : BitVec 8) (stream : BitVec 32) (s : State) : Host.Outcome State Fault Refusal :=
  .next (inCore (fun s => s.command m tag 0x09 [stream.toNat]) s)

/-- TIME_STEP by a signed step in ns (R325). -/
def execTimeStep (m : Fin 2) (tag : BitVec 8) (ns : BitVec 64) (s : State) : Host.Outcome State Fault Refusal :=
  .next (inCore (fun s => s.command m tag 0x0A [ns.toNat % 2 ^ 32, ns.toNat / 2 ^ 32]) s)

/-- CLAIM of a resource for a feature (R54). -/
def execClaim (m : Fin 2) (tag : BitVec 8) (res who : BitVec 32) (s : State) : Host.Outcome State Fault Refusal :=
  .next (inCore (fun s => s.command m tag 0x0B [res.toNat, who.toNat]) s)

/-- UNCLAIM of a resource by a feature (R54). -/
def execUnclaim (m : Fin 2) (tag : BitVec 8) (res who : BitVec 32) (s : State) : Host.Outcome State Fault Refusal :=
  .next (inCore (fun s => s.command m tag 0x0C [res.toNat, who.toNat]) s)

/-- ATTEST with the eight words of a nonce (R394). -/
def execAttest (m : Fin 2) (tag : BitVec 8) (nonce : BitVec 256) (s : State) : Host.Outcome State Fault Refusal :=
  .next (inCore (fun s => s.command m tag 0x0D ((List.range 8).map fun k => nonce.toNat / 2 ^ (32 * k) % 2 ^ 32)) s)

/-- PROT_CHANGE of a slot whose request names an operation (R391); a slot outside 0 to 3 names none and ends with BAD_ARG
whichever operation was meant. -/
def State.protOp (s : State) (m : Fin 2) (tag : BitVec 8) (slot : BitVec 32) (op : Nat) : State :=
  if 4 ≤ slot.toNat ∨ (s.protReq slot.toNat).op = op then s.command m tag 0x0E [slot.toNat] else s

/-- LC_CHANGE: PROT_CHANGE whose request has OP 0x01 (R388, R391). -/
def execLcChange (m : Fin 2) (tag : BitVec 8) (slot : BitVec 32) (s : State) : Host.Outcome State Fault Refusal :=
  .next (inCore (fun s => s.protOp m tag slot 1) s)

/-- SLOT_PROGRAM: PROT_CHANGE whose request has OP 0x02 (R391). -/
def execSlotProgram (m : Fin 2) (tag : BitVec 8) (slot : BitVec 32) (s : State) : Host.Outcome State Fault Refusal :=
  .next (inCore (fun s => s.protOp m tag slot 2) s)

/-- SLOT_REVOKE: PROT_CHANGE whose request has OP 0x03 (R391). -/
def execSlotRevoke (m : Fin 2) (tag : BitVec 8) (slot : BitVec 32) (s : State) : Host.Outcome State Fault Refusal :=
  .next (inCore (fun s => s.protOp m tag slot 3) s)

/-- GEN_ADVANCE: PROT_CHANGE whose request has OP 0x04 (R391). -/
def execGenAdvance (m : Fin 2) (tag : BitVec 8) (slot : BitVec 32) (s : State) : Host.Outcome State Fault Refusal :=
  .next (inCore (fun s => s.protOp m tag slot 4) s)

/-- DEBUG_OPEN: PROT_CHANGE whose request has OP 0x05 (R389, R391). -/
def execDebugOpen (m : Fin 2) (tag : BitVec 8) (slot : BitVec 32) (s : State) : Host.Outcome State Fault Refusal :=
  .next (inCore (fun s => s.protOp m tag slot 5) s)

/-- RESET_WARM (R433). -/
def execResetWarm (m : Fin 2) (tag : BitVec 8) (s : State) : Host.Outcome State Fault Refusal :=
  .next (inCore (fun s => s.command m tag 0x0F []) s)

/-- RESET_COLD (R433). -/
def execResetCold (m : Fin 2) (tag : BitVec 8) (s : State) : Host.Outcome State Fault Refusal :=
  .next (inCore (fun s => s.command m tag 0x10 []) s)

/-- UNASSIGNED_OPCODE: a GO whose opcode is not assigned (R49, R50); an assigned opcode has a row of its own. -/
def execUnassignedOpcode (m : Fin 2) (tag : BitVec 8) (opcode : BitVec 8) (s : State) : Host.Outcome State Fault Refusal :=
  .next (inCore (fun s => if 0x10 < opcode.toNat then s.command m tag opcode.toNat [] else s) s)

/-! The states and their timers. -/

/-- SUPPLIES_GOOD (R41, R415). -/
def execSuppliesGood (s : State) : Host.Outcome State Fault Refusal := .next (inCore State.suppliesGood s)

/-- SUPPLY_OUT_OF_RANGE of a rail (R414, R415). -/
def execSupplyOutOfRange (rail : Fin 6) (s : State) : Host.Outcome State Fault Refusal :=
  .next (inAll (fun s => s.supplyFails rail) s)

/-- RESET_BALL (R433). -/
def execResetBall (s : State) : Host.Outcome State Fault Refusal :=
  .next (inCore (fun s => if s.sys.op = .off then s else s.resetNow false 5 0x02) s)

/-- SRAM_OVERWRITE_COMPLETE (R41, R43). -/
def execSramOverwriteComplete (s : State) : Host.Outcome State Fault Refusal := .next (inCore (fun s => s.sramDone.pump) s)

/-- Does R99 hold: every engine in service of a powered cluster and every start-sense engine of an enabled port has a bow
table, and every comparator of a powered cluster has left a trim decision behind it? -/
def State.calibrated (s : State) : Bool :=
  ((List.range 48).all fun c => !s.clusterOn c ||
    (((List.range 34).all fun e => decide (s.service (34 * c + e) = 3) || s.flag F.tdcEngStsBowValid (34 * c + e))
      && (List.range 16).all fun p => (s.chan (16 * c + p)).lowSettled && (s.chan (16 * c + p)).highSettled))
    && (List.range 32).all fun n => !s.flag F.emtPortCtlEn n || s.flag F.emtPortStsSseBowValid n

/-- INIT_COMPLETE (R41, R99, R281). -/
def execInitComplete (s : State) : Host.Outcome State Fault Refusal :=
  .next (inCore (fun s => if s.calibrated then s.initDone.pump else s) s)

/-- WAKE_EVENT (R51): a wake without a mailbox. -/
def execWakeEvent (s : State) : Host.Outcome State Fault Refusal :=
  .next (inCore (fun s =>
    if s.sys.op = .stabled ∧ s.dev.cmd.running = none then s.beginWake ⟨2, 0, 5, []⟩ else s) s)

/-- WAKE_FIRMWARE_READY (R51). -/
def execWakeFirmwareReady (s : State) : Host.Outcome State Fault Refusal := .next (inCore (fun s => s.wakeReady.pump) s)

/-- WAKE_TIMEOUT (R51). -/
def execWakeTimeout (s : State) : Host.Outcome State Fault Refusal :=
  .next (inCore (fun s => if s.wakeStarted then (s.toFault 0x21).pump else s) s)

/-- FIRMWARE_WATCHDOG (R41). -/
def execFirmwareWatchdog (s : State) : Host.Outcome State Fault Refusal := .next (inCore (fun s => (s.toFault 0x21).pump) s)

/-- INTERNAL_CONSISTENCY_CHECK (R41). -/
def execInternalConsistencyCheck (s : State) : Host.Outcome State Fault Refusal :=
  .next (inCore (fun s => (s.toFault 0x23).pump) s)

/-- LOCAL_OSCILLATOR_FAILED (R366): logged, and FAULT with cause 0x23. -/
def execLocalOscillatorFailed (s : State) : Host.Outcome State Fault Refusal :=
  .next (inCore (fun s => ((inDev (·.logFault 0x19 0 0x0A 2 0xFFFF) s).toFault 0x23).pump) s)

/-- PGOOD of a domain (R418): the fields of tapped channels that come up are loaded from the set in force (R69). -/
def execPgood (d : Fin 140) (s : State) : Host.Outcome State Fault Refusal := .next
  (inDev (fun s => if s.pgoodDue d then (s.pgood d).lockTaps else s) s)

/-- DC_ARM of a slot (R390). -/
def execDcArm (slot : Fin 4) (s : State) : Host.Outcome State Fault Refusal := .next (inDev (fun s => s.dcArm slot) s)

/-- NONCE_EXPIRY of a slot (R390). -/
def execNonceExpiry (slot : Fin 4) (s : State) : Host.Outcome State Fault Refusal := .next (inDev (fun s => s.dcClear slot) s)

end Sys2Proof.Machine
end

