-- ==== Sys2Proof/Machine/Thermal.lean ====
section
/-! DEFINITION. Thermal sampling (R421, R422), the throttle level (R423), thermal shutdown (R425, R42) and the thermal change
sources (R426). -/
namespace Sys2Proof.Machine

/-- Apply a change to the thermal record. -/
def State.onThm (s : State) (f : ThmSt → ThmSt) : State := s.onDev fun d => { d with thm := f d.thm }

/-- The up to eight neighbours of a sensor on the 8 × 8 grid (R421). -/
def sensorsAround (i : Nat) : List Nat :=
  (List.range 64).filter fun j =>
    decide (j ≠ i) && decide (j / 8 ≤ i / 8 + 1 ∧ i / 8 ≤ j / 8 + 1) && decide (j % 8 ≤ i % 8 + 1 ∧ i % 8 ≤ j % 8 + 1)

/-- The median of sensor values; of an even number of them, the mean of the middle two, rounded down. -/
def medianOf (l : List Int) : Int :=
  let t := sortInts l
  let n := t.length
  if n = 0 then 0
  else if n % 2 = 1 then t.getD (n / 2) 0
  else divFloor (t.getD (n / 2 - 1) 0 + t.getD (n / 2) 0) 2

/-- Is a sensor broken (R422)? -/
def State.broken (s : State) (i : Nat) : Bool := bitOf (s.pair .thmBrokenLo .thmBrokenHi 0) i

/-- The median a sensor is held against (R422). -/
def State.sensorMedian (s : State) (raws : List Int) (i : Nat) : Int :=
  let pick (l : List Nat) := (l.filter fun j => !s.broken j).map fun j => raws.getD j 0
  let near := pick (sensorsAround i)
  medianOf (if near.isEmpty then pick (List.range 64) else near)

/-- One sensor at a sample: its registers, its change source, its run of deviating samples and its declaration (R421, R422,
R426). The first three are judged on the sensors broken before the sample, `old`. -/
def State.sampleSensor (old : State) (raws : List Int) (s : State) (i : Nat) : State :=
  let m := old.sensorMedian raws i
  let raw := raws.getD i 0
  let v := if old.broken i then m else raw
  let s1 := (s.setSfld F.thmSensRaw i raw).setSfld F.thmSensValue i v
  let s2 := if s.fld F.thmCtlDead 0 ≤ (v - signed 32 (s.srcVal (0x200 + i)).value).natAbs then
      s1.change (0x200 + i) 0x11 (unsigned 32 v) false else s1
  let run := if 128 < (raw - m).natAbs then smGet 0 s.dev.thm.runs i + 1 else 0
  let s3 := s2.onThm fun t => { t with runs := smPut 0 t.runs i (min run 3) }
  if !old.broken i && decide (3 ≤ run) then
    (s3.setPair .thmBrokenLo .thmBrokenHi 0 (s3.pair .thmBrokenLo .thmBrokenHi 0 ||| 2 ^ i)).logFault 0x18 1 0x0D i 0xFFFF
  else s3

/-- The first sensor with the largest corrected value, and that value (R421). -/
def hottest (l : List Int) : Nat × Int :=
  (l.zipIdx.drop 1).foldl (fun b p => if b.2 < p.1 then (p.2, p.1) else b) (0, l.getD 0 0)

/-- FAST and source 0x0242 follow the hottest value (R421, R426). -/
def State.sampleFast (s : State) (hot : Int) : State :=
  let now := s.dev.time.c
  let warm := decide (16 * ((s.fld F.thmCtlThr 0 : Int) - 10) ≤ hot)
  let s1 := if warm then s.onThm fun t => { t with lastWarm := some now } else s
  let fast := match s1.dev.thm.lastWarm with
    | some t => warm || (s.flag F.thmStsFast 0 && decide (now - t < 1000000000))
    | none => false
  (s1.setFlag F.thmStsFast 0 fast).change 0x242 0x12 (if s1.flag F.thmStsShutdown 0 then 2 else b2n fast) false

/-- The level that a temperature calls for (R423), in 1/16 °C. -/
def levelFor (hot thr : Int) : Nat := if thr ≤ hot then (min 4 (1 + divFloor (hot - thr) 32)).toNat else 0

/-- A new level: the speed limit moves with it at the next trigger (R423, R424, R217). -/
def State.setLevel (s : State) (l : Nat) : State :=
  let s1 := ((s.setFld F.thmStsLevel 0 l).post 19 l).change 0x241 0x10 l false
  if s.sys.op = .run then s1.judgeSpeed.driveCarriage else s1

/-- The throttle level at a sample (R423): it rises at once, and falls by one after 1 s below the falling threshold of the
level. -/
def State.sampleLevel (s : State) (hot : Int) : State :=
  let now := s.dev.time.c
  let thr : Int := 16 * s.fld F.thmCtlThr 0
  let s1 := [1, 2, 3, 4].foldl (fun (t : State) (k : Nat) =>
    let since := if hot < thr + 32 * ((k : Int) - 1) - 32 then some ((smGet none t.dev.thm.below k).getD now) else none
    t.onThm fun h => { h with below := smPut none h.below k since }) s
  let l := s.fld F.thmStsLevel 0
  let up := levelFor hot thr
  if l < up then s1.setLevel up
  else if l = 0 then s1
  else match smGet none s1.dev.thm.below l with
    | some t => if 1000000000 ≤ now - t then s1.setLevel (l - 1) else s1
    | none => s1

/-- Time in RUN at a level of 1 or more, in whole ms of the interval that ends with a sample (R428). -/
def State.sampleThrottled (s : State) : State :=
  let ms := (s.dev.time.c - s.dev.thm.lastSample) / 1000000
  let s1 := if s.sys.op = .run ∧ 1 ≤ s.fld F.thmStsLevel 0 then s.bump F.thmThrMsCount 0 ms else s
  s1.onThm fun t => { t with lastSample := s.dev.time.c }

/-- The thermal shutdown (R41, R425). -/
def State.sampleShutdown (s : State) (hot : Int) : State :=
  if hot < 2000 then s
  else match s.sys.op with
    | .ready => inDev State.shutDown ((inDev State.abandonAll s).hold 0x10)
    | .run => inDev State.shutDown ((inDev State.abandonAll s).hold 0x10)
    | .safeHold => inDev State.shutDown ((inDev State.abandonAll s).hold 0x10)
    | .init => inDev State.shutDown s
    | _ => s

/-- What a temperature sample measures (R421 to R424, R426): the hottest value, and the state with the values, the throttle
level and the counters it moves. -/
def State.measureTemps (s : State) (raws : List Int) : Int × State :=
  let s1 := (List.range 64).foldl (s.sampleSensor raws) s.sampleThrottled
  let h := hottest ((List.range 64).map fun i => s1.sfld F.thmSensValue i)
  let s2 := (s1.setFld F.thmStsHotIdx 0 h.1).setSfld F.thmStsHot 0 h.2
  let s3 := if s2.fld F.thmCtlDead 0 ≤ (h.2 - signed 32 (s2.srcVal 0x240).value).natAbs then
      s2.change 0x240 0x11 (unsigned 32 h.2) false else s2
  (h.2, (s3.sampleFast h.2).sampleLevel h.2)

/-- A temperature sample (R421 to R426): more than 16 broken sensors lead to FAULT, the hottest value to the shutdown. -/
def State.sampleTemps (s : State) (raws : List Int) : State :=
  let r := s.measureTemps raws
  let s4 := s.takeDev r.2
  let s5 := if 16 < ((List.range 64).filter s4.broken).length then s4.toFault 0x23 else s4
  s5.sampleShutdown r.1

/-- TEMPERATURE_SAMPLE with the 64 raw values in 1/16 °C (R421). -/
def execTemperatureSample (raws : List (BitVec 16)) (s : State) : Host.Outcome State Fault Refusal :=
  .next (inCore (fun s => if s.sys.op = .off then s else (s.sampleTemps (raws.map BitVec.toInt)).pump) s)

/-- THERMAL_CAUSE_CLEAR (R42, R425). -/
def State.thermalClear (s : State) : State :=
  if 1760 ≤ s.sfld F.thmStsHot 0 then s
  else
    let s1 := if s.sys.holdThermal then s.unhold 0x10 else s
    if s.sys.op = .init then inDev State.shutDownEnds s1 else s1

/-- THERMAL_CAUSE_CLEAR: the hottest junction has stayed below 110 °C for 10 s (R42). -/
def execThermalCauseClear (s : State) : Host.Outcome State Fault Refusal := .next (inCore State.thermalClear s)

end Sys2Proof.Machine
end

