-- ==== Sys2Proof/Machine/Memory.lean ====
section
/-! DEFINITION. Scrubbing of on-die SRAM (R272 to R274), DRAM reads and patrol (R283), tracking and derating (R276, R281), the
imbalance monitor (R279), and the degradation, migration and loss of DRAM channels (R284, R285). -/
namespace Sys2Proof.Machine

/-! On-die SRAM. -/

/-- What an uncorrectable word found by a scrubber brings its region (R273): `pos` places it in a histogram (16 × buffer +
position), or in a line buffer (0 for the alignment history of segment `unit`, from 16 a line that waits in the line FIFO, else a line under way). -/
def State.scrubUe (s : State) (region unit word pos : Nat) : State :=
  let s1 := s.sramUe region
  match region with
  | 0 =>
    match s1.bankCluster unit with
    | some c => s1.failBank c unit (some (decide (16 ≤ pos), pos % 16))
    | none => s1
  | 1 =>
    if 16 ≤ pos then
      match s1.dev.lin.fifo[pos - 16]? with
      | some p => (s1.onLin fun x => { x with fifo := x.fifo.eraseIdx (pos - 16) }).loseLine 0x43 p.1.grid p.1.time
      | none => s1
    else
    let s2 := if pos = 0 then (s1.clearSegment unit).onLin fun x => { x with primeReason := 0x44 } else s1
    let mine (l : Line) : Bool := decide (l.kind = 0) && (decide (pos = 0) || l.done.any fun q => decide (q.1 = unit))
    s2.onLin fun x => { x with lines := mapFirst mine (fun l => { l with dropped := true }) x.lines }
  | 2 => s1
  | _ => s1.onDev fun d => { d with poison := (sramBase + 8 * word) :: d.poison.filter (· ≠ sramBase + 8 * word) }

/-- Is the macro powered (R274)? A cluster's own bank lies in its digital domain, a spare in the tile logic (R37, R416),
segment `unit`'s line buffers and shading table in its video domain; the staging buffer (unit 24 of region 2) runs on a pixel
clock. -/
def State.scrubbed (s : State) (region unit : Nat) : Bool :=
  match region with
  | 0 => if unit < 48 then s.clusterOn unit else decide (unit < 60) && s.tileOn (unit - 48)
  | 1 => decide (unit < 24) && s.domainOn (96 + unit)
  | 2 => if unit < 24 then s.domainOn (96 + unit) else decide (unit = 24) && s.domainOn 139
  | _ => true

/-- Every powered macro has completed a pass (R274). -/
def State.scrubPass (s : State) : State :=
  let ms := satN 16 ((s.dev.time.c - s.dev.passAt) / 1000000)
  ((s.bump F.memSramPassCntCount 0 1).setFld F.memSramStsPassMs 0 ms).onDev fun d => { d with passAt := d.time.c }

/-- SCRUB of a word: its region as the fault log numbers it, the bank or segment, the word (in general SRAM, from its first),
where an uncorrectable one lies, what was found (1 correctable, 2 uncorrectable), and whether a pass of every macro is
complete with it. -/
def execScrub (region : Fin 4) (unit : BitVec 8) (word : BitVec 20) (pos : Fin 32) (found : Fin 3) (passed : Bool)
    (s : State) : Host.Outcome State Fault Refusal :=
  .next (inDev (fun s =>
    if s.inOp [.off, .reset, .stabled] || !s.scrubbed region unit.toNat then s
    else
      let s1 := match found.val with
        | 1 => s.sramCe region unit.toNat word.toNat
        | 2 => s.scrubUe region unit.toNat word.toNat pos
        | _ => s
      if passed then s1.scrubPass else s1) s)

/-! Degradation, migration and loss. -/

/-- The grains of the interleaved region on one channel (R278). -/
def State.grains (s : State) : Nat :=
  (s.dramCap - s.fwSize) / (2 ^ s.fld F.memCfgGrainLog2 0 * max 1 s.channels.length)

/-- The channel-local data offset of an address on the channel that serves it (R278), or of its grain's place on the target once it
has flipped (R284). -/
def State.dramOffset (s : State) (a : Nat) : Nat :=
  let grain := 2 ^ s.fld F.memCfgGrainLog2 0
  let p := s.dramPlace a
  if a < s.fwSize then a
  else if p.2 < (s.dram p.1).flipped then
    s.fwSize + (s.grains + p.2 / (s.channels.length - 1)) * grain + (a - s.fwSize) % grain
  else s.fwSize + p.2 * grain + (a - s.fwSize) % grain

/-- The DRAM address of a data offset: seven data bursts and one of codes in each 512 bytes (R277). -/
def rawAddress (o : Nat) : Nat := 512 * (o / 448) + 64 * (o % 448 / 64) + o % 64

/-- The DRAM address of the check byte of the 8-byte word that holds a data offset (R277). -/
def checkAddress (o : Nat) : Nat := 512 * (o / 448) + 448 + 8 * (o % 448 / 64) + o % 64 / 8

/-- Is the remap reserve still free for channel `n` (R278, R284)? -/
def State.reserveFree (s : State) (n : Nat) : Bool :=
  s.flag F.memCfgRemapEn 0 && s.channels.all fun c =>
    decide (c = n) || (!(s.dram c).degraded && decide (s.fld F.memChStsState c ≠ 5 ∧ s.fld F.memChStsState c ≠ 6))

/-- A channel is degraded: its migration starts (R284). -/
def State.degrade (s : State) (n : Nat) : State :=
  if s.fld F.memChStsState n = 2 ∧ (s.dram n).degraded = false ∧ s.reserveFree n = true then
    (((s.setDram n { s.dram n with degraded := true }).setFld F.memChStsState n 4).setFld F.memChStsMigPct n 0).logFault
      0x0D 1 0x07 n n
  else s

/-- Every grain of a channel has flipped: the channel is retired (R284). -/
def State.retire (s : State) (n : Nat) : State :=
  let s1 := (s.setFld F.memChStsState n 5).setFld F.memChStsMigPct n 100
  let s2 := if n < 2 then s1.setFlag F.memChStsFwMirror 1 false else s1
  (s2.mapMisc F.fmkMapMiscRetired n true).logFault 0x0E 3 0x07 n 0xFFFF

/-- A channel is lost (R285). -/
def State.loseChannel (s : State) (n : Nat) : State :=
  let st := s.fld F.memChStsState n
  if !s.channels.contains n || decide (st = 0 ∨ st = 5 ∨ st = 6) then s
  else
    let x := s.dram n
    let remap := s.reserveFree n
    let s1 := s.setFld F.memChStsState n 6
    let s2 := if remap then
        (s1.setDram n { x with lostFrom := some x.flipped, flipped := s.grains }).setFld F.memChStsMigPct n 100
      else s1
    let s3 := if n < 2 then s2.setFlag F.memChStsFwMirror 1 false else s2
    let s4 := s.takeDev ((s3.mapMisc F.fmkMapMiscLost n true).logFault 0x0F 2 0x07 n 0xFFFF)
    if n < 2 ∧ s4.fwCopy 0 = false ∧ s4.fwCopy 1 = false then s4.toFault 0x22
    else if n = 0 then
      let s5 := s4.hold 0x12
      if remap ∧ s5.sys.holdDram then s5.unhold 0x12 else s5
    else s4

/-- Uncorrectable errors: the burst is counted and named, it reads badly until it is written, event 7 is posted, and the
fourth distinct burst within 100 ms loses the channel (R283, R285). -/
def State.dramUe (s : State) (n a : Nat) : State :=
  let key := if n = 1 ∧ a < s.fwSize then mirrorBase + a else a
  let now := s.dev.time.c
  let l := ((a, now) :: (s.dram n).ues.filter (·.1 ≠ a)).filter fun p => decide (now - p.2 ≤ 100000000)
  let s1 := s.onDev fun d => { d with poison := if d.poison.contains key then d.poison else key :: d.poison }
  let s2 := ((s1.bump F.memChUeCntCount n 1).setPair .memChUeAddrLo .memChUeAddrHi n a).setDram n { s1.dram n with ues := l }
  let s3 := s.takeDev (s2.post 7 n)
  if 4 ≤ l.length then s3.loseChannel n else s3

/-- Correctable errors are counted; more than DEG_CE distinct bursts within 1 s degrade the channel (R283, R284). -/
def State.dramCe (s : State) (n a : Nat) : State :=
  let now := s.dev.time.c
  let l := ((a, now) :: (s.dram n).ces.filter (·.1 ≠ a)).filter fun p => decide (now - p.2 ≤ 1000000000)
  let s1 := (s.bump F.memChCeCntCount n 1).setDram n { s.dram n with ces := l }
  s.takeDev (if s.fld F.memPatrolDegCe 0 < l.length then s1.degrade n else s1)

/-- Does channel `n` serve reads at all? -/
def State.channelUp (s : State) (n : Nat) : Bool :=
  s.channels.contains n && [2, 4].contains (s.fld F.memChStsState n)

/-- A burst is read on a channel with what its code finds; a burst listed as bad stays bad (R283). -/
def State.readBurst (s : State) (n a found : Nat) : State :=
  let bad := decide (found = 2) || s.dev.poison.contains a || s.lostBurst (a / 64)
  if bad then s.dramUe n a else if found = 1 then s.dramCe n a else s

/-- A read of the firmware region that channel 0 cannot serve goes to the mirror; read well there, the good data is written
back to channel 0, and with no good copy the device enters FAULT (R278, R284, R285). -/
def State.fwRead (s : State) (a found mirror : Nat) : State :=
  if s.channelUp 0 then
    let s1 := s.readBurst 0 a found
    if s1.dev.poison.contains a then
      if s1.channelUp 1 && decide (mirror ≠ 2) && !s1.dev.poison.contains (mirrorBase + a) then
        let s2 := if mirror = 1 then s1.dramCe 1 a else s1
        s2.onDev fun d => { d with poison := d.poison.filter (· ≠ a) }
      else
        let s2 := if s1.channelUp 1 then s1.dramUe 1 a else s1
        s2.toFault 0x22
    else s1
  else if s.channelUp 1 then
    if mirror = 2 ∨ s.dev.poison.contains (mirrorBase + a) then (s.dramUe 1 a).toFault 0x22
    else if mirror = 1 then s.dramCe 1 a else s
  else s

/-- A read of a burst returns (R283). -/
def State.dramReadBurst (s : State) (a found mirror : Nat) : State :=
  if s.dramCap ≤ a then s
  else if a < s.fwSize then s.fwRead a found mirror
  else
    let n := s.servedBy a
    if s.channelUp n then s.readBurst n a found else s

/-- DRAM_READ of a burst: its number from address 0, what the code of the copy read finds (1 correctable, 2 uncorrectable), and
what the mirror's finds where the read goes there. -/
def execDramRead (burst : BitVec 29) (found mirror : Fin 3) (s : State) : Host.Outcome State Fault Refusal :=
  .next (inCore (fun s => (s.dramReadBurst (64 * burst.toNat) found mirror).pump) s)

/-- A channel patrols a burst it holds: counted and corrected as a read, with nobody to answer (R283). -/
def State.patrolBurst (s : State) (n a found : Nat) : State :=
  if s.dramCap ≤ a || !s.channelUp n then s
  else if a < s.fwSize then
    if n = 0 then s.readBurst 0 a found
    else if n = 1 then (if found = 2 ∨ s.dev.poison.contains (mirrorBase + a) then s.dramUe 1 a
      else if found = 1 then s.dramCe 1 a else s)
    else s
  else if s.servedBy a = n then s.readBurst n a found
  else s

/-- PATROL of a burst by a channel: its number from address 0 and what its code finds. -/
def execPatrol (ch : Fin 4) (burst : BitVec 29) (found : Fin 3) (s : State) : Host.Outcome State Fault Refusal :=
  .next (inCore (fun s => (s.patrolBurst ch (64 * burst.toNat) found).pump) s)

/-- DRAM_TRACKING of a channel in service (R281, R284, R285): its margin is sound (0), within 20 % of the loss limit (1), or
below it (2). -/
def execDramTracking (ch : Fin 4) (margin : Fin 3) (s : State) : Host.Outcome State Fault Refusal :=
  .next (inCore (fun s =>
    if s.inOp [.ready, .run, .safeHold] && s.channelUp ch then
      match margin.val with
      | 0 => s
      | 1 => inDev (·.degrade ch) s
      | _ => (s.loseChannel ch).pump
    else s) s)

/-- REFRESH_DERATE of a channel with the refresh-rate code its MR4 reads (R276). -/
def execRefreshDerate (ch : Fin 4) (mr4 : BitVec 5) (s : State) : Host.Outcome State Fault Refusal :=
  .next (inDev (fun s => if s.channelUp ch then s.setDram ch { s.dram ch with derate := mr4.toNat } else s) s)

/-- A 1 ms window of the imbalance monitor ends (R279). -/
def State.imbalanceWindow (s : State) (reqs : List Nat) : State :=
  let chs := s.channels
  let n := chs.length
  if n < 2 then s
  else
    let s1 := chs.foldl (fun t c => t.setReg .memChReq c (reqs.getD c 0)) s
    let total := chs.foldl (fun t c => t + reqs.getD c 0) 0
    let top := chs.foldl (fun b c => if reqs.getD b 0 < reqs.getD c 0 then c else b) (chs.headD 0)
    let m := reqs.getD top 0
    if 1024 ≤ total ∧ 16 * total < 10 * n * m then
      ((((s1.setFlag F.memImbalImbal 0 true).setFld F.memImbalCh 0 top).setFld F.memImbalPct 0 (100 * m / total)).bump
        F.memImbalCntCount 0 1).post 8 top
    else s1

/-- IMBALANCE_WINDOW with the requests of channels 0 to 3 in the window (R279). -/
def execImbalanceWindow (r0 r1 r2 r3 : BitVec 32) (s : State) : Host.Outcome State Fault Refusal :=
  .next (inDev (fun s =>
    if s.inOp [.init, .ready, .run, .safeHold] then s.imbalanceWindow [r0.toNat, r1.toNat, r2.toNat, r3.toNat] else s) s)

/-- May MIGRATE be written for a channel (R284)? -/
def State.migrateOk (s : State) (n : Nat) : Bool :=
  s.inOp [.ready, .run] && decide (s.fld F.memChStsState n = 2) && s.reserveFree n
    && s.channels.any fun c => decide (c ≠ n) && decide (s.fld F.memChStsState c = 2)

/-- The next grain of a migrating channel has been copied (R284): `bad` lists the bursts that read uncorrectable during the
copy, which the target holds as poisoned. -/
def State.grainCopied (s : State) (n : Nat) (bad : List Nat) : State :=
  if s.fld F.memChStsState n ≠ 4 ∨ s.inOp [.ready, .run, .safeHold] = false then s
  else
    let grain := 2 ^ s.fld F.memCfgGrainLog2 0
    let k := (s.dram n).flipped
    let cnt := max 1 s.channels.length
    -- the device address of the channel's grain of group `k`
    let base := (List.range cnt).foldl (fun b j =>
      let a := s.fwSize + (cnt * k + j) * grain
      if (s.dramPlace a).1 = n then a else b) s.fwSize
    let s1 := bad.foldl (fun (t : State) b => if 64 * b < grain then t.dramUe n (base + 64 * b) else t) s
    if s1.fld F.memChStsState n ≠ 4 then s1
    else
      let s2 := s1.setDram n { s1.dram n with flipped := k + 1 }
      if s.grains ≤ k + 1 then inDev (·.retire n) s2
      else s2.setFld F.memChStsMigPct n (100 * (k + 1) / s.grains)

/-- GRAIN_COPIED of a migrating channel, with the bursts of the grain that read uncorrectable. -/
def execGrainCopied (ch : Fin 4) (bad : List (Fin 1024)) (s : State) : Host.Outcome State Fault Refusal :=
  .next (inCore (fun s => (s.grainCopied ch (bad.map (·.val))).pump) s)

/-- CHANNEL_LOST: training, tracking or a self-refresh exit of a channel has failed (R285). -/
def execChannelLost (ch : Fin 4) (s : State) : Host.Outcome State Fault Refusal :=
  .next (inCore (fun s => (s.loseChannel ch).pump) s)

/-- DRAM_NO_RESPONSE (R285). -/
def execDramNoResponse (ch : Fin 4) (s : State) : Host.Outcome State Fault Refusal :=
  .next (inCore (fun s => (s.loseChannel ch).pump) s)

end Sys2Proof.Machine
end

