-- ==== Sys2Proof/Machine/BusRead.lean ====
section
/-! DEFINITION. The register fabric, reading (R13 to R17, R33, R429, R430): what a register reads as, shadows of split
registers, the histogram window (R150), and reads with a side effect. -/
namespace Sys2Proof.Machine

/-- Register pairs of R17: the low half of a high half. -/
def lowHalf : Reg → Option Reg
  | .acqStrBaseHi => some .acqStrBaseLo | .acqStrSelHi => some .acqStrSelLo | .bootBuildHi => some .bootBuildLo
  | .dmaCqBaseHi => some .dmaCqBaseLo | .dmaQCurHi => some .dmaQCurLo | .dmaQHeadHi => some .dmaQHeadLo
  | .ethMacHi => some .ethMacLo | .ethMgmtHi => some .ethMgmtLo | .ethTsHi => some .ethTsLo
  | .ethTxqDstHi => some .ethTxqDstLo | .lnkBrBaseHi => some .lnkBrBaseLo | .memChUeAddrHi => some .memChUeAddrLo
  | .odoHighHi => some .odoHighLo | .odoPosHi => some .odoPosLo | .pciBar2MapHi => some .pciBar2MapLo
  | .protSerialHi => some .protSerialLo | .rejSchedEpochHi => some .rejSchedEpochLo
  | .rejSchedFrameHi => some .rejSchedFrameLo | .rejSchedSlotsHi => some .rejSchedSlotsLo
  | .tdcEngBowTimeHi => some .tdcEngBowTimeLo | .tdcUtilResHi => some .tdcUtilResLo | .thmBrokenHi => some .thmBrokenLo
  | .timMeasHi => some .timMeasLo | .timNowHi => some .timNowLo | .timRetErrHi => some .timRetErrLo
  | _ => none

/-- The high half of a low half. -/
def highHalf (r : Reg) : Option Reg := Reg.all.find? fun h => decide (lowHalf h = some r)

/-- The key of a master's shadow, or of its held value, at an address (R17). -/
def halfKey (m : Master) (addr : Nat) : Nat := masterCode m * 2 ^ 28 + addr

/-- Is a register one of the identity registers that the debug port shows at level 0 (R389)? -/
def identityReg : Reg → Bool
  | .sysId | .sysRev | .protSerialLo | .protSerialHi => true
  | _ => false

/-- May a master read a register (R389, R430)? No level of the debug port reaches the dual-control buffers. -/
def State.mayRead (s : State) (m : Master) (r : Reg) : Bool :=
  decide (m ≠ .debug) || identityReg r || (decide (1 ≤ s.debugLevel) && decide (r ≠ .protDcBuf))

/-- May a master write a register (R389, R430)? -/
def State.mayWrite (s : State) (m : Master) (r : Reg) : Bool :=
  decide (m ≠ .debug) || (decide (2 ≤ s.debugLevel) && decide (r ≠ .protDcBuf))

/-- The engine whose table TDC_TAB_n of a tile shows (R107). Before a table has been computed this is the default table of R93,
also at reset, where the Reset column of TDC_TAB_n says 0 (log entry 56). -/
def State.shownTable (s : State) (t k : Nat) : Nat :=
  let e := s.fld F.tdcTabSelEngine t
  if 136 ≤ e then 0
  else
    let x := s.engine (34 * (4 * t + e / 34) + e % 34)
    centreOf x.table (2 * k) % 65536 + 65536 * (centreOf x.table (2 * k + 1) % 65536)

/-- DC_CURRENT (R57): 0 while the servo is off and at the instant it comes on, the clamp value while it is clamped, else the
current it absorbs. -/
def State.dcCurrent (s : State) (ch : Nat) : Nat :=
  if !s.domainOn (ch / 16) || decide ((s.clus (ch / 16)).onAt = some s.dev.time.c) then 0
  else if (s.chan ch).clamped then 65535
  else (Config.dcCurrent ch s.dev.time.c).toNat

/-- What a register instance reads as: most registers read what they hold; the rest show something held elsewhere. -/
def State.readWord (s : State) (r : Reg) (i : Nat) : Nat :=
  match r with
  | .sysState => s.sysWord
  | .timNowLo => s.tag % 2 ^ 32
  | .timNowHi => s.tag / 2 ^ 32
  | .timNowFrac => s.tagFrac
  | .timSts => putBits (s.reg r i) F.timStsTdist.hi F.timStsTdist.lo s.shownDist
  | .odoSpeed => s.showSpeed.reg .odoSpeed 0
  | .acqEchoRate => putBits (s.reg r i) F.acqEchoRateRate.hi F.acqEchoRateRate.lo s.echoRate
  | .felExtLoad => (s.updateLoad i).reg .felExtLoad i
  | .rcvChDc => s.dcCurrent i
  | .lnkDfe => putBits (s.reg r i) 29 0 (s.dfeTaps i)
  | .emtPllOut =>
    -- output 1 is on whenever any port is enabled (R120)
    if i = 1 then putBits (s.reg r i) 31 31 (b2n ((List.range 32).any fun n => s.flag F.emtPortCtlEn n)) else s.reg r i
  | .tdcTab => s.shownTable (i / 64) (i % 64)
  | .protLc => s.fuse.state
  | .protGen => s.fld F.protGenInForce 0 * 65536 + s.fuse.genMin
  | .protSlotSts => s.fuse.programmed + 1024 * (s.fuse.spoiled % 64) + 65536 * s.fuse.revoked
  | .protSpoiled => s.fuse.spoiled / 64
  | .protDebug => s.debugLevel
  | .protSerialLo => Config.serial.toNat % 2 ^ 32
  | .protSerialHi => Config.serial.toNat / 2 ^ 32
  | .protSlotHash => leAt (s.fuse.slotHash (i / 16)) (4 * (i % 16)) 4
  | .protIdpub =>
    if s.fuse.idGen = 0 then 0
    else leAt (beBytes 512 (Config.identityModulus s.fuse.idGen).toNat) (4 * i) 4
  | _ => s.reg r i

/-- The histogram window (R150): the snapshot area of a tile, 32 bits at a time. -/
def State.snapWord (s : State) (addr : Nat) : Nat :=
  let t := (addr - 0xC000000) / 0x8000
  if t < 12 then smGet 0 (s.tile t).snap (addr % 0x8000 / 4) else 0

/-- Does an address lie in the histogram window of a tile whose logic is off (R33, R37)? -/
def State.windowDark (s : State) (addr : Nat) : Bool :=
  let t := (addr - 0xC000000) / 0x8000
  decide (t < 12) && !s.tileOn t

/-- What an aligned read latches (R17, R316): a low half its high half, and TIM_NOW_LO also TIM_NOW_FRAC. -/
def State.latch (s : State) (m : Master) (r : Reg) (i : Nat) : State :=
  let put (t : State) (h : Reg) : State := t.onDev fun d => { d with
    shadow := smPut none d.shadow (halfKey m (h.addr i)) (some (s.readWord h i)) }
  match highHalf r with
  | some h => let s1 := put s h; if r = .timNowLo then put s1 .timNowFrac else s1
  | none => s

/-- An aligned 32-bit read of a register that is reachable: the value, and the state with the read's side effects (R17,
R315). -/
def State.readReg (s : State) (m : Master) (r : Reg) (i : Nat) : Nat × State :=
  let k := halfKey m (r.addr i)
  let s1 := s.latch m r i
  let drop (t : State) : State := t.onDev fun d => { d with shadow := smPut none d.shadow k none }
  match smGet none s.dev.shadow k with
  | some v => (v, if r = .ethTsHi then (drop s1).popStamp i else drop s1)
  | none => (s.readWord r i, if r = .ethTsHi then s1.popStamp i else s1)

/-- A read of `size` bytes at a BAR0 offset (R13, R16, R33): one that is not an aligned 32-bit access returns the addressed
bytes of the enclosing register and has no side effect. R13 speaks of one enclosing register; a read whose bytes reach into
the next one returns the bytes of the first, with zeros above (log entry 72). The histogram window of a tile follows the tile
logic (R37). -/
def State.busRead (s : State) (m : Master) (addr size : Nat) : Nat × State :=
  let aligned := decide (size = 4 ∧ addr % 4 = 0)
  let part (v : Nat) : Nat := v / 2 ^ (8 * (addr % 4)) % 2 ^ (8 * size)
  if 0xC000000 ≤ addr then
    if m = .debug ∧ s.debugLevel = 0 then (0, s)
    else if s.windowDark addr then (0, s.accErr m 1 addr)
    else (part (s.snapWord addr), s)
  else match regAt (addr / 4 * 4) with
    | none => (0, s)
    | some (r, i) =>
      if !s.mayRead m r then (0, s)
      else if !s.powered r i then (0, s.accErr m 1 addr)
      else if aligned then s.readReg m r i
      else (part (s.readWord r i), s)

end Sys2Proof.Machine
end

