-- ==== Sys2Proof/Machine/Package.lean ====
section
/-! DEFINITION. The balls of the package (R441 to R446): their places, the supplies, the signal groups and their positions, and the
balls that carry one of two functions. Signal balls are resources of class 0x01 by position (R52). -/
namespace Sys2Proof.Machine

/-- The letters that name rows and sectors (R19, R441). -/
def rowLetters : List String :=
  ["A", "B", "C", "D", "E", "F", "G", "H", "J", "K", "L", "M", "N", "P", "T", "U", "V", "W", "Y"]

/-- The name of a row index 0 to 50 (R441). -/
def rowName (i : Nat) : String :=
  (if i < 19 then "" else if i < 38 then "A" else "B") ++ rowLetters.getD (i % 19) ""

/-- The place of a ball: row index and column (R441). -/
structure BallPlace where
  row : Nat
  col : Nat
deriving DecidableEq, Repr

/-- The input ball of a return channel (R442). -/
def returnBall (ch : Nat) : BallPlace :=
  let k := ch / 16
  let p := ch % 16
  ⟨k / 3, 17 * (k % 3) + (if p < 8 then p + 1 else p + 2)⟩

/-- The reference ball of a cluster (R442). -/
def referenceBall (k : Nat) : BallPlace := ⟨k / 3, 17 * (k % 3) + 9⟩

/-- The six rails in their order in R414. -/
inductive Rail where
  | core | a0v9 | a1v8 | q1v05 | q0v5 | io3v3
deriving DecidableEq, Repr

/-- What a supply ball carries (R443): ground or a rail; no ball of another place is a supply ball. -/
inductive Supply where
  | vss
  | rail (r : Rail)
deriving DecidableEq, Repr

/-- The supply of a ball (R443): the odd columns 3 to 51 of rows W to BN. -/
def supplyBall (b : BallPlace) : Option Supply :=
  if b.row < 17 ∨ 50 < b.row ∨ b.col < 3 ∨ 51 < b.col ∨ b.col % 2 = 0 then none
  else if b.col % 4 = 3 then some .vss
  else if b.row ≤ 24 then some (.rail (if b.col ≤ 29 then .a0v9 else .a1v8))
  else if 43 ≤ b.row then some (.rail (if b.col ≤ 25 then .q1v05 else .q0v5))
  else if b.col = 5 ∨ b.col = 49 then some (.rail .io3v3)
  else some (.rail (if b.row ≤ 38 then .core else .a0v9))

/-- The place of signal position P, 0 to 934 (R444). -/
def signalBall (p : Nat) : BallPlace :=
  if p < 51 then ⟨16, p + 1⟩
  else
    let q := p - 51
    let k := q % 26
    ⟨17 + q / 26, if k = 0 then 1 else 2 * k⟩

/-- The signal groups (R445). -/
inductive SignalGroup where
  | reset | emitter | scanAxis | odometry | video | segment | mea | drive | discrete | interlock | seal | refclk | eth | pcie
  | krevan | dram | debug | nvm | perst
deriving DecidableEq, Repr

/-- The first position of a group, its instances, and the signals of each (R445). -/
def SignalGroup.layout : SignalGroup → Nat × Nat × Nat
  | .reset => (0, 1, 1)
  | .emitter => (1, 32, 4)
  | .scanAxis => (129, 4, 12)
  | .odometry => (177, 4, 2)
  | .video => (185, 24, 6)
  | .segment => (329, 24, 3)
  | .mea => (401, 32, 1)
  | .drive => (433, 8, 11)
  | .discrete => (521, 8, 4)
  | .interlock => (553, 1, 4)
  | .seal => (557, 12, 2)
  | .refclk => (581, 4, 2)
  | .eth => (589, 4, 4)
  | .pcie => (605, 8, 4)
  | .krevan => (637, 12, 4)
  | .dram => (685, 4, 60)
  | .debug => (925, 1, 3)
  | .nvm => (928, 1, 6)
  | .perst => (934, 1, 1)

/-- The position of signal `j` of instance `i` of a group (R445). -/
def SignalGroup.pos (g : SignalGroup) (i j : Nat) : Nat := g.layout.1 + g.layout.2.2 * i + j

/-- The balls of a group's instance. -/
def SignalGroup.balls (g : SignalGroup) (i : Nat) : List Nat := (List.range g.layout.2.2).map (g.pos i ·)

/-- The signals of an instance that channel A (false) or channel B (true) powers and reads (R445): the names that end in _A or
_B. ADR_n_DECEL, signal 8 of a drive port, belongs to both. -/
def SignalGroup.safetySignals (g : SignalGroup) (b : Bool) : List Nat :=
  match g with
  | .drive => if b then [2, 3, 6, 7, 8, 10] else [0, 1, 4, 5, 8, 9]
  | .discrete | .interlock => if b then [2, 3] else [0, 1]
  | .seal => if b then [1] else [0]
  | _ => []

/-! Shared balls (R446). -/

/-- The balls of a scan-axis port. -/
def axisBalls (n : Nat) : List Nat := SignalGroup.scanAxis.balls n

/-- The balls that an illuminator port uses: STB on DRVj and DAT on the j-th of the inputs of scan-axis port 2 + n div 6. -/
def illBalls (n : Nat) : List Nat :=
  [SignalGroup.scanAxis.pos (2 + n / 6) (n % 6), SignalGroup.scanAxis.pos (2 + n / 6) (6 + n % 6)]

/-- The balls of a Krevan lane: lanes 12 to 15 lie on PCIe lanes 4 to 7. -/
def laneBalls (j : Nat) : List Nat := if j < 12 then SignalGroup.krevan.balls j else SignalGroup.pcie.balls (j - 8)

end Sys2Proof.Machine
end

