-- ==== Sys2Proof/Machine/BusWrite.lean ====
section
/-! DEFINITION. The register fabric, writing (R13 to R17, R33, R429 to R431): what a write needs to be accepted, what it
stores, what it starts, and the rules of other chapters that refuse a write. -/
namespace Sys2Proof.Machine

/-! What is stored. -/

/-- Bits [hi:lo] of a word replaced by bits [hi:lo] of another. -/
def copyBits (from' to' hi lo : Nat) : Nat := putBits to' hi lo (bitsOf from' hi lo)

/-- One field of a stored word after a write of `v` (R14). A W1S bit keeps its value: what it starts follows the write. -/
def mergeField (v w : Nat) (f : FieldRow) : Nat :=
  match f.acc with
  | .rw | .rws => copyBits v w f.hi f.lo
  | .w1c => putBits w f.hi f.lo (bitsOf w f.hi f.lo - (bitsOf w f.hi f.lo &&& bitsOf v f.hi f.lo))
  | .w1cAny => if bitsOf v f.hi f.lo = 0 then w else putBits w f.hi f.lo 0
  | .ro | .wo | .w1s | .rsv => w

/-- Do words of these instances ignore writes though their table marks them RW: the nonce of a dual-control buffer (R390),
the two PLL outputs that are fixed (R120)? -/
def wordFixed (r : Reg) (i : Nat) : Bool :=
  match r with
  | .protDcBuf => decide (32 ≤ i % 1024 ∧ i % 1024 < 40)
  | .emtPllOut => decide (i < 2)
  | _ => false

/-- The stored word after a write (R14); of an MSI-X vector control only the mask bit is kept (R305). -/
def mergeWord (r : Reg) (i w v : Nat) : Nat :=
  if wordFixed r i then w
  else if r = .pciMsixTab ∧ i % 4 = 3 then v % 2
  else (Reg.fields r).foldl (mergeField v) w

/-- Does every writable field hold a value of its range (R9)? -/
def inRanges (r : Reg) (v : Nat) : Bool :=
  (Reg.fields r).all fun f => match f.acc with
    | .rw | .rws | .wo => decide (f.minV ≤ bitsOf v f.hi f.lo) && decide (bitsOf v f.hi f.lo ≤ f.maxV)
    | _ => true

/-- May the register be written at all: does it have a field that is not read-only? -/
def halfWritable (r : Reg) : Bool := (Reg.fields r).any fun f => match f.acc with
  | .rw | .rws | .wo => true
  | _ => false

/-- Values that are legal only together with others (kind 2 of R431), judged on the state as it would become. -/
def State.valueOk (t : State) (r : Reg) (i : Nat) : Bool :=
  match r with
  | .emtPortPeriod | .emtPortOffset => decide (t.fld F.emtPortOffsetValue i < t.fld F.emtPortPeriodValue i)
  | .emtPortSense => decide (t.fld F.emtPortSenseSenseMin i < t.fld F.emtPortSenseSenseMax i)
  | .loopSrc => decide (t.fld F.loopSrcTgtKind i ≤ 3)
      && decide (t.fld F.loopSrcTgtKind i = 1 → t.fld F.loopSrcTgtIdx i ≤ 3)
      && decide (2 ≤ t.fld F.loopSrcTgtKind i → t.fld F.loopSrcTgtIdx i ≤ 11)
  | .linBankWref => decide (t.fld F.linBankWrefFirst i ≤ t.fld F.linBankWrefLast i)
  | .linTrkWin => decide (t.fld F.linTrkWinLo i ≤ t.fld F.linTrkWinHi i)
  | .felKpar => decide (t.fld F.felKparCentre i < t.fld F.felKparLen i)
  | .meaSlotIn => decide (t.fld F.meaSlotInPos i < 40 ∧ t.fld F.meaSlotInNeg i < 40)
  | .meaSlotRate => decide (t.fld F.meaSlotRateRate i = 0
      ∨ (16 ≤ t.fld F.meaSlotRateRate i ∧ t.fld F.meaSlotRateRate i ≤ 800000))
  | .meaSlotMin | .meaSlotMax => decide (t.sfld F.meaSlotMinOutMin i < t.sfld F.meaSlotMaxOutMax i)
  | .lnkEyeCtl => decide (t.fld F.lnkEyeCtlV i ≠ 0x80)
  | _ => true

/-! Rules of other chapters that refuse a write: the kind of R431, and the state with the rule's own mark. -/

/-- Does a field differ between two states? -/
def changes (s t : State) (f : RegField) (i : Nat) : Bool := decide (s.fld f i ≠ t.fld f i)

/-- A rule that holds before and would not hold after. -/
def breaks (s t : State) (ok : State → Bool) : Bool := ok s && !ok t

/-- Would the write break the domain schedule that runs (R159)? -/
def breaksSched (s t : State) : Bool :=
  decide (s.sys.op = .run) && s.schedOn && breaks s t State.schedFits

/-- A refusal under the schedule rule. -/
def State.schedRefused (s : State) : Option (Nat × State) := some (4, s.setFlag F.rejSchedStsSchedErr 0 true)

/-- Refusals of ranging and emitter registers (R79, R110, R119, R121, R139, R151, R159, R163). -/
def refuseRanging (s t : State) (r : Reg) (i v : Nat) : Option (Nat × State) :=
  let run := decide (s.sys.op = .run)
  let overload (tile : Nat) : Option (Nat × State) :=
    if 819 < t.tileLoad tile then some (4, s.setFlag F.felExtLoadLoadErr tile true) else none
  match r with
  | .rcvWalk => if s.flag F.rcvTileCtlWalkCommit (i / 128) then some (3, s) else none
  | .rcvChGate =>
    match overload (i / 64) with
    | some x => some x
    | none => if breaksSched s t then s.schedRefused else none
  | .emtClSrc =>
    match overload (i / 4) with
    | some x => some x
    | none => if breaksSched s t then s.schedRefused else none
  | .felClCtl => if changes s t F.felClCtlShots i then overload (i / 4) else none
  | .emtPortDither | .emtPortSense => if breaksSched s t then s.schedRefused else none
  | .emtPortPeriod =>
    if s.flag F.rejSchedCtlSchedEn 0 then s.schedRefused
    else if 4000000 < t.aggregate i (t.flag F.emtPortCtlEn i) (t.fld F.emtPortPeriodValue i) then
      some (4, s.setFlag F.emtStsRateErr 0 true)
    else none
  | .emtPortOffset | .emtPortSeed => if s.flag F.rejSchedCtlSchedEn 0 then s.schedRefused else none
  | .emtPortCtl =>
    if 4000000 < t.aggregate i (t.flag F.emtPortCtlEn i) (t.fld F.emtPortPeriodValue i) then
      some (4, s.setFlag F.emtStsRateErr 0 true)
    else none
  | .emtPllCtl =>
    if bitOf v 0 then
      let x := s.applyRequest
      if x.1 then none else some (if run then 3 else 4, x.2)
    else none
  | .felKern | .felKpar => if run then some (3, s) else none
  | .rejClAdapt => if t.fld F.rejClAdaptRateHi i ≤ t.fld F.rejClAdaptRateLo i then some (4, s) else none
  | .rejClBi =>
    if t.flag F.rejClBiBiEn i && (List.range 16).any fun p => s.flag F.rcvChStsSafetyLocked (16 * i + p) then some (4, s)
    else if changes s t F.rejClBiBiEn i || changes s t F.rejClBiBiSrc i then overload (i / 4) else none
  | .rejSchedCtl | .rejSchedPeriod | .rejSchedSlotsLo | .rejSchedSlotsHi | .rejSchedEpochLo | .rejSchedEpochHi
  | .rejSchedGuard | .rejSchedSts | .rejSchedSlipCnt | .rejSchedFrameLo | .rejSchedFrameHi => if run then some (3, s) else none
  | _ => none

/-- Is a loop's phase legal (R174)? -/
def State.phasesOk (t : State) (n : Nat) : Bool := decide (t.fld F.loopSchedPhase n < t.fld F.loopSchedDiv n)

/-- Refusals of loop registers (R174, R177, R181). -/
def refuseLoop (s t : State) (r : Reg) (i : Nat) : Option (Nat × State) :=
  match r with
  | .loopSched | .loopCtl | .loopSrc =>
    if !t.phasesOk i || !t.slotsClear || !t.groupsOk then some (4, s.setFlag F.loopEngStsSchedErr 0 true) else none
  | .loopOutMin | .loopOutMax =>
    if t.sfld F.loopOutMaxOutMax i ≤ t.sfld F.loopOutMinOutMin i then some (4, s) else none
  | _ => none

/-- Refusals of line-imaging registers (R193, R198 to R200, R203, R206, R214). -/
def refuseImaging (s t : State) (r : Reg) (i v : Nat) : Option (Nat × State) :=
  let run := decide (s.sys.op = .run)
  let fixed (l : List RegField) : Bool := run && l.any fun f => changes s t f i
  let no (b : Bool) (k : Nat) : Option (Nat × State) := if b then some (k, s) else none
  let geometry := breaks s t State.delaysOk || breaks s t State.hystOk
  match r with
  | .linSegCtl =>
    match no (fixed [F.linSegCtlEn, F.linSegCtlOrder, F.linSegCtlReverse, F.linSegCtlPixsrc, F.linSegCtlSclkDiv]) 3 with
    | some x => some x
    | none => no (breaks s t State.illuminatorsOk || (!run && (breaks s t State.stitchOk || geometry))) 4
  | .linSegPix =>
    match no (fixed [F.linSegPixActPix, F.linSegPixRefPix, F.linSegPixLead, F.linSegPixGap]) 3 with
    | some x => some x
    | none => no (breaks s t State.stitchOk) 4
  | .linSegRow => if run then some (3, s) else no geometry 4
  | .linBankIll => no (breaks s t State.illuminatorsOk) 4
  | .linBankExp => no (run && breaks s t State.carriageOk) 4
  | .linBankCap => if bitOf v 31 && decide (s.sys.op ≠ .ready) then some (3, s.setFlag F.linBankStsCapErr i true) else none
  | .linShade => no (!s.shadeAccepts (i / 6144)) 3
  | _ => none

/-- Refusals of motion registers (R208, R212, R214, R217, R219). -/
def refuseMotion (s t : State) (r : Reg) (i : Nat) : Option (Nat × State) :=
  let run := decide (s.sys.op = .run)
  let no (b : Bool) (k : Nat) : Option (Nat × State) := if b then some (k, s) else none
  match r with
  | .odoSrc | .odoInScale | .odoCarScale | .odoPitch =>
    if run then some (3, s)
    else no (breaks s t State.hystOk || (decide (r = .odoPitch) && breaks s t State.delaysOk)) 4
  | .odoInCtl => no (run && changes s t F.odoInCtlPresc i) 3
  | .odoMotion => no (run && changes s t F.odoMotionDir i) 3
  | .odoRevHyst => no (breaks s t State.hystOk || (run && breaks s t State.carriageOk)) 4
  | .odoCarCtl | .odoCarSpeed | .odoCarBack | .odoCarOver | .loopAlim | .loopJlim | .loopSaxCtl | .loopCtl | .loopSrc =>
    no (run && breaks s t State.carriageOk) 4
  | _ => none

/-- Refusals of stream, queue and memory registers (R231, R259, R260, R266, R280, R284). -/
def refuseQueues (s t : State) (r : Reg) (i v : Nat) : Option (Nat × State) :=
  let no (b : Bool) (k : Nat) : Option (Nat × State) := if b then some (k, s) else none
  match r with
  | .acqStrCtl | .acqStrBaseLo | .acqStrBaseHi | .acqStrSize | .acqStrWm | .acqStrSelLo | .acqStrSelHi =>
    no (s.flag F.acqStrCtlOn i) 3
  | .dmaCqBaseLo | .dmaCqBaseHi => no (s.flag F.dmaCqCtlEn i) 3
  | .dmaQCtl => no (!s.flag F.dmaQCtlEn i && t.flag F.dmaQCtlEn i && decide (s.ownerOf (0x07000000 + i) = 0xFFFF)) 4
  | .dmaCqCtl =>
    let en := s.flag F.dmaCqCtlEn i
    let was := en && (changes s t F.dmaCqCtlSizeLog2 i || changes s t F.dmaCqCtlVector i)
    if was then some (3, s)
    else if !en && t.flag F.dmaCqCtlEn i && decide (s.ownerOf (0x07001000 + i) = 0xFFFF) then some (4, s)
    else
      let k := s.fld F.dmaCqCtlOwner i
      if !en && t.flag F.dmaCqCtlEn i && decide (s.pair .dmaCqBaseLo .dmaCqBaseHi i < 2 ^ 35)
          && s.overQuota k ((16 * 2 ^ t.fld F.dmaCqCtlSizeLog2 i + 4095) / 4096) then
        some (4, s.bump F.dmaOverCntCount k 1)
      else none
  | .dmaCqRd => no (!s.cqRdLegal i v) 4
  | .dmaQuota => no (!s.inOp [.init, .ready, .run, .safeHold]) 3
  | .memWq => no (decide (¬ (t.fld F.memWqLwm 0 < t.fld F.memWqHwm 0 ∧ t.fld F.memWqHwm 0 ≤ 128))) 4
  | .memChCtl => no (bitOf v 31 && !s.migrateOk i) 4
  | _ => none

/-- Is the BAR2 map held at 0 (R303, R304)? -/
def State.mapHeld (s : State) : Bool := s.inOp [.awaitFw, .verify] || decide (s.dev.pci.ident = 2)

/-- Does a BAR2 map name DRAM or general SRAM (R304)? -/
def mapNames (a : Nat) : Bool := decide (a < 2 ^ 35) || decide (sramBase ≤ a ∧ a < sramBase + 2 ^ 23)

/-- Refusals of link, host, Ethernet and time registers (R296, R304, R312, R321, R370). -/
def refuseLinks (s t : State) (r : Reg) (i v : Nat) : Option (Nat × State) :=
  let no (b : Bool) (k : Nat) : Option (Nat × State) := if b then some (k, s) else none
  match r with
  | .lnkCtl =>
    let idle := decide (s.fld F.lnkStsState i = 0) || (decide (s.fld F.lnkStsState i = 6) && !t.flag F.lnkCtlTest i
      && !changes s t F.lnkCtlLoop i)
    no ((changes s t F.lnkCtlLoop i || changes s t F.lnkCtlTest i) && !idle) 3
  | .pciBar2MapLo | .pciBar2MapHi =>
    if s.mapHeld then some (3, s) else no (!mapNames (t.pair .pciBar2MapLo .pciBar2MapHi 0)) 4
  | .ethRxrRd =>
    let size := 2 ^ s.fld F.ethRxrSizeSizeLog2 i
    no (decide (v % 8 ≠ 0) || decide (size ≤ v)
      || decide (s.rxFill i < (v + size - s.reg .ethRxrRd i % size) % size)) 4
  | .timMeasHi => if s.timeSrc ≠ 2 then some (4, s) else no (!s.measures) 3
  | .fmkLogTail =>
    let back := (s.fld F.fmkLogHeadHead 0 + 512 - v % 512) % 512
    no (decide (256 < back)
      || decide ((s.fld F.fmkLogHeadHead 0 + 512 - s.fld F.fmkLogTailTail 0) % 512 < back)) 4
  | _ => none

/-- The pins that a slot drives, by excitation or bias (R396). -/
def State.slotDrives (s : State) (n : Nat) : List Nat :=
  (if s.flag F.meaSlotExcExc0En n then [s.fld F.meaSlotExcExc0Pin n] else [])
    ++ (if s.flag F.meaSlotExcExc1En n then [s.fld F.meaSlotExcExc1Pin n] else [])
    ++ if s.flag F.meaSlotExcBiasEn n then [s.fld F.meaSlotExcBiasPin n] else []

/-- Every pin that a slot names (R396). -/
def State.slotNames (s : State) (n : Nat) : List Nat :=
  ([s.fld F.meaSlotInPos n, s.fld F.meaSlotInNeg n].filter fun p => decide (p < 32)) ++ s.slotDrives n
    ++ (if s.flag F.meaSlotRefLeadEn n then [s.fld F.meaSlotRefLp n, s.fld F.meaSlotRefLn n] else [])
    ++ if s.flag F.meaSlotRefRefExt n then [s.fld F.meaSlotRefRefp n, s.fld F.meaSlotRefRefn n] else []

/-- One enabled slot against R398: its sources belong to its converter, its pins to the converter's owner, its converter
runs in a domain that is owned. -/
def State.slotOk (s : State) (n : Nat) : Bool :=
  let k := s.fld F.meaSlotInConv n
  (!s.flag F.meaSlotExcExc0En n || decide (s.fld F.meaExcOwner 0 = k))
    && (!s.flag F.meaSlotExcExc1En n || decide (s.fld F.meaExcOwner 1 = k))
    && ((s.slotNames n).all fun p => decide (s.ownerOf (0x05000700 + p) = s.ownerOf (0x0A000000 + k)))
    && s.flag F.meaConvCtlEn k && s.domBit .pwrDomOwn (137 + k / 2)

/-- Do the enabled slots keep R398? -/
def State.slotsOk (s : State) : Bool :=
  let l := (List.range 64).filter fun n => s.flag F.meaSlotInEn n
  (l.all fun n => s.slotOk n) && l.all fun a => l.all fun b =>
    decide (b ≤ a) || decide (s.fld F.meaSlotInConv a = s.fld F.meaSlotInConv b)
      || (s.slotDrives a).all fun p => !(s.slotDrives b).contains p

/-- The raw rate of a slot in codes per second (R399, R401), as a fraction. -/
def State.rawRate (s : State) (n : Nat) : Nat × Nat :=
  let k := s.fld F.meaSlotInConv n
  (if s.flag F.meaConvCtlLowpwr k then 256000 else 2048000, 2 ^ s.fld F.meaSlotConvOsrLog2 n)

/-- Refusals of measurement registers (R398, R402, R405). -/
def refuseMea (s t : State) (r : Reg) (i v : Nat) : Option (Nat × State) :=
  match r with
  | .meaSlotIn | .meaSlotExc | .meaSlotRef | .meaExc | .meaConvCtl => if breaks s t State.slotsOk then some (4, s) else none
  | .meaSlotRate =>
    let q := s.rawRate i
    if !s.flag F.meaConvCtlMode (s.fld F.meaSlotInConv i) && decide (16 * q.1 < t.fld F.meaSlotRateRate i * q.2) then
      some (4, s)
    else none
  | .meaUrg => if bitOf v 6 && !s.flag F.meaSlotInEn (v % 64) then some (4, s) else none
  | _ => none

/-- The first rule of another chapter that refuses a write. -/
def refusedBy (s t : State) (r : Reg) (i v : Nat) : Option (Nat × State) :=
  (refuseRanging s t r i v).orElse fun _ => (refuseLoop s t r i).orElse fun _ => (refuseImaging s t r i v).orElse fun _ =>
    (refuseMotion s t r i).orElse fun _ => (refuseQueues s t r i v).orElse fun _ => (refuseLinks s t r i v).orElse fun _ =>
      refuseMea s t r i v

/-! What a write starts. -/

/-- What has to happen before a new value is stored: what still runs on the old one is brought to now. -/
def State.beforeWrite (s t : State) (r : Reg) (i : Nat) : State :=
  match r with
  | .loopCtl =>
    if (changes s t F.loopCtlEn i && !t.flag F.loopCtlEn i) || changes s t F.loopCtlGrpEn i || changes s t F.loopCtlGrpLead i
    then s.stopLoop i else s
  | .loopSched => if changes s t F.loopSchedDiv i || changes s t F.loopSchedPhase i then s.stopLoop i else s
  | .loopSrc =>
    if changes s t F.loopSrcTgtKind i || changes s t F.loopSrcTgtIdx i then
      (if (s.loop i).active then s.setTarget i none else s)
    else s
  | .ethTxqRate => s.refillShapers (i / 8)
  | .rejBiCtl => if s.reg .rejBiCtl i ≠ t.reg .rejBiCtl i then s.forget i else s
  | _ => s

/-- A channel setting is written: ADAPT_EN acts at once (R78, R153); the settings R78 names wait for the boundary, or come into
force at once. -/
def State.chanWritten (s t : State) (r : Reg) (ch : Nat) : State :=
  let c := ch / 16
  let t1 := t.takeAdapt ch
  if s.sys.op = .run ∧ (s.clus c).inProgress = true ∧ s.clusterOn c = true then
    -- a write of RCV_CH_CTL that changes nothing but ADAPT_EN leaves nothing to wait for
    let word (x : State) : Nat := putBits (x.reg .rcvChCtl ch) F.rcvChCtlAdaptEn.hi F.rcvChCtlAdaptEn.lo 0
    if r = .rcvChCtl ∧ changes s t F.rcvChCtlAdaptEn ch = true ∧ word s = word t then t1
    else t1.setFlag F.rcvChStsPending ch true
  else (t1.takeChan ch).recomputeThr ch

/-- A held cluster setting (R112, R151, R155, R163). -/
def State.clusWritten (s : State) (c : Nat) : State :=
  if s.sys.op = .run ∧ (s.clus c).inProgress = true ∧ s.clusterOn c = true then s.setFlag F.felClStsPending c true
  else s.takeClus c

/-- A port joins the firing: writing EN to 1 in RUN resumes it at least 1 µs ahead (R111, R117). -/
def State.portJoins (s : State) (n : Nat) : State :=
  let s1 := s.portEnabled n
  if s.sys.op = .run then s1.setPort n { s1.port n with joinAt := s1.dev.time.c + 1000 } else s1

/-- After a write to ranging and emitter registers: `s` is the state before, `t` with the new word stored. -/
def afterRanging (s t : State) (r : Reg) (i v : Nat) : State :=
  match r with
  | .rcvChCtl | .rcvChThr | .rcvChGate => s.chanWritten t r i
  | .emtClSrc | .felClCtl | .felClBg | .felClDet | .felClWin | .felClOut | .rejClAdapt | .rejClCoinc | .rejClWx
  | .rejClXs | .rejClBi => t.clusWritten i
  | .rcvTileCtl => if bitOf v 0 then t.walkCommit i else t
  | .emtPortCtl =>
    let t1 := t.updateAgg
    if t.flag F.emtPortCtlEn i && !s.flag F.emtPortCtlEn i then t1.portJoins i else t1
  | .emtPortPeriod => (t.periodWritten i).updateAgg
  | .emtPortSeed => t.setPort i { t.port i with gen := t.fld F.emtPortSeedSeed i }
  | .emtPllCtl => if bitOf v 0 then t.applyRequest.2 else t
  | .emtPllOut => t.refreshTiming
  | .rejClXsCnt => if v = 0 then t else t.setClus i { t.clus i with xNum := 0, xDen := 1 }
  | .felSnap => if bitOf v 31 then (t.setFlag F.felSnapArm i true).setFlag F.felSnapDone i false else t
  | _ => t

/-- The drive outputs of a scan-axis port after its settings change; leaving or entering MODE 0, or what is treated as it, loses
the index; entering MODE 1 finds an invalid Hall state (R166, R167, R172). -/
def State.axisWritten (s t : State) (n : Nat) : State :=
  let idle (x : State) : Bool := decide (x.axisMode n = 0)
  let t1 := if idle s = idle t then t else t.setFlag F.loopSaxAzIndexed n false
  let t2 := if s.axisMode n = 1 then t1 else t1.judgeHall n
  (t2.showAz n).drivePort n

/-- After a write to loop registers. -/
def afterLoop (s t : State) (r : Reg) (i v : Nat) : State :=
  match r with
  | .loopCtl =>
    let t1 := t.updateLoopAgg
    if bitOf v 7 then t1.setFlag F.loopCtlCommit i true else t1
  | .loopSched => t.updateLoopAgg
  | .loopSp =>
    if t.flag F.odoSrcKind 0 && decide (t.fld F.odoCarCtlCarLoop 0 = i) then t.driveCarriage else t
  | .loopSaxCtl => s.axisWritten t i
  | .loopSaxPwm => t.drivePort i
  | .loopSaxCpr => t.showAz i
  | _ => t

/-- A segment whose EN is 0 now takes no further part in the lines under way. -/
def State.settleSegment (s : State) (n : Nat) : State := if s.inForceFlag F.linSegCtlEn n then s else s.dropSegment n

/-- After a write to line-imaging and motion registers. -/
def afterImaging (s t : State) (r : Reg) (i v : Nat) : State :=
  let run := decide (s.sys.op = .run)
  match r with
  | .linSegCtl | .linSegPix | .linSegAdc | .linSegCover => (if run then t else State.settleSegment (t.applySeg i) i).refreshTiming
  | .linSegCol => if run then t else t.applySeg (i / 3)
  | .linSegRow => (t.clearSegment (i / 3)).clearAligner 0
  | .linBankExp => t.refreshTiming
  | .linIllCtl => t.sendDemand i
  | .linBankCap => if bitOf v 31 then t.capture i else t
  | .linShadeStg => if bitOf v 31 then t.shadeCommit else t
  | .linAsmCtl | .linHoodLen | .linAsmPix => if run then t else t.applyReg r i
  | .linTrkWin => t.setTrk i { t.trk i with win := none }
  | .odoPitch => if run then t else t.clearAligner 0
  | .odoCarCtl | .odoCarScale | .odoCarSpeed | .odoCarBack | .odoCarOver | .odoSrc | .odoMotion => t.driveCarriage
  | _ => t

/-- After a write to queue, memory and protection registers. -/
def afterQueues (s t : State) (r : Reg) (i v : Nat) : State :=
  match r with
  | .dmaQCtl => t.chainEn i (s.flag F.dmaQCtlEn i)
  | .dmaCqCtl => (t.refreshUse (t.fld F.dmaCqCtlOwner i)).issue
  | .dmaCqRd => t.drainQueue i
  | .dmaQuota => (t.refreshUse i).issue
  | .memChCtl => if bitOf v 31 then t.degrade i else t
  | .protDcCtl => if bitOf v 31 then t.dcArm i else t
  | _ => t

/-- An MSI-X table entry has been written: a vector that is no longer masked sends what was pending (R305). -/
def State.vectorWritten (s : State) (w : Nat) : State :=
  let v := w / 4
  if w % 4 = 3 ∧ s.vectorMasked v = false ∧ bitOf (s.reg .pciMsixPba (v / 32)) (v % 32) = true then
    (s.setPba v false).sendMessage v
  else s

/-- An event's route has been written: one whose status bit is already set sends its vector where IRQ_EN rises (R437). -/
def State.routeWritten (s t : State) (e : Nat) : State :=
  if t.flag F.sysEvtRouteIrqEn e && !s.flag F.sysEvtRouteIrqEn e && decide (e < 23) && bitOf (t.reg .sysEvtSts 0) e then
    t.sendVector (t.fld F.sysEvtRouteVector e)
  else t

/-- After a write to link, host and Ethernet registers. -/
def afterLinks (s t : State) (r : Reg) (i v : Nat) : State :=
  match r with
  | .lnkCtl =>
    let t1 := t.linkService i
    if bitOf v 22 then t1.retrain i else t1
  | .lnkDfe => if bitOf v 31 && !s.flag F.lnkDfeFreeze i then t.setFld F.lnkDfeTaps i (s.dfeTaps i) else t
  | .lnkEyeCtl =>
    if bitOf v 31 && !s.flag F.lnkEyeCtlStart i then
      (t.setFlag F.lnkEyeCtlStart i true).setFlag F.lnkEyeCtlDone i false
    else t
  | .ethPortCtl =>
    (t.showPair (i / 2)).flushDown i
  | .timCtl => t.limitSlew
  | .pciMsixTab => t.vectorWritten i
  | .sysEvtRoute => s.routeWritten t i
  | .sysEvtSts => t.lowerIrqs i
  | _ => t

/-- A converter's settings have been written (R400, R401, R407, R410): a conversion under way ends as it began. -/
def State.convWritten (s t : State) (k : Nat) : State :=
  let t1 := if s.reg .meaConvCtl k = t.reg .meaConvCtl k then t else t.switchConv k
  if t1.flag F.meaConvCtlEn k then t1.startConv k else t1.idleConv k

/-- Does a slot use an excitation source? -/
def State.usesExc (s : State) (n k : Nat) : Bool :=
  if k = 0 then s.flag F.meaSlotExcExc0En n else s.flag F.meaSlotExcExc1En n

/-- After a write to measurement registers (R397, R402, R407). -/
def afterMea (s t : State) (r : Reg) (i v : Nat) : State :=
  let each (p : Nat → Bool) : State :=
    ((List.range 64).filter fun n => t.flag F.meaSlotInEn n && p n).foldl (fun x n => x.switchSlot n) t
  match r with
  | .meaSlotIn => s.showDrives (t.switchSlot i).startConvs
  | .meaSlotExc | .meaSlotRef | .meaSlotConv => s.showDrives (t.switchSlot i)
  | .meaConvCtl => s.showDrives (s.convWritten t i)
  | .meaExc => s.showDrives (each fun n => t.usesExc n i)
  | .meaTdac => each fun n => decide (t.fld F.meaSlotInPos n = 33 ∨ t.fld F.meaSlotInNeg n = 33)
  | .meaUrg => if bitOf v 6 then s.showDrives (t.urgent (v % 64)) else t
  | _ => t

/-- Everything a stored word starts. -/
def State.afterWrite (s t : State) (r : Reg) (i v : Nat) : State :=
  let t1 := afterLoop s (afterRanging s t r i v) r i v
  afterMea s (afterLinks s (afterQueues s (afterImaging s t1 r i v) r i v) r i v) r i v

/-! The write. -/

/-- Is the write one to a setting that a safety channel's parameter set holds (R69)? -/
def State.setLocked (s : State) (r : Reg) (i : Nat) : Bool :=
  heldChanRegs.contains r && s.flag F.rcvChStsSafetyLocked i

/-- A write to a tapped channel is discarded and counted as an ownership refusal (R69). -/
def State.tapRefused (s : State) (ch : Nat) : State :=
  ((s.bump F.sysOwnRefusedCntCount 0 1).setReg .sysOwnLast0 0 (0xFFFF + 65536 * 0xFFFE)).setReg .sysOwnLast1 0
    (0x02000000 + ch)

/-- The resource a loop's target names: a scan-axis port, or an illuminator port; an auxiliary PWM belongs to its scan-axis
port. -/
def targetRes (kind idx : Nat) : Option Nat :=
  match kind with
  | 1 => some (0x05000100 + idx)
  | 2 => some (0x05000300 + idx)
  | 3 => some (0x05000100 + idx / 3)
  | _ => none

/-- Does a loop's new target belong to another owner than the loop's own (R170)? -/
def State.targetTaken (s t : State) (n : Nat) : Option Nat :=
  match targetRes (t.fld F.loopSrcTgtKind n) (t.fld F.loopSrcTgtIdx n) with
  | some res =>
    if s.ownerOf res ≠ 0xFFFF ∧ s.ownerOf res ≠ s.ownerOf (0x09000000 + n) then some res else none
  | none => none

/-- A write in RUN that changes the MODE of a scan-axis port some of whose balls an illuminator owns: the first such ball
(R446). -/
def State.modeTaken (s t : State) (r : Reg) (i : Nat) : Option Nat :=
  if r = .loopSaxCtl ∧ s.sys.op = .run ∧ changes s t F.loopSaxCtlMode i = true then
    ((axisBalls i).find? fun p => s.dev.boot.balls.contains p).map (0x01000000 + ·)
  else none

/-- The resource whose owner refuses a write: a loop's target, or a shared ball. -/
def State.ownerStops (s t : State) (r : Reg) (i : Nat) : Option (Nat × Nat) :=
  if r = .loopSrc then (s.targetTaken t i).map fun res => (res, s.ownerOf (0x09000000 + i))
  else (s.modeTaken t r i).map fun res => (res, 0xFFFF)

/-- Registers whose rules of kind 4 a block meets as a whole, once every settings pair stands (`State.rulesOk`; R110, R139, R159,
R164, R174, R193, R200, R203, R208, R214, R219, R398): no pair of a block is refused for the state between two pairs (R380). -/
def loadJudged : Reg → Bool
  | .rcvChGate | .emtClSrc | .felClCtl | .rejClBi | .emtPortDither | .emtPortSense | .emtPortPeriod | .emtPortOffset
  | .emtPortSeed | .emtPortCtl | .loopSched | .loopCtl | .loopSrc | .linSegCtl | .linSegPix | .linSegRow | .linBankIll
  | .linBankExp | .odoSrc | .odoInScale | .odoCarScale | .odoPitch | .odoRevHyst | .odoCarCtl | .odoCarSpeed | .odoCarBack
  | .odoCarOver | .loopAlim | .loopJlim | .loopSaxCtl | .meaSlotIn | .meaSlotExc | .meaSlotRef | .meaExc | .meaConvCtl
  | .meaSlotRate => true
  | _ => false

/-- A write that passed the checks of its fields: the rules of other chapters, then the word and what it starts. -/
def State.applyChecked (s t : State) (m : Master) (r : Reg) (i v addr : Nat) : State :=
  match if m = .boot ∧ loadJudged r = true then none else refusedBy s t r i v with
  | some x => x.2.accErr m x.1 addr
  | none =>
    let u := s.beforeWrite t r i
    if r = .linShade then u.shadeWrite (i / 6144) (i % 6144) v
    else
      let u1 := match lowHalf r with
        | some l => u.setReg l i (t.reg l i)
        | none => u
      s.afterWrite (u1.setReg r i (t.reg r i)) r i v

/-- The stored words after a write with its held low half, where there is one. -/
def State.merged (s : State) (r : Reg) (i v : Nat) (lo : Option Nat) : State :=
  let s1 := match lowHalf r, lo with
    | some l, some w => s.setReg l i (mergeWord l i (s.reg l i) w)
    | _, _ => s
  s1.setReg r i (mergeWord r i (s.reg r i) v)

/-- Writes whose register is a command of its own, not a stored word. TIM_MEAS_HI written while no TIM_MEAS_LO is held takes the low
half as 0: R17 says only that the high half alone is applied (log entry 19). -/
def State.commandReg (s : State) (m : Master) (r : Reg) (i v addr : Nat) (lo : Option Nat) : Option State :=
  match r with
  | .pwrDomCtl => some (s.domainWrite i v)
  | .acqStrRd => some (s.rdWrite m i v addr)
  | .dmaQDb => some (s.doorbell i)
  | .timMeasHi =>
    if s.timeSrc ≠ 2 then some (s.accErr m 4 addr)
    else if !s.measures then some (s.accErr m 3 addr)
    else some (s.measure (signed 64 (lo.getD 0 + v * 2 ^ 32)))
  | .dmaQHeadLo | .dmaQHeadHi => if s.headOpen i then some ((s.merged r i v lo).headWritten i)
    else some (s.bump F.dmaQStsDbIgn i 1)
  | _ => none

/-- A 32-bit write to a reachable register, with the low half held for it. -/
def State.applyWrite (s : State) (m : Master) (r : Reg) (i v addr : Nat) (lo : Option Nat) : State :=
  match s.commandReg m r i v addr lo with
  | some x => x
  | none =>
    let t := s.merged r i v lo
    if s.setLocked r i then s.tapRefused i
    else if wordFixed r i then s
    else if !inRanges r v || !t.valueOk r i then
      (if r = .emtPortPeriod then s.setFlag F.emtStsRateErr 0 true else s).accErr m 2 addr
    else match s.ownerStops t r i with
      | some x => s.ownRefused x.1 x.2
      | none => s.applyChecked t m r i v addr

/-- The register that holds a write's low half until its high half is written (R17): a writable half of a pair. -/
def heldFor (r : Reg) : Option Reg :=
  match highHalf r with
  | some h => if halfWritable r && halfWritable h then some h else none
  | none => none

/-- An aligned 32-bit write by a master that may make it, to a register that is reachable (R17, R159, R304). -/
def State.writeReg (s : State) (m : Master) (r : Reg) (i v addr : Nat) : State :=
  match heldFor r with
  | some _ =>
    if (r = .pciBar2MapLo ∧ s.mapHeld = true) ∨ ((r = .rejSchedSlotsLo ∨ r = .rejSchedEpochLo) ∧ s.sys.op = .run) then
      s.accErr m 3 addr
    else s.onDev fun d => { d with heldLo := smPut none d.heldLo (halfKey m addr) (some v) }
  | none =>
    match lowHalf r with
    | some l =>
      let k := halfKey m (l.addr i)
      let lo := smGet none s.dev.heldLo k
      (s.onDev fun d => { d with heldLo := smPut none d.heldLo k none }).applyWrite m r i v addr lo
    | none => s.applyWrite m r i v addr none

/-- A write of `size` bytes at a BAR0 offset (R13, R16, R33, R430, R431): an unassigned address and the histogram window
discard it; an access that is not an aligned 32-bit one, a master that may not write, and a domain that is off discard and
count it. -/
def State.busWrite (s : State) (m : Master) (addr size v : Nat) : State :=
  if 0xC000000 ≤ addr then if s.windowDark addr then inDev (·.accErr m 1 addr) s else s
  else match regAt (addr / 4 * 4) with
    | none => s
    | some (r, i) =>
      if size ≠ 4 ∨ addr % 4 ≠ 0 then inDev (·.accErr m 0 addr) s
      else if !s.mayWrite m r then inDev (·.accErr m 3 addr) s
      else if !s.powered r i then inDev (·.accErr m 1 addr) s
      else if r = .sysMbxCmd then s.mbxWrite i (v / 65536 % 256) (v % 256) (bitOf v 31)
      else inDev (fun t => t.writeReg m r i (v % 2 ^ 32) addr) s

end Sys2Proof.Machine
end

