-- ==== Sys2Proof/Machine/Boot.lean ====
section
/-! DEFINITION. Boot (R36, R53, R278, R337, R372 to R385): the checks and the acceptance of a block, the DRAM wipe, the
Ethernet fetch of the firmware image, and its verification. -/
namespace Sys2Proof.Machine

/-! The block as bytes (R373, R374, R377). -/

/-- A directory entry of a block: type, offset, length, CRC-32C. -/
structure BlockEntry where
  type : Nat
  off : Nat
  len : Nat
  crc : Nat
deriving DecidableEq, Repr

/-- How many directory entries a block says it has. -/
def blockCount (b : List Byte) : Nat := leAt b 6 2

/-- The directory of a block. -/
def blockDir (b : List Byte) : List BlockEntry :=
  (List.range (blockCount b)).map fun i =>
    let o := 64 + 16 * i
    ⟨leAt b o 2, leAt b (o + 4) 4, leAt b (o + 8) 4, leAt b (o + 12) 4⟩

/-- Sections in ascending offset without overlap, from a first free byte, within a length. -/
def dirBounds : Nat → Nat → List BlockEntry → Bool
  | from', total, [] => decide (from' ≤ total)
  | from', total, e :: l => decide (from' ≤ e.off) && dirBounds (e.off + e.len) total l

/-- Do the sections meet R374: no type twice, the required ones present, the trailer last, 1 to 8 firmware keys? -/
def dirTypes (l : List BlockEntry) : Bool :=
  let types := l.map (·.type)
  decide types.Nodup && ([1, 2, 7, 8, 0xFF].all fun k => types.contains k) && decide (types.getLast? = some 0xFF)
    && l.all fun e => decide (e.type ≠ 7) || decide (e.len % 64 = 0 ∧ 64 ≤ e.len ∧ e.len ≤ 512)

/-- Check 0x01 of R378. -/
def blockPresent (b : List Byte) : Bool := decide (leAt b 0 4 ≠ 0 ∧ leAt b 0 4 ≠ 0xFFFFFFFF)

/-- Check 0x02 of R378. -/
def blockForm (b : List Byte) : Bool :=
  let l := blockDir b
  decide (leAt b 0 4 = 0x4B424C4B ∧ leAt b 4 2 = 1 ∧ 5 ≤ blockCount b ∧ blockCount b ≤ 32
      ∧ 1024 ≤ leAt b 8 4 ∧ leAt b 8 4 ≤ 262144 ∧ leAt b 8 4 ≤ b.length)
    && dirBounds (64 + 16 * blockCount b) (leAt b 8 4) l && dirTypes l
    && l.all fun e => decide (crc32c (sliceB b e.off e.len) = e.crc)

/-- The section of a type. -/
def blockSection (b : List Byte) (k : Nat) : List Byte :=
  match (blockDir b).find? fun e => decide (e.type = k) with
  | some e => sliceB b e.off e.len
  | none => []

/-- The firmware-key hashes of a block. -/
def blockKeys (b : List Byte) : List (List Byte) := chunksOf 64 8 (blockSection b 7)

/-- Check 0x04 of R378: the protection section. -/
def Fuse.protectionOk (f : Fuse) (b : List Byte) : Bool :=
  let p := blockSection b 8
  decide (leAt p 0 4 = leAt b 12 4 ∧ f.genMin ≤ leAt p 0 4)
    && decide (leAt p 4 8 = 0 ∨ leAt p 4 8 = Config.serial.toNat)
    && f.twoParty (signerAt p 64) (signerAt p 1092) (p.take 64)

/-- Check 0x05 of R378: the trailer. -/
def Fuse.trailerOk (f : Fuse) (b : List Byte) : Bool :=
  match (blockDir b).find? fun e => decide (e.type = 0xFF) with
  | some e =>
    let g := signerAt b e.off
    f.keyOk g && bitOf (leAt (blockSection b 8) 12 2) g.index && g.verifies (b.take e.off)
  | none => false

/-! Claims and conflicts (R53, R446). -/

/-- The balls that a resource claims with it (R446), by the settings the block brings: a scan-axis port in a MODE other than 0
all of its own, an illuminator its two, the PCIe endpoint at ×8 those of lanes 4 to 7, link 3 with a role the same. -/
def State.ballsOf (t : State) (width res : Nat) : List Nat :=
  let i := res % 256
  match res / 256 with
  | 0x050001 => if t.fld F.loopSaxCtlMode i = 0 then [] else axisBalls i
  | 0x050003 => illBalls i
  | 0x05000C => if width = 8 then [12, 13, 14, 15].flatMap laneBalls else []
  | 0x05000B => if 12 ≤ i ∧ t.fld F.lnkCtlRole 3 ≠ 0 then laneBalls i else []
  | _ => []

/-- The claims of a block: resource and feature, for each enabled feature. -/
def State.claims (t : State) (body : BlockBody) : List (Nat × Nat) :=
  (body.features.filter (·.enabled)).flatMap fun f =>
    f.owns.map (·, f.id) ++ f.owns.flatMap fun r =>
      (t.ballsOf body.device.pcieWidth r).map fun p => (0x01000000 + p, f.id)

/-- The features that claim a resource, in ascending order, each once. -/
def claimers (l : List (Nat × Nat)) (res : Nat) : List Nat :=
  (sortBy (fun a b => decide (a < b)) ((l.filter fun c => decide (c.1 = res)).map (·.2))).eraseDups

/-- The first conflict in ascending resource id: resource, lower and higher feature id (R53). The rule speaks of two features;
where more claim the resource, the two lowest ids are named (log entry 73). -/
def conflictOf (l : List (Nat × Nat)) : Option (Nat × Nat × Nat) :=
  ((sortBy (fun a b => decide (a < b)) (l.map (·.1))).find? fun r => decide (2 ≤ (claimers l r).length)).map fun r =>
    (r, (claimers l r).getD 0 0, (claimers l r).getD 1 0)

/-! Load-time rules (check 0x06 of R378). -/

/-- Resource ids and pool marks (R53, R458). -/
def featuresOk (body : BlockBody) : Bool :=
  (body.features.all fun f => (f.owns.all resourceOk) && f.pool.all resourceOk)
    && body.features.all fun f => f.pool.all fun r =>
      !(body.features.any fun g => g.enabled && decide (g.id = 0xFFFE) && g.owns.contains r)

/-- Every enabled feature that owns a queue or a stream has a quota slot (R266). -/
def quotasOk (body : BlockBody) : Bool :=
  body.features.all fun f => !f.enabled
    || !(f.owns.any fun r => decide (r / 2 ^ 24 = 7 ∨ r / 2 ^ 24 = 8))
    || body.quotas.any fun q => decide (q.owner = f.id ∧ q.slot < 64)

/-- The DRAM population and rates (R276, R278). -/
def memOk (w : Nat) (lp5x : Bool) : Bool :=
  let pop := bitsOf w 3 0
  decide (pop = 1 ∨ pop = 3 ∨ pop = 15) && decide (bitsOf w 13 12 ≠ 0)
    && decide (bitsOf w 23 20 ≤ if lp5x then 5 else 3) && decide (1 ≤ bitsOf w 11 8 ∧ bitsOf w 11 8 ≤ 8)
    && decide (8 ≤ bitsOf w 27 24 ∧ bitsOf w 27 24 ≤ 16) && (!bitOf w 31 || decide (pop ≠ 1))

/-- Link roles (R288). -/
def rolesOk (d : BlockDevice) : Bool :=
  let r := fun i => d.roles.getD i 0
  decide (r 0 ≤ 1) && decide (r 1 = 0 ∨ r 1 = 2) && decide (d.size = 1 → r 0 = 0 ∧ r 1 = 0)
    && [r 2, r 3].all fun x => decide (x = 0 ∨ x = 3 ∨ x = 4)

/-- Pairs of Ethernet ports (R310). -/
def pairsOk (d : BlockDevice) : Bool :=
  [0, 2].all fun p => decide (d.ethModes.getD p 0 = d.ethModes.getD (p + 1) 0)
    && decide (d.ethSpeeds.getD p 0 = d.ethSpeeds.getD (p + 1) 0)

/-- Does a cluster hold a channel that a set in force taps (R69, R164)? -/
def State.tapped (t : State) (c : Nat) : Bool :=
  [t.saf.a, t.saf.b].any fun x => x.zoneSets.any fun z => z.taps.any fun a => decide (a.ch / 16 = c)

/-- Emitters, felting load, the schedule and bistatic sources (R110, R139, R159, R162, R164). -/
def State.rangingOk (t : State) : Bool :=
  decide (t.aggregate 0 (t.flag F.emtPortCtlEn 0) (t.fld F.emtPortPeriodValue 0) ≤ 4000000)
    && ((List.range 12).all fun k => decide (t.tileLoad k ≤ 819))
    && (!t.flag F.rejSchedCtlSchedEn 0 || t.schedFits)
    && ((List.range 48).all fun c => !t.flag F.rejClBiBiEn c || !t.tapped c)
    && ((List.range 8).all fun n => !t.flag F.rejBiCtlEn n
      || (t.flag F.rejSchedCtlSchedEn 0 && decide (4000 ≤ t.fld F.rejSchedPeriodPeriod 0)))

/-- Loops and imaging (R174, R179, R181, R193, R200, R203, R208, R214, R219). -/
def State.motionOk (t : State) : Bool :=
  t.slotsClear && t.groupsOk && t.targetsClear && t.illuminatorsOk && t.delaysOk && t.stitchOk && t.scalesOk && t.hystOk && t.carriageOk

/-- At most one line stream among the owned streams (R232). -/
def State.lineStreamsOk (t : State) : Bool :=
  decide (((List.range 64).filter fun n =>
    decide (t.fld F.acqStrCtlClass n = 1 ∧ t.ownerOf (0x08000000 + n) ≠ 0xFFFF)).length ≤ 1)

/-- How long the conversions of a slot take on its converter, in modulator clocks (R400), the settling time in µs apart. -/
def State.slotClocks (t : State) (n : Nat) : Nat × Nat :=
  let k := if t.flag F.meaSlotRefLeadEn n then 2 else 1
  (k * 3 * 2 ^ t.fld F.meaSlotConvOsrLog2 n, k * t.fld F.meaSlotConvSettleUs n)

/-- One converter against R400. -/
def State.convOk (t : State) (k : Nat) : Bool :=
  let l := t.slotsOf k
  if !t.flag F.meaConvCtlEn k then true
  else if t.flag F.meaConvCtlMode k then
    let sum := l.foldl (fun a n => (a.1 + (t.slotClocks n).1, a.2 + (t.slotClocks n).2)) (0, 0)
    let f := if t.flag F.meaConvCtlLowpwr k then 256 else 2048
    decide (1000 * sum.1 + f * sum.2 ≤ f * t.fld F.meaConvCtlSeqPeriod k)
  else decide (l.length = 1)

/-- The measurement front end (R398, R400, R405). -/
def State.meaOk (t : State) : Bool :=
  t.slotsOk && ((List.range 4).all fun k => t.convOk k) && (List.range 64).all fun n =>
    let src := t.fld F.meaSlotTTSrc n
    !t.flag F.meaSlotInEn n || ((!t.flag F.meaSlotTTEn n || (decide (src ≠ n) && !t.flag F.meaSlotTTEn src))
      && (t.flag F.meaConvCtlMode (t.fld F.meaSlotInConv n)
        || decide (t.fld F.meaSlotRateRate n * (t.rawRate n).2 ≤ 16 * (t.rawRate n).1)))

/-- The shots per second of a port. -/
def State.shotRate (t : State) (p : Nat) : Nat := portRate (t.fld F.emtPortPeriodValue p)

/-- The tapped channels of a set that feed one safety channel. -/
def tapsOf (s : SafSet) (b : Bool) : List SafTap := (s.zones.flatMap (·.taps)).filter (tapSide b)

/-- The emitter ports of a zone. -/
def zonePorts (z : SafZoneSet) : List Nat := (List.range 32).filter fun p => bitOf z.emitters p

/-- One zone of the chosen set (R337). -/
def State.zoneOk (t : State) (z : SafZoneSet) : Bool :=
  decide (10 ≤ z.frameMs ∧ z.frameMs ≤ 50) && ((zonePorts z).all fun p => t.flag F.emtPortCtlEn p)
    && z.taps.all fun a =>
      let c := a.ch / 16
      let p := t.fld F.emtClSrcEmitter c
      t.flag F.emtClSrcEn c && !t.flag F.rejClBiBiEn c && (zonePorts z).contains p
        && decide (z.hitMin * t.fld F.emtPortPeriodValue p ≤ (z.frameMs - 1) * 1000000)

/-- The chosen set (R25, R28, R337). -/
def State.setOk (t : State) (s : SafSet) : Bool :=
  let ports := ((s.zones.flatMap zonePorts)).eraseDups
  let rate := ports.foldl (fun a p => a + t.shotRate p) 0
  let side (b : Bool) : Bool :=
    let n := (((tapsOf s b).map (·.ch)).eraseDups).length
    decide (n ≤ 32) && decide (2 * n * rate ≤ 128000000)
  ((s.zones.flatMap (·.taps)).all fun a => decide (a.ch < 128)) && side false && side true
    && (s.zones.all fun z => t.zoneOk z)
    && s.drives.zipIdx.all fun d => !d.1.supervised || decide (t.ownerOf (0x05000500 + d.2) = 0xFFFE)

/-- The set of a block that the switch bank chooses (R337). -/
def State.chosenSet (s : State) (body : BlockBody) : Option SafSet :=
  match s.saf.chosen with
  | some k => body.sets.find? fun x => decide (x.number = k)
  | none => none

/-- Every load-time rule, but for conflicts and settings pairs, on the state as the block would leave it. -/
def State.rulesOk (t : State) (body : BlockBody) : Bool :=
  featuresOk body && quotasOk body && memOk body.device.memCfg body.device.lp5x && rolesOk body.device
    && pairsOk body.device && t.rangingOk && t.motionOk && t.lineStreamsOk && t.meaOk
    && (match t.chosenSet body with
      | some x => t.setOk x
      | none => true)

/-! Applying a block (R380). -/

/-- Ownership by resource, from the enabled features. -/
def ownerMap (body : BlockBody) : List (Nat × Nat) :=
  (body.features.filter (·.enabled)).foldl (fun m f => f.owns.foldl (fun m r => smPut 0xFFFF m r f.id) m) []

/-- The switched domains that an enabled feature owns a resource in (R36). -/
def ownedDomains (body : BlockBody) : List Nat :=
  let l := (body.features.filter (·.enabled)).flatMap fun f => f.owns.flatMap resourceDomain
  (List.range 140).filter fun d => l.contains d

/-- Step 1: ball functions and ownership; the domains that are owned, that R37 keeps on or that the population names come
on (R36, R418). -/
def State.applyOwnership (s : State) (body : BlockBody) : State :=
  let pop := (List.range 4).filter fun n => bitOf body.device.memCfg n
  let own := ownedDomains body
  let on := own ++ keptOn ++ pop.map (120 + ·)
  let s1 := (s.onOwn fun _ => { owner := ownerMap body, pool := body.features.flatMap (·.pool)
                                enabled := (body.features.filter (·.enabled)).map (·.id) }).onBoot fun b =>
    { b with balls := body.balls }
  let s2 := own.foldl (fun t d => t.setDomBit .pwrDomOwn d true) s1
  on.foldl (fun t d => (t.setDomBit .pwrDomCtl d true).setDomBit .pwrDomSts d true) s2

/-- May a settings pair stand in a block (R380)? Its register has a field that a write can change, its value is in range for each such
field, as the registers stand at that point of the application, and has no 1 in an RSV bit. -/
def State.pairOk (s : State) (addr v : Nat) : Bool :=
  match regAt addr with
  | none => false
  | some (r, i) =>
    let lo := (lowHalf r).bind fun l => smGet none s.dev.heldLo (halfKey .boot (l.addr i))
    let t := s.merged r i v lo
    ((Reg.fields r).any fun f => decide (f.acc ≠ .ro ∧ f.acc ≠ .rsv))
      && ((Reg.fields r).all fun f => decide (f.acc ≠ .rsv) || decide (bitsOf v f.hi f.lo = 0))
      && (wordFixed r i || inRanges r v) && ((heldFor r).isSome || t.valueOk r i)
      && (decide (r ≠ .loopSched) || t.phasesOk i)

/-- Step 2: the settings pairs in order, each as an aligned register write by the boot sequencer. -/
def State.applyPairs (s : State) : List (Nat × Nat) → Option State
  | [] => some s
  | p :: l => if s.pairOk p.1 p.2 then (s.busWrite .boot p.1 4 p.2).applyPairs l else none

/-- The quota slot of a feature. -/
def quotaSlot (body : BlockBody) (f : Nat) : Nat := ((body.quotas.find? fun q => decide (q.owner = f)).map (·.slot)).getD 0

/-- OWNER of every owned queue (R266). -/
def State.applyQueues (s : State) (body : BlockBody) : State :=
  s.dev.own.owner.foldl (fun (t : State) p =>
    let q := p.1 % 65536
    if p.1 / 2 ^ 24 = 7 then
      if q < 4096 then t.setFld F.dmaQCtlOwner q (quotaSlot body p.2)
      else t.setFld F.dmaCqCtlOwner (q - 4096) (quotaSlot body p.2)
    else t) s

/-- The usable capacity of R278 in MiB, from the population word. -/
def capacity (w : Nat) : Nat :=
  let n := ((List.range 4).filter fun k => bitOf w k).length
  let f := bitsOf w 11 8 * 32
  let d := 2 ^ bitsOf w 13 12 * 1024 * 7 / 8
  let l := if bitOf w 31 then (d - f) * (n - 1) / n else d - f
  let grain := 2 ^ bitsOf w 27 24
  (f * 2 ^ 20 + n * (l * 2 ^ 20 / grain * grain)) / 2 ^ 20

/-- Step 3: the fields marked "block". -/
def State.applyFields (s : State) (b : List Byte) (body : BlockBody) : State :=
  let p := blockSection b 8
  let s1 := (s.onBoot fun x => { x with
    accepted := true, protGen := leAt p 0 4, device := body.device, blockSlots := leAt p 12 2, debugMax := leAt p 14 1, bootPath := leAt p 15 1
    fwSvnMin := leAt p 16 4, mgmtProt := decide (leAt p 20 1 = 1), fwKeys := blockKeys b
    blockMeas := sha512 (b.take (leAt b 8 4)) }).blockFields
  let s2 := (s1.setFld F.memCapCap 0 (capacity body.device.memCfg)).setFld F.protGenInForce 0 (leAt p 0 4 % 65536)
  let s3 := s2.setPair .bootBuildLo .bootBuildHi 0 (leAt b 16 8)
  (body.quotas.foldl (fun (t : State) q => (t.setFld F.dmaQuotaOwnFeature q.slot q.owner).setFld F.dmaQuotaQuota q.slot q.quota)
    s3).applyQueues body |>.refreshTiming

/-- Steps 1 to 3: none where a settings pair refuses the copy. -/
def State.applyBlock (s : State) (b : List Byte) (body : BlockBody) : Option State :=
  ((s.applyOwnership body).applyPairs body.settings).map fun t => t.applyFields b body

/-- Check 0x06 on a copy: the state it would leave, or the conflict it has, if any. A copy refused for its settings names no
conflict, whichever comes first being open (log entry 73). -/
def State.content (s : State) (b : List Byte) (body : BlockBody) : State ⊕ Option (Nat × Nat × Nat) :=
  match s.applyBlock b body with
  | none => .inr none
  | some t =>
    match conflictOf (t.claims body) with
    | some x => .inr (some x)
    | none => if t.rulesOk body then .inl t else .inr none

/-- The code of the first check of R378 that a copy fails before its content, 0 for none; BLANK skips 0x04 and 0x05 (R379). -/
def Fuse.blockCode (f : Fuse) (b : List Byte) : Nat :=
  if !blockPresent b then 1
  else if !blockForm b then 2
  else if f.state = 4 then 3
  else if f.state = 0 then 0
  else if !f.protectionOk b then 4
  else if !f.trailerOk b then 5
  else 0

/-- LOAD_MS: how long BLOCK_LOAD has lasted. -/
def State.noteLoad (s : State) : State :=
  s.setFld F.bootStsLoadMs 0 (satN 16 ((s.dev.time.c - s.dev.boot.loadAt) / 1000000))

/-- A copy is refused with a code: copy 1 is read next, or FAULT is entered under the fallback identity (R303, R372). -/
def State.refuseCopy (s : State) (code : Nat) : State :=
  if s.dev.boot.copy = 0 then (s.setFld F.bootCodeCode0 0 code).onBoot fun b => { b with copy := 1 }
  else
    let s1 := ((s.setFld F.bootCodeCode1 0 code).noteLoad.onDev fun d => { d with pci := { d.pci with ident := 2 } })
    ((s.takeDev (s1.setPair .pciBar2MapLo .pciBar2MapHi 0 0)).enter .fault (some 0x11)).pump

/-- The channels of DRAM begin their training and overwrite (R43): STATE training, 0 absent. -/
def State.beginWipe (s : State) : State :=
  s.channels.foldl (fun t n => t.setFld F.memChStsState n 1) s

/-- A copy is accepted (R380): what the checks found is applied, the set is handed over, and WIPE is entered. -/
def State.acceptCopy (s t : State) (body : BlockBody) : State :=
  let t1 := s.takeDev ((t.setFlag F.bootStsAccepted 0 true).setFld F.bootStsCopy 0 s.dev.boot.copy)
  let t2 := inDevSaf (fun t => (match t1.chosenSet body with
    | some x => t.onSaf fun f => f.handSet x
    | none => t).lockTaps) t1
  (inDev (fun t => (t.noteLoad.onDev fun d => { d with pci := { d.pci with ident := 1 } }).beginWipe) t2).enter .wipe none

/-- A copy of the block has been read and is checked (R378). -/
def State.checkCopy (s : State) (b : List Byte) (body : BlockBody) : State :=
  if s.sys.op = .blockLoad then
    let s1 := (s.setReg .sysOwnConflict0 0 0xFFFFFFFF).setReg .sysOwnConflict1 0 0
    let code := s.fuse.blockCode b
    if code ≠ 0 then s1.refuseCopy code
    else match s1.content b body with
      | .inl t => s1.acceptCopy t body
      | .inr none => s1.refuseCopy 6
      | .inr (some (res, lo, hi)) =>
        ((s1.setReg .sysOwnConflict0 0 (lo % 65536 + 65536 * (hi % 65536))).setReg .sysOwnConflict1 0 res).refuseCopy 6
  else s

/-! WIPE and the fetch (R43, R383, R384). -/

/-- The fetch begins afresh where the block lets Ethernet deliver the image (R384). -/
def State.beginFetch (s : State) : State :=
  (s.setFld F.bootFetchChunks 0 0).onBoot fun b => { b with
    viaNet := false, fetching := decide (b.bootPath = 1 ∨ b.bootPath = 2), server := none, offerLen := 0
    held := [], requested := [] }

/-- AWAIT_FIRMWARE is entered: MAP is held at 0, the fetch begins, waiting commands are served (R304). -/
def State.awaitFirmware (s : State) : State :=
  (inDev (fun s => (s.setPair .pciBar2MapLo .pciBar2MapHi 0 0).beginFetch) s).enter .awaitFw none

/-- Every populated channel has been trained and overwritten (R43, R278). -/
def State.wipeDone (s : State) : State :=
  if s.sys.op = .wipe then
    let s1 := s.onDev fun d => { d with
      mem := smEraseRange d.mem 0 (2 ^ 35)
      poison := d.poison.filter fun p => decide (sramBase ≤ p ∧ p < mirrorBase) }
    let up (t : State) (n : Nat) : State :=
      if t.fld F.memChStsState n = 1 then t.setFld F.memChStsState n 2 else t
    let s2 := s1.channels.foldl up s1
    let s3 := if s2.channels.contains 1 then s2.setFlag F.memChStsFwMirror 1 true else s2
    (s.takeDev s3).awaitFirmware.pump
  else s

/-- A boot frame of the device to a MAC, on the port or pair of the block (R383); it leaves through queue 5. -/
def State.bootFrame (s : State) (dst type : Nat) (payload : List Byte) : State :=
  let d := s.dev.boot.device
  let p := d.bootPort % 4
  s.sendFrame p 5 { dst := dst, src := s.mac .ethMacLo .ethMacHi p, tag := vlanTag (s.fld F.ethTxqTagPcp (8 * p + 5)) d.bootVid
                    etype := d.bootType
                    payload := leBytes 1 1 ++ leBytes 1 type ++ leBytes 2 0 ++ leBytes 8 Config.serial.toNat ++ payload }

/-- Does the fetch run? -/
def State.fetches (s : State) : Bool := decide (s.sys.op = .awaitFw) && s.dev.boot.fetching

/-- The HELLO timer expires while no server is known (R383). -/
def State.sendHello (s : State) : State :=
  if s.fetches && s.dev.boot.server.isNone then
    s.bootFrame s.dev.boot.device.bootServer 1
      (leBytes 2 s.domain ++ leBytes 8 (s.pair .bootBuildLo .bootBuildHi 0) ++ leBytes 4 s.dev.boot.fwSvnMin)
  else s

/-- The chunks of an image of a length. -/
def chunkCount (len : Nat) : Nat := (len + 1023) / 1024

/-- Runs of successive numbers of an ascending list: first and count, at most 256 in a run. -/
def runsOf : List Nat → List (Nat × Nat)
  | [] => []
  | x :: l =>
    match runsOf l with
    | (y, n) :: rest => if y = x + 1 ∧ n < 256 then (x, n + 1) :: rest else (x, 1) :: (y, n) :: rest
    | [] => [(x, 1)]

/-- READ frames for runs of chunks. -/
def State.readChunks (s : State) (l : List (Nat × Nat)) : State :=
  match s.dev.boot.server with
  | some mac => l.foldl (fun t r => t.bootFrame mac 3 (leBytes 4 (1024 * r.1) ++ leBytes 2 r.2)) s
  | none => s

/-- At most 256 chunks stand requested: the next missing ones are asked for while there is room (R383). -/
def State.requestMore (s : State) : State :=
  let b := s.dev.boot
  let missing := (List.range (chunkCount b.offerLen)).filter fun k => !b.held.contains k && !b.requested.contains k
  let next := missing.take (256 - b.requested.length)
  (s.onBoot fun x => { x with requested := x.requested ++ next }).readChunks (runsOf next)

/-- The fetch is complete when every chunk is held, and VERIFY is entered (R383). -/
def State.fetchGoesOn (s : State) : State :=
  let b := s.dev.boot
  if (List.range (chunkCount b.offerLen)).all fun k => b.held.contains k then
    (s.onBoot fun x => { x with fetching := false, viaNet := true, imageLen := x.offerLen, requested := [] }).enter .verify none
  else inDev State.requestMore s

/-- An OFFER arrives (R383): the first that names an allowed LENGTH names the server. -/
def State.hearOffer (s : State) (src serial len : Nat) : State :=
  if s.fetches && s.dev.boot.server.isNone && decide (serial = Config.serial.toNat)
      && decide (4096 ≤ len ∧ len ≤ 2 ^ 24 ∧ len ≤ s.fwSize) then
    (s.onBoot fun b => { b with server := some src, offerLen := len, requested := [] }).fetchGoesOn
  else s

/-- A DATA frame arrives (R383, R384): a chunk of the image from the server that is not held yet is written; where BOOT_PATH
allows both paths the first one accepted locks the path to Ethernet. -/
def State.hearData (s : State) (src serial off : Nat) (bytes : List Byte) : State :=
  let b := s.dev.boot
  if s.fetches && decide (b.server = some src) && decide (serial = Config.serial.toNat) && decide (off % 1024 = 0)
      && decide (off < b.offerLen) && decide (bytes.length = min 1024 (b.offerLen - off)) && !b.held.contains (off / 1024) then
    let s1 := (inDev (·.store off bytes) s).onBoot fun x => { x with
      held := x.held ++ [off / 1024], requested := x.requested.filter fun k => decide (k ≠ off / 1024) }
    let s2 := s1.setFld F.bootFetchChunks 0 (satN 16 s1.dev.boot.held.length)
    (if b.bootPath = 2 then s2.setFlag F.bootStsNet 0 true else s2).fetchGoesOn
  else s

/-- A chunk is still missing 50 ms after its READ (R383). -/
def State.retryRead (s : State) (k : Nat) : State :=
  if s.fetches && s.dev.boot.requested.contains k then s.readChunks [(k, 1)] else s

/-- Two seconds have passed with no DATA (R383): the chunks held are kept. -/
def State.serverLost (s : State) : State :=
  if s.fetches && s.dev.boot.server.isSome then s.onBoot fun b => { b with server := none, requested := [] } else s

/-! VERIFY (R381, R385). -/

/-- The code of the first check of R385 that an image fails, 0 for none. -/
def imageCode (keys : List (List Byte)) (svnMin len : Nat) (l : List Byte) : Nat :=
  let g := signerAt l (len - 1028)
  if ¬ (leAt l 0 4 = 0x4B465743 ∧ leAt l 4 4 = len) then 1
  else if ¬ (keys[g.index]? = some (sha512 g.modulus)) then 2
  else if !g.verifies (l.take (len - 1028)) then 3
  else if leAt l 8 4 < svnMin then 4
  else 0

/-- The image as it lies in the firmware region. -/
def State.image (s : State) : List Byte := s.bytes 0 s.dev.boot.imageLen

/-- The signature check of the image ends (R381, R384, R385). -/
def State.verifyDone (s : State) : State :=
  if s.sys.op = .verify then
    let b := s.dev.boot
    let l := s.image
    let code := imageCode b.fwKeys b.fwSvnMin b.imageLen l
    if code = 0 then
      let s1 := s.onBoot fun x => { x with svn := leAt l 8 4, entry := leAt l 12 4, fwMeas := sha512 l }
      ((s1.enter .init none).endRunning 0).pump
    else
      let s1 := (s.setFld F.bootCodeFwCode 0 code).bump F.bootFwFailCntCount 0 1
      ((s1.awaitFirmware).endRunning 7).pump
  else s

/-! The rows. -/

/-- BLOCK_COPY_READ: the bytes read, and the sections whose layout the spec does not give, decoded. -/
def execBlockCopyRead (bytes : List Byte) (body : BlockBody) (s : State) : Host.Outcome State Fault Refusal :=
  .next (inAll (State.checkCopy · bytes body) s)

/-- DRAM_WIPE_COMPLETE. -/
def execDramWipeComplete (s : State) : Host.Outcome State Fault Refusal := .next (inCore State.wipeDone s)

/-- HELLO. -/
def execHello (s : State) : Host.Outcome State Fault Refusal := .next (inDev State.sendHello s)

/-- OFFER from a MAC, with the serial and the LENGTH it carries. -/
def execOffer (src : BitVec 48) (serial : BitVec 64) (len : BitVec 32) (s : State) : Host.Outcome State Fault Refusal :=
  .next (inCore (State.hearOffer · src.toNat serial.toNat len.toNat) s)

/-- DATA from a MAC, with the serial, the offset and the bytes it carries. -/
def execData (src : BitVec 48) (serial : BitVec 64) (off : BitVec 32) (bytes : List Byte) (s : State) :
    Host.Outcome State Fault Refusal :=
  .next (inCore (State.hearData · src.toNat serial.toNat off.toNat bytes) s)

/-- READ_RETRY of a chunk. -/
def execReadRetry (chunk : Fin 16384) (s : State) : Host.Outcome State Fault Refusal :=
  .next (inDev (State.retryRead · chunk) s)

/-- SERVER_LOST. -/
def execServerLost (s : State) : Host.Outcome State Fault Refusal := .next (inDev State.serverLost s)

/-- VERIFY_COMPLETE. -/
def execVerifyComplete (s : State) : Host.Outcome State Fault Refusal := .next (inCore State.verifyDone s)

end Sys2Proof.Machine
end

