-- ==== Sys2Proof/Machine/Frames.lean ====
section
/-! DEFINITION. What arrives from outside as a frame or a transaction: Krevan frames on the ring and on bridges (R290, R298 to
R301, R328), the PCIe endpoint (R303 to R306), Ethernet frames and management requests (R307, R310 to R313). -/
namespace Sys2Proof.Machine

/-! Bridge frames (R300). -/

/-- Is a link a bridge in service: cross-connect or host bridge, and UP? -/
def State.bridgeUp (s : State) (n : Nat) : Bool :=
  decide (3 ≤ s.fld F.lnkCtlRole n) && decide (s.fld F.lnkStsState n = 4)

/-- Is the peer of a link a host bridge? -/
def State.hostPeer (s : State) (n : Nat) : Bool := decide (s.fld F.lnkCtlRole n = 4)

/-- A frame dropped and counted (R290, R300). -/
def State.dropFrame (s : State) : State := s.bump F.lnkRingDropCntCount 0 1

/-- The states from INIT on, in which the cores alone write the firmware region (R386). -/
def State.fwClosed (s : State) : Bool := s.inOp [.init, .ready, .run, .stabled, .safeHold, .fault]

/-- Does a span touch the firmware region while it is closed? -/
def State.fwHit (s : State) (a n : Nat) : Bool := s.fwClosed && decide (a < s.fwSize ∧ 0 < n)

/-- MEM_WR (R300): the write lands, or is dropped and counted outside R249 and in the firmware region. A write to an Ethernet
transmit window is a frame where it fits one (R308). -/
def State.memWrite (s : State) (a : Nat) (bs : List Byte) : State :=
  match s.spanTarget a bs.length with
  | .none => s.dropFrame
  | .dram => if s.fwHit a bs.length then s.dropFrame else s.store a bs
  | .window =>
    match ethWindow a with
    | some n => if a % 2 ^ 24 = 0 ∧ bs.length ≤ s.maxPayload (n / 8) then s.windowFrame n bs else s.dropFrame
    | none => s.dmaWrite a bs
  | _ => s.dmaWrite a bs

/-- A MEM_WR frame's content (R300): 1 to 504 data bytes. -/
def State.bridgeWriteIn (s : State) (a : Nat) (bs : List Byte) : State :=
  if bs = [] ∨ 504 < bs.length then s.dropFrame else s.memWrite a bs

/-- The completions of a read: the data in pieces of at most 504 bytes, or one with STATUS 1 (R300). -/
def State.sendCpl (s : State) (n tag : Nat) (data : Option (List Byte)) : State :=
  match data with
  | none => s.linkSend n 0x12 0 0 0 (leBytes 2 tag ++ leBytes 2 1 ++ leBytes 2 0)
  | some l =>
    (chunksOf 504 9 l).zipIdx.foldl (fun t p =>
      t.linkSend n 0x12 0 0 0 (leBytes 2 tag ++ leBytes 2 0 ++ leBytes 2 (504 * p.2) ++ p.1)) s

/-- What a MEM_RD finds (R300): none for an error. `host` and `err` say what a read across PCIe or through another bridge
brings. -/
def State.memRead (s : State) (a n : Nat) (host : List Byte) (err : Bool) : Option (List Byte) :=
  if n = 0 ∨ 4096 < n then none
  else match s.spanTarget a n with
    | .dram => if s.poisoned a n then none else some (s.bytes a n)
    | .sram => if s.poisoned a n then none else some (s.bytes a n)
    | .host => if err then none else some (sliceB host 0 n)
    | .window => if err || (bridgeLink a).isNone then none else some (sliceB host 0 n)
    | .none => none

/-- A MEM_RD is answered (R300); one that meets uncorrectable words of general SRAM reports them (R273). -/
def State.answerMem (s : State) (n tag a len : Nat) (host : List Byte) (err : Bool) : State :=
  (if len ≤ 4096 then s.readUe a len else s).sendCpl n tag (s.memRead a len host err)

/-- Bytes put into a string at a place; the string grows with zeros to reach it. -/
def putSlice (l : List Byte) (off : Nat) (bs : List Byte) : List Byte :=
  sliceB l 0 off ++ bs ++ l.drop (off + bs.length)

/-- A MEM_CPL of an outstanding read (R256, R300): the bytes it was made for enter the segment, whose read ends with the last; STATUS 1 is
RD_ERR. One that fits no read is dropped and counted. -/
def State.memCpl (s : State) (n tag sts off : Nat) (bs : List Byte) : State :=
  let l := s.link n
  match l.reads.find? fun r => decide (r.tag = tag) with
  | none => s.dropFrame
  | some r =>
    let others := l.reads.filter fun x => decide (x.tag ≠ tag)
    if sts ≠ 0 then (s.setLink n { l with reads := others }).segRead r.chain r.off [] 1
    else if r.left < bs.length then s.dropFrame
    else
      let left := r.left - bs.length
      let lo := max off r.skip
      let hi := min (off + bs.length) (r.skip + r.len)
      let s1 := s.setLink n { l with
        reads := if left = 0 then others else l.reads.map fun x => if x.tag = tag then { x with left := left } else x }
      match (s1.chain r.chain).findSeg r.off .reading with
      | none => s1
      | some (w, _) =>
        let fill (k : Seg) : Seg := if hi ≤ lo then k else { k with
          data := putSlice k.data (r.base + (lo - r.skip)) (sliceB bs (lo - off) (hi - lo)), left := k.left - (hi - lo) }
        let works := mapWork w.addr (fun v => v.onSeg r.off fill) (s1.chain r.chain).works
        (s1.setChain r.chain { s1.chain r.chain with works := works }).segRead r.chain r.off [] 0

/-- The master that a host-bridge peer is (R17). -/
def peerOf (n : Nat) : Master := if n = 2 then .peer2 else .peer3

/-- REG_WR (R300): from a host-bridge peer alone. -/
def State.peerWrite (s : State) (n addr v : Nat) : State :=
  if s.hostPeer n then s.busWrite (peerOf n) (addr % 2 ^ 28) 4 v else s.dropFrame

/-- REG_RD, answered with REG_CPL. -/
def State.peerRead (s : State) (n addr tag : Nat) : State :=
  if s.hostPeer n then
    let r := s.busRead (peerOf n) (addr % 2 ^ 28) 4
    r.2.linkSend n 0x15 0 0 0 (leBytes 2 tag ++ leBytes 2 0 ++ leBytes 4 r.1)
  else s.dropFrame

/-- REG_CPL: a register read at the peer is complete. -/
def State.regCpl (s : State) (n tag : Nat) : State :=
  let l := s.link n
  if l.regReads.contains tag then s.setLink n { l with regReads := l.regReads.filter (· ≠ tag) } else s.dropFrame

/-- INT: the peer's vector is delivered as one of this device's own (log entry 30). -/
def State.peerVector (s : State) (n v : Nat) : State :=
  if s.hostPeer n ∧ v < 2048 then s.sendVector v else s.dropFrame

/-- A frame accepted on a bridge link is handled by its type (R300); REG_WR is handled beside it. -/
def State.bridgeFrame (s : State) (n : Nat) (f : WireFrame) (host : List Byte) (err : Bool) : State :=
  let p := f.payload
  match f.type with
  | 0x10 => s.bridgeWriteIn (leAt p 0 8) (p.drop 8)
  | 0x11 => s.answerMem n (leAt p 10 2) (leAt p 0 8) (leAt p 8 2) host err
  | 0x12 => s.memCpl n (leAt p 0 2) (leAt p 2 2) (leAt p 4 2) (p.drop 6)
  | 0x14 => s.peerRead n (leAt p 0 4) (leAt p 4 2)
  | 0x15 => s.regCpl n (leAt p 0 2)
  | 0x16 => s.peerVector n (leAt p 0 2)
  | _ => s.dropFrame

/-! The ring (R298, R299, R328). -/

/-- Apply a change to the record of ring frames received. -/
def State.onSeen (s : State) (f : List (Nat × Nat × Bool) → List (Nat × Nat × Bool)) : State :=
  s.onDev fun d => { d with ring := { d.ring with seen := f d.ring.seen } }

/-- A ring frame is delivered to this device. -/
def State.deliverRing (s : State) (f : WireFrame) : State :=
  let src := f.hdr % 8
  match f.type with
  | 1 => s.hearAnnouncement src f.payload
  | 2 => s.hearSlip src f.payload
  | _ => s.hearShots src f.payload

/-- A ring frame arrives on link n (R298): own and second copies are removed; others are delivered, and forwarded out of the
other ring link. -/
def State.ringFrame (s : State) (n : Nat) (f : WireFrame) : State :=
  let src := f.hdr % 8
  let own := s.fld F.lnkRingPos 0
  let bcast := bitOf f.hdr 6
  let mine := decide (f.hdr / 8 % 8 = own)
  if src = own then s
  else if s.dev.ring.seen.any fun e => decide (e.1 = src ∧ e.2.1 = f.rseq) then
    s.onSeen fun l => l.map fun e => if e.1 = src ∧ e.2.1 = f.rseq then (src, f.rseq, true) else e
  else
    let s1 := s.onSeen fun l => l ++ [(src, f.rseq, false)]
    let s2 := if mine || bcast then s1.deliverRing f else s1
    if (bcast || !mine) && decide (f.hops + 1 < s.fld F.lnkRingSize 0) then
      s2.ringOut (1 - n) f.type f.hdr f.rseq (f.hops + 1) f.payload
    else s2

/-- The 10 µs of a ring frame have passed (R298): a frame whose second copy never came is counted; it is forgotten. -/
def State.ringTimeout (s : State) (src rseq : Nat) : State :=
  match s.dev.ring.seen.find? fun e => decide (e.1 = src ∧ e.2.1 = rseq) with
  | none => s
  | some e =>
    let s1 := s.onSeen fun l => l.filter fun x => !decide (x.1 = src ∧ x.2.1 = rseq)
    if e.2.2 then s1 else s1.bump F.lnkRingSingleCntCount 0 1

/-- A Krevan frame arrives (R290, R292, R298, R300, R328): accepted in order, then handled by the link's role and its type. -/
def State.linkFrame (s : State) (n : Nat) (b host : List Byte) (err : Bool) : State :=
  let r := s.receiveFrame n b
  match r.1 with
  | none => s.takeDev r.2
  | some f =>
    let s1 := s.takeDev r.2
    if 3 ≤ s.fld F.lnkCtlRole n then
      if f.type = 0x13 then s1.peerWrite n (leAt f.payload 0 4) (leAt f.payload 4 4) else inDev (·.bridgeFrame n f host err) s1
    else if f.type = 0x40 then inDev (·.timeStatus n f.payload) s1
    else if 1 ≤ f.type ∧ f.type ≤ 3 then inDev (·.ringFrame n f) s1
    else s1.dropFrame

/-! The PCIe endpoint (R303 to R306). -/

/-- The vendor ID and subsystem IDs that the endpoint shows. -/
def State.pcieIds (s : State) : Nat := if s.dev.pci.ident = 2 then Config.fallbackIds.toNat else s.dev.boot.device.pcieIds

/-- A configuration read of one doubleword: the identity of R303; what the spec leaves to the PCI Express Base Specification
is free (log entry 6). -/
def State.configWord (s : State) (off : Nat) : Nat × State :=
  match off / 4 * 4 with
  | 0x00 => (s.pcieIds % 65536 + 0x07680000, s)
  | 0x08 => (0x118000B1, s)
  | 0x2C => (s.pcieIds / 65536 % 2 ^ 32, s)
  | w =>
    let r := s.draw
    let v := (Config.unstated r.1).toNat % 2 ^ 32
    (if w = 0x3C then putBits v 15 8 0 else v, r.2)

/-- A configuration request (R303): retry until BLOCK_LOAD ends, then an answer; a write completes. -/
def State.configRequest (s : State) (write : Bool) (off : Nat) : State :=
  if s.dev.pci.ident = 0 then s.emit (.pcie 1 [])
  else if write then s.emit (.pcie 7 [])
  else
    let r := s.configWord off
    r.2.emit (.pcie 2 (leBytes 4 r.1))

/-- The DMA address of a BAR2 offset (R304). -/
def State.bar2Addr (s : State) (off : Nat) : Nat :=
  (if s.mapHeld then 0 else s.pair .pciBar2MapLo .pciBar2MapHi 0) + off

/-- Does BAR2 discard a write: under the fallback identity, in VERIFY, with the path locked to Ethernet, in the firmware
region from INIT on, beyond populated memory (R303, R304, R382, R384, R386)? -/
def State.bar2Closed (s : State) (a n : Nat) : Bool :=
  decide (s.dev.pci.ident = 2) || decide (s.sys.op = .verify)
    || (decide (s.sys.op = .awaitFw) && s.flag F.bootStsNet 0) || s.fwHit a n
    || !decide (s.spanTarget a n = .dram ∨ s.spanTarget a n = .sram)

/-- A host write through BAR2 (R304). -/
def State.bar2Write (s : State) (off : Nat) (bs : List Byte) : State :=
  let a := s.bar2Addr off
  if s.bar2Closed a bs.length then s.bump F.pciBar2ErrCntCount 0 1 else s.store a bs

/-- A host read through BAR2 (R304): data, Completer Abort, or a poisoned TLP. -/
def State.bar2Read (s : State) (off n : Nat) : State :=
  let a := s.bar2Addr off
  if s.spanTarget a n = .dram ∨ s.spanTarget a n = .sram then
    (s.readUe a n).emit (if s.poisoned a n then .pcie 5 [] else .pcie 3 (s.bytes a n))
  else s.emit (.pcie 4 [])

/-- A hot reset (0), a function-level reset (1) or PCI_PERST_L (2) (R306). -/
def State.pcieReset (s : State) (kind : Nat) : State :=
  let s1 := (s.clearReg .pciMsixTab 0 8192).abandonHost
  if kind = 1 then s1.raise F.pciStsFlrEvt 0 16 2 else s1.raise F.pciStsHotRstEvt 0 16 1

/-- The data link goes down (R306). -/
def State.pcieDown (s : State) : State :=
  if s.flag F.pciStsDlUp 0 then (s.setFlag F.pciStsDlUp 0 false).raise F.pciStsDownEvt 0 16 0 else s

/-- The data link is up (R306): what waited for the host leaves. Under the fallback identity it has at most 4 lanes (R303). -/
def State.pcieUp (s : State) (speed width : Nat) : State :=
  let lanes := if s.dev.pci.ident = 2 then min 4 width else width
  let s1 := ((s.setFlag F.pciStsDlUp 0 true).setFld F.pciStsSpeed 0 speed).setFld F.pciStsWidth 0 lanes
  ((s.dev.pci.waiting.foldl (fun t p => t.emit (.hostWrite p.1 p.2)) s1).onDev fun d =>
    { d with pci := { d.pci with waiting := [] } }).issue

/-! Ethernet and management (R307, R310 to R313). -/

/-- The longest frame a port accepts, without its check sequence (R307). -/
def State.longest (s : State) (p : Nat) : Nat :=
  (if s.flag F.ethPortCtlJumbo p then 9022 else 1522) - 4 + (if s.redMode p = 0 then 0 else 6)

/-- Is a MAC one of the eight that may manage the device? -/
def State.mayManage (s : State) (src : Nat) : Bool :=
  (List.range 8).any fun i => decide (s.mac .ethMgmtLo .ethMgmtHi i = src ∧ src ≠ 0)

/-- A management request (R313): written into mailbox 1 and rung; dropped while mailbox 1 is BUSY. -/
def State.manage (s : State) (p vid etype src : Nat) (l : List Byte) : State :=
  if ¬ (vid = s.fld F.ethMgmtCfgVid 0 ∧ etype = s.fld F.ethMgmtCfgEtype 0 ∧ s.mayManage src = true ∧ leAt l 0 1 = 1) then
    s.bump F.ethMgmtCntCount 0 1
  else if s.flag F.sysMbxStsBusy 1 then s.bump F.sysCmdCntBusyDiscards 0 1
  else
    let s1 := inDev (fun s => (List.range 16).foldl (fun t k => t.setReg .sysMbxArg (16 + k) (leAt l (4 + 4 * k) 4)) s) s
    s1.mbxRing 1 (leAt l 2 1) (leAt l 1 1) true (some (p, src))

/-- The first classifier entry that a frame matches (R312). -/
def State.classify (s : State) (etype vid : Nat) : Option Nat :=
  (List.range 16).find? fun i => s.flag F.ethClsMatchEn i && decide (s.fld F.ethClsMatchEtype i = etype)
    && (s.flag F.ethClsMatchVidAny i || decide (s.fld F.ethClsMatchVid i = vid))

/-- A frame that its classifier entry accepts goes where ACT says (R312). -/
def State.route (s : State) (p age i : Nat) (f : RxFrame) (frame : List Byte) : State :=
  match s.fld F.ethClsActAct i with
  | 1 =>
    let at' := s.stampAt age (-(s.fld F.ethAsymRxLat p : Int))
    s.emit (.ptpFrame p at'.1 at'.2 frame)
  | 2 => inDevSaf (fun s => s.onSaf fun x => x.bandMessage f.payload) s
  | 3 => s.manage p (f.vid.getD 0) f.etype f.src f.payload
  | 4 => inDev (·.rxPut (s.fld F.ethClsActRing i) p age f.vid.isSome frame) s
  | _ => s

/-- Is a frame one of the boot fetch's, on its port or pair (R383)? -/
def State.bootTraffic (s : State) (p : Nat) (f : RxFrame) : Bool :=
  let d := s.dev.boot.device
  s.fetches && decide (f.etype = d.bootType ∧ f.vid.getD 0 = d.bootVid)
    && (decide (p = d.bootPort % 4) || (decide (p / 2 = d.bootPort % 4 / 2) && decide (s.redMode p ≠ 0)))

/-- A boot frame from the server (R383). -/
def State.bootIn (s : State) (f : RxFrame) : State :=
  let l := f.payload
  if leAt l 0 1 ≠ 1 then s
  else if leAt l 1 1 = 2 then s.hearOffer f.src (leAt l 4 8) (leAt l 12 4)
  else if leAt l 1 1 = 4 then
    let off := leAt l 12 4
    s.hearData f.src (leAt l 4 8) off (sliceB l 16 (min 1024 (s.dev.boot.offerLen - off)))
  else s

/-- The frame as it is kept in a ring: redundancy information taken out, from DST to the end of its payload. -/
def RxFrame.plain (f : RxFrame) (b : List Byte) : List Byte :=
  if f.red.isNone then b
  else sliceB b 0 (if f.vid.isSome then 16 else 12) ++ beBytes 2 f.etype ++ f.payload

/-- An Ethernet frame arrives (R307, R310, R312): an HSR frame of this node's own is removed, another is passed on. -/
def State.ethIn (s : State) (p age : Nat) (fcsOk : Bool) (b : List Byte) : State :=
  if !s.portUp p then s
  else if !fcsOk || decide (b.length < 60) || decide (s.longest p < b.length) then s.bump F.ethRxErrCntCount p 1
  else
    let f := parseFrame (s.redMode p) b
    let s1 := (s.bump F.ethRxCntCount p 1).hsrForward p f b
    let r := if s.hsrReturned p f then (true, s.bump F.ethRxCntCount p 1)
      else if f.etype = ptpType then (false, s1) else s1.redundant p f
    let s2 := s.takeDev r.2
    if r.1 then s2
    else if s2.bootTraffic p f then s2.bootIn f
    else match s2.classify f.etype (f.vid.getD 0) with
      | none => s2.bump F.ethRxDropCntCount p 1
      | some i => s2.route p age i f (f.plain b)

/-! The rows. Those of one frame type deliver a frame that its link has accepted; LINK_FRAME and ETH_FRAME_RECEIVED take a
whole frame. -/

/-- LINK_FRAME: the bytes on the wire; `host` and `err` say what a MEM_RD of host memory brings. -/
def execLinkFrame (link : Fin 4) (bytes host : List Byte) (err : Bool) (s : State) : Host.Outcome State Fault Refusal :=
  .next (inCore (fun t => (t.linkFrame link bytes host err).pump) s)

/-- RING_SINGLE_TIMEOUT of a frame by source and sequence. -/
def execRingSingleTimeout (src : Fin 8) (rseq : BitVec 16) (s : State) : Host.Outcome State Fault Refusal :=
  .next (inDev (State.ringTimeout · src rseq.toNat) s)

/-- MEM_WR. -/
def execMemWr (link : Fin 4) (addr : BitVec 64) (bytes : List Byte) (s : State) : Host.Outcome State Fault Refusal :=
  .next (inDev (fun t => if t.bridgeUp link then t.bridgeWriteIn addr.toNat bytes else t) s)

/-- MEM_RD. -/
def execMemRd (link : Fin 4) (addr : BitVec 64) (len rtag : BitVec 16) (host : List Byte) (err : Bool) (s : State) :
    Host.Outcome State Fault Refusal :=
  .next (inDev (fun t => if t.bridgeUp link then t.answerMem link rtag.toNat addr.toNat len.toNat host err else t) s)

/-- MEM_CPL. -/
def execMemCpl (link : Fin 4) (rtag sts off : BitVec 16) (bytes : List Byte) (s : State) :
    Host.Outcome State Fault Refusal :=
  .next (inDev (fun t => if t.bridgeUp link then t.memCpl link rtag.toNat sts.toNat off.toNat bytes else t) s)

/-- REG_WR. -/
def execRegWr (link : Fin 4) (addr value : BitVec 32) (s : State) : Host.Outcome State Fault Refusal :=
  .next (inCore (fun t => if t.bridgeUp link then (t.peerWrite link addr.toNat value.toNat).pump else t) s)

/-- REG_RD. -/
def execRegRd (link : Fin 4) (addr : BitVec 32) (rtag : BitVec 16) (s : State) : Host.Outcome State Fault Refusal :=
  .next (inDev (fun t => if t.bridgeUp link then t.peerRead link addr.toNat rtag.toNat else t) s)

/-- REG_CPL. -/
def execRegCpl (link : Fin 4) (rtag _sts : BitVec 16) (_value : BitVec 32) (s : State) : Host.Outcome State Fault Refusal :=
  .next (inDev (fun t => if t.bridgeUp link then t.regCpl link rtag.toNat else t) s)

/-- INT. -/
def execInt (link : Fin 4) (vector : BitVec 16) (s : State) : Host.Outcome State Fault Refusal :=
  .next (inDev (fun t => if t.bridgeUp link then t.peerVector link vector.toNat else t) s)

/-- CONFIG_REQUEST: a read or a write of a configuration doubleword. -/
def execConfigRequest (write : Bool) (off : BitVec 12) (_value : BitVec 32) (s : State) :
    Host.Outcome State Fault Refusal := .next (inDev (State.configRequest · write off.toNat) s)

/-- BAR2_WRITE. -/
def execBar2Write (off : BitVec 26) (bytes : List Byte) (s : State) : Host.Outcome State Fault Refusal :=
  .next (inDev (State.bar2Write · off.toNat bytes) s)

/-- BAR2_READ. -/
def execBar2Read (off : BitVec 26) (len : BitVec 13) (s : State) : Host.Outcome State Fault Refusal :=
  .next (inDev (State.bar2Read · off.toNat len.toNat) s)

/-- PCIE_RESET: 0 hot reset, 1 function-level reset, 2 PCI_PERST_L. -/
def execPcieReset (kind : Fin 3) (s : State) : Host.Outcome State Fault Refusal := .next (inDev (State.pcieReset · kind) s)

/-- PCIE_LINK_DOWN. -/
def execPcieLinkDown (s : State) : Host.Outcome State Fault Refusal := .next (inDev State.pcieDown s)

/-- PCIE_LINK_UP with a speed, coded from 0 for 2.5 GT/s, and a width. -/
def execPcieLinkUp (speed : Fin 4) (width : Fin 9) (s : State) : Host.Outcome State Fault Refusal :=
  .next (inDev (State.pcieUp · (speed + 1) width) s)

/-- ETH_FRAME_RECEIVED on a port: how long ago its timestamp's instant lies, in 1/256 ns, whether its check sequence is good,
the frame without it. -/
def execEthFrameReceived (port : Fin 4) (age : BitVec 40) (fcsOk : Bool) (frame : List Byte) (s : State) :
    Host.Outcome State Fault Refusal := .next (inAll (fun t => (t.ethIn port age.toNat fcsOk frame).pump) s)

/-- MANAGEMENT_FRAME on a port, with its VID, EtherType, source and payload. -/
def execManagementFrame (port : Fin 4) (vid : BitVec 12) (etype : BitVec 16) (src : BitVec 48) (payload : List Byte)
    (s : State) : Host.Outcome State Fault Refusal :=
  .next (inCore (State.manage · port vid.toNat etype.toNat src.toNat payload) s)

end Sys2Proof.Machine
end

