-- ==== Sys2Proof/Machine/Shots.lean ====
section
/-! DEFINITION. The commands of ranging: the emitter PLL, shots, calibration slots, hits and conversions, threshold trim,
utility engines and histograms (chapters 03 to 06). -/
namespace Sys2Proof.Machine

/-! Units. -/

/-- Is a unit powered (R36, R416, R455)? -/
def State.unitOn (s : State) (u : Nat) : Bool :=
  if u < 1632 then s.clusterPowered (unitCluster u) else s.domainOn 139

/-- The channel a channel engine serves; a spare in reserve serves none (R86). -/
def servedChan (u : Nat) : Option Nat := if u < 1632 ∧ u % 34 < 32 then some (16 * unitCluster u + u % 34 / 2) else none

/-- Does a unit exist, in service or in reserve, and work? -/
def State.unitWorks (s : State) (u : Nat) : Bool :=
  s.unitOn u && decide (s.service u ≠ 3) && !(s.engine u).failed

/-! Calibration slots (R85, R86, R118). -/

/-- Has the port a shot that passed its permit sample, so that the shot exists for the clusters (R128)? -/
def State.shotAhead (s : State) (n : Nat) : Bool := match (s.port n).drawn with
  | some x => x.sampled
  | none => false

/-- Is a shot of the cluster ahead of it: one of the port it follows, or of its live bistatic source (R85, R163)? -/
def State.clusterShotAhead (s : State) (c : Nat) : Bool :=
  if s.bistatic c then match (s.source (s.inForce F.rejClBiBiSrc c)).ann with
    | some a => a.en
    | none => false
  else s.inForceFlag F.emtClSrcEn c && s.shotAhead (s.follows c)

/-- Does a calibration slot of a unit start in RUN (R85, R105, R118)? -/
def State.slotStarts (s : State) (u : Nat) : Bool :=
  s.unitOn u &&
    if u < 1632 then decide (s.sys.op = .run) && s.clusterShotAhead (unitCluster u)
    else if 2000 ≤ u ∧ u < 2032 then decide (s.sys.op = .run) && s.flag F.emtPortCtlEn (u - 2000)
    else if 2032 ≤ u ∧ u < 2036 then true
    else decide (2100 ≤ u) && s.flag F.tdcUtilCtlEn (u - 2100)

/-- The port whose shot a slot belongs to has begun its slots (R112). -/
def State.markSlot (s : State) (u : Nat) : State :=
  let mark (t : State) (n : Nat) : State := match (t.port n).drawn with
    | some x => t.setPort n { t.port n with drawn := some { x with slot := true } }
    | none => t
  let s1 := s.onDev fun d => { d with rng := { d.rng with runSlots := true } }
  if u < 1632 then (if s.bistatic (unitCluster u) then s1 else mark s1 (s.follows (unitCluster u)))
  else if 2000 ≤ u ∧ u < 2032 then mark s1 (u - 2000)
  else s

/-- A channel's shot boundary: the trim written comes into force, the threshold codes are computed afresh, and the idle window
ends (R61, R97). -/
def State.takeTrim (s : State) (u : Nat) : State := match servedChan u with
  | some ch =>
    let s1 := (s.applyReg .tdcTrim ch).recomputeThr ch
    s1.setChan ch { s1.chan ch with idle := false }
  | none => s

/-- The shot whose gate a boundary of a unit finds still open (R86, R92). -/
def State.openShot (s : State) (u : Nat) : Option Nat := match servedChan u with
  | some ch => if (s.chan ch).gateOpen then (s.clus (ch / 16)).shot.map (·.n) else none
  | none => none

/-- Does an engine skip its slot: a gate of its channel still open, or a conversion still running (R86)? -/
def State.slotSkipped (s : State) (u : Nat) : Bool :=
  (s.engine u).busy || match servedChan u with
    | some ch => (s.chan ch).gateOpen
    | none => false

/-- The calibration of a unit at its boundary (R85 to R87): skipped and counted, or made with the counts N1 and N2. -/
def State.slotCounts (s : State) (u : Nat) (counts : Option (Nat × Nat)) : State :=
  if !s.unitWorks u then s
  else if s.slotSkipped u then s.bump F.tdcEngSkipCntCount u 1
  else match counts with
    | some (n1, n2) => s.calibrate u n1 n2
    | none => s

/-- A calibration slot starts: it is the engine's shot boundary, whether the calibration is made or skipped (R85, R92,
R97, R100). -/
def State.calibrationSlot (s : State) (u n1 n2 : Nat) : State :=
  if s.slotStarts u then
    (((s.markSlot u).takeTrim u).shotBoundary u (s.openShot u)).slotCounts u (some (n1, n2))
  else s

/-- The units that have an internal boundary: the engines of powered clusters, the start-sense engines of enabled ports and
the spares in the emitter block (R118, R455). -/
def State.internalUnits (s : State) : List Nat :=
  ((List.range 1632).filter fun u => s.unitOn u) ++
    (if s.domainOn 139 then
      ((List.range 32).filter fun n => s.flag F.emtPortCtlEn n).map senseUnit ++ (List.range 4).map senseSpare
    else [])

/-- One unit at an internal boundary (R455): it serves as shot boundary and as histogram boundary, so a table waiting for
either is applied. -/
def State.internalUnit (s : State) (counts : List (Nat × Nat × Nat)) (u : Nat) : State :=
  let s1 := (s.takeTrim u).shotBoundary u none
  let s2 := if s1.bowSwitch u then s1.applyTable u none else s1
  s2.slotCounts u ((counts.find? fun p => p.1 = u).map (·.2))

/-- An internal boundary (R455): outside RUN, and in RUN until the first shot boundary. -/
def State.internalBoundary (s : State) (counts : List (Nat × Nat × Nat)) : State :=
  if s.sys.op = .run ∧ s.dev.rng.runSlots = true then s else s.internalUnits.foldl (fun (t : State) u => t.internalUnit counts u) s

/-! Hits and conversions. -/

/-- The hits of a cluster in one timing-clock cycle, served in the priority order of R74: the first position moves up by one
every cycle from START on. -/
def State.hits (s : State) (c : Nat) (edges : List (Nat × Pulse × Bool)) : State :=
  let first := (s.dev.time.edges - s.dev.rng.startedAt) % 16
  (List.range 16).foldl (fun (t : State) j =>
    match edges.find? fun e => e.1 = (first + j) % 16 with
    | some e => t.hit (16 * c + e.1) e.2.1 e.2.2
    | none => t) s

/-- May a channel be probed now (R97, R98): in its idle window, and outside RUN always? -/
def State.probes (s : State) (ch : Nat) : Bool :=
  s.clusterPowered (ch / 16) && s.flag F.tdcTileCtlTrimEn (ch / 64) && (decide (s.sys.op ≠ .run) || (s.chan ch).idle)

/-- Is a conversion of an idle unit a bow sample (R89, R98, R101, R105, R118)? Channel engines convert probe crossings, a
spare in reserve shadows a channel, the others convert the always-on oscillator. -/
def State.samples (s : State) (u : Nat) : Bool :=
  if u < 1632 then match servedChan u with
    | some ch => s.probes ch
    | none => decide (s.service u = 2)
  else true

/-- A hit's conversion, with what the code of the histogram words that its felting updates found (R130, R272, R273): a word it
corrected, a word it could not. -/
def State.hitFelted (s : State) (u n : Nat) (fix bad : Option Nat) : State :=
  let t := s.hitConverted u n
  match s.convResult u n with
  | some (v, code, _, _) =>
    let c := v.ch / 16
    if !bitOf v.coinc 31 && decide (code / 128 < 8192 ∧ ((s.clus c).buf v.buf).no = v.hist) then
      let t1 := (fix.map fun w => t.bankWord c v.buf (v.ch % 16) w false).getD t
      (bad.map fun w => t1.bankWord c v.buf (v.ch % 16) w true).getD t1
    else t
  | none => t

/-- An engine's rings reach coincidence (R81, R84, R94): a hit, a start-sense edge, or a bow sample. -/
def State.coincide (s : State) (u n : Nat) (fix bad : Option Nat) : State :=
  if !s.unitWorks u then s
  else if (s.engine u).conv.isSome then s.hitFelted u n fix bad
  else if (s.engine u).busy then s.senseConverted (u - 2000) n
  else if s.samples u then (s.bowSample u n).freeEngine u
  else s

/-- No coincidence by cycle 159 (R81, R100, R116): the hit is dropped and the engine declared failed. -/
def State.conversionTimeout (s : State) (u : Nat) : State :=
  if !s.unitWorks u then s
  else if 2000 ≤ u ∧ u < 2032 ∧ (s.engine u).busy = true then s.senseTimedOut (u - 2000)
  else
    let s1 := (s.setFlag F.tdcEngStsTimeout u true).failEngine u
    if u < 1632 then s1.judgeHits (unitCluster u) else s1

/-! Threshold trim (R97). -/

/-- A trim decision, made in an idle window, from the ones seen at x and at x + 1, each of 2^(14 + 2 TRIM_SAMPLES) samples (R97 to R99). -/
def State.trimDecision (s : State) (ch : Nat) (high : Bool) (n0 n1 : Nat) : State :=
  if s.probes ch then
    let n := 2 ^ (14 + 2 * s.fld F.tdcTileCtlTrimSamples (ch / 64))
    let f := if high then F.tdcTrimHighTrim else F.tdcTrimLowTrim
    let x := s.sfld f ch
    let y := if 2 * n0 < n then x - 1 else if n ≤ 2 * n1 then x + 1 else x
    let stop := decide (y < -64 ∨ 63 < y)
    let s1 := if stop then s.setFlag F.tdcTrimLimit ch true else s.setSfld f ch y
    if stop || decide (y = x) then
      s1.setChan ch (if high then { s1.chan ch with highSettled := true } else { s1.chan ch with lowSettled := true })
    else s1
  else s

/-- One second in RUN without a trim decision (R97). -/
def State.starved (s : State) (ch : Nat) : State :=
  if s.sys.op = .run ∧ s.clusterPowered (ch / 16) = true then s.setFlag F.tdcTrimStarved ch true else s

/-- A cluster reference ball has deviated too long (R58): REF_FAULT sets and a masked entry is logged. The spec gives the
entry no class and no unit: those are free values (log entry 6). -/
def State.refFault (s : State) (c : Nat) : State :=
  if s.clusterPowered c then
    let r := s.draw
    let v := (Config.unstated r.1).toNat
    (r.2.setFlag F.rcvClStsRefFault c true).logFault 0x08 1 (v % 256) (v / 256 % 65536) (v / 2 ^ 24 % 65536)
  else s

/-- The baseline servo of a channel clamps, or leaves its clamp again (R57). -/
def State.dcSat (s : State) (ch : Nat) (clamped : Bool) : State :=
  if s.domainOn (ch / 16) then
    let s1 := s.setChan ch { s.chan ch with clamped := clamped }
    if clamped && s.clusterOn (ch / 16) then s1.setFlag F.rcvChStsDcSat ch true else s1
  else s

/-! Utility engines (R103 to R105). -/

/-- The prescaler of a utility engine (R103). -/
def State.prescale (s : State) (n : Nat) : Nat := match s.fld F.tdcUtilCtlPrescale n with
  | 0 => 1
  | 1 => 8
  | _ => 64

/-- The MODE in force: interval only in engines 0 to 3, 0b11 as period (R107). -/
def State.utilMode (s : State) (n : Nat) : Nat :=
  let m := s.fld F.tdcUtilCtlMode n
  if m = 3 ∨ (m = 2 ∧ 4 ≤ n) then 0 else m

/-- A quotient to the nearest; one by 0 has no stated result (log entry 6). -/
def State.quotient (s : State) (a b : Nat) : Nat × State :=
  if b = 0 then let r := s.draw; ((Config.unstated r.1).toNat, r.2)
  else ((divRound a b).toNat, s)

/-- An edge of a utility engine by its free-running count C and vernier count N, in 1/65,536 ns (R94, R104). -/
def State.utilEdge (s : State) (n : Nat) (e : Nat × Nat) : Int :=
  let u := utilUnit n
  convTime (s.engine u) (s.fld F.tdcEngGbowGBow u) e.1 e.2

/-- The result of a gate (R104), from its first and last edge, and in interval mode from the pairs of an edge with the next of
engine n + 4. -/
def State.utilResult (s : State) (n edges : Nat) (first last : Nat × Nat) (pairs : List ((Nat × Nat) × (Nat × Nat))) :
    Nat × State :=
  let span := (s.utilEdge n last - s.utilEdge n first).toNat
  let sum := (pairs.foldl (fun (t : Int) p => t + (s.utilEdge (n + 4) p.2 - s.utilEdge n p.1)) 0).toNat
  match s.utilMode n with
  | 1 => s.quotient ((edges - 1) * s.prescale n * 10 ^ 15 * 65536) span
  | 2 => s.quotient sum (64 * pairs.length)
  | _ => s.quotient span (64 * (edges - 1))

/-- The gate of a utility engine ends (R103, R104): `ovr` where edges were skipped for their rate. -/
def State.utilGateEnd (s : State) (n edges : Nat) (first last : Nat × Nat) (pairs : List ((Nat × Nat) × (Nat × Nat)))
    (ovr : Bool) : State :=
  if s.domainOn 139 && s.flag F.tdcUtilCtlEn n && !s.flag F.tdcUtilStsFailed n then
    let s1 := if ovr then s.setFlag F.tdcUtilStsOverrun n true else s
    if edges < 2 then s1.setFlag F.tdcUtilStsValid n false
    else
      let r := s1.utilResult n edges first last pairs
      (r.2.setPair .tdcUtilResLo .tdcUtilResHi n (r.1 % 2 ^ 64)).setFlag F.tdcUtilStsValid n true
  else s

/-! The commands. -/

/-- APPLY_ALIGNED_INSTANT; a change of pixel-clock dividers changes the shortest line times. -/
def execApplyAlignedInstant (s : State) : Host.Outcome State Fault Refusal :=
  .next (inDev (fun s => s.alignedInstant.refreshTiming) s)

/-- LOCK_DECLARED. -/
def execLockDeclared (s : State) : Host.Outcome State Fault Refusal := .next (inDev State.lockDeclared s)

/-- LOSS_OF_LOCK. -/
def execLossOfLock (s : State) : Host.Outcome State Fault Refusal := .next (inDev State.lossOfLock s)

/-- LOCK_FAIL. -/
def execLockFail (s : State) : Host.Outcome State Fault Refusal := .next (inDev State.lockFail s)

/-- SHOT_DRAW of a port; a zone emitter is never throttled (R424). -/
def execShotDraw (n : Fin 32) (s : State) : Host.Outcome State Fault Refusal :=
  .next (inDev (fun s => s.drawShot n (s.saf.zoneEmitter n)) s)

/-- PERMIT_SAMPLE of a port. -/
def execPermitSample (n : Fin 32) (s : State) : Host.Outcome State Fault Refusal :=
  .next (inDev (State.samplePermits · n) s)

/-- CALIBRATION_SLOT of a unit with the counts of its two conversions. -/
def execCalibrationSlot (u : Fin 2112) (n1 n2 : Fin 320) (s : State) : Host.Outcome State Fault Refusal :=
  .next (inDev (State.calibrationSlot · u n1 n2) s)

/-- RING_TRIM_STEP of a unit. -/
def execRingTrimStep (u : Fin 2112) (s : State) : Host.Outcome State Fault Refusal :=
  .next (inDev (fun s => if s.unitWorks u then s.ringStep u else s) s)

/-- FIRE_EDGE of a port. -/
def execFireEdge (n : Fin 32) (s : State) : Host.Outcome State Fault Refusal := .next (inDev (State.fireEdge · n) s)

/-- START_SENSE_EDGE of a port, `t` in 1/128 ns after the fire edge; an edge inside the window also reaches the safety
channels (R27, R116). -/
def execStartSenseEdge (n : Fin 32) (t : BitVec 24) (s : State) : Host.Outcome State Fault Refusal :=
  .next (inDevSaf (fun s =>
    if !s.domainOn 139 then s
    else if s.senseInWindow n t.toNat then (s.senseEdge n t.toNat).onSaf (·.senseEvent n)
    else s.senseEdge n t.toNat) s)

/-- SENSE_WINDOW_END of a port. -/
def execSenseWindowEnd (n : Fin 32) (s : State) : Host.Outcome State Fault Refusal :=
  .next (inDev (State.senseWindowEnd · n) s)

/-- GATE_CLOSE of a channel; `stuck` where its low comparator stayed above threshold for the whole gate. -/
def execGateClose (ch : Fin 768) (stuck : Bool) (s : State) : Host.Outcome State Fault Refusal :=
  .next (inDev (State.gateClose · ch stuck) s)

/-- HIT: the pulses of a cluster whose leading edges fall in one timing-clock cycle, each a position, its leading, high and
trailing edge in 1/128 ns after the shot reference, and whether the input is above the linear range. -/
def execHit (c : Fin 48) (edges : List (Fin 16 × BitVec 23 × Option (BitVec 24) × BitVec 24 × Bool)) (s : State) :
    Host.Outcome State Fault Refusal :=
  .next (inDev (State.hits · c (edges.map fun e =>
    (e.1.val, ⟨e.2.1.toNat, e.2.2.1.map (·.toNat), e.2.2.2.1.toNat⟩, e.2.2.2.2))) s)

/-- CONVERSION_COMPLETE of a unit: the vernier count N, and what the code of the histogram words found: whether it corrected one,
and which, and whether it found one uncorrectable, and which. -/
def execConversionComplete (u : Fin 2112) (k : Fin 160) (fix : Bool) (fixWord : BitVec 20) (bad : Bool) (badWord : BitVec 20)
    (s : State) : Host.Outcome State Fault Refusal :=
  .next (inDev (State.coincide · u k (if fix then some fixWord.toNat else none) (if bad then some badWord.toNat else none)) s)

/-- CONVERSION_TIMEOUT of a unit. -/
def execConversionTimeout (u : Fin 2112) (s : State) : Host.Outcome State Fault Refusal :=
  .next (inDev (State.conversionTimeout · u) s)

/-- REF_FAULT of a cluster. -/
def execRefFault (c : Fin 48) (s : State) : Host.Outcome State Fault Refusal := .next (inDev (State.refFault · c) s)

/-- DC_SAT: the channel whose servo clamps, or leaves its clamp. -/
def execDcSat (servo : Fin 768 × Bool) (s : State) : Host.Outcome State Fault Refusal :=
  .next (inDev (State.dcSat · servo.1 servo.2) s)

/-- TRIM_DECISION of a comparator with the ones counted at x and at x + 1. -/
def execTrimDecision (ch : Fin 768) (high : Bool) (n0 n1 : BitVec 21) (s : State) : Host.Outcome State Fault Refusal :=
  .next (inDev (State.trimDecision · ch high n0.toNat n1.toNat) s)

/-- STARVED of a channel. -/
def execStarved (ch : Fin 768) (s : State) : Host.Outcome State Fault Refusal := .next (inDev (State.starved · ch) s)

/-- INTERNAL_BOUNDARY with the counts N1 and N2 of each unit that is calibrated. -/
def execInternalBoundary (counts : List (Fin 2112 × Fin 320 × Fin 320)) (s : State) : Host.Outcome State Fault Refusal :=
  .next (inDev (State.internalBoundary · (counts.map fun p => (p.1.val, p.2.1.val, p.2.2.val))) s)

/-- BOW_TABLE_BUILD of a unit. -/
def execBowTableBuild (u : Fin 2112) (s : State) : Host.Outcome State Fault Refusal :=
  .next (inDev (fun s => if s.unitWorks u then s.buildTable u else s) s)

/-- UTILITY_GATE_END of a utility engine: the edges of the gate, the first and the last as coarse and vernier count, the pairs
of interval mode, and whether edges were skipped. -/
def execUtilityGateEnd (n : Fin 12) (edges : BitVec 32) (first last : BitVec 64 × Fin 160)
    (pairs : List ((BitVec 64 × Fin 160) × (BitVec 64 × Fin 160))) (ovr : Bool) (s : State) :
    Host.Outcome State Fault Refusal :=
  let at' (e : BitVec 64 × Fin 160) : Nat × Nat := (e.1.toNat, e.2.val)
  .next (inDev (State.utilGateEnd · n edges.toNat (at' first) (at' last) (pairs.map fun p => (at' p.1, at' p.2)) ovr) s)

/-- HISTOGRAM_BOUNDARY of a cluster. -/
def execHistogramBoundary (c : Fin 48) (s : State) : Host.Outcome State Fault Refusal :=
  .next (inDev (State.histogramBoundary · c) s)

/-- HISTOGRAM_SILENCE of a cluster. -/
def execHistogramSilence (c : Fin 48) (s : State) : Host.Outcome State Fault Refusal :=
  .next (inDev (State.histogramSilence · c) s)

/-- CHANNEL_EXTRACTED: the tile, with the words of the channel in which the code found an error. -/
def execChannelExtracted (tile : Fin 12 × List (BitVec 20 × Bool)) (s : State) : Host.Outcome State Fault Refusal :=
  .next (inDev (State.channelExtracted · tile.1 (tile.2.map fun e => (e.1.toNat, e.2))) s)

end Sys2Proof.Machine
end

