-- ==== Sys2Proof/Machine/Lockstep.lean ====
section
/-! DEFINITION. The lockstep pairs (R364, R365): writes held between checkpoints, recovery, and the way a write of any
master reaches the registers. -/
namespace Sys2Proof.Machine

/-- A pair's record: pair 1 for `b`. -/
def State.corePair (s : State) (b : Bool) : Pair := if b then s.dev.fmk.pair1 else s.dev.fmk.pair0

/-- Put a pair's record. -/
def State.setCorePair (s : State) (b : Bool) (x : Pair) : State :=
  s.onDev fun d => { d with fmk := if b then { d.fmk with pair1 := x } else { d.fmk with pair0 := x } }

/-- The master that a pair is. -/
def pairMaster (b : Bool) : Master := if b then .pair1 else .pair0

/-- A commit (R364): the held writes are released in program order; the first after a recovery ends it for good (R365). -/
def State.commitPair (s : State) (b : Bool) : State :=
  let x := s.corePair b
  if x.recovering then s
  else x.held.foldl (fun (t : State) w => t.busWrite (pairMaster b) w.1 w.2.1 w.2.2)
    (s.setCorePair b { x with held := [], unproven := false })

/-- A write of a pair is held until its next commit; a full release buffer forces a commit before it (R364). A halted pair
writes nothing (R365). -/
def State.holdWrite (s : State) (b : Bool) (addr size v : Nat) : State :=
  if (s.corePair b).recovering then s
  else
    let s1 := if 512 ≤ (s.corePair b).held.length then s.commitPair b else s
    s1.setCorePair b { s1.corePair b with held := (s1.corePair b).held ++ [(addr, size, v)] }

/-- A write of a master to a BAR0 offset: that of a pair is held (R364), the others act at once. -/
def State.masterWrite (s : State) (m : Master) (addr size v : Nat) : State :=
  match m with
  | .pair0 => s.holdWrite false addr size v
  | .pair1 => s.holdWrite true addr size v
  | _ => s.busWrite m addr size v

/-- Does a read have a side effect (R13, R17, R315): an aligned one of a half of a split register, or of a time stamp's head? -/
def readActs (addr size : Nat) : Bool :=
  decide (size = 4 ∧ addr % 4 = 0) && match regAt addr with
    | some (r, _) => decide (r = .ethTsHi) || (highHalf r).isSome || (lowHalf r).isSome
    | none => false

/-- A read of a master: one by a pair that has a side effect forces a commit before it (R364). -/
def State.masterRead (s : State) (m : Master) (addr size : Nat) : Nat × State :=
  let t := match m with
    | .pair0 => if readActs addr size then s.commitPair false else s
    | .pair1 => if readActs addr size then s.commitPair true else s
    | _ => s
  ((t.busRead m addr size).1, t.takeDev (t.busRead m addr size).2)

/-- RECOVERING of FMK_STS follows a pair. -/
def State.showRecovering (s : State) (b x : Bool) : State :=
  let i := b2n b
  s.setFld F.fmkStsRecovering 0 (putBits (s.fld F.fmkStsRecovering 0) i i (b2n x))

/-- A comparator finds a mismatch (R365): the held writes are discarded and the pair recovers; a second mismatch before the
first commit after a recovery, or the fifth recovery of the pair within 1 s, ends in FAULT with cause 0x20. -/
def State.mismatch (s : State) (b : Bool) : State :=
  let x := s.corePair b
  let now := s.dev.time.c
  let recent := x.recoveries.filter fun t => now < t + 1000000000
  if x.recovering || decide (s.sys.op = .off) then s
  else if x.unproven || decide (4 ≤ recent.length) then
    (inDev (fun s => (s.setCorePair b { x with held := [] }).logFault 0x14 0 0x0B (b2n b) 0xFFFF) s).toFault 0x20
  else
    let n := s.dev.fmk.recTotal + 1
    let s1 := s.setCorePair b { x with held := [], recovering := true, haltedAt := now, recoveries := now :: recent }
    let s2 := (s1.showRecovering b true).bump F.fmkPairRecCnt (b2n b) 1
    s.takeDev (((s2.onDev fun d => { d with fmk := { d.fmk with recTotal := n } }).logFault 0x13 1 0x0B (b2n b) (b2n b)).change
      0x135 0x10 n false)

/-- Both cores resume from the checkpoint (R365); LAST_US shows the time from halt to resume. -/
def State.resume (s : State) (b : Bool) : State :=
  let x := s.corePair b
  if x.recovering then
    ((s.setCorePair b { x with recovering := false, unproven := true }).showRecovering b false).setFld F.fmkPairLastUs
      (b2n b) (satN 16 ((s.dev.time.c - x.haltedAt) / 1000))
  else s

/-- LOCKSTEP_MISMATCH of a pair. -/
def execLockstepMismatch (pair : Bool) (s : State) : Host.Outcome State Fault Refusal :=
  .next (inCore (fun s => (s.mismatch pair).pump) s)

/-- LOCKSTEP_RESUME of a pair. -/
def execLockstepResume (pair : Bool) (s : State) : Host.Outcome State Fault Refusal := .next (inDev (State.resume · pair) s)

/-- CHECKPOINT_COMMIT of a pair; a released write may be a mailbox command. -/
def execCheckpointCommit (pair : Bool) (s : State) : Host.Outcome State Fault Refusal :=
  .next (inCore (fun s => (s.commitPair pair).pump) s)

end Sys2Proof.Machine
end

