-- ==== Sys2Proof/Machine/Writes.lean ====
section
/-! DEFINITION. The commands that are register accesses: each is a write, or a read, by a master at the address of its
register, with everything R13 to R17 and R430 to R435 say of it. -/
namespace Sys2Proof.Machine

/-- A 32-bit write by a master to a register instance. -/
def State.writeAt (s : State) (m : Master) (r : Reg) (i v : Nat) : State := s.masterWrite m (r.addr i) 4 v

/-- A write of both halves of a 64-bit register, low half first (R17). -/
def State.writeHalves (s : State) (m : Master) (lo hi : Reg) (i vlo vhi : Nat) : State :=
  (s.writeAt m lo i vlo).writeAt m hi i vhi

/-- A value with a bit set. -/
def withBit (v i : Nat) : Nat := v ||| 2 ^ i

/-- The answer to a host read through BAR0. -/
def State.answerRead (m : Master) (r : Nat × State) : State :=
  if m = .host then r.2.emit (.pcie 6 (leBytes 4 r.1)) else r.2

/-- APPLY (R121). -/
def execApply (m : Master) (s : State) : Host.Outcome State Fault Refusal :=
  .next (inCore (fun s => s.writeAt m .emtPllCtl 0 1) s)

/-- WALK_COMMIT of a tile (R79). -/
def execWalkCommit (m : Master) (t : Fin 12) (s : State) : Host.Outcome State Fault Refusal :=
  .next (inCore (fun s => s.writeAt m .rcvTileCtl t 1) s)

/-- SNAPSHOT_ARM of a tile and a position (R150). -/
def execSnapshotArm (m : Master) (t : Fin 12) (pos : Fin 64) (s : State) : Host.Outcome State Fault Refusal :=
  .next (inCore (fun s => s.writeAt m .felSnap t (withBit pos 31)) s)

/-- NOTCH_COMMIT of a loop: a write of LOOP_CTL_n with COMMIT (R178). -/
def execNotchCommit (m : Master) (n : Fin 32) (v : BitVec 32) (s : State) : Host.Outcome State Fault Refusal :=
  .next (inCore (fun s => s.writeAt m .loopCtl n (withBit v.toNat 7)) s)

/-- LOOP_SCHEDULE_WRITE: a write of LOOP_SCHED_n, or of LOOP_CTL_n (R174). -/
def execLoopScheduleWrite (m : Master) (n : Fin 32) (sched : Bool) (v : BitVec 32) (s : State) :
    Host.Outcome State Fault Refusal :=
  .next (inCore (fun s => s.writeAt m (if sched then .loopSched else .loopCtl) n v.toNat) s)

/-- CAPTURE of a bank: a write of LIN_BANK_CAP_b with CAP (R199). -/
def execCapture (m : Master) (bank : Fin 12) (v : BitVec 32) (s : State) : Host.Outcome State Fault Refusal :=
  .next (inCore (fun s => s.writeAt m .linBankCap bank (withBit v.toNat 31)) s)

/-- SHADE_WRITE of a word of a segment's table (R198). -/
def execShadeWrite (m : Master) (seg : Fin 24) (word : Fin 6144) (v : BitVec 32) (s : State) :
    Host.Outcome State Fault Refusal :=
  .next (inCore (fun s => s.writeAt m .linShade (6144 * seg + word) v.toNat) s)

/-- SHADE_COMMIT (R198). -/
def execShadeCommit (m : Master) (s : State) : Host.Outcome State Fault Refusal :=
  .next (inCore (fun s => s.writeAt m .linShadeStg 0 (withBit 0 31)) s)

/-- ACQ_RD_WRITE of a stream (R233). -/
def execAcqRdWrite (m : Master) (n : Fin 64) (v : BitVec 32) (s : State) : Host.Outcome State Fault Refusal :=
  .next (inCore (fun s => s.writeAt m .acqStrRd n v.toNat) s)

/-- DOORBELL of a chain: any write of DMA_Q_DB_n (R254). -/
def execDoorbell (m : Master) (chain : Fin 4096) (v : BitVec 32) (s : State) : Host.Outcome State Fault Refusal :=
  .next (inCore (fun s => s.writeAt m .dmaQDb chain v.toNat) s)

/-- CHAIN_EN_WRITE: a write of DMA_Q_CTL_n (R253). -/
def execChainEnWrite (m : Master) (chain : Fin 4096) (v : BitVec 32) (s : State) : Host.Outcome State Fault Refusal :=
  .next (inCore (fun s => s.writeAt m .dmaQCtl chain v.toNat) s)

/-- HEAD_WRITE of a chain (R253). -/
def execHeadWrite (m : Master) (chain : Fin 4096) (lo hi : BitVec 32) (s : State) : Host.Outcome State Fault Refusal :=
  .next (inCore (fun s => s.writeHalves m .dmaQHeadLo .dmaQHeadHi chain lo.toNat hi.toNat) s)

/-- CQ_RD_WRITE of completion queue 4096 + `queue` (R260). -/
def execCqRdWrite (m : Master) (queue : Fin 4096) (v : BitVec 32) (s : State) : Host.Outcome State Fault Refusal :=
  .next (inCore (fun s => s.writeAt m .dmaCqRd queue v.toNat) s)

/-- CQ_EN_WRITE of completion queue 4096 + `queue` (R266). -/
def execCqEnWrite (m : Master) (queue : Fin 4096) (v : BitVec 32) (s : State) : Host.Outcome State Fault Refusal :=
  .next (inCore (fun s => s.writeAt m .dmaCqCtl queue v.toNat) s)

/-- QUOTA_WRITE of a quota slot (R267). -/
def execQuotaWrite (m : Master) (n : Fin 64) (v : BitVec 32) (s : State) : Host.Outcome State Fault Refusal :=
  .next (inCore (fun s => s.writeAt m .dmaQuota n v.toNat) s)

/-- MIGRATE of a DRAM channel (R284). -/
def execMigrate (m : Master) (ch : Fin 4) (s : State) : Host.Outcome State Fault Refusal :=
  .next (inCore (fun s => s.writeAt m .memChCtl ch (withBit 0 31)) s)

/-- RETRAIN of a link: a write of LNK_CTL_n with RETRAIN (R291). -/
def execRetrain (m : Master) (link : Fin 4) (v : BitVec 32) (s : State) : Host.Outcome State Fault Refusal :=
  .next (inCore (fun s => s.writeAt m .lnkCtl link (withBit v.toNat 22)) s)

/-- TEST of a link: a write of LNK_CTL_n, and the pattern errors each lane has counted in the test (R296). -/
def execTest (m : Master) (link : Fin 4) (v : BitVec 32) (errs : List (BitVec 32)) (s : State) :
    Host.Outcome State Fault Refusal :=
  .next (inCore (fun s =>
    let s1 := s.writeAt m .lnkCtl link v.toNat
    if s.fld F.lnkStsState link = 6 ∨ s1.fld F.lnkStsState link = 6 then inDev (·.countPrbs link (errs.map (·.toNat))) s1
    else s1) s)

/-- EYE_SCAN_START of a lane: a write of LNK_EYE_CTL_n with START (R295). -/
def execEyeScanStart (m : Master) (lane : Fin 16) (v : BitVec 32) (s : State) : Host.Outcome State Fault Refusal :=
  .next (inCore (fun s => s.writeAt m .lnkEyeCtl lane (withBit v.toNat 31)) s)

/-- TIM_MEAS_WRITE (R331). -/
def execTimMeasWrite (m : Master) (lo hi : BitVec 32) (s : State) : Host.Outcome State Fault Refusal :=
  .next (inCore (fun s => s.writeHalves m .timMeasLo .timMeasHi 0 lo.toNat hi.toNat) s)

/-- BAR2_MAP_WRITE (R304). -/
def execBar2MapWrite (m : Master) (lo hi : BitVec 32) (s : State) : Host.Outcome State Fault Refusal :=
  .next (inCore (fun s => s.writeHalves m .pciBar2MapLo .pciBar2MapHi 0 lo.toNat hi.toNat) s)

/-- TS_HEAD_READ of a port (R315). -/
def execTsHeadRead (m : Master) (port : Fin 4) (s : State) : Host.Outcome State Fault Refusal :=
  .next (inCore (fun s => State.answerRead m (s.masterRead m (Reg.ethTsHi.addr port) 4)) s)

/-- LOG_TAIL_WRITE (R370). -/
def execLogTailWrite (m : Master) (v : BitVec 32) (s : State) : Host.Outcome State Fault Refusal :=
  .next (inCore (fun s => s.writeAt m .fmkLogTail 0 v.toNat) s)

/-- URG: a write of MEA_URG with GO (R402). -/
def execUrg (m : Master) (v : BitVec 32) (s : State) : Host.Outcome State Fault Refusal :=
  .next (inCore (fun s => s.writeAt m .meaUrg 0 (withBit v.toNat 6)) s)

/-- DOMAIN_SWITCH: a write of PWR_DOM_CTL_n (R418). -/
def execDomainSwitch (m : Master) (n : Fin 5) (v : BitVec 32) (s : State) : Host.Outcome State Fault Refusal :=
  .next (inCore (fun s => s.writeAt m .pwrDomCtl n v.toNat) s)

/-- EVENT_ROUTE_WRITE (R437). -/
def execEventRouteWrite (m : Master) (e : Fin 64) (v : BitVec 32) (s : State) : Host.Outcome State Fault Refusal :=
  .next (inCore (fun s => s.writeAt m .sysEvtRoute e v.toNat) s)

/-- SPLIT_LO_READ: an aligned read of a low half (R17). -/
def execSplitLoRead (m : Master) (addr : BitVec 28) (s : State) : Host.Outcome State Fault Refusal :=
  .next (inCore (fun s => State.answerRead m (s.masterRead m addr.toNat 4)) s)

/-- SPLIT_HI_WRITE: a write of a high half (R17). -/
def execSplitHiWrite (m : Master) (addr : BitVec 28) (v : BitVec 32) (s : State) : Host.Outcome State Fault Refusal :=
  .next (inCore (fun s => s.masterWrite m addr.toNat 4 v.toNat) s)

/-- REGISTER_WRITE of `size` bytes (R13). -/
def execRegisterWrite (m : Master) (addr : BitVec 28) (size : Fin 9) (v : BitVec 64) (s : State) :
    Host.Outcome State Fault Refusal :=
  .next (inCore (fun s => s.masterWrite m addr.toNat size v.toNat) s)

end Sys2Proof.Machine
end

