-- ==== Sys2Proof/Machine/Dispatch.lean ====
section
/-! DEFINITION. One arm per command: the command's meaning, or its rejection by name. -/
namespace Sys2Proof.Machine

def exec (i : Instr) (s : State) : Host.Outcome State Fault Refusal :=
  match i with
  | .suppliesGood => Sys2Proof.Machine.execSuppliesGood s
  | .supplyOutOfRange rail => Sys2Proof.Machine.execSupplyOutOfRange rail s
  | .resetBall => Sys2Proof.Machine.execResetBall s
  | .sramOverwriteComplete => Sys2Proof.Machine.execSramOverwriteComplete s
  | .blockCopyRead bytes body => Sys2Proof.Machine.execBlockCopyRead bytes body s
  | .dramWipeComplete => Sys2Proof.Machine.execDramWipeComplete s
  | .hello => Sys2Proof.Machine.execHello s
  | .offer src serial len => Sys2Proof.Machine.execOffer src serial len s
  | .data src serial off bytes => Sys2Proof.Machine.execData src serial off bytes s
  | .readRetry chunk => Sys2Proof.Machine.execReadRetry chunk s
  | .serverLost => Sys2Proof.Machine.execServerLost s
  | .verifyComplete => Sys2Proof.Machine.execVerifyComplete s
  | .initComplete => Sys2Proof.Machine.execInitComplete s
  | .wakeEvent => Sys2Proof.Machine.execWakeEvent s
  | .wakeFirmwareReady => Sys2Proof.Machine.execWakeFirmwareReady s
  | .wakeTimeout => Sys2Proof.Machine.execWakeTimeout s
  | .firmwareWatchdog => Sys2Proof.Machine.execFirmwareWatchdog s
  | .internalConsistencyCheck => Sys2Proof.Machine.execInternalConsistencyCheck s
  | .thermalCauseClear => Sys2Proof.Machine.execThermalCauseClear s
  | .nop m tag => Sys2Proof.Machine.execNop m tag s
  | .fwCommit m tag len off => Sys2Proof.Machine.execFwCommit m tag len off s
  | .start m tag => Sys2Proof.Machine.execStart m tag s
  | .stop m tag => Sys2Proof.Machine.execStop m tag s
  | .stable m tag => Sys2Proof.Machine.execStable m tag s
  | .wake m tag => Sys2Proof.Machine.execWake m tag s
  | .hold m tag => Sys2Proof.Machine.execHold m tag s
  | .release m tag => Sys2Proof.Machine.execRelease m tag s
  | .streamOn m tag stream => Sys2Proof.Machine.execStreamOn m tag stream s
  | .streamOff m tag stream => Sys2Proof.Machine.execStreamOff m tag stream s
  | .timeStep m tag ns => Sys2Proof.Machine.execTimeStep m tag ns s
  | .claim m tag res who => Sys2Proof.Machine.execClaim m tag res who s
  | .unclaim m tag res who => Sys2Proof.Machine.execUnclaim m tag res who s
  | .attest m tag nonce => Sys2Proof.Machine.execAttest m tag nonce s
  | .lcChange m tag slot => Sys2Proof.Machine.execLcChange m tag slot s
  | .slotProgram m tag slot => Sys2Proof.Machine.execSlotProgram m tag slot s
  | .slotRevoke m tag slot => Sys2Proof.Machine.execSlotRevoke m tag slot s
  | .genAdvance m tag slot => Sys2Proof.Machine.execGenAdvance m tag slot s
  | .debugOpen m tag slot => Sys2Proof.Machine.execDebugOpen m tag slot s
  | .resetWarm m tag => Sys2Proof.Machine.execResetWarm m tag s
  | .resetCold m tag => Sys2Proof.Machine.execResetCold m tag s
  | .managementFrame port vid etype src payload => Sys2Proof.Machine.execManagementFrame port vid etype src payload s
  | .dcArm slot => Sys2Proof.Machine.execDcArm slot s
  | .nonceExpiry slot => Sys2Proof.Machine.execNonceExpiry slot s
  | .apply m => Sys2Proof.Machine.execApply m s
  | .applyAlignedInstant => Sys2Proof.Machine.execApplyAlignedInstant s
  | .lockDeclared => Sys2Proof.Machine.execLockDeclared s
  | .lossOfLock => Sys2Proof.Machine.execLossOfLock s
  | .lockFail => Sys2Proof.Machine.execLockFail s
  | .shotDraw n => Sys2Proof.Machine.execShotDraw n s
  | .permitSample n => Sys2Proof.Machine.execPermitSample n s
  | .calibrationSlot u n1 n2 => Sys2Proof.Machine.execCalibrationSlot u n1 n2 s
  | .ringTrimStep u => Sys2Proof.Machine.execRingTrimStep u s
  | .adaptWindowEnd ch => Sys2Proof.Machine.execAdaptWindowEnd ch s
  | .fireEdge n => Sys2Proof.Machine.execFireEdge n s
  | .permitWithdrawn => Sys2Proof.Machine.execPermitWithdrawn s
  | .startSenseEdge n t => Sys2Proof.Machine.execStartSenseEdge n t s
  | .senseWindowEnd n => Sys2Proof.Machine.execSenseWindowEnd n s
  | .gateClose ch stuck => Sys2Proof.Machine.execGateClose ch stuck s
  | .hit c edges => Sys2Proof.Machine.execHit c edges s
  | .conversionComplete u k fix fixWord bad badWord => Sys2Proof.Machine.execConversionComplete u k fix fixWord bad badWord s
  | .conversionTimeout u => Sys2Proof.Machine.execConversionTimeout u s
  | .refFault c => Sys2Proof.Machine.execRefFault c s
  | .trimDecision ch high n0 n1 => Sys2Proof.Machine.execTrimDecision ch high n0 n1 s
  | .starved ch => Sys2Proof.Machine.execStarved ch s
  | .internalBoundary counts => Sys2Proof.Machine.execInternalBoundary counts s
  | .bowTableBuild u => Sys2Proof.Machine.execBowTableBuild u s
  | .utilityGateEnd n edges first last pairs ovr => Sys2Proof.Machine.execUtilityGateEnd n edges first last pairs ovr s
  | .walkCommit m t => Sys2Proof.Machine.execWalkCommit m t s
  | .histogramBoundary c => Sys2Proof.Machine.execHistogramBoundary c s
  | .histogramSilence c => Sys2Proof.Machine.execHistogramSilence c s
  | .channelExtracted tile => Sys2Proof.Machine.execChannelExtracted tile s
  | .snapshotArm m t pos => Sys2Proof.Machine.execSnapshotArm m t pos s
  | .frameStart => Sys2Proof.Machine.execFrameStart s
  | .announcementSend => Sys2Proof.Machine.execAnnouncementSend s
  | .announcement src payload => Sys2Proof.Machine.execAnnouncement src payload s
  | .slipNotice src payload => Sys2Proof.Machine.execSlipNotice src payload s
  | .shotNotice src payload => Sys2Proof.Machine.execShotNotice src payload s
  | .sourceExpired n => Sys2Proof.Machine.execSourceExpired n s
  | .bistaticShot n => Sys2Proof.Machine.execBistaticShot n s
  | .loopSlot n => Sys2Proof.Machine.execLoopSlot n s
  | .encoderEdge port a b => Sys2Proof.Machine.execEncoderEdge port a b s
  | .encoderIndex port => Sys2Proof.Machine.execEncoderIndex port s
  | .hallChange port h => Sys2Proof.Machine.execHallChange port h s
  | .notchCommit m n v => Sys2Proof.Machine.execNotchCommit m n v s
  | .loopScheduleWrite m n sched v => Sys2Proof.Machine.execLoopScheduleWrite m n sched v s
  | .odometryCount n a b => Sys2Proof.Machine.execOdometryCount n a b s
  | .slipCheck => Sys2Proof.Machine.execSlipCheck s
  | .standstill => Sys2Proof.Machine.execStandstill s
  | .lineTrigger => Sys2Proof.Machine.execLineTrigger s
  | .triggerRelease => Sys2Proof.Machine.execTriggerRelease s
  | .startPulse seg cur => Sys2Proof.Machine.execStartPulse seg cur s
  | .readoutComplete seg r g b bad hist => Sys2Proof.Machine.execReadoutComplete seg r g b bad hist s
  | .stitchedLine lag bad => Sys2Proof.Machine.execStitchedLine lag bad s
  | .capture m bank v => Sys2Proof.Machine.execCapture m bank v s
  | .captureLine bank => Sys2Proof.Machine.execCaptureLine bank s
  | .shadeWrite m seg word v => Sys2Proof.Machine.execShadeWrite m seg word v s
  | .shadeCommit m => Sys2Proof.Machine.execShadeCommit m s
  | .warmupInterval bank => Sys2Proof.Machine.execWarmupInterval bank s
  | .monitorLine bank => Sys2Proof.Machine.execMonitorLine bank s
  | .acqRdWrite m n v => Sys2Proof.Machine.execAcqRdWrite m n v s
  | .measurementTimer n => Sys2Proof.Machine.execMeasurementTimer n s
  | .stateRefresh n => Sys2Proof.Machine.execStateRefresh n s
  | .doorbell m chain v => Sys2Proof.Machine.execDoorbell m chain v s
  | .chainEnWrite m chain v => Sys2Proof.Machine.execChainEnWrite m chain v s
  | .headWrite m chain lo hi => Sys2Proof.Machine.execHeadWrite m chain lo hi s
  | .descriptorFetched chain host err => Sys2Proof.Machine.execDescriptorFetched chain host err s
  | .segmentReadDone chain off host err => Sys2Proof.Machine.execSegmentReadDone chain off host err s
  | .segmentWriteAccepted chain off err => Sys2Proof.Machine.execSegmentWriteAccepted chain off err s
  | .controlReread chain host err => Sys2Proof.Machine.execControlReread chain host err s
  | .cqRdWrite m queue v => Sys2Proof.Machine.execCqRdWrite m queue v s
  | .cqEnWrite m queue v => Sys2Proof.Machine.execCqEnWrite m queue v s
  | .coalescingTimeout queue => Sys2Proof.Machine.execCoalescingTimeout queue s
  | .quotaWrite m n v => Sys2Proof.Machine.execQuotaWrite m n v s
  | .scrub region unit word pos found passed => Sys2Proof.Machine.execScrub region unit word pos found passed s
  | .dramRead burst found mirror => Sys2Proof.Machine.execDramRead burst found mirror s
  | .patrol ch burst found => Sys2Proof.Machine.execPatrol ch burst found s
  | .dramTracking ch margin => Sys2Proof.Machine.execDramTracking ch margin s
  | .refreshDerate ch mr4 => Sys2Proof.Machine.execRefreshDerate ch mr4 s
  | .imbalanceWindow r0 r1 r2 r3 => Sys2Proof.Machine.execImbalanceWindow r0 r1 r2 r3 s
  | .migrate m ch => Sys2Proof.Machine.execMigrate m ch s
  | .grainCopied ch bad => Sys2Proof.Machine.execGrainCopied ch bad s
  | .channelLost ch => Sys2Proof.Machine.execChannelLost ch s
  | .dramNoResponse ch => Sys2Proof.Machine.execDramNoResponse ch s
  | .linkCdrLock link lock inv => Sys2Proof.Machine.execLinkCdrLock link lock inv s
  | .linkTrained link => Sys2Proof.Machine.execLinkTrained link s
  | .trainFail link => Sys2Proof.Machine.execTrainFail link s
  | .recoverTimeout link => Sys2Proof.Machine.execRecoverTimeout link s
  | .deskewMarker link good spare => Sys2Proof.Machine.execDeskewMarker link good spare s
  | .deskewMarkerSend link => Sys2Proof.Machine.execDeskewMarkerSend link s
  | .retrain m link v => Sys2Proof.Machine.execRetrain m link v s
  | .test m link v errs => Sys2Proof.Machine.execTest m link v errs s
  | .linkFrame link bytes host err => Sys2Proof.Machine.execLinkFrame link bytes host err s
  | .ack link lseq => Sys2Proof.Machine.execAck link lseq s
  | .nak link lseq => Sys2Proof.Machine.execNak link lseq s
  | .spare link lane => Sys2Proof.Machine.execSpare link lane s
  | .replayTimeout link => Sys2Proof.Machine.execReplayTimeout link s
  | .laneFailed link lane errs => Sys2Proof.Machine.execLaneFailed link lane errs s
  | .ringSingleTimeout src rseq => Sys2Proof.Machine.execRingSingleTimeout src rseq s
  | .memWr link addr bytes => Sys2Proof.Machine.execMemWr link addr bytes s
  | .memRd link addr len rtag host err => Sys2Proof.Machine.execMemRd link addr len rtag host err s
  | .memCpl link rtag sts off bytes => Sys2Proof.Machine.execMemCpl link rtag sts off bytes s
  | .regWr link addr value => Sys2Proof.Machine.execRegWr link addr value s
  | .regRd link addr rtag => Sys2Proof.Machine.execRegRd link addr rtag s
  | .regCpl link rtag sts value => Sys2Proof.Machine.execRegCpl link rtag sts value s
  | .int link vector => Sys2Proof.Machine.execInt link vector s
  | .eyeScanStart m lane v => Sys2Proof.Machine.execEyeScanStart m lane v s
  | .eyeScanDone lane count => Sys2Proof.Machine.execEyeScanDone lane count s
  | .timeMarker link count departure => Sys2Proof.Machine.execTimeMarker link count departure s
  | .timeMarkerSend link => Sys2Proof.Machine.execTimeMarkerSend link s
  | .chainUpdate => Sys2Proof.Machine.execChainUpdate s
  | .timeStatus link payload => Sys2Proof.Machine.execTimeStatus link payload s
  | .timeStatusSend link => Sys2Proof.Machine.execTimeStatusSend link s
  | .timMeasWrite m lo hi => Sys2Proof.Machine.execTimMeasWrite m lo hi s
  | .holdover => Sys2Proof.Machine.execHoldover s
  | .referenceLost b => Sys2Proof.Machine.execReferenceLost b s
  | .referencePresent b => Sys2Proof.Machine.execReferencePresent b s
  | .returnToA => Sys2Proof.Machine.execReturnToA s
  | .localOscillatorFailed => Sys2Proof.Machine.execLocalOscillatorFailed s
  | .configRequest write off value => Sys2Proof.Machine.execConfigRequest write off value s
  | .bar2Write off bytes => Sys2Proof.Machine.execBar2Write off bytes s
  | .bar2Read off len => Sys2Proof.Machine.execBar2Read off len s
  | .bar2MapWrite m lo hi => Sys2Proof.Machine.execBar2MapWrite m lo hi s
  | .pcieReset kind => Sys2Proof.Machine.execPcieReset kind s
  | .pcieLinkDown => Sys2Proof.Machine.execPcieLinkDown s
  | .completionTimeout chain off => Sys2Proof.Machine.execCompletionTimeout chain off s
  | .ethFrameReceived port age fcsOk frame => Sys2Proof.Machine.execEthFrameReceived port age fcsOk frame s
  | .ethLinkChange port up speed => Sys2Proof.Machine.execEthLinkChange port up speed s
  | .supervisionFrame pair => Sys2Proof.Machine.execSupervisionFrame pair s
  | .redSingleTimeout pair src seq => Sys2Proof.Machine.execRedSingleTimeout pair src seq s
  | .tsHeadRead m port => Sys2Proof.Machine.execTsHeadRead m port s
  | .safetyPowerGood swA swB => Sys2Proof.Machine.execSafetyPowerGood swA swB s
  | .tapWord ch code dropped parityOk second overflow => Sys2Proof.Machine.execTapWord ch code dropped parityOk second overflow s
  | .safetyCycleEnd b sw => Sys2Proof.Machine.execSafetyCycleEnd b sw s
  | .selfTest b pass => Sys2Proof.Machine.execSelfTest b pass s
  | .setCrcCheck b good => Sys2Proof.Machine.execSetCrcCheck b good s
  | .stoPulseTest b => Sys2Proof.Machine.execStoPulseTest b s
  | .readbackMismatch b => Sys2Proof.Machine.execReadbackMismatch b s
  | .guardSwitchInput b drive closed locked => Sys2Proof.Machine.execGuardSwitchInput b drive closed locked s
  | .switchDisagree drive => Sys2Proof.Machine.execSwitchDisagree drive s
  | .discreteInput b pair level => Sys2Proof.Machine.execDiscreteInput b pair level s
  | .discErr pair => Sys2Proof.Machine.execDiscErr pair s
  | .coverInput b level => Sys2Proof.Machine.execCoverInput b level s
  | .scanSenseTimeout b => Sys2Proof.Machine.execScanSenseTimeout b s
  | .bandMessage bytes => Sys2Proof.Machine.execBandMessage bytes s
  | .bandTimeout b conn => Sys2Proof.Machine.execBandTimeout b conn s
  | .bandTransmit conn => Sys2Proof.Machine.execBandTransmit conn s
  | .lockstepMismatch pair => Sys2Proof.Machine.execLockstepMismatch pair s
  | .lockstepResume pair => Sys2Proof.Machine.execLockstepResume pair s
  | .checkpointCommit pair => Sys2Proof.Machine.execCheckpointCommit pair s
  | .logTailWrite m v => Sys2Proof.Machine.execLogTailWrite m v s
  | .meaConversion k code lead outs => Sys2Proof.Machine.execMeaConversion k code lead outs s
  | .sequencePeriod k => Sys2Proof.Machine.execSequencePeriod k s
  | .urg m v => Sys2Proof.Machine.execUrg m v s
  | .temperatureSample raws => Sys2Proof.Machine.execTemperatureSample raws s
  | .domainSwitch m n v => Sys2Proof.Machine.execDomainSwitch m n v s
  | .pgood d => Sys2Proof.Machine.execPgood d s
  | .eventRouteWrite m e v => Sys2Proof.Machine.execEventRouteWrite m e v s
  | .splitLoRead m addr => Sys2Proof.Machine.execSplitLoRead m addr s
  | .splitHiWrite m addr v => Sys2Proof.Machine.execSplitHiWrite m addr v s
  | .registerWrite m addr size v => Sys2Proof.Machine.execRegisterWrite m addr size v s
  | .scanSensePulse b => Sys2Proof.Machine.execScanSensePulse b s
  | .driveEncoderEdge b drive back => Sys2Proof.Machine.execDriveEncoderEdge b drive back s
  | .pcieLinkUp speed width => Sys2Proof.Machine.execPcieLinkUp speed width s
  | .ethFrameSent port age => Sys2Proof.Machine.execEthFrameSent port age s
  | .supplySlotSilent rail => Sys2Proof.Machine.execSupplySlotSilent rail s
  | .dcSat servo => Sys2Proof.Machine.execDcSat servo s
  | .unassignedOpcode m tag opcode => Sys2Proof.Machine.execUnassignedOpcode m tag opcode s
  | .shotBatchSend => Sys2Proof.Machine.execShotBatchSend s

end Sys2Proof.Machine
end

