-- ==== Sys2Proof/WellFormed.lean ====
section
/-! DEFINITION. When the operands of a command are such as its condition can give: units that exist, lists of the right
length, byte strings that a frame or a buffer can hold. The ranges that the operand types already give are not repeated. -/
namespace Sys2Proof

/-- Does an engine of this number exist: channel engine, start-sense engine or spare, utility engine (R5, R81, R118)? -/
def unitExists (u : Nat) : Bool := decide (u < 1632) || decide (2000 ≤ u ∧ u < 2036) || decide (2100 ≤ u ∧ u < 2112)

/-- Are the keys of a list all different? -/
def distinct (l : List Nat) : Bool := decide l.Nodup

/-- Is a byte string one a Krevan payload can hold: 512 bytes at most (R290)? -/
def fitsPayload (l : List Byte) : Bool := decide (l.length ≤ 512)

/-- Is a byte string one a ring frame can hold: 256 bytes at most (R299)? -/
def fitsRing (l : List Byte) : Bool := decide (l.length ≤ 256)

/-- The sizes of a register access (R13). -/
def accessSize (n : Nat) : Bool := [1, 2, 4, 8].contains n

/-- A command's operands are such as can occur. -/
def Instr.wf : Instr → Bool
  | .calibrationSlot u _ _ | .ringTrimStep u | .conversionComplete u _ _ _ _ _ | .conversionTimeout u
  | .bowTableBuild u => unitExists u
  | .internalBoundary l => (l.all fun p => unitExists p.1) && distinct (l.map (·.1.val))
  | .hit _ l => distinct (l.map (·.1.val)) && l.all fun e => decide (e.2.1.toNat ≤ e.2.2.2.1.toNat)
      && match e.2.2.1 with
        | some h => decide (e.2.1.toNat ≤ h.toNat ∧ h.toNat ≤ e.2.2.2.1.toNat)
        | none => true
  | .trimDecision _ _ a b => decide (a.toNat ≤ 2 ^ 20) && decide (b.toNat ≤ 2 ^ 20)
  | .data _ _ off l => decide (off.toNat % 1024 = 0) && decide (1 ≤ l.length) && decide (l.length ≤ 1024)
  | .announcement _ l | .slipNotice _ l | .shotNotice _ l | .timeStatus _ l => fitsRing l
  | .memWr _ _ l | .memCpl _ _ _ _ l => fitsPayload l
  | .startPulse _ l => distinct (l.map (·.1.val))
  | .readoutComplete _ r g b bad _ =>
    decide (r.length ≤ 6144) && decide (g.length ≤ 6144) && decide (b.length ≤ 6144) && distinct (bad.map (·.val))
  | .grainCopied _ l => distinct (l.map (·.val))
  | .test _ _ _ l => decide (l.length = 4)
  | .temperatureSample l => decide (l.length = 64)
  | .bar2Write _ l => decide (1 ≤ l.length) && decide (l.length ≤ 4096)
  | .bar2Read _ n => decide (1 ≤ n.toNat) && decide (n.toNat ≤ 4096)
  | .ethFrameReceived _ _ _ l => decide (14 ≤ l.length)
  | .eyeScanDone _ n => decide (n.toNat ≤ 2 ^ 40)
  | .registerWrite _ _ n _ => accessSize n
  | .splitLoRead _ a | .splitHiWrite _ a _ => decide (a.toNat % 4 = 0)
  | .suppliesGood | .supplyOutOfRange _ | .resetBall | .sramOverwriteComplete | .blockCopyRead _ _ | .dramWipeComplete
  | .hello | .offer _ _ _ | .readRetry _ | .serverLost | .verifyComplete | .initComplete | .wakeEvent
  | .wakeFirmwareReady | .wakeTimeout | .firmwareWatchdog | .internalConsistencyCheck | .thermalCauseClear | .nop _ _
  | .fwCommit _ _ _ _ | .start _ _ | .stop _ _ | .stable _ _ | .wake _ _ | .hold _ _ | .release _ _ | .streamOn _ _ _
  | .streamOff _ _ _ | .timeStep _ _ _ | .claim _ _ _ _ | .unclaim _ _ _ _ | .attest _ _ _ | .lcChange _ _ _
  | .slotProgram _ _ _ | .slotRevoke _ _ _ | .genAdvance _ _ _ | .debugOpen _ _ _ | .resetWarm _ _ | .resetCold _ _
  | .managementFrame _ _ _ _ _ | .dcArm _ | .nonceExpiry _ | .apply _ | .applyAlignedInstant | .lockDeclared
  | .lossOfLock | .lockFail | .shotDraw _ | .permitSample _ | .adaptWindowEnd _ | .fireEdge _ | .permitWithdrawn
  | .startSenseEdge _ _ | .senseWindowEnd _ | .gateClose _ _ | .refFault _ | .starved _ | .utilityGateEnd _ _ _ _ _ _
  | .walkCommit _ _ | .histogramBoundary _ | .histogramSilence _ | .channelExtracted _ | .snapshotArm _ _ _
  | .frameStart | .announcementSend | .sourceExpired _ | .bistaticShot _ | .loopSlot _ | .encoderEdge _ _ _
  | .encoderIndex _ | .hallChange _ _ | .notchCommit _ _ _ | .loopScheduleWrite _ _ _ _ | .odometryCount _ _ _
  | .slipCheck | .standstill | .lineTrigger | .triggerRelease | .stitchedLine _ _ | .capture _ _ _ | .captureLine _
  | .shadeWrite _ _ _ _ | .shadeCommit _ | .warmupInterval _ | .monitorLine _ | .acqRdWrite _ _ _ | .measurementTimer _
  | .stateRefresh _ | .doorbell _ _ _ | .chainEnWrite _ _ _ | .headWrite _ _ _ _ | .descriptorFetched _ _ _
  | .segmentReadDone _ _ _ _ | .segmentWriteAccepted _ _ _ | .controlReread _ _ _ | .cqRdWrite _ _ _ | .cqEnWrite _ _ _
  | .coalescingTimeout _ | .quotaWrite _ _ _ | .scrub _ _ _ _ _ _ | .dramRead _ _ _ | .patrol _ _ _ | .dramTracking _ _
  | .refreshDerate _ _ | .imbalanceWindow _ _ _ _ | .migrate _ _ | .channelLost _ | .dramNoResponse _
  | .linkCdrLock _ _ _ | .linkTrained _ | .trainFail _ | .recoverTimeout _ | .deskewMarker _ _ _ | .deskewMarkerSend _
  | .retrain _ _ _ | .linkFrame _ _ _ _ | .ack _ _ | .nak _ _ | .spare _ _ | .replayTimeout _ | .laneFailed _ _ _
  | .ringSingleTimeout _ _ | .memRd _ _ _ _ _ _ | .regWr _ _ _ | .regRd _ _ _ | .regCpl _ _ _ _ | .int _ _
  | .eyeScanStart _ _ _ | .timeMarker _ _ _ | .timeMarkerSend _ | .chainUpdate | .timeStatusSend _
  | .timMeasWrite _ _ _ | .holdover | .referenceLost _ | .referencePresent _ | .returnToA | .localOscillatorFailed
  | .configRequest _ _ _ | .bar2MapWrite _ _ _ | .pcieReset _ | .pcieLinkDown | .completionTimeout _ _
  | .ethLinkChange _ _ _ | .supervisionFrame _ | .redSingleTimeout _ _ _ | .tsHeadRead _ _ | .safetyPowerGood _ _
  | .tapWord _ _ _ _ _ _ | .safetyCycleEnd _ _ | .selfTest _ _ | .setCrcCheck _ _ | .stoPulseTest _
  | .readbackMismatch _ | .guardSwitchInput _ _ _ _ | .switchDisagree _ | .discreteInput _ _ _ | .discErr _
  | .coverInput _ _ | .scanSenseTimeout _ | .bandMessage _ | .bandTimeout _ _ | .bandTransmit _ | .lockstepMismatch _
  | .lockstepResume _ | .checkpointCommit _ | .logTailWrite _ _ | .meaConversion _ _ _ _ | .sequencePeriod _ | .urg _ _
  | .domainSwitch _ _ _ | .pgood _ | .eventRouteWrite _ _ _ | .scanSensePulse _ | .driveEncoderEdge _ _ _
  | .pcieLinkUp _ _ | .ethFrameSent _ _ | .supplySlotSilent _ | .dcSat _ | .unassignedOpcode _ _ _ | .shotBatchSend =>
    true

end Sys2Proof
end

