-- ==== Sys2Proof/Safety.lean ====
section
/-! DEFINITION. What the statements speak of: the canonical form of memory, the order of the life-cycle fuses, the transitions
of the operating state, a mailbox whose command has ended, and what it means that a part of the state is kept. -/
namespace Sys2Proof.Machine

/-- The canonical form of memory: addresses strictly rising, and no entry equal to what an unlisted address reads as
(log entry 5). -/
def Memory.wf (m : List Host.Cell) : Bool := smWf (0 : Byte) m

/-- The canonical form of the registers: every word listed once, in rising order of its key. -/
def risingKeys {α : Type} (m : List (Nat × α)) : Bool := decide ((m.map (·.1)).Pairwise (· < ·))

/-- One fuse image can come of another: fuses are only ever burned, and the generation only rises (R376, R387, R391). -/
def Fuse.burnedFrom (a b : Fuse) : Prop :=
  a.lc ≤ b.lc ∧ (a.ended = true → b.ended = true) ∧ a.programmed ||| b.programmed = b.programmed
    ∧ a.revoked ||| b.revoked = b.revoked ∧ a.spoiled ||| b.spoiled = b.spoiled ∧ a.genMin ≤ b.genMin
    ∧ ∀ k, bitOf a.programmed k = true → b.slotHash k = a.slotHash k

/-- The parts beside the device are kept: operating state, safety channels, fuses and queue. -/
def keepsCore (s t : State) : Prop := t.sys = s.sys ∧ t.saf = s.saf ∧ t.fuse = s.fuse ∧ t.pending = s.pending

/-- Every register but those named reads as before, in every instance. -/
def keepsRegs (R : List Reg) (s t : State) : Prop := ∀ r i, r ∉ R → t.reg r i = s.reg r i

/-- Every instance of a register but one reads as before. -/
def keepsOthers (r : Reg) (i : Nat) (s t : State) : Prop := ∀ j, j ≠ i → t.reg r j = s.reg r j

/-- Every byte of memory reads as before. -/
def keepsBytes (s t : State) : Prop := ∀ a, t.byte a = s.byte a

/-- The transitions of R41, with every state but OFF before RESET. -/
def OpState.follows : OpState → OpState → Bool
  | p, .reset => decide (p ≠ .off)
  | .reset, .blockLoad | .blockLoad, .wipe | .wipe, .awaitFw | .awaitFw, .verify | .verify, .init | .verify, .awaitFw
  | .init, .ready | .ready, .run | .run, .ready | .ready, .stabled | .stabled, .ready | .ready, .safeHold
  | .run, .safeHold | .safeHold, .ready => true
  | p, .fault => [OpState.reset, .blockLoad, .wipe, .awaitFw, .verify, .init, .ready, .run, .stabled, .safeHold].contains p
  | _, _ => false

/-- PREV and STATE name a transition that R41 lists. -/
def Sys.legal (y : Sys) : Prop := y.prev.follows y.op = true

/-- No HOLD bit stands outside SAFE_HOLD and FAULT (R42). -/
def Sys.holdsInHold (y : Sys) : Prop :=
  y.op ≠ .safeHold → y.op ≠ .fault → y.holdCmd = false ∧ y.holdThermal = false ∧ y.holdDram = false

/-- A drive of a channel has torque only while the channel is in NORMAL and the drive in CREEP, FULL or STOPPING, and only a
channel with a set in force is in NORMAL (R336, R346, R347, R348). -/
def SafChan.torqueOk (x : SafChan) : Prop :=
  (x.state = 1 → x.set.isSome = true)
    ∧ ∀ p ∈ x.drives, p.2.torque = true → x.state = 1 ∧ (p.2.state = 2 ∨ p.2.state = 3 ∨ p.2.state = 4)

/-- The same of both channels. -/
def Saf.torqueOk (f : Saf) : Prop := f.a.torqueOk ∧ f.b.torqueOk

/-- The executor is free, and the mailbox takes a GO (R45, R46). -/
def State.mailboxFree (s : State) (m : Nat) : Prop :=
  s.dev.cmd.queue = [] ∧ s.dev.cmd.running = none ∧ s.flag F.sysMbxStsBusy m = false

/-- A mailbox shows a command ended, with its tag, the state it was taken up in and its result (R45, R48, R49). -/
def State.shows (t : State) (m tag st result : Nat) : Prop :=
  t.fld F.sysMbxStsDone m = 1 ∧ t.fld F.sysMbxStsBusy m = 0 ∧ t.fld F.sysMbxStsTag m = tag
    ∧ t.fld F.sysMbxStsStateAtExec m = st ∧ t.fld F.sysMbxStsResult m = result

/-- No event is routed to a vector, a queue or a core: one that is posted sets its status bit and does nothing else (R437). -/
def State.unrouted (s : State) : Prop :=
  ∀ e, s.flag F.sysEvtRouteIrqEn e = false ∧ s.flag F.sysEvtRouteEqEn e = false ∧ s.flag F.sysEvtRouteCoreEn e = false

/-- No event is routed anywhere and no stream is on, so that nothing is written beside what a command itself does. -/
def State.quiet (s : State) : Prop := s.unrouted ∧ ∀ n, s.flag F.acqStrCtlOn n = false

/-- A register write or read by this master acts at once: it is no lockstep pair, whose writes wait for a commit (R364), it may
make the access (R389, R430), and the register's domain is on (R33). -/
def State.reaches (s : State) (m : Master) (r : Reg) (i : Nat) : Prop :=
  m ≠ .pair0 ∧ m ≠ .pair1 ∧ m ≠ .debug ∧ s.powered r i = true

/-- From `s` to `t` one entry has entered the fault log, with the time tag of `s`: code, flags, class, logical and physical
instance (R370). -/
def State.logs (s t : State) (code flags cls logical phys : Nat) : Prop :=
  t.fld F.fmkLogHeadHead 0 = (s.fld F.fmkLogHeadHead 0 + 1) % 512
    ∧ ∀ k, k < 4 → t.reg .fmkLog (4 * (s.fld F.fmkLogHeadHead 0 % 256) + k) = (logWords s.tag code flags cls logical phys).getD k 0

/-- The registers that an entry of the fault log moves. -/
def logRegisters : List Reg := [.fmkLog, .fmkLogHead, .fmkLogTail, .fmkLogOvfCnt, .sysEvtSts]

/-- From `s` to `t` this device has handed one frame to its ring links: RSEQ advances, each ring link in service holds the frame
after all it held, sent or waiting, and the other links are as before (R290, R292, R298). -/
def State.handsRing (s t : State) (type : Nat) (payload : List Byte) : Prop :=
  t.dev.ring.rseq = (s.dev.ring.rseq + 1) % 65536
    ∧ (∀ n, n < 2 → (s.fld F.lnkCtlRole n = n + 1 ∧ (s.fld F.lnkStsState n = 4 ∨ s.fld F.lnkStsState n = 5) →
        ((t.link n).replay ++ (t.link n).waiting).map (fun f => (f.type, f.payload))
          = ((s.link n).replay ++ (s.link n).waiting).map (fun f => (f.type, f.payload)) ++ [(type, payload)]))
    ∧ ∀ n, ¬(n < 2 ∧ s.fld F.lnkCtlRole n = n + 1 ∧ (s.fld F.lnkStsState n = 4 ∨ s.fld F.lnkStsState n = 5)) → t.link n = s.link n

/-- A write of `v` to a register instance, that has reached it, is taken: no parameter set locks it (R69), every field holds a
value of its range (R9), no other owner stops it (R170, R446), and no rule of another chapter refuses it (R431). -/
def State.takes (s : State) (r : Reg) (i v : Nat) : Prop :=
  s.setLocked r i = false ∧ inRanges r v = true ∧ (s.merged r i v none).valueOk r i = true
    ∧ s.ownerStops (s.merged r i v none) r i = none ∧ refusedBy s (s.merged r i v none) r i v = none

/-- The word a register instance holds after a write of `v` that is taken, as far as its fields say (R14). -/
def State.wordAfter (s : State) (r : Reg) (i v : Nat) : Nat := mergeWord r i (s.reg r i) v % 2 ^ 32

/-- From `s` to `t` one access error has been counted (R432). -/
def State.countsError (s t : State) : Prop :=
  t.fld F.sysAccErrCntCount 0 = min (s.fld F.sysAccErrCntCount 0 + 1) 0xFFFFFFFF

end Sys2Proof.Machine
end

