-- ==== Sys2Proof/Certificates/Slice0/Obligations.lean ====
section
/-! DEFINITION. The statements for the provers. Each names the rules of the spec it rests on; where a clause rests on a choice
of the model's, it names the log entry. -/

open Sys2Proof Sys2Proof.Machine

/-! The machine as a whole. -/

/-- A step runs the command at the front of the queue on the state whose queue is the rest.
With an empty queue one period of the clock of C passes: C advances by it, O by it times r + s outside STABLED (R317,
R318), and nothing else changes (that time passes only then is the model's choice, log entry 2). -/
def Obligations.Steps : Prop :=
  (∀ (c : Instr) (l : List Instr) (s : State), s.pending = c :: l → step s = exec c (s.withQueue l)) ∧
  (∀ s : State, s.pending = [] → ∃ t, step s = .next t ∧ t.dev.time.c = s.dev.time.c + s.tickNs
     ∧ t.dev.time.o = (if s.sys.op = .stabled then s.dev.time.o else s.dev.time.o + s.tickNs * (s.rate + s.slew))
     ∧ keepsCore s t ∧ keepsRegs [] s t ∧ keepsBytes s t)

/-- Every command answers a next state, and leaves the queue as it is. -/
def Obligations.EveryCommandAnswers : Prop :=
  ∀ (c : Instr) (s : State), ∃ t, exec c s = .next t ∧ t.pending = s.pending

/-- After reset the device is in RESET, every register reads its Reset value in every instance, every byte reads 0 (DRAM:
log entry 5), the counter C and the offset O stand at 0, and no command waits.
Reset meets every invariant stated below. -/
def Obligations.ResetState : Prop :=
  (State.reset.sys.op = .reset ∧ (∀ r i, State.reset.reg r i = (r.resetWord i).toNat) ∧ (∀ a, State.reset.byte a = 0)
     ∧ State.reset.dev.time.c = 0 ∧ State.reset.dev.time.o = 0 ∧ State.reset.pending = []) ∧
  (State.reset.sys.legal ∧ State.reset.sys.holdsInHold ∧ Memory.wf State.reset.dev.mem = true
     ∧ risingKeys State.reset.dev.regs = true ∧ State.reset.saf.torqueOk)

/-- PREV and STATE always name a transition of R41, whatever the step.
No step leaves a HOLD bit standing outside SAFE_HOLD and FAULT (R42).
FAULT is left only through RESET (R42): a step from it stays in FAULT or has entered RESET. -/
def Obligations.OperatingStateInvariants : Prop :=
  (∀ s t : State, s.sys.legal → step s = .next t → t.sys.legal) ∧
  (∀ s t : State, s.sys.holdsInHold → step s = .next t → t.sys.holdsInHold) ∧
  (∀ s t : State, s.sys.op = .fault → step s = .next t → t.sys.op = .fault ∨ t.sys.op = .reset)

/-- Fuses are only ever burned, by any step: none is taken back, the generation never falls, and the hash of a programmed slot
stays (R376, R387, R391, R392). -/
def Obligations.FusesOnlyBurn : Prop :=
  ∀ s t : State, step s = .next t → s.fuse.burnedFrom t.fuse

/-- The bytes of memory and the register words stay in canonical form, whatever the step, so that equal memories are equal data
(the form is the model's, log entry 5). -/
def Obligations.CanonicalFormKept : Prop :=
  ∀ s t : State, Memory.wf s.dev.mem = true → risingKeys s.dev.regs = true → step s = .next t →
    Memory.wf t.dev.mem = true ∧ risingKeys t.dev.regs = true

/-! Mailbox commands (R45 to R51). The hypotheses say that the executor is free and the mailbox not BUSY. -/

/-- NOP ends with OK wherever it is legal, an unassigned opcode with BAD_OPCODE wherever a GO is not held (R49, R50); neither
touches anything but its mailbox.
A management request that the block allows rings mailbox 1: here one for NOP, with the executor free where a GO is not held,
which ends with OK under the request's tag. One from an address, VID or EtherType that the block does not name, or of another
version, only counts; one that finds mailbox 1 BUSY is discarded and counted there (R313). -/
def Obligations.NopUnknownAndManagement : Prop :=
  (∀ (m : Fin 2) (tag op : BitVec 8) (s : State), s.mailboxFree m → s.sys.op.held = false →
     (∃ t, exec (.nop m tag) s = .next t ∧ t.shows m tag.toNat s.sys.op.code 0
       ∧ keepsCore s t ∧ keepsRegs [.sysMbxCmd, .sysMbxSts] s t ∧ keepsBytes s t)
     ∧ (0x10 < op.toNat → ∃ t, exec (.unassignedOpcode m tag op) s = .next t ∧ t.shows m tag.toNat s.sys.op.code 2
       ∧ keepsCore s t ∧ keepsRegs [.sysMbxCmd, .sysMbxSts] s t ∧ keepsBytes s t)) ∧
  (∀ (port : Fin 4) (vid : BitVec 12) (etype : BitVec 16) (src : BitVec 48) (l : List Byte) (s : State),
     let known := decide (vid.toNat = s.fld F.ethMgmtCfgVid 0 ∧ etype.toNat = s.fld F.ethMgmtCfgEtype 0 ∧ leAt l 0 1 = 1)
       && s.mayManage src.toNat
     (known = true → s.mailboxFree 1 → s.sys.op.held = false → leAt l 1 1 = 0 →
       ∃ t, exec (.managementFrame port vid etype src l) s = .next t ∧ t.shows 1 (leAt l 2 1) s.sys.op.code 0
         ∧ (∀ k, k < 16 → t.reg .sysMbxArg (16 + k) = leAt l (4 + 4 * k) 4) ∧ keepsCore s t ∧ keepsBytes s t
         ∧ keepsRegs [.sysMbxArg, .sysMbxCmd, .sysMbxSts, .ethTxDropCnt] s t)
     ∧ (known = true → s.flag F.sysMbxStsBusy 1 = true → ∃ t, exec (.managementFrame port vid etype src l) s = .next t
       ∧ t.fld F.sysCmdCntBusyDiscards 0 = min (s.fld F.sysCmdCntBusyDiscards 0 + 1) 0xFFFF
       ∧ keepsCore s t ∧ keepsRegs [.sysCmdCnt] s t ∧ keepsBytes s t)
     ∧ (known = false → ∃ t, exec (.managementFrame port vid etype src l) s = .next t
       ∧ t.fld F.ethMgmtCntCount 0 = min (s.fld F.ethMgmtCntCount 0 + 1) 0xFFFFFFFF
       ∧ keepsCore s t ∧ keepsRegs [.ethMgmtCnt] s t ∧ keepsBytes s t))

/-- A command that is not legal in the state it is taken up in ends with STATE_REFUSED: DONE sets, RESULT and STATE_AT_EXEC are
written and STATE_REFUSED_CNT counts, to 0xFFFF; no result word, other register, byte, stream, resource or state changes, and the
arguments its issuer wrote stand for the next GO (R48). PROT_CHANGE has a row for each operation its request can name. -/
def Obligations.StateRefused : Prop :=
  ∀ (m : Fin 2) (tag : BitVec 8) (x y : BitVec 32) (ns : BitVec 64) (nonce : BitVec 256) (c : Instr) (op : Nat) (args : List Nat)
      (s : State), s.mailboxFree m → s.sys.op.held = false → legalIn op s.sys.op = false →
    let change := fun k => op = 0x0E ∧ args = [x.toNat] ∧ (4 ≤ x.toNat ∨ (s.protReq x.toNat).op = k)
    (c = .nop m tag ∧ op = 0 ∧ args = [] ∨ c = .fwCommit m tag x y ∧ op = 1 ∧ args = [x.toNat, y.toNat]
      ∨ c = .start m tag ∧ op = 2 ∧ args = [] ∨ c = .stop m tag ∧ op = 3 ∧ args = [] ∨ c = .stable m tag ∧ op = 4 ∧ args = []
      ∨ c = .wake m tag ∧ op = 5 ∧ args = [] ∨ c = .hold m tag ∧ op = 6 ∧ args = [] ∨ c = .release m tag ∧ op = 7 ∧ args = []
      ∨ c = .streamOn m tag x ∧ op = 8 ∧ args = [x.toNat] ∨ c = .streamOff m tag x ∧ op = 9 ∧ args = [x.toNat]
      ∨ c = .timeStep m tag ns ∧ op = 0x0A ∧ args = [ns.toNat % 2 ^ 32, ns.toNat / 2 ^ 32]
      ∨ c = .claim m tag x y ∧ op = 0x0B ∧ args = [x.toNat, y.toNat] ∨ c = .unclaim m tag x y ∧ op = 0x0C ∧ args = [x.toNat, y.toNat]
      ∨ c = .attest m tag nonce ∧ op = 0x0D ∧ args = (List.range 8).map (fun k => nonce.toNat / 2 ^ (32 * k) % 2 ^ 32)
      ∨ c = .lcChange m tag x ∧ change 1 ∨ c = .slotProgram m tag x ∧ change 2 ∨ c = .slotRevoke m tag x ∧ change 3
      ∨ c = .genAdvance m tag x ∧ change 4 ∨ c = .debugOpen m tag x ∧ change 5
      ∨ c = .resetWarm m tag ∧ op = 0x0F ∧ args = [] ∨ c = .resetCold m tag ∧ op = 0x10 ∧ args = []) →
    ∃ t, exec c s = .next t ∧ t.shows m tag.toNat s.sys.op.code 1
      ∧ t.fld F.sysCmdCntStateRefusedCnt 0 = min (s.fld F.sysCmdCntStateRefusedCnt 0 + 1) 0xFFFF
      ∧ t.fld F.sysCmdCntBusyDiscards 0 = s.fld F.sysCmdCntBusyDiscards 0
      ∧ (∀ k, (h : k < args.length) → t.reg .sysMbxArg (16 * m + k) = args[k])
      ∧ (∀ k, k < 16 * m.val ∨ 16 * m.val + args.length ≤ k → t.reg .sysMbxArg k = s.reg .sysMbxArg k)
      ∧ t.dev.own = s.dev.own ∧ (∀ n, t.stream n = s.stream n)
      ∧ keepsCore s t ∧ keepsRegs [.sysMbxArg, .sysMbxCmd, .sysMbxSts, .sysCmdCnt] s t ∧ keepsBytes s t

/-- START takes READY to RUN, STOP takes RUN to READY, both with cause 1 (a command) and result OK; neither touches the safety
channels or the fuses (R41, R50, R55).
HOLD takes READY and RUN to SAFE_HOLD with HOLD_CMD; RELEASE returns to READY and clears HOLD_CMD when no other cause stands,
and otherwise ends with HELD and changes no HOLD bit and no state (R41, R42).
STABLE takes READY to STABLED and ends with OK; WAKE in STABLED starts the wake, which the executor holds with the mailbox
still BUSY and the state still STABLED; a wake event starts one without a mailbox (R41, R51).
While a wake is under way, the emitter PLL locked and the cores' domains good, firmware's report takes STABLED to READY,
with cause 1 and the result OK in its mailbox where a WAKE asked for it; 500 ms without one lead to FAULT with cause 0x21
(R51). Neither does anything otherwise. Commands that wait would run next, so none is taken to wait. -/
def Obligations.OperatingStateCommands : Prop :=
  (∀ (m : Fin 2) (tag : BitVec 8) (s : State), s.mailboxFree m →
     (s.sys.op = .ready → ∃ t, exec (.start m tag) s = .next t
       ∧ t.sys = { s.sys with op := .run, prev := .ready, cause := 1 } ∧ t.shows m tag.toNat 7 0
       ∧ t.saf = s.saf ∧ t.fuse = s.fuse)
     ∧ (s.sys.op = .run → ∃ t, exec (.stop m tag) s = .next t
       ∧ t.sys = { s.sys with op := .ready, prev := .run, cause := 1 } ∧ t.shows m tag.toNat 8 0
       ∧ t.saf = s.saf ∧ t.fuse = s.fuse)) ∧
  (∀ (m : Fin 2) (tag : BitVec 8) (s : State), s.mailboxFree m →
     (s.sys.op = .ready ∨ s.sys.op = .run → ∃ t, exec (.hold m tag) s = .next t
       ∧ t.sys = { s.sys with op := .safeHold, prev := s.sys.op, cause := 1, holdCmd := true }
       ∧ t.shows m tag.toNat s.sys.op.code 0 ∧ t.saf = s.saf ∧ t.fuse = s.fuse)
     ∧ (s.sys.op = .safeHold → s.sys.holdThermal = false → s.sys.holdDram = false →
       ∃ t, exec (.release m tag) s = .next t
         ∧ t.sys = { s.sys with op := .ready, prev := .safeHold, cause := 1, holdCmd := false }
         ∧ t.shows m tag.toNat 10 0 ∧ t.saf = s.saf ∧ t.fuse = s.fuse)
     ∧ (s.sys.op = .safeHold → s.sys.holdThermal = true ∨ s.sys.holdDram = true →
       ∃ t, exec (.release m tag) s = .next t ∧ t.shows m tag.toNat 10 8
         ∧ keepsCore s t ∧ keepsRegs [.sysMbxCmd, .sysMbxSts] s t ∧ keepsBytes s t)) ∧
  (∀ (m : Fin 2) (tag : BitVec 8) (s : State),
     (s.mailboxFree m → s.sys.op = .ready → ∃ t, exec (.stable m tag) s = .next t
       ∧ t.sys = { s.sys with op := .stabled, prev := .ready, cause := 1 } ∧ t.shows m tag.toNat 7 0)
     ∧ (s.mailboxFree m → s.sys.op = .stabled → ∃ t, exec (.wake m tag) s = .next t ∧ t.sys = s.sys
       ∧ (∃ c, t.dev.cmd.running = some (c, 9) ∧ c.mbx = m ∧ c.tag = tag.toNat ∧ c.opcode = 5)
       ∧ t.fld F.sysMbxStsBusy m = 1 ∧ t.fld F.sysMbxStsDone m = 0
       ∧ keepsRegs [.sysMbxCmd, .sysMbxSts, .memChSts] s t ∧ keepsBytes s t)
     ∧ (s.dev.cmd.running = none → s.sys.op = .stabled → ∃ t, exec .wakeEvent s = .next t ∧ t.sys = s.sys
       ∧ t.dev.cmd.running = some (⟨2, 0, 5, []⟩, 9)
       ∧ keepsRegs [.memChSts] s t ∧ keepsBytes s t)) ∧
  (∀ (s : State), s.dev.cmd.queue = [] →
     (s.wakeStarted = true →
       (∃ t, exec .wakeTimeout s = .next t ∧ t.saf = s.saf ∧ t.fuse = s.fuse
         ∧ t.sys = { s.sys with op := .fault, prev := .stabled, cause := 0x21 } ∧ t.dev.cmd.running = none)
       ∧ (∃ t, exec .wakeFirmwareReady s = .next t ∧ t.saf = s.saf ∧ t.fuse = s.fuse
         ∧ t.sys.op = .ready ∧ t.sys.prev = .stabled ∧ t.dev.cmd.running = none
         ∧ ∀ c, s.dev.cmd.running = some (c, 9) → c.tag < 256 → s.dev.cmd.reply = none →
           t.sys.cause = (if c.mbx < 2 then 1 else s.sys.cause) ∧ (c.mbx < 2 → t.shows c.mbx c.tag 9 0)))
     ∧ (s.wakeStarted = false → exec .wakeTimeout s = .next s ∧ exec .wakeFirmwareReady s = .next s))

/-- The reset ball outside OFF, and RESET_WARM, are a warm reset: RESET with cause 2, no HOLD bit, SYS_RST with its SOURCE and
one more warm reset, the Reset value in every register but those that a warm reset keeps or that show live parts, general SRAM
cleared, DRAM, the safety channels and the fuses untouched (R41, R433, R434). In OFF the ball does nothing. A request over
Ethernet is refused with PROT where management is protected.
RESET_COLD, a supply outside its trip limits and, in OFF, six good supplies lead to RESET with their cause and SOURCE, COLD
set and the count of warm resets 0; no register keeps anything but live parts, and general SRAM is cleared. A trip of VDD_CORE
or VDDIO_3V3 takes the safety channels' power; nothing else touches them. A supply's fault does nothing in OFF, and good
supplies outside OFF only show in GOOD (R41, R414, R415, R433). -/
def Obligations.Resets : Prop :=
  (let warm := fun (source : Nat) (s t : State) =>
     t.sys = ⟨.reset, s.sys.op, 2, false, false, false, false⟩ ∧ t.saf = s.saf ∧ t.fuse = s.fuse
       ∧ t.fld F.sysRstSource 0 = source ∧ t.fld F.sysRstCold 0 = 0
       ∧ t.fld F.sysRstWarmCnt 0 = min (s.fld F.sysRstWarmCnt 0 + 1) 0xFFFF
       ∧ (∀ r i, r ∉ [.sysRst, .timRefSts, .fmkSts, .pwrSupSts, .memHash, .emtSts, .thmSts, .thmSens] → r ∉ keptWarm →
         t.reg r i = (r.resetWord i).toNat)
       ∧ (∀ a, t.byte a = if sramBase ≤ a ∧ a < sramBase + 2 ^ 23 then 0 else s.byte a)
       ∧ t.dev.cmd.queue = [] ∧ t.dev.cmd.running = none
   (∀ s : State, s.sys.op ≠ .off → ∃ t, exec .resetBall s = .next t ∧ warm 5 s t)
     ∧ (∀ s : State, s.sys.op = .off → exec .resetBall s = .next s)
     ∧ ∀ (m : Fin 2) (tag : BitVec 8) (s : State), s.mailboxFree m → s.sys.op.held = false →
       (¬(m = 1 ∧ s.dev.boot.mgmtProt = true) → ∃ t, exec (.resetWarm m tag) s = .next t ∧ warm 4 s t)
       ∧ (m = 1 ∧ s.dev.boot.mgmtProt = true → ∃ t, exec (.resetWarm m tag) s = .next t
         ∧ t.shows m tag.toNat s.sys.op.code 5 ∧ t.sys = s.sys ∧ keepsRegs [.sysMbxCmd, .sysMbxSts] s t ∧ keepsBytes s t)) ∧
  (let cold := fun (source cause : Nat) (s t : State) =>
     t.sys = ⟨.reset, if s.sys.op = .off then .reset else s.sys.op, cause, false, false, false, false⟩ ∧ t.fuse = s.fuse
       ∧ t.fld F.sysRstSource 0 = source ∧ t.fld F.sysRstCold 0 = 1 ∧ t.fld F.sysRstWarmCnt 0 = 0
       ∧ (∀ r i, r ∉ [.sysRst, .timRefSts, .fmkSts, .pwrSupSts, .memHash, .emtSts, .thmSts, .thmSens] → t.reg r i = (r.resetWord i).toNat)
       ∧ ∀ a, t.byte a = if sramBase ≤ a ∧ a < sramBase + 2 ^ 23 then 0 else s.byte a
   (∀ s : State, s.sys.op = .off → ∃ t, exec .suppliesGood s = .next t ∧ cold 0 0 s t ∧ t.saf = s.saf
       ∧ t.fld F.pwrSupStsGood 0 = 0x3F)
     ∧ (∀ s : State, s.sys.op ≠ .off → ∃ t, exec .suppliesGood s = .next t ∧ t.fld F.pwrSupStsGood 0 = 0x3F
       ∧ keepsCore s t ∧ keepsRegs [.pwrSupSts] s t ∧ keepsBytes s t)
     ∧ (∀ (rail : Fin 6) (s : State), s.sys.op ≠ .off → ∃ t, exec (.supplyOutOfRange rail) s = .next t ∧ cold 1 3 s t
       ∧ t.saf = (if rail.val = 0 ∨ rail.val = 5 then Saf.powerDown else s.saf)
       ∧ bitOf (t.fld F.pwrSupStsGood 0) rail = false)
     ∧ (∀ (rail : Fin 6) (s : State), s.sys.op = .off → exec (.supplyOutOfRange rail) s = .next s)
     ∧ ∀ (m : Fin 2) (tag : BitVec 8) (s : State), s.mailboxFree m → s.sys.op.held = false →
       ¬(m = 1 ∧ s.dev.boot.mgmtProt = true) → ∃ t, exec (.resetCold m tag) s = .next t ∧ cold 2 3 s t ∧ t.saf = s.saf)

/-! Boot (R36, R41, R43, R372 to R385). -/

/-- The SRAM overwrite leads from RESET to BLOCK_LOAD, or, with a cause 0x23 found meanwhile, to FAULT; INIT_COMPLETE leads from
INIT to READY once R99 holds, and every channel in service is then fully trained at the block's rate (R41, R281). Neither does
anything in another state. Commands that wait would run next, so none is taken to wait. -/
def Obligations.OverwriteAndInit : Prop :=
  ∀ s : State, s.dev.cmd.queue = [] →
    (s.sys.op = .reset → ∃ t, exec .sramOverwriteComplete s = .next t ∧ t.saf = s.saf ∧ t.fuse = s.fuse
      ∧ t.sys = (if s.sys.found23 then { s.sys with op := .fault, prev := .reset, cause := 0x23, found23 := false }
        else { s.sys with op := .blockLoad, prev := .reset }))
    ∧ (s.sys.op ≠ .reset → exec .sramOverwriteComplete s = .next s)
    ∧ (s.sys.op = .init → s.calibrated = true → s.flag F.thmStsShutdown 0 = false →
      ∃ t, exec .initComplete s = .next t ∧ t.sys = { s.sys with op := .ready, prev := .init } ∧ t.saf = s.saf ∧ t.fuse = s.fuse
        ∧ ∀ n ∈ s.channels, s.fld F.memChStsState n = 1 ∨ s.fld F.memChStsState n = 2 →
          t.fld F.memChStsState n = 2 ∧ t.fld F.memChStsFastExit n = 1
            ∧ t.fld F.memChStsRateTrained n = s.fld F.memCfgRate 0 % 16)
    ∧ (s.sys.op ≠ .init ∨ s.calibrated = false ∨ s.flag F.thmStsShutdown 0 = true → exec .initComplete s = .next s)

/-- A copy read in BLOCK_LOAD that passes every check is accepted: ACCEPTED and COPY say so, the chosen set goes to the safety
channels, DRAM begins its training and WIPE is entered. A first copy that fails before its content leaves CODE_0, the
registers otherwise as they were, and copy 1 to read; a second one leaves CODE_1 and FAULT with cause 0x11 under the fallback
identity. In any other state nothing happens (R372, R378, R380).
The end of the wipe leads from WIPE to AWAIT_FIRMWARE: the populated channels that trained are in service, channel 1 mirrors the
firmware region, PCI_BAR2_MAP is held at 0, the fetch begins where the block lets Ethernet deliver the image, and every byte of
DRAM is 0 where no event is routed to a queue that could write there. Elsewhere it does nothing. -/
def Obligations.BlockCopiesAndWipe : Prop :=
  (∀ (b : List Byte) (body : BlockBody) (s : State), s.dev.cmd.queue = [] →
     let s1 := (s.setReg .sysOwnConflict0 0 0xFFFFFFFF).setReg .sysOwnConflict1 0 0
     (s.sys.op ≠ .blockLoad → exec (.blockCopyRead b body) s = .next s)
     ∧ (s.sys.op = .blockLoad → s.fuse.blockCode b = 0 → ∀ u, s1.content b body = .inl u →
       ∃ t, exec (.blockCopyRead b body) s = .next t ∧ t.sys = { s.sys with op := .wipe, prev := .blockLoad }
         ∧ t.fuse = s.fuse ∧ t.flag F.bootStsAccepted 0 = true ∧ t.fld F.bootStsCopy 0 = s.dev.boot.copy % 2
         ∧ t.dev.pci.ident = 1
         ∧ t.saf = (match s.chosenSet body with | some x => s.saf.handSet x | none => s.saf))
     ∧ (s.sys.op = .blockLoad → s.fuse.blockCode b ≠ 0 → s.dev.boot.copy = 0 →
       ∃ t, exec (.blockCopyRead b body) s = .next t ∧ keepsCore s t ∧ t.dev.boot.copy = 1
         ∧ t.fld F.bootCodeCode0 0 = s.fuse.blockCode b
         ∧ t.reg .sysOwnConflict0 0 = 0xFFFFFFFF ∧ t.reg .sysOwnConflict1 0 = 0
         ∧ keepsRegs [.bootCode, .sysOwnConflict0, .sysOwnConflict1] s t ∧ keepsBytes s t)
     ∧ (s.sys.op = .blockLoad → s.fuse.blockCode b ≠ 0 → s.dev.boot.copy ≠ 0 →
       ∃ t, exec (.blockCopyRead b body) s = .next t
         ∧ t.sys = { s.sys with op := .fault, prev := .blockLoad, cause := 0x11 } ∧ t.saf = s.saf ∧ t.fuse = s.fuse
         ∧ t.fld F.bootCodeCode1 0 = s.fuse.blockCode b ∧ t.dev.pci.ident = 2)) ∧
  (∀ s : State, s.dev.cmd.queue = [] →
     (s.sys.op ≠ .wipe → exec .dramWipeComplete s = .next s)
     ∧ (s.sys.op = .wipe → ∃ t, exec .dramWipeComplete s = .next t
       ∧ t.sys = { s.sys with op := .awaitFw, prev := .wipe } ∧ t.saf = s.saf ∧ t.fuse = s.fuse
       ∧ (∀ n ∈ s.channels, s.fld F.memChStsState n = 1 → t.fld F.memChStsState n = 2)
       ∧ (1 ∈ s.channels → t.flag F.memChStsFwMirror 1 = true)
       ∧ t.reg .pciBar2MapLo 0 = 0 ∧ t.reg .pciBar2MapHi 0 = 0 ∧ t.fld F.bootFetchChunks 0 = 0
       ∧ t.dev.boot.fetching = decide (s.dev.boot.bootPath = 1 ∨ s.dev.boot.bootPath = 2)
       ∧ t.dev.boot.server = none ∧ t.dev.boot.held = [] ∧ t.dev.boot.requested = []
       ∧ (s.unrouted → ∀ a, a < 2 ^ 35 → t.byte a = 0)))

/-- While the fetch runs on a port without redundancy that holds or sends its frames, HELLO is queued while no server is known,
and a READ of one chunk for one that is still missing; neither changes anything else, and neither does anything otherwise (R383,
R384).
The first OFFER of an allowed length for this device names the server, and at most 256 missing chunks are asked for; DATA of
a chunk not yet held, from that server, is written at its offset and counted while another chunk is missing; a lost server is
forgotten and the chunks are kept. Anything else is dropped (R383, R384). The last chunk is the statement's below.
FW_COMMIT of an allowed image enters VERIFY, with the mailbox still BUSY, or ends with BAD_ARG or NOT_PERMITTED; VERIFY ends in
INIT with the measurement taken when every check of the image passes, and otherwise in AWAIT_FIRMWARE with FW_CODE loaded and
the failure counted (R381, R384, R385). In another state VERIFY_COMPLETE does nothing. -/
def Obligations.FirmwareFetched : Prop :=
  (∀ (k : Fin 16384) (s : State),
     let d := s.dev.boot.device
     let p := d.bootPort % 4
     let boot := fun (dst type : Nat) (rest : List Byte) =>
       pad60 (macBytes dst ++ macBytes (s.mac .ethMacLo .ethMacHi p) ++ vlanTag (s.fld F.ethTxqTagPcp (8 * p + 5)) d.bootVid
         ++ beBytes 2 d.bootType ++ (leBytes 1 1 ++ leBytes 1 type ++ leBytes 2 0 ++ leBytes 8 Config.serial.toNat ++ rest))
     s.duplicates p d.bootType = false → (s.portUp p = true ∨ s.flag F.ethPortCtlFlushDown p = false) →
     (s.fetches = true → s.dev.boot.server = none → ∃ t, exec .hello s = .next t
       ∧ (t.ethPort p).queues = (s.ethPort p).queues ++ [(5, boot d.bootServer 1
         (leBytes 2 s.domain ++ leBytes 8 (s.pair .bootBuildLo .bootBuildHi 0) ++ leBytes 4 s.dev.boot.fwSvnMin))]
       ∧ keepsCore s t ∧ keepsRegs [] s t ∧ keepsBytes s t)
     ∧ (s.fetches = false ∨ s.dev.boot.server ≠ none → exec .hello s = .next s)
     ∧ (∀ mac, s.fetches = true → s.dev.boot.server = some mac → s.dev.boot.requested.contains k.val = true →
       ∃ t, exec (.readRetry k) s = .next t
         ∧ (t.ethPort p).queues = (s.ethPort p).queues ++ [(5, boot mac 3 (leBytes 4 (1024 * k.val) ++ leBytes 2 1))]
         ∧ keepsCore s t ∧ keepsRegs [] s t ∧ keepsBytes s t)
     ∧ (s.fetches = false ∨ s.dev.boot.requested.contains k.val = false → exec (.readRetry k) s = .next s)) ∧
  (∀ (src : BitVec 48) (serial : BitVec 64) (len off : BitVec 32) (bs : List Byte) (s : State),
     let b := s.dev.boot
     let hears := s.fetches && decide (b.server = none) && decide (serial = Config.serial)
       && decide (4096 ≤ len.toNat ∧ len.toNat ≤ 2 ^ 24 ∧ len.toNat ≤ s.fwSize)
     let takes := s.fetches && decide (b.server = some src.toNat) && decide (serial = Config.serial)
       && decide (off.toNat % 1024 = 0 ∧ off.toNat < b.offerLen ∧ bs.length = min 1024 (b.offerLen - off.toNat))
       && !b.held.contains (off.toNat / 1024)
     (hears = true → (∃ k, k < chunkCount len.toNat ∧ k ∉ b.held) → ∃ t, exec (.offer src serial len) s = .next t
       ∧ t.dev.boot.server = some src.toNat ∧ t.dev.boot.offerLen = len.toNat ∧ t.dev.boot.held = b.held
       ∧ t.dev.boot.requested = ((List.range (chunkCount len.toNat)).filter fun k => !b.held.contains k).take 256
       ∧ keepsCore s t ∧ keepsRegs [.ethTxDropCnt] s t ∧ keepsBytes s t)
     ∧ (hears = false → exec (.offer src serial len) s = .next s)
     ∧ (takes = true → (∃ k, k < chunkCount b.offerLen ∧ k ≠ off.toNat / 1024 ∧ k ∉ b.held) →
       s.channels.any s.channelDead = false → ∃ t, exec (.data src serial off bs) s = .next t
         ∧ t.dev.boot.held = b.held ++ [off.toNat / 1024]
         ∧ t.fld F.bootFetchChunks 0 = min (b.held.length + 1) 0xFFFF
         ∧ (b.bootPath = 2 → t.flag F.bootStsNet 0 = true)
         ∧ (∀ k (h : k < bs.length), t.byte (off.toNat + k) = bs[k])
         ∧ (∀ a, a < off.toNat ∨ off.toNat + bs.length ≤ a → t.byte a = s.byte a)
         ∧ keepsCore s t ∧ keepsRegs [.bootFetch, .bootSts, .ethTxDropCnt] s t)
     ∧ (takes = false → exec (.data src serial off bs) s = .next s)
     ∧ (∃ t, exec .serverLost s = .next t
       ∧ t.dev = (if s.fetches = true ∧ b.server ≠ none then
           { s.dev with boot := { b with server := none, requested := [] } } else s.dev)
       ∧ keepsCore s t)) ∧
  (∀ (m : Fin 2) (tag : BitVec 8) (len off : BitVec 32) (s : State),
     (s.mailboxFree m → s.sys.op = .awaitFw →
       let r := s.commitCheck len.toNat off.toNat
       (r = 0 → ∃ t, exec (.fwCommit m tag len off) s = .next t
         ∧ t.sys = { s.sys with op := .verify, prev := .awaitFw, cause := 1 } ∧ t.saf = s.saf ∧ t.fuse = s.fuse
         ∧ t.dev.boot.imageLen = len.toNat ∧ t.dev.boot.viaNet = false ∧ t.dev.boot.fetching = false
         ∧ (∃ c, t.dev.cmd.running = some (c, s.sys.op.code) ∧ c.mbx = m ∧ c.tag = tag.toNat)
         ∧ t.flag F.sysMbxStsBusy m = true)
       ∧ (r ≠ 0 → ∃ t, exec (.fwCommit m tag len off) s = .next t ∧ t.shows m tag.toNat s.sys.op.code r
         ∧ keepsCore s t ∧ keepsRegs [.sysMbxArg, .sysMbxCmd, .sysMbxSts] s t ∧ keepsBytes s t))
     ∧ (s.dev.cmd.queue = [] → s.sys.op = .verify →
       let code := imageCode s.dev.boot.fwKeys s.dev.boot.fwSvnMin s.dev.boot.imageLen s.image
       ∃ t, exec .verifyComplete s = .next t ∧ t.saf = s.saf ∧ t.fuse = s.fuse ∧ t.dev.cmd.running = none
         ∧ (code = 0 → t.sys = { s.sys with op := .init, prev := .verify } ∧ t.dev.boot.fwMeas = sha512 s.image
           ∧ t.dev.boot.svn = leAt s.image 8 4 ∧ t.dev.boot.entry = leAt s.image 12 4)
         ∧ (code ≠ 0 → t.sys = { s.sys with op := .awaitFw, prev := .verify } ∧ t.fld F.bootCodeFwCode 0 = code
           ∧ t.fld F.bootFwFailCntCount 0 = min (s.fld F.bootFwFailCntCount 0 + 1) 0xFFFFFFFF
           ∧ t.dev.boot.held = [] ∧ t.dev.boot.server = none))
     ∧ (s.dev.cmd.queue = [] → s.sys.op ≠ .verify → exec .verifyComplete s = .next s))

/-! Causes of FAULT and SAFE_HOLD (R41, R42, R365, R421 to R425). Commands that wait would run next, so none is taken to
wait. -/

/-- The watchdog leads to FAULT with cause 0x21, a consistency check and a failed local oscillator with 0x23, from the states
that R41 names for the cause, and the command executing ends; a cause 0x23 found in RESET waits; in every other state the
operating state stays. The oscillator's failure is logged (R366).
A sample of the 64 sensors outside OFF loads each RAW value and HOT with the hottest corrected one. With at most 16 sensors
broken, a hottest value of 125 °C leads READY and RUN to SAFE_HOLD with HOLD_THERMAL and switches the clusters off, and a lower
one leaves the operating state; with more broken ones FAULT is entered with cause 0x23 (R41, R421, R422, R425). In OFF nothing
happens.
With the hottest junction below 110 °C the end of the thermal cause clears HOLD_THERMAL and leaves the rest of the operating
state; in INIT it ends the shutdown. At 110 °C or above it does nothing (R42, R425). -/
def Obligations.FaultAndHoldCauses : Prop :=
  (∀ s : State, s.dev.cmd.queue = [] →
     let faulted := fun (cause : Nat) (t : State) => t.sys = { s.sys with op := .fault, prev := s.sys.op, cause := cause }
       ∧ t.dev.cmd.running = none ∧ t.saf = s.saf ∧ t.fuse = s.fuse
     (s.sys.op.faults 0x21 = true → ∃ t, exec .firmwareWatchdog s = .next t ∧ faulted 0x21 t)
     ∧ (s.sys.op.faults 0x21 = false → exec .firmwareWatchdog s = .next s)
     ∧ (s.sys.op.faults 0x23 = true → ∃ t, exec .internalConsistencyCheck s = .next t ∧ faulted 0x23 t)
     ∧ (s.sys.op = .reset → exec .internalConsistencyCheck s = .next { s with sys := { s.sys with found23 := true } })
     ∧ (s.sys.op = .fault ∨ s.sys.op = .off → exec .internalConsistencyCheck s = .next s)
     ∧ (s.sys.op.faults 0x23 = true →
       ∃ t, exec .localOscillatorFailed s = .next t ∧ faulted 0x23 t ∧ s.logs t 0x19 0 0x0A 2 0xFFFF)
     ∧ (s.sys.op.faults 0x23 = false → ∃ t, exec .localOscillatorFailed s = .next t ∧ s.logs t 0x19 0 0x0A 2 0xFFFF
       ∧ t.sys = { s.sys with found23 := s.sys.found23 || decide (s.sys.op = .reset) } ∧ t.saf = s.saf ∧ t.fuse = s.fuse)) ∧
  (∀ (raws : List (BitVec 16)) (s : State), raws.length = 64 → s.dev.cmd.queue = [] →
     (s.sys.op = .off → exec (.temperatureSample raws) s = .next s)
     ∧ (s.sys.op ≠ .off → ∃ t, exec (.temperatureSample raws) s = .next t ∧ t.saf = s.saf ∧ t.fuse = s.fuse
       ∧ (∀ i (h : i < raws.length), t.sfld F.thmSensRaw i = raws[i].toInt)
       ∧ t.sfld F.thmStsHot 0 = (hottest ((List.range 64).map fun i => t.sfld F.thmSensValue i)).2
       ∧ t.fld F.thmStsHotIdx 0 = (hottest ((List.range 64).map fun i => t.sfld F.thmSensValue i)).1
       ∧ (((List.range 64).filter t.broken).length ≤ 16 → t.sfld F.thmStsHot 0 < 2000 → t.sys = s.sys)
       ∧ (((List.range 64).filter t.broken).length ≤ 16 → 2000 ≤ t.sfld F.thmStsHot 0 → s.sys.op = .ready ∨ s.sys.op = .run →
         t.sys = { s.sys with op := .safeHold, prev := s.sys.op, cause := 0x10, holdThermal := true }
           ∧ t.flag F.thmStsShutdown 0 = true)
       ∧ (16 < ((List.range 64).filter t.broken).length → s.sys.op.faults 0x23 = true →
         t.sys = { s.sys with op := .fault, prev := s.sys.op, cause := 0x23 }))) ∧
  (∀ s : State,
     (s.sfld F.thmStsHot 0 < 1760 → ∃ t, exec .thermalCauseClear s = .next t
       ∧ t.sys = { s.sys with holdThermal := false } ∧ t.saf = s.saf ∧ t.fuse = s.fuse
       ∧ (s.sys.op = .init → t.flag F.thmStsShutdown 0 = false)
       ∧ (s.quiet → s.sys.op ≠ .init → keepsRegs [] s t ∧ keepsBytes s t))
     ∧ (1760 ≤ s.sfld F.thmStsHot 0 → exec .thermalCauseClear s = .next s))

/-- A mismatch halts the pair: its held writes are discarded, it recovers, and the recovery is counted and logged; a mismatch
before the first commit after a recovery, or the fifth recovery within 1 s, leads to FAULT with cause 0x20 instead. A pair that
recovers already, or a device in OFF, is left alone (R365).
A recovering pair resumes with LAST_US loaded and must still prove itself; a commit proves it and releases what it held, here
a legal write of the fault log's TAIL; a halted pair commits nothing. A write of a pair is held and changes nothing else while
the buffer has room, and one of a halted pair is dropped (R364, R365). -/
def Obligations.LockstepPairs : Prop :=
  (∀ (b : Bool) (s : State), s.dev.cmd.queue = [] →
     let x := s.corePair b
     let recent := x.recoveries.filter fun t => decide (s.dev.time.c < t + 1000000000)
     (x.recovering = true ∨ s.sys.op = .off → exec (.lockstepMismatch b) s = .next s)
     ∧ (x.recovering = false → s.sys.op ≠ .off → x.unproven = false → recent.length < 4 →
       ∃ t, exec (.lockstepMismatch b) s = .next t ∧ keepsCore s t
         ∧ t.corePair b = { x with held := [], recovering := true, haltedAt := s.dev.time.c, recoveries := s.dev.time.c :: recent }
         ∧ t.corePair (!b) = s.corePair (!b)
         ∧ bitOf (t.fld F.fmkStsRecovering 0) (b2n b) = true
         ∧ t.fld F.fmkPairRecCnt (b2n b) = min (s.fld F.fmkPairRecCnt (b2n b) + 1) 0xFFFF
         ∧ s.logs t 0x13 1 0x0B (b2n b) (b2n b))
     ∧ (x.recovering = false → (x.unproven = true ∨ 4 ≤ recent.length) → s.sys.op.faults 0x20 = true →
       ∃ t, exec (.lockstepMismatch b) s = .next t ∧ (t.corePair b).held = [] ∧ s.logs t 0x14 0 0x0B (b2n b) 0xFFFF
         ∧ t.sys = { s.sys with op := .fault, prev := s.sys.op, cause := 0x20 } ∧ t.saf = s.saf ∧ t.fuse = s.fuse)) ∧
  (∀ (b : Bool) (addr : BitVec 28) (size : Fin 9) (v : BitVec 64) (tail : BitVec 32) (s : State), s.dev.cmd.queue = [] →
     let x := s.corePair b
     let m := pairMaster b
     (x.recovering = true → ∃ t, exec (.lockstepResume b) s = .next t
       ∧ t.corePair b = { x with recovering := false, unproven := true } ∧ t.corePair (!b) = s.corePair (!b)
       ∧ bitOf (t.fld F.fmkStsRecovering 0) (b2n b) = false
       ∧ t.fld F.fmkPairLastUs (b2n b) = min ((s.dev.time.c - x.haltedAt) / 1000) 0xFFFF
       ∧ keepsCore s t ∧ keepsRegs [.fmkSts, .fmkPair] s t ∧ keepsBytes s t)
     ∧ (x.recovering = false → exec (.lockstepResume b) s = .next s)
     ∧ (x.recovering = true → exec (.checkpointCommit b) s = .next s ∧ exec (.registerWrite m addr size v) s = .next s)
     ∧ (x.recovering = false → x.held = [] → ∃ t, exec (.checkpointCommit b) s = .next t
       ∧ t.corePair b = { x with unproven := false } ∧ keepsCore s t ∧ keepsRegs [] s t ∧ keepsBytes s t)
     ∧ (x.recovering = false → x.held = [(Reg.fmkLogTail.addr 0, 4, tail.toNat)] →
       refuseLinks s (s.merged .fmkLogTail 0 tail.toNat none) .fmkLogTail 0 tail.toNat = none →
       ∃ t, exec (.checkpointCommit b) s = .next t ∧ t.corePair b = { x with held := [], unproven := false }
         ∧ t.fld F.fmkLogTailTail 0 = tail.toNat % 512
         ∧ keepsCore s t ∧ keepsRegs [.fmkLogTail, .sysAccErrCnt, .sysAccErrLast, .sysEvtSts] s t)
     ∧ (x.recovering = false → x.held.length < 512 → ∃ t, exec (.registerWrite m addr size v) s = .next t
       ∧ t.corePair b = { x with held := x.held ++ [(addr.toNat, size.val, v.toNat)] }
       ∧ keepsCore s t ∧ keepsRegs [] s t ∧ keepsBytes s t))

/-! Streams, time, ownership and attestation by command (R52 to R54, R232, R325, R394, R457). -/

/-- STREAM_ON of a stream that is off, whose settings are legal and whose ring its owner's quota has room for, turns it on with its
ring empty: a point-cloud or measurement stream, and a line stream outside RUN, write nothing; a state stream, and a line stream in RUN,
write their first records into the ring alone. STREAM_OFF turns a stream off; one with no record waiting changes nothing else. Both end
with OK. A stream that does not exist ends either with BAD_ARG, an illegal setting STREAM_ON; a ring beyond the quota ends with
OWNER_REFUSED, counted; a stream that is on or off already is left as it is. No event is routed (R232, R243, R244, R266, R457). -/
def Obligations.StreamOnOff : Prop :=
  ∀ (m : Fin 2) (tag : BitVec 8) (n : BitVec 32) (s : State), s.mailboxFree m → s.sys.op = .ready ∨ s.sys.op = .run → s.unrouted →
    let k := n.toNat
    let mbx : List Reg := [.sysMbxArg, .sysMbxCmd, .sysMbxSts]
    let class' := s.fld F.acqStrCtlClass k
    let base := s.pair .acqStrBaseLo .acqStrBaseHi k
    let silent := class' = 0 ∨ class' = 3 ∨ class' = 1 ∧ s.sys.op = .ready
    let same := fun (r : Nat) (c : Instr) => ∃ t, exec c s = .next t ∧ t.shows m tag.toNat s.sys.op.code r
      ∧ keepsCore s t ∧ keepsRegs mbx s t ∧ keepsBytes s t
    (k < 64 → s.flag F.acqStrCtlOn k = false → s.streamLegal k = true → s.streamQuota k = true →
      ∃ t, exec (.streamOn m tag n) s = .next t ∧ t.shows m tag.toNat s.sys.op.code 0 ∧ keepsCore s t
        ∧ t.flag F.acqStrCtlOn k = true ∧ t.reg .acqStrRd k = 0
        ∧ (silent → t.reg .acqStrWr k = 0 ∧ t.stream k = {} ∧ keepsBytes s t
          ∧ keepsRegs (mbx ++ [.acqStrWr, .acqStrRd, .acqStrCtl, .acqStrSts, .dmaUse, .dmaOverCnt]) s t)
        ∧ (class' = 2 → (∀ j, j ≠ k → t.stream j = s.stream j ∧ t.reg .acqStrWr j = s.reg .acqStrWr j)
          ∧ (∀ a, a < base ∨ base + s.ringSize k ≤ a → t.byte a = s.byte a)
          ∧ keepsRegs (mbx ++ [.acqStrWr, .acqStrRd, .acqStrCtl, .acqStrSts, .acqStrRecCnt, .acqStrCoalCnt, .dmaUse, .dmaOverCnt,
            .sysEvtSts]) s t))
    ∧ (k < 64 → s.flag F.acqStrCtlOn k = false → s.streamLegal k = false → same 3 (.streamOn m tag n))
    ∧ (k < 64 → s.flag F.acqStrCtlOn k = false → s.streamLegal k = true → s.streamQuota k = false →
      ∃ t, exec (.streamOn m tag n) s = .next t ∧ t.shows m tag.toNat s.sys.op.code 4 ∧ keepsCore s t ∧ keepsBytes s t
        ∧ t.fld F.sysOwnRefusedCntCount 0 = min (s.fld F.sysOwnRefusedCntCount 0 + 1) 0xFFFF ∧ t.reg .sysOwnLast1 0 = 0x08000000 + k
        ∧ keepsRegs (mbx ++ [.dmaOverCnt, .sysOwnRefusedCnt, .sysOwnLast0, .sysOwnLast1]) s t)
    ∧ (k < 64 → s.flag F.acqStrCtlOn k = true → same 0 (.streamOn m tag n))
    ∧ (64 ≤ k → same 3 (.streamOn m tag n) ∧ same 3 (.streamOff m tag n))
    ∧ (k < 64 → s.flag F.acqStrCtlOn k = false → same 0 (.streamOff m tag n))
    ∧ (k < 64 → s.flag F.acqStrCtlOn k = true → ∃ t, exec (.streamOff m tag n) s = .next t
      ∧ t.flag F.acqStrCtlOn k = false ∧ t.shows m tag.toNat s.sys.op.code 0 ∧ keepsCore s t
      ∧ (silent ∨ class' = 2 → (s.stream k).gaps = [] → (s.stream k).pend = [] → keepsBytes s t
        ∧ t.stream k = { s.stream k with fresh := [] } ∧ (∀ j, j ≠ k → t.stream j = s.stream j)
        ∧ keepsRegs (mbx ++ [.acqStrCtl, .dmaUse, .dmaOverCnt]) s t))

/-- TIME_STEP in READY moves the offset O by its signed argument in ns, and with 2^63 by the last update's error, where there is
one; it counts, C stays, and a time base that was not loaded becomes FREE or ACQUIRING. Without an update to step by it ends
with BAD_ARG (R325).
CLAIM in READY gives a free pooled resource whose domains are on to an enabled feature, UNCLAIM takes it back from its owner;
otherwise the command ends with OWNER_REFUSED, which counts and loads SYS_OWN_LAST, and an id or feature that does not exist
with BAD_ARG. No other resource changes (R54). -/
def Obligations.TimeAndOwners : Prop :=
  (∀ (m : Fin 2) (tag : BitVec 8) (ns : BitVec 64) (s : State), s.mailboxFree m → s.sys.op = .ready →
     (∀ step : Int, (ns.toNat ≠ 2 ^ 63 ∧ step = ns.toInt ∨ ns.toNat = 2 ^ 63 ∧ ∃ e, s.dev.time.lastE = some e ∧ step = divAway (-e) 256) →
       ∃ t, exec (.timeStep m tag ns) s = .next t ∧ t.shows m tag.toNat 7 0
         ∧ t.dev.time.o = s.dev.time.o + step * 2 ^ 32 ∧ t.dev.time.c = s.dev.time.c
         ∧ t.fld F.timStepCntCount 0 = min (s.fld F.timStepCntCount 0 + 1) 0xFFFFFFFF
         ∧ (s.fld F.timStsState 0 = 0 → t.fld F.timStsState 0 = (if s.timeSrc = 0 then 1 else 2) ∧ t.fld F.timStsLoaded 0 = 1)
         ∧ (s.fld F.timStsState 0 ≠ 0 → keepsRegs [.sysMbxArg, .sysMbxCmd, .sysMbxSts, .timStepCnt] s t ∧ keepsBytes s t)
         ∧ keepsCore s t)
     ∧ (ns.toNat = 2 ^ 63 → s.dev.time.lastE = none → ∃ t, exec (.timeStep m tag ns) s = .next t ∧ t.shows m tag.toNat 7 3
       ∧ t.dev.time = s.dev.time ∧ keepsCore s t ∧ keepsRegs [.sysMbxArg, .sysMbxCmd, .sysMbxSts] s t ∧ keepsBytes s t)) ∧
  (∀ (m : Fin 2) (tag : BitVec 8) (res who : BitVec 32) (s : State), s.mailboxFree m → s.sys.op = .ready →
     let mbx : List Reg := [.sysMbxArg, .sysMbxCmd, .sysMbxSts]
     let known := resourceOk res.toNat && s.dev.own.enabled.contains who.toNat
     let free := s.dev.own.pool.contains res.toNat && decide (s.ownerOf res.toNat = 0xFFFF)
       && (resourceDomain res.toNat).all s.domainOn
     let owned := fun (o : Nat) (t : State) => t.ownerOf res.toNat = o ∧ t.shows m tag.toNat 7 0
       ∧ (∀ r, r ≠ res.toNat → t.ownerOf r = s.ownerOf r) ∧ keepsCore s t ∧ keepsRegs mbx s t ∧ keepsBytes s t
     let refused := fun (t : State) => t.shows m tag.toNat 7 4 ∧ t.dev.own = s.dev.own
       ∧ t.fld F.sysOwnRefusedCntCount 0 = min (s.fld F.sysOwnRefusedCntCount 0 + 1) 0xFFFF
       ∧ t.fld F.sysOwnLast0Requester 0 = who.toNat % 65536 ∧ t.reg .sysOwnLast1 0 = res.toNat
       ∧ keepsCore s t ∧ keepsRegs (mbx ++ [.sysOwnRefusedCnt, .sysOwnLast0, .sysOwnLast1]) s t ∧ keepsBytes s t
     (known = true → free = true → ∃ t, exec (.claim m tag res who) s = .next t ∧ owned who.toNat t)
     ∧ (known = true → free = false → ∃ t, exec (.claim m tag res who) s = .next t ∧ refused t)
     ∧ (known = true → s.ownerOf res.toNat = who.toNat → ∃ t, exec (.unclaim m tag res who) s = .next t ∧ owned 0xFFFF t)
     ∧ (known = true → s.ownerOf res.toNat ≠ who.toNat → ∃ t, exec (.unclaim m tag res who) s = .next t ∧ refused t)
     ∧ (known = false → ∀ c, c = .claim m tag res who ∨ c = .unclaim m tag res who → ∃ t, exec c s = .next t
       ∧ t.shows m tag.toNat 7 3 ∧ t.dev.own = s.dev.own ∧ keepsCore s t ∧ keepsRegs mbx s t ∧ keepsBytes s t))

/-- ATTEST, where it is legal and the part has an identity, ends with OK, RES 0 reading 704 and the first 192 bytes of PROT_ATT
holding the report's body over the nonce; in BLANK and END it ends with PROT. No other register and no byte changes (R394).
The signature behind the body rests on a free salt (log entry 6) and is not stated. -/
def Obligations.AttestReports : Prop :=
  ∀ (m : Fin 2) (tag : BitVec 8) (nonce : BitVec 256) (s : State), s.mailboxFree m →
    s.inOp [.awaitFw, .init, .ready, .run, .safeHold, .fault] = true →
    (s.fuse.state ≠ 0 → s.fuse.state ≠ 4 → ∃ t, exec (.attest m tag nonce) s = .next t
      ∧ t.shows m tag.toNat s.sys.op.code 0 ∧ t.reg .sysMbxRes (8 * m) = 704
      ∧ (∀ i, i < 48 → t.reg .protAtt i =
        leAt (s.attestBody ((List.range 8).map fun k => nonce.toNat / 2 ^ (32 * k) % 2 ^ 32) s.sys.op.code) (4 * i) 4)
      ∧ keepsCore s t ∧ keepsRegs [.sysMbxArg, .sysMbxCmd, .sysMbxSts, .sysMbxRes, .protAtt] s t ∧ keepsBytes s t)
    ∧ (s.fuse.state = 0 ∨ s.fuse.state = 4 → ∃ t, exec (.attest m tag nonce) s = .next t
      ∧ t.shows m tag.toNat s.sys.op.code 5
      ∧ keepsCore s t ∧ keepsRegs [.sysMbxArg, .sysMbxCmd, .sysMbxSts] s t ∧ keepsBytes s t)

/-! Protection changes and management (R313, R387 to R392). -/

/-- PROT_CHANGE in READY on a slot of the dual-control mailbox: permitted, it changes the fuses by its operation alone (a
life-cycle step ends in a cold reset with SOURCE 3; the others end with OK, a programmed slot takes the hash of the request, a
revoked slot its bit, the generation its value, and DEBUG_OPEN the level); otherwise it ends with its result and the fuses stay.
Every such command consumes the slot's nonce. A slot that does not exist ends with BAD_ARG (R390, R391).
ARM leaves VALID set and eight words of nonce that are the random source's (free values, log entry 6); expiry leaves VALID
clear and the nonce 0. Nothing else of any slot changes (R390). -/
def Obligations.ProtectionChanges : Prop :=
  (∀ (m : Fin 2) (tag : BitVec 8) (slot : BitVec 32) (s : State), s.mailboxFree m → s.sys.op = .ready →
     let k := slot.toNat
     let p := s.protReq k
     let r := s.protResult ⟨m, tag.toNat, 0x0E, [k]⟩ p
     let row := fun (c : Instr) (op : Nat) => c = .lcChange m tag slot ∧ op = 1 ∨ c = .slotProgram m tag slot ∧ op = 2
       ∨ c = .slotRevoke m tag slot ∧ op = 3 ∨ c = .genAdvance m tag slot ∧ op = 4 ∨ c = .debugOpen m tag slot ∧ op = 5
     (k < 4 → p.op = 1 → r = 0 → ∃ t, exec (.lcChange m tag slot) s = .next t
       ∧ t.fuse = (if p.arg = 4 then { s.fuse with ended := true }
         else { s.fuse with lc := s.fuse.lc + 1, idGen := if p.arg = 1 then s.fuse.idGen + 1 else s.fuse.idGen })
       ∧ t.sys = ⟨.reset, .ready, 0x30, false, false, false, false⟩ ∧ t.fld F.sysRstSource 0 = 3 ∧ t.fld F.sysRstCold 0 = 1
       ∧ t.saf = s.saf)
     ∧ (k < 4 → r = 0 → ∀ c op, row c op → op ≠ 1 → p.op = op → ∃ t, exec c s = .next t ∧ t.shows m tag.toNat 7 0
       ∧ t.sys = s.sys ∧ t.saf = s.saf ∧ t.flag F.protDcCtlValid k = false
       ∧ (op = 2 → t.fuse.slotHash p.arg = sliceB p.req 64 64
         ∧ t.fuse = { s.fuse with programmed := putBits s.fuse.programmed p.arg p.arg 1, hash := t.fuse.hash })
       ∧ (op = 3 → t.fuse = { s.fuse with revoked := putBits s.fuse.revoked p.arg p.arg 1 })
       ∧ (op = 4 → t.fuse = { s.fuse with genMin := leAt p.req 4 4 })
       ∧ (op = 5 → t.fuse = s.fuse ∧ t.fld F.protDebugLevel 0 = p.arg % 4)
       ∧ keepsRegs [.sysMbxArg, .sysMbxCmd, .sysMbxSts, .protDcBuf, .protDcCtl, .protDebug] s t ∧ keepsBytes s t)
     ∧ (k < 4 → r ≠ 0 → ∀ c op, row c op → p.op = op → ∃ t, exec c s = .next t ∧ t.shows m tag.toNat 7 r
       ∧ keepsCore s t ∧ t.flag F.protDcCtlValid k = false
       ∧ keepsRegs [.sysMbxArg, .sysMbxCmd, .sysMbxSts, .protDcBuf, .protDcCtl] s t ∧ keepsBytes s t)
     ∧ (4 ≤ k → ∀ c op, row c op → ∃ t, exec c s = .next t ∧ t.shows m tag.toNat 7 3
       ∧ keepsCore s t ∧ keepsRegs [.sysMbxArg, .sysMbxCmd, .sysMbxSts] s t ∧ keepsBytes s t)) ∧
  (∀ (slot : Fin 4) (s : State),
     let others := fun (t : State) => (∀ i, i < 1024 * slot.val + 32 ∨ 1024 * slot.val + 40 ≤ i → t.reg .protDcBuf i = s.reg .protDcBuf i)
       ∧ keepsOthers .protDcCtl slot s t ∧ keepsCore s t ∧ keepsRegs [.protDcBuf, .protDcCtl] s t ∧ keepsBytes s t
     (∃ t, exec (.dcArm slot) s = .next t ∧ t.flag F.protDcCtlValid slot = true ∧ others t
       ∧ (∀ j, j < 4 → t.reg .protDcBuf (1024 * slot.val + 32 + 2 * j) = (Config.random (s.dev.freeCtr + j)).toNat % 2 ^ 32
         ∧ t.reg .protDcBuf (1024 * slot.val + 33 + 2 * j) = (Config.random (s.dev.freeCtr + j)).toNat / 2 ^ 32 % 2 ^ 32))
     ∧ (∃ t, exec (.nonceExpiry slot) s = .next t ∧ t.flag F.protDcCtlValid slot = false ∧ others t
       ∧ ∀ j, j < 8 → t.reg .protDcBuf (1024 * slot.val + 32 + j) = 0))

/-! The emitters (R109 to R128). -/

/-- APPLY by a master that reaches the register waits for the aligned instant, unless the device is in RUN or the plan does not
give 4.000 GHz: then it sets APPLY_ERR and is an access error. At the instant the plan and the dividers of outputs 2 to 5 are taken,
with a re-lock where P or M change, or APPLY_ERR sets; without APPLY_PEND it does nothing. Lock ends a re-lock, and firing may
resume 1 µs later; a loss of lock is counted, logged and posted as event 3 and starts a re-lock; a re-lock of 1 ms sets LOCK_FAIL.
None of these does anything otherwise. The frames hold while no event is routed, and for a re-lock while no cluster waits for a gate
or holds hits (R121 to R126). -/
def Obligations.PllCommands : Prop :=
  ∀ (m : Master) (s : State),
    let pll := s.dev.rng.pll
    let good := decide (s.sys.op ≠ .run) && s.shadowGood
    let plain := ∀ c, c < 48 → (s.clus c).due = false ∧ (s.clus c).hits = []
    let timing : List Reg := [.linSegSts, .linBankTmin, .linDevSts, .linDevWidth]
    (s.reaches m .emtPllCtl 0 → good = true → ∃ t, exec (.apply m) s = .next t ∧ t.flag F.emtPllStsApplyPend 0 = true
      ∧ t.flag F.emtPllStsApplyErr 0 = s.flag F.emtPllStsApplyErr 0 ∧ keepsCore s t ∧ keepsRegs [.emtPllSts, .emtPllCtl] s t
      ∧ keepsBytes s t)
    ∧ (s.reaches m .emtPllCtl 0 → good = false → ∃ t, exec (.apply m) s = .next t ∧ t.flag F.emtPllStsApplyErr 0 = true
      ∧ t.flag F.emtPllStsApplyPend 0 = s.flag F.emtPllStsApplyPend 0 ∧ s.countsError t ∧ keepsCore s t
      ∧ (s.unrouted → keepsRegs [.emtPllSts, .sysAccErrCnt, .sysAccErrLast, .sysEvtSts] s t ∧ keepsBytes s t))
    ∧ (s.flag F.emtPllStsApplyPend 0 = true → good = true → ∃ t, exec .applyAlignedInstant s = .next t
      ∧ t.flag F.emtPllStsApplyPend 0 = false ∧ keepsCore s t
      ∧ t.dev.rng.pll = { pll with div := s.reg .emtPllDiv 0
                                   outs := (List.range 4).map (fun j => s.reg .emtPllOut (2 + j))
                                   relock := pll.relock || decide (pll.div ≠ s.reg .emtPllDiv 0) }
      ∧ (pll.div = s.reg .emtPllDiv 0 → keepsRegs ([.emtPllSts, .emtPllCtl] ++ timing) s t ∧ keepsBytes s t
        ∧ t.flag F.emtPllStsLocked 0 = s.flag F.emtPllStsLocked 0)
      ∧ (pll.div ≠ s.reg .emtPllDiv 0 → t.flag F.emtPllStsLocked 0 = false ∧ t.flag F.emtPllStsSafeClk 0 = true
        ∧ (plain → keepsRegs ([.emtPllSts, .emtPllCtl] ++ timing) s t ∧ keepsBytes s t)))
    ∧ (s.flag F.emtPllStsApplyPend 0 = true → good = false → ∃ t, exec .applyAlignedInstant s = .next t
      ∧ t.flag F.emtPllStsApplyPend 0 = false ∧ t.flag F.emtPllStsApplyErr 0 = true ∧ t.dev.rng.pll = pll ∧ keepsCore s t
      ∧ keepsRegs ([.emtPllSts, .emtPllCtl] ++ timing) s t ∧ keepsBytes s t)
    ∧ (s.flag F.emtPllStsApplyPend 0 = false → ∃ t, exec .applyAlignedInstant s = .next t ∧ t.dev.rng.pll = pll ∧ keepsCore s t
      ∧ keepsRegs timing s t ∧ keepsBytes s t)
    ∧ (pll.relock = true → ∃ t, exec .lockDeclared s = .next t ∧ t.flag F.emtPllStsLocked 0 = true
      ∧ t.flag F.emtPllStsSafeClk 0 = false
      ∧ t.dev.rng.pll = { pll with relock := false, resumeAt := s.dev.time.c + 1000 }
      ∧ keepsCore s t ∧ keepsRegs [.emtPllSts] s t ∧ keepsBytes s t)
    ∧ (pll.relock = true → ∃ t, exec .lockFail s = .next t ∧ t.flag F.emtPllStsLockFail 0 = true ∧ t.dev.rng.pll = pll
      ∧ keepsCore s t ∧ keepsRegs [.emtPllSts] s t ∧ keepsBytes s t)
    ∧ (pll.relock = false → exec .lockDeclared s = .next s ∧ exec .lockFail s = .next s)
    ∧ (s.flag F.emtPllStsLocked 0 = true → ∃ t, exec .lossOfLock s = .next t
      ∧ t.fld F.emtPllStsLossCnt 0 = min (s.fld F.emtPllStsLossCnt 0 + 1) 0xFFFF ∧ t.flag F.emtPllStsLocked 0 = false
      ∧ t.flag F.emtPllStsSafeClk 0 = true ∧ t.dev.rng.pll = { pll with relock := true } ∧ bitOf (t.reg .sysEvtSts 0) 3 = true
      ∧ s.logs t 0x0A 0 0x0C 32 0xFFFF ∧ keepsCore s t
      ∧ (s.unrouted → plain → keepsRegs (.emtPllSts :: logRegisters) s t ∧ keepsBytes s t))
    ∧ (s.flag F.emtPllStsLocked 0 = false → exec .lossOfLock s = .next s)

/-- In RUN a port's next shot is drawn with 16 shifts of its generator; at its permit sample it goes ahead, or is withdrawn with
its cause and counted, or, throttled, is counted as skipped, or vanishes where its port is off; a sampled shot fires at its
edge unless a permit has blocked it, with TRIG_WIDTH and phase on the pin, and either way the next one follows; one that falls into a
re-lock or finds no start-sense engine is withdrawn instead; a permit withdrawn blocks every sampled shot. What a fired shot brings its
clusters is not stated here (R108, R109, R113, R126, R128). -/
def Obligations.ShotsFire : Prop :=
  ∀ (n : Fin 32) (s : State),
    let p := s.port n
    let next (t : State) : Prop := (t.port n).drawn = none ∧ (t.port n).k = p.k + 1
      ∧ (t.port n).tNom = p.tNom + p.period + p.slip ∧ (t.port n).period = s.fld F.emtPortPeriodValue n
    let withdrawn (cause : Nat) (t : State) : Prop := next t ∧ t.fld F.emtPortStsWdCause n = cause
      ∧ t.fld F.emtPortWithdrawnCntCount n = min (s.fld F.emtPortWithdrawnCntCount n + 1) 0xFFFFFFFF
      ∧ keepsCore s t ∧ keepsRegs [.emtPortSts, .emtPortWithdrawnCnt] s t ∧ keepsBytes s t
    (s.sys.op = .run → p.drawn = none → ∃ t, ∃ x : PortShot, exec (.shotDraw n) s = .next t
      ∧ t.port n = { p with gen := (prbsWord 16 p.gen 0).2, drawn := some x }
      ∧ x.k = p.k ∧ x.tNom = p.tNom ∧ x.sampled = false ∧ x.blocked = false
      ∧ x.offset = ditherOffset (prbsWord 16 p.gen 0).1 (s.fld F.emtPortDitherSpan n)
      ∧ x.phase = ditherPhase (prbsWord 16 p.gen 0).1 (s.flag F.emtPortCtlPhaseEn n)
      ∧ x.skip = (!s.saf.zoneEmitter n && decide (8 ≤ p.k % 8 + s.fld F.thmStsLevel 0))
      ∧ keepsCore s t ∧ keepsRegs [] s t ∧ keepsBytes s t)
    ∧ (s.sys.op ≠ .run ∨ p.drawn ≠ none → exec (.shotDraw n) s = .next s)
    ∧ (∀ x, p.drawn = some x → x.sampled = false → s.flag F.emtPortCtlEn n = true → s.sys.op = .run → p.joinAt ≤ x.tNom →
      (x.skip = false → s.withdrawCause n x = 0 → ∃ t, exec (.permitSample n) s = .next t ∧ keepsCore s t ∧ keepsBytes s t
        ∧ (t.port n).drawn = some { x with sampled := true } ∧ keepsRegs [] s t)
      ∧ (x.skip = false → s.withdrawCause n x ≠ 0 → ∃ t, exec (.permitSample n) s = .next t ∧ withdrawn (s.withdrawCause n x) t)
      ∧ (x.skip = true → ∃ t, exec (.permitSample n) s = .next t ∧ next t ∧ keepsCore s t ∧ keepsRegs [.thmSkipCnt] s t
        ∧ keepsBytes s t ∧ t.fld F.thmSkipCntCount 0 = min (s.fld F.thmSkipCntCount 0 + 1) 0xFFFFFFFF))
    ∧ (∀ x, p.drawn = some x → x.sampled = false → s.flag F.emtPortCtlEn n = false ∨ s.sys.op ≠ .run ∨ x.tNom < p.joinAt →
      ∃ t, exec (.permitSample n) s = .next t ∧ next t ∧ keepsCore s t ∧ keepsRegs [] s t ∧ keepsBytes s t)
    ∧ (p.drawn = none → exec (.permitSample n) s = .next s)
    ∧ (∀ x, p.drawn = some x → x.sampled = true → s.flag F.emtPllStsSafeClk 0 = false → p.noEngine = false →
      ∃ t, exec (.fireEdge n) s = .next t ∧ next t ∧ keepsCore s t
      ∧ (t.port n).cur = some { x with fired := !x.blocked, fireFix := s.timeFix }
      ∧ (x.blocked = false → Out.pin 0 n (64 * s.fld F.emtPortCtlTrigWidth n + x.phase) ∈ t.dev.out
        ∧ t.fld F.emtPortFireCntCount n = min (s.fld F.emtPortFireCntCount n + 1) 0xFFFFFFFF
        ∧ (s.followers n = [] → keepsRegs [.emtPortFireCnt, .emtPortLast] s t ∧ keepsBytes s t))
      ∧ (x.blocked = true → t.dev.out = s.dev.out ∧ t.fld F.emtPortFireCntCount n = s.fld F.emtPortFireCntCount n
        ∧ (s.followers n = [] → keepsRegs [] s t ∧ keepsBytes s t)))
    ∧ (∀ x, p.drawn = some x → x.sampled = true → s.flag F.emtPllStsSafeClk 0 = true ∨ p.noEngine = true →
      ∃ t, exec (.fireEdge n) s = .next t ∧ withdrawn (if s.flag F.emtPllStsSafeClk 0 then 2 else 3) t ∧ t.dev.out = s.dev.out)
    ∧ ((∀ x, p.drawn = some x → x.sampled = false) → exec (.fireEdge n) s = .next s)
    ∧ (∃ t, exec .permitWithdrawn s = .next t ∧ keepsCore s t ∧ keepsRegs [.emtSts, .emtPortSts] s t ∧ keepsBytes s t
      ∧ t.flag F.emtStsPermitA 0 = s.saf.a.emission ∧ t.flag F.emtStsPermitB 0 = s.saf.b.emission
      ∧ (s.flag F.emtStsPermitA 0 = true ∧ s.saf.a.emission = false ∨ s.flag F.emtStsPermitB 0 = true ∧ s.saf.b.emission = false →
        ∀ x, p.drawn = some x → x.sampled = true → (t.port n).drawn = some { x with blocked := true }))

/-- The first start-sense edge inside its window starts a conversion in a free engine and reaches both safety channels; where no
engine can convert it, or the safe clock runs, the shot has no reference; every other edge sets SPURIOUS. A window that ends without an
edge after a shot that was fired counts a missing edge, and the run that reaches the limit sets SENSE_LOST and is logged; without a
shot, or with its edge seen, it does nothing. A gate that is open closes and its idle window begins (R70, R97, R116, R117). -/
def Obligations.StartSenseAndGates : Prop :=
  ∀ (n : Fin 32) (d : BitVec 24) (ch : Fin 768) (stuck : Bool) (s : State),
    let p := s.port n
    let free := s.engineFree (senseUnit n) && !s.flag F.emtPllStsSafeClk 0
    let k := s.chan ch
    (s.domainOn 139 = false → exec (.startSenseEdge n d) s = .next s)
    ∧ (s.domainOn 139 = true → s.senseInWindow n d.toNat = true → free = true → ∃ t x, exec (.startSenseEdge n d) s = .next t
      ∧ p.cur = some x ∧ t.port n = { p with cur := some { x with edge := true, coarse := min 65535 (d.toNat / 128 + 1) } }
      ∧ (t.engine (senseUnit n)).busy = true ∧ t.saf = s.saf.senseEvent n ∧ t.sys = s.sys ∧ t.fuse = s.fuse
      ∧ keepsRegs [.emtSts, .emtPortSts] s t ∧ keepsBytes s t)
    ∧ (s.domainOn 139 = true → s.senseInWindow n d.toNat = true → free = false → ∃ t x, exec (.startSenseEdge n d) s = .next t
      ∧ p.cur = some x ∧ (t.port n).missRun = p.missRun ∧ (∃ y, (t.port n).cur = some y ∧ y.edge = true ∧ y.resolved = true)
      ∧ t.saf = s.saf.senseEvent n ∧ t.sys = s.sys ∧ t.fuse = s.fuse)
    ∧ (s.domainOn 139 = true → s.senseInWindow n d.toNat = false → ∃ t, exec (.startSenseEdge n d) s = .next t
      ∧ t.flag F.emtPortStsSpurious n = true ∧ keepsCore s t ∧ keepsRegs [.emtPortSts] s t ∧ keepsBytes s t)
    ∧ (∀ x, p.cur = some x → x.edge = false → x.resolved = false → ∃ t, exec (.senseWindowEnd n) s = .next t ∧ keepsCore s t
      ∧ (t.port n).cur = some { x with resolved := true }
      ∧ (x.fired = true → (t.port n).missRun = p.missRun + 1
        ∧ t.fld F.emtPortNosenseCntCount n = min (s.fld F.emtPortNosenseCntCount n + 1) 0xFFFFFFFF
        ∧ (s.fld F.emtPortCtlSenseLostLimit n ≤ p.missRun + 1 → t.flag F.emtPortStsSenseLost n = true)
        ∧ (s.fld F.emtPortCtlSenseLostLimit n ≤ p.missRun + 1 → s.flag F.emtPortStsSenseLost n = false →
          s.logs t 0x09 2 0x0C n 0xFFFF)
        ∧ (p.missRun + 1 < s.fld F.emtPortCtlSenseLostLimit n → s.awaiting n x.k = [] →
          keepsRegs [.emtPortNosenseCnt] s t ∧ keepsBytes s t))
      ∧ (x.fired = false → t.fld F.emtPortNosenseCntCount n = s.fld F.emtPortNosenseCntCount n
        ∧ (s.awaiting n x.k = [] → keepsRegs [] s t ∧ keepsBytes s t)))
    ∧ ((p.cur = none ∨ ∃ x, p.cur = some x ∧ (x.edge = true ∨ x.resolved = true)) → exec (.senseWindowEnd n) s = .next s)
    ∧ (k.gateOpen = true → (s.clus (ch / 16)).due = false → ∃ t, exec (.gateClose ch stuck) s = .next t
      ∧ t.chan ch = { k with
          gateOpen := false, idle := true, stuckShots := k.stuckShots + (if stuck then 1 else 0)
          adaptGate := k.adaptGate + (if s.adapting ch then s.inForce F.rcvChGateClose ch - s.inForce F.rcvChGateOpen ch else 0) }
      ∧ keepsCore s t ∧ keepsRegs [] s t ∧ keepsBytes s t)
    ∧ (k.gateOpen = true → (s.clus (ch / 16)).due = true → ∃ t, exec (.gateClose ch stuck) s = .next t
      ∧ (t.chan ch).gateOpen = false ∧ keepsCore s t
      ∧ ((∀ q, q < 16 → 16 * (ch.val / 16) + q ≠ ch.val → (s.chan (16 * (ch.val / 16) + q)).gateOpen = false) →
        (t.clus (ch / 16)).due = false ∧ t.accBuf (ch / 16) = !s.accBuf (ch / 16)))
    ∧ (k.gateOpen = false → exec (.gateClose ch stuck) s = .next s)

/-! Vernier engines and hits (R74 to R102). -/

/-- A calibration slot that starts loads N1 and N2 of a unit that works and is idle: g and s follow within their range, and out of
range GAIN_RANGE is set; the second time in succession the unit has failed; a busy engine skips the slot and counts. 64 slots above
or below 128 move RING_TRIM by one within its range. A conversion without coincidence sets TIMEOUT and the unit has failed. Nothing
happens where no slot starts or the unit does not work (R85 to R88, R100). -/
def Obligations.EngineUpkeep : Prop :=
  ∀ (u : Fin 2112) (n1 n2 : Fin 320) (s : State),
    let e := s.engine u
    let g : Int := (n2.val : Int) - n1.val
    let k : Int := 2 * (n1.val : Int) - n2.val
    let r := s.fld F.tdcEngStsRingTrim u
    let within := 120 ≤ g ∧ g ≤ 136 ∧ -8 ≤ k ∧ k ≤ 8
    (s.slotStarts u = false → exec (.calibrationSlot u n1 n2) s = .next s)
    ∧ (s.slotStarts u = true → s.unitWorks u = true → s.slotSkipped u = false → within →
      ∃ t, exec (.calibrationSlot u n1 n2) s = .next t ∧ keepsCore s t
        ∧ t.fld F.tdcEngCalN1 u = n1.val ∧ t.fld F.tdcEngCalN2 u = n2.val
        ∧ (t.engine u).g = g.toNat ∧ (t.engine u).skew = k ∧ (t.engine u).gainRun = 0
        ∧ (128 < g → (t.engine u).aboveRun = e.aboveRun + 1 ∧ (t.engine u).belowRun = 0)
        ∧ (g < 128 → (t.engine u).belowRun = e.belowRun + 1 ∧ (t.engine u).aboveRun = 0)
        ∧ (g = 128 → (t.engine u).belowRun = 0 ∧ (t.engine u).aboveRun = 0))
    ∧ (s.slotStarts u = true → s.unitWorks u = true → s.slotSkipped u = false → ¬within →
      ∃ t, exec (.calibrationSlot u n1 n2) s = .next t ∧ keepsCore s t
        ∧ t.fld F.tdcEngCalN1 u = n1.val ∧ t.fld F.tdcEngCalN2 u = n2.val
        ∧ t.flag F.tdcEngStsGainRange u = true ∧ (t.engine u).g = e.g ∧ (t.engine u).skew = e.skew
        ∧ t.unitWorks u = decide (e.gainRun = 0))
    ∧ (s.slotStarts u = true → s.unitWorks u = true → s.slotSkipped u = true →
      ∃ t, exec (.calibrationSlot u n1 n2) s = .next t ∧ keepsCore s t
        ∧ t.fld F.tdcEngSkipCntCount u = min (s.fld F.tdcEngSkipCntCount u + 1) 0xFFFFFFFF
        ∧ (t.engine u).g = e.g ∧ (t.engine u).skew = e.skew)
    ∧ (s.unitWorks u = true → ∃ t, exec (.ringTrimStep u) s = .next t ∧ keepsCore s t ∧ keepsRegs [.tdcEngSts] s t ∧ keepsBytes s t
      ∧ (64 ≤ e.aboveRun → t.fld F.tdcEngStsRingTrim u = min (r + 1) 63 ∧ (t.engine u).aboveRun = 0)
      ∧ (e.aboveRun < 64 → 64 ≤ e.belowRun → t.fld F.tdcEngStsRingTrim u = r - 1 ∧ (t.engine u).belowRun = 0)
      ∧ (e.aboveRun < 64 → e.belowRun < 64 → t = s))
    ∧ (s.unitWorks u = false → exec (.ringTrimStep u) s = .next s ∧ exec (.conversionTimeout u) s = .next s)
    ∧ (s.unitWorks u = true → ∃ t, exec (.conversionTimeout u) s = .next t ∧ keepsCore s t
      ∧ (¬(2000 ≤ u.val ∧ u.val < 2032 ∧ e.busy = true) → t.flag F.tdcEngStsTimeout u = true ∧ t.unitWorks u = false
        ∧ (t.engine u).conv = none ∧ (t.engine u).busy = false))

/-- One hit on a channel: inside the 4 ns after a trailing edge it belongs to the hit before it and is not counted; without a shot, or
with a void one, it does nothing; outside the gate it counts out of gate; inside an open gate it starts a conversion in a free engine
and takes a token of each bucket, or is dropped with its cause and counted where a bucket is empty or no engine is free. An input above
the linear range sets TIA_OVERLOAD. A masked, silent or unpowered channel sees nothing (R63, R64, R70 to R75, R84). -/
def Obligations.HitAdmission : Prop :=
  ∀ (c : Fin 48) (q : Fin 16) (lead : BitVec 23) (high : Option (BitVec 24)) (trail : BitVec 24) (ovr : Bool) (s : State),
    let ch := 16 * c.val + q.val
    let i : Instr := .hit c [(q, lead, high, trail, ovr)]
    let k := s.chan ch
    let at' := s.refInstant c + 512 * (lead.toNat : Int)
    let fresh := decide (k.lowUntil ≤ at')
    let r := (s.refillChan ch).refillClus c
    let seen (R : List Reg) (t : State) : Prop := keepsCore s t ∧ keepsBytes s t ∧ keepsRegs (.rcvChSts :: R) s t
      ∧ keepsOthers .rcvChSts ch s t ∧ (ovr = true → t.flag F.rcvChStsTiaOverload ch = true)
    (s.chanLive ch = false → exec i s = .next s)
    ∧ (s.chanLive ch = true → fresh = false → ∃ t, exec i s = .next t ∧ seen [] t ∧ (t.chan ch).inGate = k.inGate
      ∧ (t.chan ch).tokens = k.tokens ∧ (t.clus c).tokens = (s.clus c).tokens
      ∧ ∀ u, (t.engine u).busy = (s.engine u).busy)
    ∧ (s.chanLive ch = true → fresh = true → (s.clus c).shot = none → ∃ t, exec i s = .next t ∧ seen [] t
      ∧ (t.chan ch).inGate = k.inGate)
    ∧ (∀ x ref, s.chanLive ch = true → fresh = true → (s.clus c).shot = some x → x.tRef = some ref → x.void = false →
      s.gateValid ch = true → (s.clus c).dark = false →
      let inside := decide (s.inForce F.rcvChGateOpen ch ≤ lead.toNat / 128) && decide (lead.toNat / 128 < s.inForce F.rcvChGateClose ch)
        && k.gateOpen
      (inside = false → ∃ t, exec i s = .next t ∧ seen [.rcvChOogCnt] t
        ∧ t.fld F.rcvChOogCntCount ch = min (s.fld F.rcvChOogCntCount ch + 1) 0xFFFFFFFF)
        ∧ (∀ u, inside = true → 0 < (r.chan ch).tokens → s.pickEngine ch = some u → 0 < (r.clus c).tokens →
          ∃ t, exec i s = .next t ∧ seen [] t ∧ (t.engine u).busy = true
            ∧ (∃ v, (t.engine u).conv = some v ∧ v.ch = ch ∧ v.tRef = ref ∧ v.shotId = x.k % 65536 ∧ v.buf = s.accBuf c
              ∧ v.lowEff = s.fld F.rcvChThrEffLowEff ch ∧ v.highEff = s.fld F.rcvChThrEffHighEff ch)
            ∧ (t.chan ch).inGate = k.inGate + 1
            ∧ (t.chan ch).tokens = (r.chan ch).tokens - 1 ∧ (t.clus c).tokens = (r.clus c).tokens - 1)
        ∧ (inside = true → (r.chan ch).tokens = 0 ∨ s.pickEngine ch = none ∨ (r.clus c).tokens = 0 →
          ∃ t, exec i s = .next t ∧ seen [.rcvChOvlCnt, .rcvClDropCnt] t
            ∧ t.fld F.rcvChOvlCntCount ch = min (s.fld F.rcvChOvlCntCount ch + 1) 0xFFFFFFFF
            ∧ ((r.chan ch).tokens = 0 → t.flag F.rcvChStsRateDrop ch = true)
            ∧ (0 < (r.chan ch).tokens → s.pickEngine ch = none → t.flag F.rcvChStsEngineBusyDrop ch = true)))

/-- A completed conversion of a hit frees its engine and adds one hit of weight 1 at its walk-corrected code to the histogram its
gate belonged to, where the coincidence stage is off, the code lies below bin 8,192, and that histogram stands and no code error is
found; with the stage on it waits with its shot's other hits. One of a start-sense edge resolves its shot and ends the run of missing
edges. An idle engine that samples counts one bow sample; a unit that does not work does nothing (R81, R94, R116, R130, R154). -/
def Obligations.ConversionsEnd : Prop :=
  ∀ (u : Fin 2112) (n : Fin 32) (k : Fin 160) (fix bad : Bool) (fw bw : BitVec 20) (s : State),
    let e := s.engine u
    let i : Instr := .conversionComplete u k fix fw bad bw
    (s.unitWorks u = false → exec i s = .next s)
    ∧ (∀ v code width d, s.unitWorks u = true → s.convResult u k = some (v, code, width, d) → (s.clus (v.ch / 16)).hits = [] →
      let cl := v.ch / 16
      let d' := if v.lowEff < v.highEff then d else none
      let ended (t : State) : Prop := keepsCore s t ∧ keepsBytes s t ∧ (t.engine u).conv = none ∧ (t.engine u).busy = false
        ∧ (4095 ≤ width → t.flag F.rcvChStsWidthSat v.ch = true)
      let there := decide (((s.clus cl).buf v.buf).no = v.hist)
      (fix = false → bad = false → bitOf v.coinc 31 = false → code / 128 < 8192 → there = true → ∃ t, exec i s = .next t ∧ ended t
          ∧ t.hist cl v.buf (v.ch % 16) = (s.hist cl v.buf (v.ch % 16)).add code 1 (min 4095 width) d'
          ∧ keepsRegs [.rcvChSts, .felClSts] s t)
        ∧ (bitOf v.coinc 31 = false → 8192 ≤ code / 128 → there = true → ∃ t, exec i s = .next t ∧ ended t
          ∧ t.fld F.rcvChOogCntCount v.ch = min (s.fld F.rcvChOogCntCount v.ch + 1) 0xFFFFFFFF
          ∧ keepsRegs [.rcvChSts, .rcvChOogCnt] s t)
        ∧ (bitOf v.coinc 31 = false → there = false → ∃ t, exec i s = .next t ∧ ended t ∧ keepsRegs [.rcvChSts] s t)
        ∧ (∀ x, bitOf v.coinc 31 = true → (s.clus cl).shot = some x → x.n = v.n → ((s.clus cl).buf (s.accBuf cl)).no = v.hist →
          ∃ t, exec i s = .next t ∧ ended t ∧ keepsRegs [.rcvChSts] s t
            ∧ (t.clus cl).hits = [⟨v.ch, v.n, code, min 4095 width, d', v.buf, v.hist, v.coinc, v.live⟩]))
    ∧ (∀ x, u.val = senseUnit n → s.unitWorks u = true → e.conv = none → e.busy = true → (s.port n).cur = some x → x.edge = true →
      x.resolved = false → ∃ t, exec i s = .next t ∧ keepsCore s t ∧ (t.engine u).busy = false
        ∧ t.port n = { s.port n with cur := some { x with resolved := true }, missRun := 0 }
        ∧ (s.awaiting n x.k = [] → keepsRegs [] s t ∧ keepsBytes s t))
    ∧ (s.unitWorks u = true → e.conv = none → e.busy = false → s.samples u = true → s.bowOn u = true → e.total < 2 ^ 20 →
      ∃ t, exec i s = .next t ∧ (t.engine u).total = e.total + 1
        ∧ (t.engine u).sumG = e.sumG + e.g ∧ keepsCore s t ∧ keepsRegs [] s t ∧ keepsBytes s t)
    ∧ (s.unitWorks u = true → e.conv = none → e.busy = false → s.samples u = false → exec i s = .next s)

/-! Trims, tables, utility engines and channel conditions (R57, R58, R89 to R105, R152, R153, R455). -/

/-- The end of an adaptive window forms the rate and moves the offset up by STEP_UP to ADAPT_MAX at most, or down by 1; a trim
decision in an idle window moves x by one within −64 to 63 and sets LIMIT beyond; a second without a decision in RUN sets STARVED; a
servo that clamps sets DC_SAT and holds DC_CURRENT at 65,535; a deviating cluster reference sets REF_FAULT and is logged with code 0x08
and flag 1, its class and units left open (log entry 6). Each keeps everything else; none acts without power (R57, R58, R97, R152,
R153). -/
def Obligations.ChannelUpkeep : Prop :=
  ∀ (ch : Fin 768) (c : Fin 48) (high clamped : Bool) (n0 n1 : BitVec 21) (s : State),
    let k := s.chan ch
    let cl := ch.val / 16
    let ends := s.adapting ch && decide (2 ^ s.inForce F.rejClAdaptAdaptWin cl ≤ k.adaptShots)
    let a := s.fld F.rejChStatAdapt ch
    let top := s.inForce F.rejClAdaptAdaptMax cl
    let n := 2 ^ (14 + 2 * s.fld F.tdcTileCtlTrimSamples (ch.val / 64))
    let f := if high then F.tdcTrimHighTrim else F.tdcTrimLowTrim
    let x := s.sfld f ch
    let y := if 2 * n0.toNat < n then x - 1 else if n ≤ 2 * n1.toNat then x + 1 else x
    (ends = false → exec (.adaptWindowEnd ch) s = .next s)
    ∧ (ends = true → ∃ t, exec (.adaptWindowEnd ch) s = .next t ∧ keepsCore s t ∧ keepsBytes s t
      ∧ keepsRegs [.rejChStat, .rcvChThrEff] s t ∧ keepsOthers .rejChStat ch s t ∧ keepsOthers .rcvChThrEff ch s t
      ∧ t.chan ch = { k with adaptShots := 0, adaptCount := 0, adaptGate := 0 }
      ∧ (k.adaptGate = 0 → keepsRegs [] s t)
      ∧ (0 < k.adaptGate → t.fld F.rejChStatRate ch = min 255 (k.adaptCount * 1000 / k.adaptGate)
        ∧ (s.inForce F.rejClAdaptRateHi cl * k.adaptGate < k.adaptCount * 1000 →
          t.fld F.rejChStatAdapt ch = min top (a + s.inForce F.rejClAdaptStepUp cl)
            ∧ (top ≤ a + s.inForce F.rejClAdaptStepUp cl → t.flag F.rejChStatAdaptLimit ch = true))
        ∧ (k.adaptCount * 1000 ≤ s.inForce F.rejClAdaptRateHi cl * k.adaptGate →
          k.adaptCount * 1000 < s.inForce F.rejClAdaptRateLo cl * k.adaptGate → t.fld F.rejChStatAdapt ch = a - 1)
        ∧ (k.adaptCount * 1000 ≤ s.inForce F.rejClAdaptRateHi cl * k.adaptGate →
          s.inForce F.rejClAdaptRateLo cl * k.adaptGate ≤ k.adaptCount * 1000 → t.fld F.rejChStatAdapt ch = a)))
    ∧ (s.probes ch = true → ∃ t, exec (.trimDecision ch high n0 n1) s = .next t ∧ keepsCore s t ∧ keepsBytes s t
      ∧ keepsRegs [.tdcTrim] s t ∧ keepsOthers .tdcTrim ch s t ∧ t.sfld f ch = (if -64 ≤ y ∧ y ≤ 63 then y else x)
      ∧ (y < -64 ∨ 63 < y → t.flag F.tdcTrimLimit ch = true))
    ∧ (s.probes ch = false → exec (.trimDecision ch high n0 n1) s = .next s)
    ∧ (s.sys.op = .run → s.clusterPowered cl = true → ∃ t, exec (.starved ch) s = .next t ∧ t.flag F.tdcTrimStarved ch = true
      ∧ keepsCore s t ∧ keepsBytes s t ∧ keepsRegs [.tdcTrim] s t ∧ keepsOthers .tdcTrim ch s t)
    ∧ (s.sys.op ≠ .run ∨ s.clusterPowered cl = false → exec (.starved ch) s = .next s)
    ∧ (s.domainOn cl = true → ∃ t, exec (.dcSat (ch, clamped)) s = .next t ∧ keepsCore s t ∧ keepsBytes s t
      ∧ keepsRegs [.rcvChSts] s t ∧ keepsOthers .rcvChSts ch s t ∧ t.chan ch = { k with clamped := clamped }
      ∧ (clamped = true → t.readWord .rcvChDc ch = 65535)
      ∧ (clamped = true → s.clusterOn cl = true → t.flag F.rcvChStsDcSat ch = true)
      ∧ (clamped = false → keepsRegs [] s t))
    ∧ (s.domainOn cl = false → exec (.dcSat (ch, clamped)) s = .next s)
    ∧ (s.clusterPowered c = true → ∃ t cls lg ph, exec (.refFault c) s = .next t ∧ t.flag F.rcvClStsRefFault c = true
      ∧ s.logs t 0x08 1 cls lg ph ∧ keepsCore s t ∧ (s.unrouted → keepsRegs (.rcvClSts :: logRegisters) s t ∧ keepsBytes s t))
    ∧ (s.clusterPowered c = false → exec (.refFault c) s = .next s)

/-- A table of a working unit is built once 2^20 samples are held: a rejected one is counted with BOW_REJECT, and the third in
succession fails the engine; an accepted one waits, with gbow to the nearest 1/256 (log entry 56). An internal boundary gives a working
channel engine the counts given, or counts a skipped slot; in RUN it does nothing once a shot boundary has come. A utility engine's gate
with fewer than two edges clears VALID; with two or more it writes the result of its edges in its mode, for a divisor other than 0,
and sets VALID (R90, R91, R94, R104, R455). -/
def Obligations.TablesAndUtility : Prop :=
  ∀ (u : Fin 2112) (counts : List (Fin 2112 × Fin 320 × Fin 320)) (n : Fin 12) (edges : BitVec 32) (first last : BitVec 64 × Fin 160)
    (pairs : List ((BitVec 64 × Fin 160) × (BitVec 64 × Fin 160))) (fast : Bool) (s : State),
    let e := s.engine u
    let cleared : Engine := { e with bins := [], low := 0, high := 0, total := 0, sumG := 0 }
    let on := s.domainOn 139 && s.flag F.tdcUtilCtlEn n && !s.flag F.tdcUtilStsFailed n
    let at' (k : Nat) (x : BitVec 64 × Fin 160) : Int := s.utilEdge k (x.1.toNat, x.2.val)
    let span := (at' n last - at' n first).toNat
    let sum := (pairs.foldl (fun (t : Int) p => t + (at' (n + 4) p.2 - at' n p.1)) 0).toNat
    let gate : Instr := .utilityGateEnd n edges first last pairs fast
    (s.unitWorks u = false ∨ e.total < 2 ^ 20 → exec (.bowTableBuild u) s = .next s)
    ∧ (s.unitWorks u = true → 2 ^ 20 ≤ e.total → rejectBow e.bins = true → ∃ t, exec (.bowTableBuild u) s = .next t ∧ keepsCore s t
        ∧ t.flag F.tdcEngStsBowReject u = true
        ∧ t.fld F.tdcEngRejCntCount u = min (s.fld F.tdcEngRejCntCount u + 1) 0xFFFFFFFF
        ∧ (e.rejRun < 2 → t.engine u = { cleared with rejRun := e.rejRun + 1 } ∧ keepsRegs [.tdcEngSts, .tdcEngRejCnt] s t
          ∧ keepsBytes s t)
        ∧ (2 ≤ e.rejRun → t.unitWorks u = false ∧ (t.engine u).busy = false))
    ∧ (s.unitWorks u = true → 2 ^ 20 ≤ e.total → rejectBow e.bins = false → ∃ t, exec (.bowTableBuild u) s = .next t
        ∧ keepsCore s t ∧ keepsRegs [] s t ∧ keepsBytes s t
        ∧ t.engine u = { cleared with
            rejRun := 0, waiting := some (buildCentres e.bins 128 0 e.low, (divRound (e.sumG * 256) (2 ^ 20)).toNat)
            shadow := (e.shadow + 1) % 16 })
    ∧ (s.sys.op = .run → s.dev.rng.runSlots = true → exec (.internalBoundary counts) s = .next s)
    ∧ (s.sys.op ≠ .run ∨ s.dev.rng.runSlots = false → ∃ t, exec (.internalBoundary counts) s = .next t ∧ keepsCore s t
      ∧ (u.val < 1632 → u.val % 34 < 32 → s.unitWorks u = true →
        (s.slotSkipped u = true → t.fld F.tdcEngSkipCntCount u = min (s.fld F.tdcEngSkipCntCount u + 1) 0xFFFFFFFF)
        ∧ (s.slotSkipped u = false → ∀ p, counts.find? (fun p => p.1 = u) = some p →
          t.fld F.tdcEngCalN1 u = p.2.1.val ∧ t.fld F.tdcEngCalN2 u = p.2.2.val)))
    ∧ (on = false → exec gate s = .next s)
    ∧ (on = true → edges.toNat < 2 → ∃ t, exec gate s = .next t ∧ keepsCore s t ∧ keepsBytes s t ∧ keepsRegs [.tdcUtilSts] s t
      ∧ (fast = true → t.flag F.tdcUtilStsOverrun n = true) ∧ t.flag F.tdcUtilStsValid n = false)
    ∧ (on = true → 2 ≤ edges.toNat → ∃ t, exec gate s = .next t ∧ keepsCore s t ∧ keepsBytes s t
      ∧ keepsRegs [.tdcUtilSts, .tdcUtilResLo, .tdcUtilResHi] s t
      ∧ (fast = true → t.flag F.tdcUtilStsOverrun n = true) ∧ t.flag F.tdcUtilStsValid n = true
      ∧ (s.utilMode n = 0 → t.pair .tdcUtilResLo .tdcUtilResHi n
        = (divRound span (64 * (edges.toNat - 1))).toNat % 2 ^ 64)
      ∧ (s.utilMode n = 1 → span ≠ 0 → t.pair .tdcUtilResLo .tdcUtilResHi n
        = (divRound ((edges.toNat - 1) * s.prescale n * 10 ^ 15 * 65536 : Nat) span).toNat % 2 ^ 64)
      ∧ (s.utilMode n = 2 → pairs ≠ [] → t.pair .tdcUtilResLo .tdcUtilResHi n
        = (divRound sum (64 * pairs.length)).toNat % 2 ^ 64))

/-! Histograms (R78, R79, R130 to R151). -/

/-- A cluster in RUN that has SHOTS shots closes its histogram, waiting for a gate that is still open, and one in silence with at
least one shot closes it short and counts it: the buffers swap, the new one holds only the shots delivered while the boundary waited,
the closed one goes to the end of the tile's extraction queue, and every written setting of the cluster and its channels is in force.
The extractor takes the channels of the first histogram in the queue in order, empties each, and after the last counts the histogram
and shows its valid shots; an empty queue gives nothing (R133 to R136, R149). -/
def Obligations.HistogramsClose : Prop :=
  ∀ (c : Fin 48) (tl : Fin 12) (errs : List (BitVec 20 × Bool)) (s : State),
    let d := ((s.clus c).buf (s.accBuf c)).delivered
    let due := s.sys.op = .run ∧ 0 < d ∧ s.inForce F.felClCtlShots c ≤ d
    let closed (t : State) : Prop := keepsCore s t ∧ t.accBuf c = !s.accBuf c
      ∧ ((t.clus c).buf (t.accBuf c)).delivered = (s.clus c).early ∧ (t.clus c).due = false
      ∧ (t.tile (c.val / 4)).queue = (s.tile (c.val / 4)).queue.filter (·.1 ≠ c.val) ++ [(c.val, 0)]
      ∧ (∀ r ∈ heldClusRegs, t.reg r (forceAt c) = s.reg r c)
      ∧ (∀ r ∈ heldChanRegs, ∀ p, p < 16 → t.reg r (forceAt (16 * c.val + p)) = s.reg r (16 * c.val + p))
      ∧ t.flag F.felClStsPending c = false
    (due → s.anyGate c = false → ∃ t, exec (.histogramBoundary c) s = .next t ∧ closed t
      ∧ t.fld F.felClShortCntCount c = s.fld F.felClShortCntCount c)
    ∧ (due → s.anyGate c = true → ∃ t, exec (.histogramBoundary c) s = .next t ∧ (t.clus c).due = true ∧ t.accBuf c = s.accBuf c
      ∧ keepsCore s t ∧ keepsRegs [] s t ∧ keepsBytes s t)
    ∧ (¬due → exec (.histogramBoundary c) s = .next s)
    ∧ (s.sys.op = .run → 0 < d → ∃ t, exec (.histogramSilence c) s = .next t ∧ closed t
      ∧ t.flag F.felClStsShort c = true ∧ (t.clus c).shot = none
      ∧ t.fld F.felClShortCntCount c = min (s.fld F.felClShortCntCount c + 1) 0xFFFFFFFF)
    ∧ (s.sys.op ≠ .run ∨ d = 0 → exec (.histogramSilence c) s = .next s)
    ∧ ((s.tile tl).queue = [] → exec (.channelExtracted (tl, errs)) s = .next s)
    ∧ (∀ k p rest, (s.tile tl).queue = (k, p) :: rest → ∃ t, exec (.channelExtracted (tl, errs)) s = .next t ∧ keepsCore s t
      ∧ t.hist k (!s.accBuf k) p = {}
      ∧ (p < 15 → (t.tile tl).queue = (k, p + 1) :: rest ∧ t.fld F.felClHistCntCount k = s.fld F.felClHistCntCount k)
      ∧ (15 ≤ p → (t.tile tl).queue = rest
        ∧ t.fld F.felClHistCntCount k = min (s.fld F.felClHistCntCount k + 1) 0xFFFFFFFF
        ∧ (let b := (s.clus k).buf (!s.accBuf k)
          t.fld F.felClStsSvLast k = (b.delivered - b.voids - b.unconf) % 4096)))

/-- By a master that reaches the register, WALK_COMMIT copies the tile's written table at once to each of its clusters that has
no histogram in progress, has no power, or lies outside RUN, and stands until the last of the others has switched; while it
stands a further WALK_COMMIT changes no register. ARM with a position sets ARM, clears DONE and names the channel (R79, R150,
R456). -/
def Obligations.WalkAndSnapshot : Prop :=
  ∀ (m : Master) (tl : Fin 12) (pos : Fin 64) (s : State),
    let waits (c : Nat) : Bool := (s.clus c).inProgress && s.clusterOn c && decide (s.sys.op = .run)
    (s.reaches m .rcvTileCtl tl → s.flag F.rcvTileCtlWalkCommit tl = false →
      ∃ t, exec (.walkCommit m tl) s = .next t ∧ keepsCore s t ∧ keepsBytes s t ∧ keepsRegs [.rcvTileCtl, .rcvWalk] s t
        ∧ (∀ i, i < 0x100000 → t.reg .rcvWalk i = s.reg .rcvWalk i)
        ∧ (t.flag F.rcvTileCtlWalkCommit tl = true ↔ ∃ j, j < 4 ∧ waits (4 * tl.val + j) = true)
        ∧ ∀ j, j < 4 → let c := 4 * tl.val + j
          (waits c = true → (t.clus c).walkPend = true
            ∧ ∀ n, n < 128 → t.reg .rcvWalk (activeWalk c n) = s.reg .rcvWalk (activeWalk c n))
          ∧ (waits c = false → (t.clus c).walkPend = false
            ∧ ∀ n, n < 128 → t.reg .rcvWalk (activeWalk c n) = s.reg .rcvWalk (128 * tl.val + n)))
    ∧ (s.reaches m .rcvTileCtl tl → s.flag F.rcvTileCtlWalkCommit tl = true →
      ∃ t, exec (.walkCommit m tl) s = .next t ∧ keepsCore s t ∧ keepsBytes s t ∧ keepsRegs [] s t)
    ∧ (s.reaches m .felSnap tl → ∃ t, exec (.snapshotArm m tl pos) s = .next t ∧ keepsCore s t ∧ keepsBytes s t
      ∧ keepsRegs [.felSnap] s t ∧ keepsOthers .felSnap tl s t ∧ t.flag F.felSnapArm tl = true
      ∧ t.flag F.felSnapDone tl = false ∧ t.fld F.felSnapChannel tl = pos.val)

/-! The domain schedule and bistatic reception (R159 to R164, R299). -/

/-- At the start of a frame in RUN the keeper shows e, slips by 1 ns where |e| has reached 1 ns, with every port's fire times from
the next frame on and a slip notice on the ring, and sets ALARM where |e| exceeds TOL; without a running keeper it does nothing.
The 1 ms timer in RUN sends this device's announcement; shot entries that wait leave in batches of 127 at most (R161, R162,
R299). -/
def Obligations.ScheduleKept : Prop :=
  ∀ (n : Fin 32) (s : State),
    let x := s.dev.rng.sched
    let f := x.frame + 1
    let e := s.tag256 - 256 * s.frameTag f
    let δ : Int := if 256 ≤ e then -1 else if e ≤ -256 then 1 else 0
    let next := x.nextStart + s.fld F.rejSchedPeriodPeriod 0
    let on := s.sys.op = .run ∧ s.flag F.rejSchedStsRunning 0 = true
    (¬on → exec .frameStart s = .next s)
    ∧ (on → ∃ t, exec .frameStart s = .next t ∧ keepsCore s t
      ∧ (s.unrouted → keepsRegs [.rejSchedSts, .rejSchedSlipCnt, .sysEvtSts] s t ∧ keepsBytes s t)
      ∧ t.sfld F.rejSchedStsError 0 = clampI (-32768) 32767 e
      ∧ t.dev.rng.sched = { x with frame := f, nextStart := next + δ }
      ∧ (s.fld F.rejSchedGuardTol 0 * 256 < e.natAbs → t.flag F.rejSchedStsAlarm 0 = true)
      ∧ (δ = 0 → t.dev.rng.ports = s.dev.rng.ports ∧ t.fld F.rejSchedSlipCntCount 0 = s.fld F.rejSchedSlipCntCount 0)
      ∧ (δ ≠ 0 → t.fld F.rejSchedSlipCntCount 0 = min (s.fld F.rejSchedSlipCntCount 0 + 1) 0xFFFFFFFF
        ∧ (next ≤ (s.port n).tNom → (t.port n).tNom = (s.port n).tNom + δ ∧ (t.port n).slip = (s.port n).slip
          ∧ (t.port n).drawn = (s.port n).drawn.map fun y => { y with tNom := y.tNom + δ })
        ∧ ((s.port n).tNom < next → (t.port n).slip = (s.port n).slip + δ ∧ (t.port n).tNom = (s.port n).tNom
          ∧ (t.port n).drawn = (s.port n).drawn)
        ∧ (s.unrouted → s.handsRing t 0x02 (leBytes 8 (f + 1) ++ leBytes 1 (if δ = 1 then 0x01 else 0xFF)))))
    ∧ (s.sys.op = .run → ∃ t, exec .announcementSend s = .next t ∧ keepsCore s t ∧ keepsRegs [] s t
      ∧ keepsBytes s t ∧ s.handsRing t 0x01 (s.announcement false))
    ∧ (s.sys.op ≠ .run → exec .announcementSend s = .next s)
    ∧ (x.shots = [] → exec .shotBatchSend s = .next s)
    ∧ (x.shots ≠ [] → ∃ t, exec .shotBatchSend s = .next t ∧ keepsCore s t ∧ keepsRegs [] s t ∧ keepsBytes s t
      ∧ t.dev.rng.sched = { x with shots := x.shots.drop 127 }
      ∧ s.handsRing t 0x03 (leBytes 1 (x.shots.take 127).length ++ leBytes 3 0 ++ (x.shots.take 127).flatMap fun q =>
          leBytes 1 (q.1 + 128 * b2n q.2.2) ++ leBytes 1 0 ++ leBytes 2 q.2.1))

/-- An announcement makes every source live that names its sender and one of its ports, and a withdrawal ends them; so does an
expiry. A slip notice moves the predicted shots from its frame on, or is kept for it, and sets LATE once the frame has begun. A
shot notice confirms a predicted shot, or makes it unconfirmed. A predicted shot of a live source goes to every cluster that
follows the source, outside a re-lock and a calibration slot begun before the change to it, waiting for its notice, and the next one
is predicted; a source that is not live gives none (R112, R162 to R164). -/
def Obligations.BistaticSources : Prop :=
  ∀ (src n : Fin 8) (c : Fin 48) (l : List Byte) (s : State),
    let x := s.source n
    let mine := n.val ∈ s.sourcesOf src
    let entries := (List.range (min 32 (leAt l 8 1))).map (annEntry l)
    let here := entries.find? fun a => decide (a.port = s.fld F.rejBiCtlPort n)
    let f := leAt l 0 8
    let δ := signed 8 (leAt l 8 1)
    let buf := (s.clus c).buf (s.accBuf c)
    let heard := [Reg.rejBiSts]
    (∃ t, exec (.announcement src l) s = .next t ∧ keepsCore s t ∧ keepsRegs heard s t ∧ keepsBytes s t
      ∧ (¬mine → t.source n = x ∧ t.flag F.rejBiStsLive n = s.flag F.rejBiStsLive n)
      ∧ (mine → bitOf (leAt l 9 1) 0 = true → t.source n = {} ∧ t.flag F.rejBiStsLive n = false)
      ∧ (mine → bitOf (leAt l 9 1) 0 = false → here = none → t.source n = x)
      ∧ (∀ a, mine → bitOf (leAt l 9 1) 0 = false → here = some a → (t.source n).ann = some a
        ∧ (t.source n).heardAt = s.dev.time.c ∧ (t.source n).t0Frame = leAt l 0 8 ∧ t.flag F.rejBiStsLive n = true))
    ∧ (∃ t, exec (.sourceExpired n) s = .next t ∧ t.source n = {} ∧ t.flag F.rejBiStsLive n = false ∧ keepsCore s t
      ∧ keepsRegs heard s t ∧ keepsOthers .rejBiSts n s t ∧ keepsBytes s t)
    ∧ (∃ t, exec (.slipNotice src l) s = .next t ∧ keepsCore s t ∧ keepsRegs [.rejBiSts, .rejBiUnconfCnt] s t ∧ keepsBytes s t
      ∧ (¬mine ∨ x.ann = none → t.source n = x)
      ∧ (∀ a, mine → x.ann = some a →
        (f ≤ s.sourceFrame x a x.k → (t.source n).tNom = x.tNom + δ ∧ (t.source n).slips = x.slips)
        ∧ (s.sourceFrame x a x.k < f → (t.source n).tNom = x.tNom ∧ (t.source n).slips = (f, δ) :: x.slips)
        ∧ (256 * s.frameTag f ≤ s.tag256 → (t.source n).late = some f ∧ t.flag F.rejBiStsLate n = true)
        ∧ (s.tag256 < 256 * s.frameTag f → (t.source n).late = x.late
          ∧ t.flag F.rejBiStsLate n = s.flag F.rejBiStsLate n)))
    ∧ (∃ t, exec (.shotNotice src l) s = .next t ∧ keepsCore s t ∧ keepsRegs [.rejBiUnconfCnt] s t ∧ keepsBytes s t
      ∧ (leAt l 0 1 = 1 → mine → s.fld F.rejBiCtlPort n = leAt l 4 1 % 32 → c.val ∈ s.biFollowers n →
        let k := leAt l 6 2
        let which (q : Nat × Nat × Bool) : Bool := decide (q.2.1 % 65536 = k) && !q.2.2
        (bitOf (leAt l 4 1) 7 = true → (t.clus c).buf (s.accBuf c) = { buf with
          unconf := buf.unconf + (buf.predicted.filter which).length, predicted := buf.predicted.filter (!which ·) })
        ∧ (bitOf (leAt l 4 1) 7 = false → (t.clus c).buf (s.accBuf c) = { buf with
          predicted := buf.predicted.map fun q => if q.2.1 % 65536 = k then (q.1, q.2.1, true) else q })))
    ∧ (x.ann = none → exec (.bistaticShot n) s = .next s)
    ∧ (∀ a, x.ann = some a → ∃ t, exec (.bistaticShot n) s = .next t ∧ keepsCore s t ∧ (t.source n).k = x.k + 1
      ∧ (x.slips = [] → (t.source n).tNom = x.tNom + a.period)
      ∧ (s.sys.op ≠ .run ∨ a.en = false ∨ s.flag F.emtPllStsSafeClk 0 = true → keepsRegs [] s t ∧ keepsBytes s t
        ∧ (t.clus c).buf (s.accBuf c) = buf)
      ∧ (s.sys.op = .run → a.en = true → s.flag F.emtPllStsSafeClk 0 = false → c.val ∈ s.biFollowers n →
        ((s.clus c).skip = some x.k → (t.clus c).skip = none ∧ (t.clus c).buf (s.accBuf c) = buf)
        ∧ ((s.clus c).skip ≠ some x.k → s.histFull c = false → (s.clus c).due = false →
          let b := (t.clus c).buf (s.accBuf c)
          b.delivered = (if (s.clus c).inProgress then buf.delivered + 1 else 1) ∧ t.accBuf c = s.accBuf c
            ∧ (t.clus c).inProgress = true
            ∧ (x.late ≠ some (s.sourceFrame x a x.k) →
              b.predicted = buf.predicted ++ [(s.sourceFrame x a x.k, x.k, false)] ∧ b.unconf = buf.unconf)
            ∧ (x.late = some (s.sourceFrame x a x.k) → b.predicted = buf.predicted ∧ b.unconf = buf.unconf + 1))))

/-! Scan axes and loops (R166 to R186). -/

/-- A loop that runs, in no group, regulating an encoder position without ramp, compensation or notch, applies its waiting output,
shows the feedback and computes its next output by the control law of R177, with the integrator held where the output is limited,
while the results fit 48 bits (log entry 28); a member of a group waits for the feedback its leader latches; a loop that does not run
does nothing. A write of LOOP_SCHED or LOOP_CTL that is taken is stored, and a changed divider stops the
loop first; one that breaks the phases, slots or groups sets SCHED_ERR and is counted; the boot
processor's pair, which the load judges with its block as a whole (R380), is stored. COMMIT stands until the next sample (R174 to
R178, R185). -/
def Obligations.LoopSamples : Prop :=
  ∀ (m : Master) (n : Fin 32) (v : BitVec 32) (s : State),
    let k := s.loop n
    let fb := s.sfld F.loopSaxPosPos (s.fld F.loopSrcFbIdx n % 4)
    let e := s.sfld F.loopSpSp n - fb
    let lo := s.sfld F.loopOutMinOutMin n
    let hi := s.sfld F.loopOutMaxOutMax n
    let i0 := if k.active then k.i else 0
    let p := s.sfld F.loopKpKp n * e
    let ie := divFloor (s.sfld F.loopKiKi n * e) (2 ^ 8)
    let i1 := clampI (lo * 2 ^ 16) (hi * 2 ^ 16) (i0 + ie)
    let fits (v : Int) : Prop := -(2 ^ 47 : Int) ≤ v ∧ v < 2 ^ 47
    let u := clampI lo hi (divAway (p + i1) (2 ^ 16))
    let member := s.flag F.loopCtlGrpEn n && decide (s.fld F.loopCtlGrpLead n ≠ n.val)
    (s.loopRuns n = false → exec (.loopSlot n) s = .next s)
    ∧ (s.loopRuns n = true → ∃ t, exec (.loopSlot n) s = .next t ∧ keepsCore s t ∧ keepsBytes s t
      ∧ (member = false → (t.loop n).active = true)
      ∧ (member = true → k.latched = none → t.loop n = k ∧ keepsRegs [.loopSaxSpeed] s t)
      ∧ (member = true → k.latched ≠ none → (t.loop n).active = true ∧ (t.loop n).latched = none))
    ∧ (s.loopRuns n = true → s.flag F.loopCtlGrpEn n = false → s.fld F.loopCtlRampMode n = 0 → s.flag F.loopCtlSpMode n = false →
      s.flag F.loopCtlNotch0En n = false → s.flag F.loopCtlNotch1En n = false → s.fld F.loopSrcFbKind n = 1 → k.held = false →
      fits p → fits ie → fits (p + i1) →
      ∃ t, exec (.loopSlot n) s = .next t ∧ keepsCore s t ∧ keepsBytes s t
        ∧ keepsRegs [.loopOut, .rcvClSts, .loopSaxSts, .linIllSts, .linBankSts, .loopSts, .loopX, .loopFb, .loopCtl, .loopSaxSpeed] s t
        ∧ (t.loop n).active = true ∧ (t.loop n).next = some u ∧ t.sfld F.loopFbFb n = fb
        ∧ (t.loop n).i = (if (u = hi ∧ 0 < e) ∨ (u = lo ∧ e < 0) then i0 else i1)
        ∧ (u = lo ∨ u = hi → t.flag F.loopStsSat n = true)
        ∧ (∀ w, k.active = true → k.next = some w → -2 ^ 31 ≤ w → w < 2 ^ 31 → t.sfld F.loopOutOut n = w)
        ∧ (k.active = false ∨ k.next = none → t.reg .loopOut n = s.reg .loopOut n))
    ∧ (s.reaches m .loopSched n → s.takes .loopSched n v.toNat → ∃ t, exec (.loopScheduleWrite m n true v) s = .next t
      ∧ keepsCore s t ∧ keepsBytes s t ∧ t.reg .loopSched n = v.toNat
      ∧ (v.toNat ≠ s.reg .loopSched n → (t.loop n).active = false))
    ∧ (s.reaches m .loopCtl n → s.takes .loopCtl n v.toNat → bitOf v.toNat 7 = false →
      ∃ t, exec (.loopScheduleWrite m n false v) s = .next t ∧ keepsCore s t ∧ keepsBytes s t
        ∧ t.reg .loopCtl n = s.wordAfter .loopCtl n v.toNat
        ∧ (s.flag F.loopCtlEn n = true → bitOf v.toNat 31 = false → (t.loop n).active = false))
    ∧ (∀ sched, let r : Reg := if sched then .loopSched else .loopCtl
      let b := s.merged r n v.toNat none
      s.reaches m r n → m ≠ .boot → inRanges r v.toNat = true → b.valueOk r n = true → (b.phasesOk n && b.slotsClear && b.groupsOk) = false →
        ∃ t, exec (.loopScheduleWrite m n sched v) s = .next t ∧ t.flag F.loopEngStsSchedErr 0 = true
          ∧ t.reg r n = s.reg r n ∧ (t.loop n) = k ∧ s.countsError t ∧ keepsCore s t)
    ∧ (let b := s.merged .loopSched n v.toNat none
      s.reaches .boot .loopSched n → s.setLocked .loopSched n = false → inRanges .loopSched v.toNat = true → b.valueOk .loopSched n = true →
        s.ownerStops b .loopSched n = none →
        ∃ t, exec (.loopScheduleWrite .boot n true v) s = .next t ∧ keepsCore s t ∧ keepsBytes s t ∧ t.reg .loopSched n = v.toNat)
    ∧ (s.reaches m .loopCtl n → s.takes .loopCtl n (withBit v.toNat 7) → ∃ t, exec (.notchCommit m n v) s = .next t
      ∧ t.flag F.loopCtlCommit n = true ∧ keepsCore s t ∧ keepsBytes s t)

/-- A legal encoder transition counts by one, and an illegal one leaves the count, sets ENC_ERR and is counted; the same levels
again change nothing. The index sets the revolution position to 0 and INDEXED, and INDEX_ERR where it comes too far from the
expected place. A Hall state is shown; in three-phase mode an invalid one sets HALL_ERR, is counted and turns all gates off (R167,
R171, R172). The port here does not move a carriage. -/
def Obligations.AxisInputs : Prop :=
  ∀ (n : Fin 4) (a b : Bool) (h : Fin 8) (s : State),
    let x := s.axis n
    let cpr := s.fld F.loopSaxCprCpr n
    let off := (x.rev % cpr).toNat
    let shown := [Reg.loopSaxPos, .loopSaxSts, .loopSaxAz, .loopSaxErrCnt]
    (s.flag F.odoSrcKind 0 = false →
      (quadStep x.a x.b a b = none → ∃ t, exec (.encoderEdge n a b) s = .next t ∧ keepsCore s t ∧ keepsBytes s t
        ∧ keepsRegs [.loopSaxSts, .loopSaxErrCnt] s t ∧ t.flag F.loopSaxStsEncErr n = true ∧ t.axis n = { x with a := a, b := b }
        ∧ t.fld F.loopSaxErrCntCount n = min (s.fld F.loopSaxErrCntCount n + 1) 0xFFFFFFFF)
      ∧ (quadStep x.a x.b a b = some 0 → exec (.encoderEdge n a b) s = .next s)
      ∧ (∀ d, quadStep x.a x.b a b = some d → d ≠ 0 → ∃ t, exec (.encoderEdge n a b) s = .next t ∧ keepsCore s t ∧ keepsBytes s t
        ∧ keepsRegs shown s t ∧ (t.axis n).a = a ∧ (t.axis n).b = b
        ∧ t.reg .loopSaxPos n = (if d = 1 then (s.reg .loopSaxPos n + 1) % 2 ^ 32 else (s.reg .loopSaxPos n + (2 ^ 32 - 1)) % 2 ^ 32)))
    ∧ (∃ t, exec (.encoderIndex n) s = .next t ∧ keepsCore s t ∧ keepsBytes s t ∧ keepsRegs [.loopSaxSts, .loopSaxAz] s t
      ∧ t.axis n = { x with rev := 0 } ∧ t.flag F.loopSaxAzIndexed n = true
      ∧ (s.fld F.loopSaxCprIndexTol n < min off (cpr - off) → t.flag F.loopSaxStsIndexErr n = true)
      ∧ t.fld F.loopSaxAzAz n = (if s.flag F.loopSaxCtlAzFmt n then s.reg .loopSaxPos n % 2 ^ 20 else 0))
    ∧ (∃ t, exec (.hallChange n h) s = .next t ∧ keepsCore s t ∧ keepsBytes s t ∧ keepsRegs [.loopSaxSts, .loopSaxErrCnt] s t
      ∧ t.fld F.loopSaxStsHall n = h.val
      ∧ ((h = 0 ∨ h = 7) → s.fld F.loopSaxCtlMode n = 1 → t.flag F.loopSaxStsHallErr n = true
        ∧ t.fld F.loopSaxErrCntCount n = min (s.fld F.loopSaxErrCntCount n + 1) 0xFFFFFFFF
        ∧ (x.drive.isSome = true → Out.pin 1 n 0 ∈ t.dev.out))
      ∧ (x.drive.isSome = true → Out.pin 1 n (t.portPins n) ∈ t.dev.out))

/-! Line imaging and motion (R188 to R224). -/

/-- CAP in READY starts a capture of 2^LINES_LOG2 lines, and elsewhere sets CAP_ERR and is counted; its timer starts one line
cycle after another until none is left. A shading write in RUN goes to the staging buffer, outside RUN to the live table, and one
that is not accepted is counted; COMMIT of a held buffer sets PEND (R198, R199, R206). -/
def Obligations.CapturesAndShading : Prop :=
  ∀ (m : Master) (b : Fin 12) (seg : Fin 24) (word : Fin 6144) (v : BitVec 32) (s : State),
    let w := withBit v.toNat 31
    let x := s.bank b
    let i := 6144 * seg.val + word.val
    (s.reaches m .linBankCap b → s.takes .linBankCap b w → s.flag F.linBankStsCapBusy b = false →
      ∃ t, exec (.capture m b v) s = .next t ∧ keepsCore s t ∧ keepsRegs [.linBankCap, .linBankSts] s t ∧ keepsBytes s t
        ∧ t.flag F.linBankStsCapBusy b = true ∧ t.flag F.linBankCapCap b = true
        ∧ (t.bank b).cap = some { white := bitOf v.toNat 30, left := 2 ^ bitsOf v.toNat 27 24 })
    ∧ (s.reaches m .linBankCap b → inRanges .linBankCap w = true → s.sys.op ≠ .ready →
      ∃ t, exec (.capture m b v) s = .next t ∧ keepsCore s t ∧ t.flag F.linBankStsCapErr b = true
        ∧ t.reg .linBankCap b = s.reg .linBankCap b ∧ t.bank b = x ∧ s.countsError t)
    ∧ (∀ c, x.cap = some c → 0 < c.left → s.segmentsOf b ≠ [] → ∃ t, exec (.captureLine b) s = .next t ∧ keepsCore s t ∧ keepsRegs [] s t
      ∧ keepsBytes s t ∧ t.dev.lin.lines = s.dev.lin.lines ++ [{ s.bankLine b 2 with id := s.dev.lin.nextId, trig := s.dev.time.c }]
      ∧ t.bank b = { x with cap := some { c with left := c.left - 1 } })
    ∧ (∀ c, x.cap = some c → 0 < c.left → s.segmentsOf b = [] → ∃ t, exec (.captureLine b) s = .next t ∧ keepsCore s t
      ∧ t.dev.lin.lines = s.dev.lin.lines
      ∧ (1 < c.left → t.bank b = { x with cap := some { c with left := c.left - 1 } } ∧ keepsRegs [] s t ∧ keepsBytes s t))
    ∧ (x.cap = none ∨ (∃ c, x.cap = some c ∧ c.left = 0) → exec (.captureLine b) s = .next s)
    ∧ (s.reaches m .linShade i → s.shadeAccepts seg = true → s.sys.op = .run →
      ∃ t, exec (.shadeWrite m seg word v) s = .next t ∧ keepsCore s t ∧ keepsRegs [.linShadeStg] s t ∧ keepsBytes s t
        ∧ smGet 0 t.dev.lin.stg word.val = v.toNat ∧ t.flag F.linShadeStgHeld 0 = true
        ∧ (s.flag F.linShadeStgHeld 0 = false → t.fld F.linShadeStgOwner 0 = seg.val))
    ∧ (s.reaches m .linShade i → s.shadeAccepts seg = true → s.sys.op ≠ .run →
      ∃ t, exec (.shadeWrite m seg word v) s = .next t ∧ keepsCore s t ∧ keepsRegs [.linShade, .linSegWeak] s t ∧ keepsBytes s t
        ∧ keepsOthers .linShade i s t ∧ t.reg .linShade i = v.toNat ∧ (t.seg seg).dirty = true)
    ∧ (s.reaches m .linShade i → s.shadeAccepts seg = false → ∃ t, exec (.shadeWrite m seg word v) s = .next t ∧ keepsCore s t
      ∧ t.reg .linShade i = s.reg .linShade i ∧ t.dev.lin = s.dev.lin ∧ s.countsError t)
    ∧ (s.reaches m .linShadeStg 0 → ∃ t, exec (.shadeCommit m) s = .next t ∧ keepsCore s t ∧ keepsBytes s t
      ∧ keepsRegs [.linShadeStg] s t ∧ t.dev.lin = s.dev.lin
      ∧ (s.flag F.linShadeStgHeld 0 = true → t.flag F.linShadeStgPend 0 = true ∧ t.flag F.linShadeStgCommit 0 = true)
      ∧ (s.flag F.linShadeStgHeld 0 = false → keepsRegs [] s t))

/-- A warm-up interval without strip pixels only restarts; one with a mean of ten intervals before shows the drift, in 1/1,000 %/s. A
monitor line starts where the lamps of a bank without a capture are on in INIT or READY, and nothing happens elsewhere (R204). -/
def Obligations.LampsWatched : Prop :=
  ∀ (b : Fin 12) (s : State),
    let x := s.bank b
    let lit := s.inOp [.init, .ready] && s.flag F.linBankWrefWrefEn b && s.lampsOn b && !s.flag F.linBankStsCapBusy b
    (∃ t, exec (.warmupInterval b) s = .next t ∧ keepsCore s t ∧ keepsRegs [.linBankSts] s t ∧ keepsBytes s t
      ∧ (t.bank b).sum = 0 ∧ (t.bank b).count = 0
      ∧ (s.flag F.linBankWrefWrefEn b = false ∨ x.count = 0 → keepsRegs [] s t ∧ (t.bank b).means = x.means)
      ∧ (s.flag F.linBankWrefWrefEn b = true → 0 < x.count → (t.bank b).means = ((x.sum, x.count) :: x.means).take 11
        ∧ ∀ o, x.means[9]? = some o → 0 < o.1 → t.fld F.linBankStsDrift b
          = min 0xFFFF (((x.sum * o.2 : Nat) - (o.1 * x.count : Nat) : Int).natAbs * 100000 / (o.1 * x.count))))
    ∧ (lit = true → ∃ t, exec (.monitorLine b) s = .next t ∧ keepsCore s t ∧ keepsRegs [] s t ∧ keepsBytes s t
      ∧ t.dev.lin.lines = s.dev.lin.lines ++ [{ s.bankLine b 1 with id := s.dev.lin.nextId, trig := s.dev.time.c }])
    ∧ (lit = false → exec (.monitorLine b) s = .next s)

/-- In RUN with travel along D, a grid position that falls due moves the grid on and starts a line cycle for the enabled segments,
or is held within T_min of the last, or is dropped and counted without a segment clock, or is lost by the GAP rule; a held one is
released. A start pulse of an enabled segment in a state with imaging ends the exposure of the first waiting line for it and puts the
segment's settings in force. Without a position due, a held trigger or a line that waits they do nothing (R188, R191, R212, R213). -/
def Obligations.LinesTriggered : Prop :=
  ∀ (seg : Fin 24) (cur : List (Fin 12 × BitVec 21)) (s : State),
    let x := s.dev.lin
    let i := s.dev.odo.next
    let moves := s.sys.op = .run ∧ s.flag F.odoStsBackward 0 = false
    let due := moves ∧ s.lineDue = true
    let early := ∃ t, x.lastTrig = some t ∧ s.dev.time.c < t + s.tmin
    let calm (t : State) : Prop := keepsCore s t ∧ keepsBytes s t
    let ahead (t : State) : Prop := calm t ∧ t.dev.odo.next = i + s.gridStep
    let accepted (t : State) (k : Int) : Prop := t.dev.lin.held = none ∧ t.dev.lin.lastTrig = some s.dev.time.c
      ∧ ∃ l, t.dev.lin.lines = x.lines ++ [l] ∧ l.idx = k ∧ l.grid = s.gridPos k ∧ l.kind = 0 ∧ l.waits = s.segments
        ∧ l.trig = s.dev.time.c
    let pulses := s.inOp [.init, .ready, .run] && s.inForceFlag F.linSegCtlEn seg
    (¬due → exec .lineTrigger s = .next s)
    ∧ (due → s.gapRule = true → ∃ t, exec .lineTrigger s = .next t ∧ ahead t ∧ keepsRegs [] s t ∧ t.dev.lin.lines = x.lines)
    ∧ (due → s.gapRule = false → s.noClock = true → ∃ t, exec .lineTrigger s = .next t ∧ calm t
      ∧ t.fld F.linTrigDropCntCount 0 = min (s.fld F.linTrigDropCntCount 0 + 1) 0xFFFFFFFF ∧ t.dev.lin.lines = x.lines
      ∧ keepsRegs [.linTrigDropCnt, .linSegRow, .linSegSts] s t)
    ∧ (due → s.gapRule = false → s.noClock = false → x.held = none → ¬early → ∃ t, exec .lineTrigger s = .next t ∧ ahead t
      ∧ keepsRegs [] s t ∧ accepted t i)
    ∧ (due → s.gapRule = false → s.noClock = false → x.held = none → early → ∃ t, exec .lineTrigger s = .next t ∧ ahead t
      ∧ keepsRegs [] s t ∧ t.dev.lin = { x with held := some i })
    ∧ (due → s.gapRule = false → s.noClock = false → x.held ≠ none → ∃ t, exec .lineTrigger s = .next t ∧ ahead t
      ∧ keepsRegs [] s t ∧ t.dev.lin.held = some i ∧ t.dev.lin.lines = x.lines)
    ∧ (x.held = none → exec .triggerRelease s = .next s)
    ∧ (∀ k, x.held = some k → moves → s.gapRule = false → s.noClock = false → ∃ t, exec .triggerRelease s = .next t ∧ calm t
      ∧ keepsRegs [] s t ∧ accepted t k)
    ∧ (∀ k, x.held = some k → moves → s.gapRule = true → ∃ t, exec .triggerRelease s = .next t ∧ calm t ∧ keepsRegs [] s t
      ∧ t.dev.lin.held = none ∧ t.dev.lin.lines = x.lines)
    ∧ (∀ k, x.held = some k → moves → s.gapRule = false → s.noClock = true → ∃ t, exec .triggerRelease s = .next t ∧ calm t
      ∧ t.dev.lin.held = none ∧ t.dev.lin.lines = x.lines
      ∧ t.fld F.linTrigDropCntCount 0 = min (s.fld F.linTrigDropCntCount 0 + 1) 0xFFFFFFFF)
    ∧ (∀ k, x.held = some k → ¬moves → ∃ t, exec .triggerRelease s = .next t ∧ calm t ∧ keepsRegs [] s t
      ∧ t.dev.lin = { x with held := none })
    ∧ (pulses = false ∨ (∀ l ∈ x.lines, seg.val ∉ l.waits) → exec (.startPulse seg cur) s = .next s)
    ∧ (∀ l, pulses = true → x.lines.find? (·.waits.contains seg.val) = some l → ∃ t, exec (.startPulse seg cur) s = .next t
      ∧ keepsCore s t ∧ (∃ k ∈ t.dev.lin.lines, k.id = l.id ∧ seg.val ∉ k.waits ∧ seg.val ∈ k.reads)
      ∧ (∀ q ∈ heldSegRegs, t.reg q (forceAt seg) = s.reg q seg) ∧ Out.pin 5 seg 1 ∈ t.dev.out)

/-- The readout of a segment gives the first line that waits for it its rows, with the samples at 0 and 4,095 counted and corrected
words counted; of a monitor line it feeds only the mean of its strip. The complete line leaves the stitcher: in RUN, recordable and
alone, it is counted and moves H; with the core side behind it waits in the FIFO of 8 lines, or is lost where 8 wait. Without a line
that waits they do nothing (R24, R195, R202, R204, R215). -/
def Obligations.LinesRead : Prop :=
  ∀ (seg : Fin 24) (r g b : List (BitVec 12)) (fixed : BitVec 14) (lag bad : Bool) (s : State),
    let x := s.dev.lin
    let read : Instr := .readoutComplete seg r g b [] (false, fixed)
    let n := [r, g, b].foldl (fun a y => a + s.overrange seg (y.map (·.toNat))) 0
    let out : Instr := .stitchedLine lag bad
    let whole (l : Line) : Bool := decide (l.kind = 0) && l.waits.isEmpty && l.reads.isEmpty
    let sound (l : Line) : Prop := s.sys.op = .run ∧ bad = false ∧ l.prime = false ∧ l.dropped = false ∧ l.record = true
    ((∀ l ∈ x.lines, seg.val ∉ l.reads) → exec read s = .next s)
    ∧ (∀ l, x.lines.find? (·.reads.contains seg.val) = some l → l.kind = 0 → ∃ t, exec read s = .next t ∧ keepsCore s t
      ∧ t.fld F.linSegOvrCntCount seg = min (s.fld F.linSegOvrCntCount seg + n) 0xFFFFFFFF
      ∧ t.fld F.memSramCeCntCount 0 = min (s.fld F.memSramCeCntCount 0 + fixed.toNat) 0xFFFFFFFF
      ∧ (∃ k ∈ t.dev.lin.lines, k.id = l.id ∧ seg.val ∉ k.reads ∧ seg.val ∈ k.done.map (·.1))
      ∧ (s.unrouted → keepsRegs [.linSegOvrCnt, .linSegSts, .memSramCeCnt, .sysEvtSts] s t ∧ keepsBytes s t))
    ∧ (∀ l, x.lines.find? (·.reads.contains seg.val) = some l → l.kind = 1 → ∃ t, exec read s = .next t ∧ keepsCore s t
      ∧ keepsRegs [] s t ∧ keepsBytes s t)
    ∧ (∀ l, x.lines.find? (·.reads.contains seg.val) = some l → 2 ≤ l.kind → ∃ t, exec read s = .next t ∧ keepsCore s t
      ∧ t.fld F.linSegOvrCntCount seg = min (s.fld F.linSegOvrCntCount seg + n) 0xFFFFFFFF)
    ∧ (x.lines.find? whole = none → exec out s = .next s)
    ∧ (∀ l, x.lines.find? whole = some l → (∀ k ∈ x.lines, k.id = l.id → k = l) → ∃ t, exec out s = .next t ∧ keepsCore s t
      ∧ (∀ k ∈ t.dev.lin.lines, k.id ≠ l.id)
      ∧ (sound l → lag = true → x.fifo.length < 8 → t.fld F.linLineCntCount 0 = s.fld F.linLineCntCount 0
        ∧ t.dev.odo.high = s.dev.odo.high ∧ t.dev.lin.fifo.length = x.fifo.length + 1 ∧ t.dev.lin.gaps = x.gaps)
      ∧ (sound l → lag = true → 8 ≤ x.fifo.length → t.fld F.linLineCntCount 0 = s.fld F.linLineCntCount 0
        ∧ t.dev.odo.high = s.dev.odo.high ∧ t.dev.lin.fifo.length = x.fifo.length)
      ∧ (sound l → lag = false → x.fifo = [] → (∀ h, s.dev.odo.high = some h → h < l.grid) →
        s.inForceFlag F.linAsmCtlPolicy 0 = false → s.flag F.linAsmCtlPolicy 0 = false →
        s.flag F.odoStsStall 0 = false → s.lineStream = none →
        t.fld F.linLineCntCount 0 = min (s.fld F.linLineCntCount 0 + 1) 0xFFFFFFFF ∧ t.dev.odo.high = some l.grid)
      ∧ (s.sys.op ≠ .run → t.fld F.linLineCntCount 0 = s.fld F.linLineCntCount 0 ∧ t.dev.odo.high = s.dev.odo.high))

/-- A disabled odometry input only takes its levels; an illegal transition sets ERR and is counted; a legal one of an input with a
prescaler of 1 counts by one, and where the input is the source its position moves by SCALE. The slip check restarts both
distances and sets SLIP where they differ by more than DIS_PCT over at least 100 mm; standstill sets STANDSTILL and shows a
speed of 0 (R207 to R210). -/
def Obligations.MotionInputs : Prop :=
  ∀ (n : Fin 4) (a b : Bool) (s : State),
    let x := s.odoIn n
    let source := s.flag F.odoSrcKind 0 = false ∧ s.fld F.odoSrcPrim 0 = n.val
    let plain := s.flag F.odoInCtlEn n = true ∧ s.flag F.odoInCtlMode n = false
    let da := (s.odoIn (s.fld F.odoSrcPrim 0)).moved
    let db := (s.odoIn (s.fld F.odoSrcChk 0)).moved
    let larger := max da.natAbs db.natAbs
    let slips := s.flag F.odoSrcChkEn 0 = true ∧ larger * s.fld F.odoSrcDisPct 0 < 1000 * (da - db).natAbs ∧ 100000 * 65536 ≤ larger
    (s.flag F.odoInCtlEn n = false → ∃ t, exec (.odometryCount n a b) s = .next t ∧ keepsCore s t ∧ keepsRegs [] s t
      ∧ keepsBytes s t ∧ t.odoIn n = { x with a := a, b := b })
    ∧ (plain → quadStep x.a x.b a b = none → ∃ t, exec (.odometryCount n a b) s = .next t ∧ keepsCore s t ∧ keepsBytes s t
      ∧ keepsRegs [.odoInSts] s t ∧ t.flag F.odoInStsErr n = true
      ∧ t.fld F.odoInStsErrCnt n = min (s.fld F.odoInStsErrCnt n + 1) 0xFFFF)
    ∧ (∀ d, plain → quadStep x.a x.b a b = some d → d ≠ 0 → s.fld F.odoInCtlPresc n = 0 → s.flag F.odoInCtlDirInv n = false →
      x.rest = 0 → x.lastAt = none → ∃ t, exec (.odometryCount n a b) s = .next t ∧ keepsCore s t
        ∧ t.reg .odoInCnt n = (s.reg .odoInCnt n + (if d = 1 then 1 else 2 ^ 32 - 1)) % 2 ^ 32
        ∧ (¬source → keepsRegs [.odoInCnt] s t ∧ keepsBytes s t)
        ∧ (source → s.sys.op ≠ .run → t.pair .odoPosLo .odoPosHi 0 = unsigned 64 (s.pos + d * s.countScale)
          ∧ t.flag F.odoStsStandstill 0 = false))
    ∧ (∃ t, exec .slipCheck s = .next t ∧ keepsCore s t ∧ (t.odoIn n).moved = 0 ∧ (t.odoIn n).a = x.a ∧ (t.odoIn n).b = x.b
      ∧ (slips → t.flag F.odoStsSlip 0 = true)
      ∧ (slips → s.flag F.odoStsSlip 0 = false → bitOf (t.reg .sysEvtSts 0) 13 = true)
      ∧ (s.unrouted → keepsRegs [.odoSts, .sysEvtSts] s t)
      ∧ (¬slips → keepsRegs [] s t ∧ keepsBytes s t))
    ∧ (∃ t, exec .standstill s = .next t ∧ keepsCore s t ∧ keepsBytes s t ∧ t.flag F.odoStsStandstill 0 = true
      ∧ t.fld F.odoSpeedSpeed 0 = 0 ∧ t.pos = s.pos ∧ keepsRegs [.odoSts, .odoSpeed, .linSegRow, .linSegSts] s t)

/-! The DMA engine, completion queues and streams (R230 to R269). -/

/-- A doorbell to a chain that is not enabled is counted; to an IDLE one it starts at HEAD, to a RUNNING one it sets DB_PEND, to a
PARKED one it re-reads the tail, and to a HALTED one with a new HEAD it starts there, with the failed fetch again after cause 6 or
7, and behind the last descriptor otherwise. EN cleared without a descriptor in work puts the chain into IDLE. HEAD is taken in
IDLE and HALTED and otherwise counted. A fetch that cannot be read halts the chain with cause 6, its address in CUR and event 9; a
legal descriptor goes to work. A re-read of the tail reads bytes 24 to 31, and NEXT only where EOC is clear: it follows NEXT, reads
again or parks, and halts as a fetch does (R250 to R265). -/
def Obligations.ChainsRun : Prop :=
  ∀ (m : Master) (c : Fin 4096) (v lo hi : BitVec 32) (host : List Byte) (err : Bool) (s : State),
    let x := s.chain c
    let st := s.fld F.dmaQStsState c
    let en := s.flag F.dmaQCtlEn c
    let only (t : State) : Prop := keepsCore s t ∧ keepsRegs [.dmaQSts, .dmaQCurLo, .dmaQCurHi] s t ∧ keepsBytes s t
      ∧ keepsOthers .dmaQSts c s t ∧ keepsOthers .dmaQCurLo c s t ∧ keepsOthers .dmaQCurHi c s t
    let from' (t : State) (a : Nat) : Prop := t.fld F.dmaQStsState c = 1 ∧ (x.works = [] → t.cur c = a % 2 ^ 64)
      ∧ t.chain c = { x with fetch := some a, newHead := false, reread := false }
    let ready := s.dmaRuns && s.quotaOpen c && x.waitCq.isNone
    (s.reaches m .dmaQDb c → ∃ t, exec (.doorbell m c v) s = .next t ∧ only t
      ∧ (en = false → t.fld F.dmaQStsDbIgn c = min (s.fld F.dmaQStsDbIgn c + 1) 0xFFFF ∧ t.chain c = x)
      ∧ (en = true → st = 0 → from' t (s.headOf c))
      ∧ (en = true → st = 1 → t.flag F.dmaQStsDbPend c = true ∧ t.chain c = x)
      ∧ (en = true → st = 2 → t.fld F.dmaQStsState c = 1 ∧ t.chain c = { x with reread := true })
      ∧ (en = true → st = 3 → x.newHead = true → from' t (s.headOf c))
      ∧ (en = true → st = 3 → x.newHead = false → s.fld F.dmaQStsHaltCause c = 6 ∨ s.fld F.dmaQStsHaltCause c = 7 → from' t (s.cur c))
      ∧ (en = true → st = 3 → x.newHead = false → s.fld F.dmaQStsHaltCause c ≠ 6 → s.fld F.dmaQStsHaltCause c ≠ 7 →
        x.stopping = false → x.lastEoc = true → t.fld F.dmaQStsState c = 1 ∧ t.chain c = { x with reread := true })
      ∧ (en = true → st = 3 → x.newHead = false → s.fld F.dmaQStsHaltCause c ≠ 6 → s.fld F.dmaQStsHaltCause c ≠ 7 →
        x.stopping = false → x.lastEoc = false → x.works = [] → x.fetch = none → from' t x.lastNext))
    ∧ (s.reaches m .dmaQCtl c → s.takes .dmaQCtl c v.toNat → ∃ t, exec (.chainEnWrite m c v) s = .next t ∧ keepsCore s t
      ∧ keepsRegs [.dmaQCtl, .dmaQSts, .dmaQCurLo, .dmaQCurHi] s t ∧ keepsOthers .dmaQSts c s t ∧ keepsBytes s t ∧ t.reg .dmaQCtl c = s.wordAfter .dmaQCtl c v.toNat
      ∧ (en = true → bitOf v.toNat 31 = false → x.works = [] → x.waitCq = none → t.fld F.dmaQStsState c = 0)
      ∧ (en = true → bitOf v.toNat 31 = false → st = 1 → x.works ≠ [] → (t.chain c).stopping = true ∧ t.fld F.dmaQStsState c = 1))
    ∧ (s.reaches m .dmaQHeadLo c → s.reaches m .dmaQHeadHi c → ∃ t, exec (.headWrite m c lo hi) s = .next t ∧ keepsCore s t
      ∧ keepsBytes s t
      ∧ (st = 0 ∨ st = 3 → t.headOf c = lo.toNat / 32 * 32 + 2 ^ 32 * hi.toNat ∧ t.chain c = { x with newHead := true }
        ∧ keepsRegs [.dmaQHeadLo, .dmaQHeadHi] s t)
      ∧ (st = 1 ∨ st = 2 → t.headOf c = s.headOf c ∧ t.chain c = x
        ∧ keepsRegs [.dmaQSts] s t ∧ t.fld F.dmaQStsDbIgn c = min (s.fld F.dmaQStsDbIgn c + 1) 0xFFFF))
    ∧ (x.fetch = none ∨ ready = false → exec (.descriptorFetched c host err) s = .next s)
    ∧ (∀ a, x.fetch = some a → ready = true → a % 32 ≠ 0 ∨ s.fetchBytes a 32 host err = none →
      ∃ t, exec (.descriptorFetched c host err) s = .next t ∧ keepsCore s t ∧ t.fld F.dmaQStsState c = 3
        ∧ t.fld F.dmaQStsHaltCause c = 6 ∧ t.cur c = a % 2 ^ 64 ∧ bitOf (t.reg .sysEvtSts 0) 9 = true ∧ (t.chain c).works = [])
    ∧ (∀ a b, x.fetch = some a → ready = true → a % 32 = 0 → s.fetchBytes a 32 host err = some b →
      s.flag F.dmaCqCtlEn (readDesc b).cq = true → s.descCheck (readDesc b) = 0 →
      ∃ t, exec (.descriptorFetched c host err) s = .next t ∧ keepsCore s t ∧ keepsBytes s t ∧ (t.chain c).fetch = none
        ∧ (∃ w ∈ (t.chain c).works, w.addr = a ∧ w.desc = readDesc b ∧ w.error = 0
          ∧ w.segs.map (fun g => (g.off, g.len)) = (readDesc b).segs.map fun g => (g.off, g.len))
        ∧ (x.works = [] → t.cur c = a % 2 ^ 64))
    ∧ (x.reread = false ∨ s.dmaRuns = false → exec (.controlReread c host err) s = .next s)
    ∧ (x.reread = true → s.dmaRuns = true → s.fetchBytes (x.lastDone + 24) 8 (host.drop 24) err = none
        ∨ ((∃ b, s.fetchBytes (x.lastDone + 24) 8 (host.drop 24) err = some b ∧ bitOf (leAt b 3 1) 0 = false)
          ∧ s.fetchBytes x.lastDone 8 host err = none) →
      ∃ t, exec (.controlReread c host err) s = .next t ∧ keepsCore s t ∧ t.fld F.dmaQStsState c = 3
        ∧ t.fld F.dmaQStsHaltCause c = 6 ∧ t.cur c = x.lastDone % 2 ^ 64 ∧ bitOf (t.reg .sysEvtSts 0) 9 = true)
    ∧ (∀ b n, x.reread = true → s.dmaRuns = true → s.fetchBytes (x.lastDone + 24) 8 (host.drop 24) err = some b →
      bitOf (leAt b 3 1) 0 = false → s.fetchBytes x.lastDone 8 host err = some n →
      ∃ t, exec (.controlReread c host err) s = .next t ∧ only t ∧ from' t (leAt n 0 8) ∧ t.flag F.dmaQStsDbPend c = false)
    ∧ (∀ b, x.reread = true → s.dmaRuns = true → s.fetchBytes (x.lastDone + 24) 8 (host.drop 24) err = some b →
      bitOf (leAt b 3 1) 0 = true → ∃ t, exec (.controlReread c host err) s = .next t ∧ only t
        ∧ (s.flag F.dmaQStsDbPend c = true → t.chain c = x ∧ t.flag F.dmaQStsDbPend c = false ∧ keepsRegs [.dmaQSts] s t)
        ∧ (s.flag F.dmaQStsDbPend c = false → t.chain c = { x with reread := false } ∧ t.fld F.dmaQStsState c = 2
          ∧ t.cur c = x.lastDone % 2 ^ 64))

/-- A segment whose source lies in the device's own memory is filled from it when its reads return well, and one from host memory
with the bytes that came; an error ends the descriptor, but one that answers the descriptor's last beat alone fills the segment and
marks the data suspect. Reads of general SRAM count the words they corrected. A filled segment of an unshuffled descriptor is stored
at its place in the destination, and nothing else is; with the last segment of the only descriptor in work, and room in its
reachable queue, the descriptor is counted and leaves. An error response to it, or a write into the firmware region, ends the
descriptor. A host read that times out is counted and ends its descriptor with an error. None of them does anything to a chain
without such a segment (R255 to R264, R272, R306). -/
def Obligations.SegmentsMove : Prop :=
  ∀ (c : Fin 4096) (off : BitVec 24) (host : List Byte) (e : Fin 3) (n : BitVec 10) (err : Bool) (s : State),
    let x := s.chain c
    let filled (t : State) (w : DescWork) (suspect : Bool) (data : List Byte → Prop) : Prop :=
      ∃ w' ∈ (t.chain c).works, w'.addr = w.addr ∧ w'.error = w.error ∧ w'.suspect = suspect
        ∧ ∃ g' ∈ w'.segs, g'.off = off.toNat ∧ g'.st = .filled ∧ data g'.data
    let failed (t : State) (w : DescWork) : Prop := ∀ w' ∈ (t.chain c).works, w'.addr = w.addr → w'.error ≠ 0
    (x.findSeg off.toNat .reading = none ∨ s.dmaRuns = false → exec (.segmentReadDone c off host (e, n)) s = .next s)
    ∧ (∀ w g, x.findSeg off.toNat .reading = some (w, g) → s.dmaRuns = true → g.left = 0 → e = 0 → s.localError w.desc g = 0 →
      (s.spanTarget w.desc.src w.desc.len = .dram ∨ s.spanTarget w.desc.src w.desc.len = .sram) →
      ∃ t, exec (.segmentReadDone c off host (e, n)) s = .next t ∧ keepsCore s t ∧ keepsBytes s t
        ∧ filled t w w.suspect (fun d => d = (w.desc.spans g).flatMap fun p => s.bytes p.1 p.2)
        ∧ (s.spanTarget w.desc.src w.desc.len = .sram →
          t.fld F.memSramCeCntCount 0 = min (s.fld F.memSramCeCntCount 0 + n.toNat) 0xFFFFFFFF)
        ∧ (s.spanTarget w.desc.src w.desc.len = .dram → t.reg .memSramCeCnt 0 = s.reg .memSramCeCnt 0))
    ∧ (∀ w g, x.findSeg off.toNat .reading = some (w, g) → s.dmaRuns = true → g.left = 0 → e = 0 →
      s.spanTarget w.desc.src w.desc.len = .host → ∃ t, exec (.segmentReadDone c off host (e, n)) s = .next t ∧ keepsCore s t
        ∧ keepsBytes s t ∧ filled t w w.suspect (fun d => d = sliceB host 0 g.len))
    ∧ (∀ w g, x.findSeg off.toNat .reading = some (w, g) → s.dmaRuns = true → e = 2 → g.off + g.len = w.desc.len →
      (s.spanTarget w.desc.src w.desc.len = .dram ∨ s.spanTarget w.desc.src w.desc.len = .host) →
      ∃ t, exec (.segmentReadDone c off host (e, n)) s = .next t ∧ keepsCore s t ∧ keepsBytes s t ∧ filled t w true fun _ => True)
    ∧ (∀ w g, x.findSeg off.toNat .reading = some (w, g) → s.dmaRuns = true →
      e = 1 ∨ (e = 2 ∧ g.off + g.len ≠ w.desc.len) → ∃ t, exec (.segmentReadDone c off host (e, n)) s = .next t ∧ failed t w)
    ∧ (x.findSeg off.toNat .filled = none ∨ s.dmaRuns = false → exec (.segmentWriteAccepted c off err) s = .next s)
    ∧ (∀ w g rest, x.findSeg off.toNat .filled = some (w, g) → x.works = w :: rest → s.dmaRuns = true → err = false →
      w.desc.mode = 0 → s.channels.any s.channelDead = false → s.writeRefused (w.desc.dst + off.toNat) g.data.length = false →
      g.off = off.toNat → (ethWindow w.desc.dst).isNone = true →
      (s.spanTarget w.desc.dst w.desc.out = .dram ∨ s.spanTarget w.desc.dst w.desc.out = .sram) →
      (s.spanTarget (w.desc.dst + off.toNat) g.data.length = .dram
        ∨ s.spanTarget (w.desc.dst + off.toNat) g.data.length = .sram) →
      ∃ t, exec (.segmentWriteAccepted c off err) s = .next t ∧ keepsCore s t
        ∧ (w.segs.all (fun k => decide (k.off = off.toNat ∨ k.st = .written)) = false →
          (∀ a, a < w.desc.dst + off.toNat ∨ w.desc.dst + off.toNat + g.data.length ≤ a → t.byte a = s.byte a)
            ∧ ∀ j b, g.data[j]? = some b → t.byte (w.desc.dst + off.toNat + j) = b)
        ∧ (w.segs.all (fun k => decide (k.off = off.toNat ∨ k.st = .written)) = true → rest = [] → x.waitCq = none →
          w.fallback = false → s.cqFull w.desc.cq = false → s.cqReachable w.desc.cq = true → w.error = 0 →
          (t.chain c).works = [] ∧ t.fld F.dmaQDescCntCount c = min (s.fld F.dmaQDescCntCount c + 1) 0xFFFFFFFF))
    ∧ (∀ w g, x.findSeg off.toNat .filled = some (w, g) → s.dmaRuns = true → w.desc.mode = 0 →
      (err = true ∧ s.spanTarget w.desc.dst w.desc.out = .sram)
        ∨ (s.writeRefused (w.desc.dst + off.toNat) g.data.length = true ∧ s.spanTarget w.desc.dst w.desc.out = .dram) →
      g.off = off.toNat → ∃ t, exec (.segmentWriteAccepted c off err) s = .next t ∧ failed t w)
    ∧ (x.findSeg off.toNat .reading = none → exec (.completionTimeout c off) s = .next s)
    ∧ (∀ w g, x.findSeg off.toNat .reading = some (w, g) → s.spanTarget w.desc.src w.desc.len ≠ .host →
      exec (.completionTimeout c off) s = .next s)
    ∧ (∀ w g, x.findSeg off.toNat .reading = some (w, g) → s.spanTarget w.desc.src w.desc.len = .host → s.dmaRuns = true →
      ∃ t, exec (.completionTimeout c off) s = .next t ∧ keepsCore s t
        ∧ t.fld F.pciCplToCntCount 0 = min (s.fld F.pciCplToCntCount 0 + 1) 0xFFFFFFFF ∧ failed t w)

/-- A legal RD of a stream or of a completion queue is taken; an illegal one is discarded and counted, and a stream's sets RD_ERR. A
completion queue is enabled where its ring stays within the owner's quota, and otherwise the refusal is counted. A quota is taken at
once. The coalescing time posts a queue's interrupt if records are pending and COAL_US is not 0 (R233, R260, R266 to R268). -/
def Obligations.RingsAndQueues : Prop :=
  ∀ (m : Master) (n : Fin 64) (q : Fin 4096) (v : BitVec 32) (s : State),
    (s.reaches m .acqStrRd n → s.rdLegal n v.toNat = true → ∃ t, exec (.acqRdWrite m n v) s = .next t ∧ keepsCore s t
      ∧ t.reg .acqStrRd n = v.toNat
      ∧ (s.fld F.acqStrCtlClass n ≠ 1 → (s.stream n).pend = [] → (s.stream n).gaps = [] → keepsRegs [.acqStrRd] s t ∧ keepsBytes s t))
    ∧ (s.reaches m .acqStrRd n → s.rdLegal n v.toNat = false → ∃ t, exec (.acqRdWrite m n v) s = .next t ∧ keepsCore s t
      ∧ t.reg .acqStrRd n = s.reg .acqStrRd n ∧ t.flag F.acqStrStsRdErr n = true ∧ s.countsError t)
    ∧ (s.reaches m .dmaCqRd q → s.cqRdLegal q v.toNat = true → ∃ t, exec (.cqRdWrite m q v) s = .next t ∧ keepsCore s t
      ∧ t.reg .dmaCqRd q = v.toNat)
    ∧ (s.reaches m .dmaCqRd q → s.cqRdLegal q v.toNat = false → ∃ t, exec (.cqRdWrite m q v) s = .next t ∧ keepsCore s t
      ∧ t.reg .dmaCqRd q = s.reg .dmaCqRd q ∧ s.countsError t)
    ∧ (s.reaches m .dmaCqCtl q → s.takes .dmaCqCtl q v.toNat → ∃ t, exec (.cqEnWrite m q v) s = .next t ∧ keepsCore s t
      ∧ t.reg .dmaCqCtl q = s.wordAfter .dmaCqCtl q v.toNat ∧ keepsBytes s t)
    ∧ (s.reaches m .dmaCqCtl q → inRanges .dmaCqCtl v.toNat = true → s.flag F.dmaCqCtlEn q = false → bitOf v.toNat 31 = true →
      s.ownerOf (0x07001000 + q) ≠ 0xFFFF → s.pair .dmaCqBaseLo .dmaCqBaseHi q < 2 ^ 35 →
      s.overQuota (s.fld F.dmaCqCtlOwner q) ((16 * 2 ^ bitsOf v.toNat 4 0 + 4095) / 4096) = true →
      ∃ t, exec (.cqEnWrite m q v) s = .next t ∧ keepsCore s t ∧ t.flag F.dmaCqCtlEn q = false ∧ s.countsError t
        ∧ t.fld F.dmaOverCntCount (s.fld F.dmaCqCtlOwner q)
          = min (s.fld F.dmaOverCntCount (s.fld F.dmaCqCtlOwner q) + 1) 0xFFFFFFFF)
    ∧ (s.cqPending q = 0 ∨ s.fld F.dmaCqCoalCoalUs q = 0 → exec (.coalescingTimeout q) s = .next s)
    ∧ (s.cqPending q ≠ 0 → s.fld F.dmaCqCoalCoalUs q ≠ 0 → ∃ t, exec (.coalescingTimeout q) s = .next t ∧ keepsCore s t ∧ t.cqPending q = 0 ∧ keepsBytes s t
      ∧ (let k := s.fld F.dmaCqCtlVector q
        s.vectorMasked k = true → bitOf (t.reg .pciMsixPba (k / 32)) (k % 32) = true ∧ keepsRegs [.pciMsixPba] s t))
    ∧ (s.reaches m .dmaQuota n → s.takes .dmaQuota n v.toNat → ∃ t, exec (.quotaWrite m n v) s = .next t ∧ keepsCore s t
      ∧ t.reg .dmaQuota n = s.wordAfter .dmaQuota n v.toNat ∧ keepsBytes s t)

/-- The measurement timer records the one selected slot that has a result, or counts it lost without room; the refresh timer writes a
state stream that selects sources, and neither does anything to another stream (R237, R244, R246). -/
def Obligations.StreamTimers : Prop :=
  ∀ (n : Fin 64) (s : State),
    let timed := s.streamOn n 3 = true ∧ s.flag F.acqStrCtlTimer n = true ∧ s.sys.op.records = true
    let refreshed := s.streamOn n 2 = true ∧ 1 ≤ s.fld F.acqStrCtlParam n ∧ s.sys.op.records = true
    (¬timed → exec (.measurementTimer n) s = .next s)
    ∧ (∀ k, timed → k < 64 → bitOf (s.pair .acqStrSelLo .acqStrSelHi n) k = true →
      (∀ j, bitOf (s.pair .acqStrSelLo .acqStrSelHi n) j = true → j = k) → (∃ r, (k, r) ∈ s.dev.acq.newest) →
      (s.stream n).gaps = [] → ∃ t, exec (.measurementTimer n) s = .next t ∧ keepsCore s t
        ∧ (s.fill n + 40 < s.ringSize n → t.fld F.acqStrRecCntCount n = min (s.fld F.acqStrRecCntCount n + 1) 0xFFFFFFFF)
        ∧ (s.ringSize n ≤ s.fill n + 40 →
          t.fld F.acqStrLostCntCount n = min (s.fld F.acqStrLostCntCount n + 1) 0xFFFFFFFF))
    ∧ (¬refreshed → exec (.stateRefresh n) s = .next s)
    ∧ (refreshed → s.pair .acqStrSelLo .acqStrSelHi n = 2 ^ 3 → (s.stream n).pend = [] → (s.stream n).gaps = [] →
      s.fill n + 40 < s.ringSize n → ∃ t, exec (.stateRefresh n) s = .next t ∧ keepsCore s t
        ∧ t.fld F.acqStrRecCntCount n = min (s.fld F.acqStrRecCntCount n + 1) 0xFFFFFFFF ∧ keepsRegs
          [.acqStrWr, .acqStrRecCnt, .acqStrSts] s t)

/-! Memory (R271 to R285). -/

/-- A scrubber counts a correctable word; an uncorrectable one is counted, sets UE and is logged with code 0x07, and in general SRAM
reads as an error from then on. A read or patrol of an interleaved burst on a channel in service counts a correctable error; an
uncorrectable one is counted with its address, poisons the burst and posts event 7; a firmware burst that is uncorrectable is healed
from a good mirror. Derating takes the MR4 code; a window of the monitor shows each channel's requests and sets IMBAL for a channel
with too large a share of at least 1,024 (R272, R276, R279, R283). -/
def Obligations.MemoryErrors : Prop :=
  ∀ (region : Fin 4) (unit : BitVec 8) (word : BitVec 20) (pos : Fin 32) (found mirror : Fin 3) (passed : Bool) (ch : Fin 4)
    (burst : BitVec 29) (mr4 : BitVec 5) (r0 r1 r2 r3 : BitVec 32) (s : State),
    let swept := !s.inOp [.off, .reset, .stabled] && s.scrubbed region unit.toNat
    let a := 64 * burst.toNat
    let n := s.servedBy a
    let mixed := s.fwSize ≤ a ∧ a < s.dramCap ∧ s.dev.poison.contains a = false ∧ s.lostBurst burst.toNat = false
    let one (t : State) (k : Nat) : Prop := keepsCore s t
      ∧ t.fld F.memChCeCntCount k = min (s.fld F.memChCeCntCount k + 1) 0xFFFFFFFF ∧ t.dev.poison = s.dev.poison
    let rs := [r0.toNat, r1.toNat, r2.toNat, r3.toNat]
    let total := s.channels.foldl (fun x c => x + rs.getD c 0) 0
    let watch := s.inOp [.init, .ready, .run, .safeHold] = true ∧ 2 ≤ s.channels.length
    let uneven (c : Nat) : Prop := 1024 ≤ total ∧ 16 * total < 10 * s.channels.length * rs.getD c 0
    (swept = false → exec (.scrub region unit word pos found passed) s = .next s)
    ∧ (swept = true → ∃ t, exec (.scrub region unit word pos found passed) s = .next t ∧ keepsCore s t
      ∧ (found = 0 → passed = false → t = s)
      ∧ (found = 1 → t.fld F.memSramCeCntCount 0 = min (s.fld F.memSramCeCntCount 0 + 1) 0xFFFFFFFF)
      ∧ (found = 2 → t.fld F.memSramUeCntCount 0 = min (s.fld F.memSramUeCntCount 0 + 1) 0xFFFFFFFF ∧ t.flag F.memSramStsUe 0 = true
        ∧ s.logs t 0x07 0 0x06 region region)
      ∧ (found = 2 → region = 3 → t.dev.poison.contains (sramBase + 8 * word.toNat) = true)
      ∧ (passed = true → t.fld F.memSramPassCntCount 0 = min (s.fld F.memSramPassCntCount 0 + 1) 0xFFFFFFFF))
    ∧ (s.dev.cmd.queue = [] → mixed → s.channelUp n = true →
      (found = 0 → exec (.dramRead burst found mirror) s = .next s)
      ∧ (found = 1 → ∃ t, exec (.dramRead burst found mirror) s = .next t ∧ one t n)
      ∧ (found = 2 → ((s.dram n).ues.filter (·.1 ≠ a)).length < 3 → ∃ t, exec (.dramRead burst found mirror) s = .next t
        ∧ keepsCore s t ∧ t.fld F.memChUeCntCount n = min (s.fld F.memChUeCntCount n + 1) 0xFFFFFFFF
        ∧ t.pair .memChUeAddrLo .memChUeAddrHi n = a ∧ t.dev.poison.contains a = true ∧ bitOf (t.reg .sysEvtSts 0) 7 = true))
    ∧ (s.dev.cmd.queue = [] → mixed → s.channelUp ch = true → n = ch.val →
      (found = 0 → exec (.patrol ch burst found) s = .next s)
      ∧ (found = 1 → ∃ t, exec (.patrol ch burst found) s = .next t ∧ one t ch))
    ∧ (s.dev.cmd.queue = [] → a < s.fwSize → a < s.dramCap → s.channelUp 0 = true → s.channelUp 1 = true → mirror = 0 →
      s.dev.poison.contains (mirrorBase + a) = false → ((s.dram 0).ues.filter (·.1 ≠ a)).length < 3 → found = 2 →
      ∃ t, exec (.dramRead burst found mirror) s = .next t ∧ keepsCore s t ∧ t.dev.poison.contains a = false
        ∧ t.fld F.memChUeCntCount 0 = min (s.fld F.memChUeCntCount 0 + 1) 0xFFFFFFFF)
    ∧ (s.dev.cmd.queue = [] → s.dramCap ≤ a →
      exec (.dramRead burst found mirror) s = .next s ∧ exec (.patrol ch burst found) s = .next s)
    ∧ (s.channelUp ch = true → ∃ t, exec (.refreshDerate ch mr4) s = .next t ∧ keepsCore s t ∧ keepsRegs [] s t ∧ keepsBytes s t
      ∧ t.dram ch = { s.dram ch with derate := mr4.toNat })
    ∧ (s.channelUp ch = false → exec (.refreshDerate ch mr4) s = .next s)
    ∧ (¬watch → exec (.imbalanceWindow r0 r1 r2 r3) s = .next s)
    ∧ (watch → ∃ t, exec (.imbalanceWindow r0 r1 r2 r3) s = .next t ∧ keepsCore s t
      ∧ (∀ c ∈ s.channels, t.reg .memChReq c = rs.getD c 0)
      ∧ ((∃ c ∈ s.channels, uneven c) → t.flag F.memImbalImbal 0 = true ∧ bitOf (t.reg .sysEvtSts 0) 8 = true
        ∧ t.fld F.memImbalCntCount 0 = min (s.fld F.memImbalCntCount 0 + 1) 0xFFFFFFFF)
      ∧ ((∀ c ∈ s.channels, ¬uneven c) → keepsRegs [.memChReq] s t ∧ keepsBytes s t))

/-- MIGRATE of a channel that may migrate, or tracking that finds a thin margin with the reserve free, sets STATE to 4, MIG_PCT to 0 and
is logged with code 0x0D; a refused MIGRATE is counted. A copied grain flips and MIG_PCT follows; with the last one the channel is
retired, in the map and logged with code 0x0E. A channel that is lost shows STATE 6, stands in the map and is logged with code 0x0F; the
loss of channel 0 with its mirror good and no reserve holds the device with the DRAM cause (R284, R285). -/
def Obligations.ChannelsFail : Prop :=
  ∀ (m : Master) (ch : Fin 4) (margin : Fin 3) (s : State),
    let st := s.fld F.memChStsState ch
    let k := (s.dram ch).flipped
    let tracked := s.inOp [.ready, .run, .safeHold] && s.channelUp ch
    let degraded (t : State) : Prop := keepsCore s t ∧ t.fld F.memChStsState ch = 4 ∧ t.fld F.memChStsMigPct ch = 0
      ∧ (t.dram ch).degraded = true ∧ s.logs t 0x0D 1 0x07 ch ch
    let gone (t : State) : Prop := t.fld F.memChStsState ch = 6 ∧ bitOf (t.fld F.fmkMapMiscLost 0) ch = true
      ∧ t.flag F.fmkStsMapAny 0 = true ∧ t.fuse = s.fuse ∧ t.saf = s.saf ∧ t.pending = s.pending
    let losable := s.dev.cmd.queue = [] ∧ ch.val ∈ s.channels ∧ st ≠ 0 ∧ st ≠ 5 ∧ st ≠ 6
    (s.reaches m .memChCtl ch → s.migrateOk ch = true → (s.dram ch).degraded = false →
      ∃ t, exec (.migrate m ch) s = .next t ∧ degraded t)
    ∧ (s.reaches m .memChCtl ch → s.migrateOk ch = false → ∃ t, exec (.migrate m ch) s = .next t ∧ keepsCore s t
      ∧ t.fld F.memChStsState ch = st ∧ s.countsError t)
    ∧ (tracked = false ∨ margin = 0 → exec (.dramTracking ch margin) s = .next s)
    ∧ (tracked = true → margin = 1 → st = 2 → (s.dram ch).degraded = false → s.reserveFree ch = true →
      ∃ t, exec (.dramTracking ch margin) s = .next t ∧ degraded t)
    ∧ (s.dev.cmd.queue = [] → st ≠ 4 ∨ s.inOp [.ready, .run, .safeHold] = false → exec (.grainCopied ch []) s = .next s)
    ∧ (s.dev.cmd.queue = [] → st = 4 → s.inOp [.ready, .run, .safeHold] = true → k + 1 < s.grains →
      ∃ t, exec (.grainCopied ch []) s = .next t ∧ keepsCore s t ∧ keepsBytes s t ∧ keepsRegs [.memChSts] s t
        ∧ t.dram ch = { s.dram ch with flipped := k + 1 } ∧ t.fld F.memChStsMigPct ch = 100 * (k + 1) / s.grains)
    ∧ (s.dev.cmd.queue = [] → st = 4 → s.inOp [.ready, .run, .safeHold] = true → s.grains ≤ k + 1 →
      ∃ t, exec (.grainCopied ch []) s = .next t ∧ keepsCore s t ∧ t.fld F.memChStsState ch = 5 ∧ t.fld F.memChStsMigPct ch = 100
        ∧ bitOf (t.fld F.fmkMapMiscRetired 0) ch = true ∧ s.logs t 0x0E 3 0x07 ch 0xFFFF)
    ∧ (losable → 2 ≤ ch.val →
      (∃ t, exec (.channelLost ch) s = .next t ∧ gone t ∧ t.sys = s.sys ∧ s.logs t 0x0F 2 0x07 ch 0xFFFF)
      ∧ (∃ t, exec (.dramNoResponse ch) s = .next t ∧ gone t ∧ t.sys = s.sys ∧ s.logs t 0x0F 2 0x07 ch 0xFFFF)
      ∧ (tracked = true → margin = 2 → ∃ t, exec (.dramTracking ch margin) s = .next t ∧ gone t ∧ t.sys = s.sys
        ∧ s.logs t 0x0F 2 0x07 ch 0xFFFF))
    ∧ (losable → ch = 0 → s.fwCopy 1 = true → s.reserveFree 0 = false → s.sys.op = .ready →
      ∃ t, exec (.channelLost ch) s = .next t ∧ gone t ∧ t.sys.op = .safeHold ∧ t.sys.holdDram = true)
    ∧ (s.dev.cmd.queue = [] → st = 6 → exec (.channelLost ch) s = .next s ∧ exec (.dramNoResponse ch) s = .next s)

/-! Links (R287 to R298). -/

/-- CDR lock is shown on each lane; with three usable lanes it leads a link from DETECT to TRAIN, with fewer the link stays and enters
the fault map. Training leads from TRAIN or RECOVER to ALIGN, 10 ms in TRAIN (with TRAIN_FAIL) or 1 ms in RECOVER back to DETECT, two
deskew markers on every active lane from ALIGN to UP, deskew lost on two lanes and RETRAIN from UP to RECOVER, TEST from DOWN to TEST
and back, counting pattern errors. Both ends move the lane that SPARE named at a marker. A lane that loses its lock keeps its taps. Each
change of state posts event 15; outside its own state a row does nothing. No event is routed and no stream is on (R289 to R296). -/
def Obligations.LinksTrain : Prop :=
  ∀ (m : Master) (n : Fin 4) (lock inv good : BitVec 4) (spare : BitVec 8) (v : BitVec 32) (errs : List (BitVec 32)) (s : State), s.quiet →
    let st := s.fld F.lnkStsState n
    let l := s.link n
    let map := s.fld F.lnkMapRxMap n
    let usable := ((List.range 4).filter fun j => bitOf lock.toNat j && !s.flag F.lnkLaneStsFailed (4 * n.val + j)).length
    let marked := ((List.range 3).filter fun j => bitOf good.toNat (laneOf map j)).length
    let unasked := ∀ j, l.rxSpare = some j → spare.toNat ≠ j
    let w := withBit v.toNat 22
    let allowed := decide (s.fld F.lnkCtlRole n ≠ 0) && bitOf v.toNat 28 && s.inOp [.init, .ready, .run, .safeHold]
    let goes (x : Nat) (R : List Reg) (t : State) : Prop := t.fld F.lnkStsState n = x ∧ bitOf (t.reg .sysEvtSts 0) 15 = true
      ∧ (n = 0 → t.flag F.lnkRingEastOk 0 = decide (x = 4)) ∧ (n = 1 → t.flag F.lnkRingWestOk 0 = decide (x = 4))
      ∧ keepsCore s t ∧ keepsOthers .lnkSts n s t ∧ keepsRegs ([.lnkSts, .lnkRing, .sysEvtSts] ++ R) s t ∧ keepsBytes s t
    let only (R : List Reg) (x : LinkSt) (t : State) : Prop := t.link n = x ∧ (∀ j, j ≠ n.val → t.link j = s.link j)
      ∧ keepsCore s t ∧ keepsRegs R s t ∧ keepsBytes s t
    let counted (t : State) : Prop := ∀ j, j < 4 → t.fld F.lnkPrbsCntCount (4 * n.val + j)
      = min (s.fld F.lnkPrbsCntCount (4 * n.val + j) + ((errs.map (·.toNat)).getD j 0)) 0xFFFFFFFF
    (∃ t, exec (.linkCdrLock n lock inv) s = .next t ∧ keepsCore s t ∧ keepsBytes s t
      ∧ (∀ j, j < 4 → t.flag F.lnkLaneStsCdrLock (4 * n.val + j) = bitOf lock.toNat j
        ∧ t.flag F.lnkLaneStsInverted (4 * n.val + j) = bitOf inv.toNat j)
      ∧ (∀ j, t.reg .lnkDfe j = if 4 * n.val ≤ j ∧ j < 4 * n.val + 4 ∧ bitOf lock.toNat (j % 4) = false then
          (s.keepTaps j).reg .lnkDfe j else s.reg .lnkDfe j)
      ∧ (st ≠ 1 → keepsRegs [.lnkLaneSts, .lnkDfe] s t)
      ∧ (st = 1 → 3 ≤ usable → goes 2 [.lnkLaneSts, .lnkDfe] t)
      ∧ (st = 1 → usable < 3 → t.fld F.lnkStsState n = 1 ∧ bitOf (t.fld F.fmkMapMiscLinks 0) n = true
        ∧ (bitOf (s.fld F.fmkMapMiscLinks 0) n = false → s.logs t 0x11 2 0x08 (4 * n.val) 0xFFFF)))
    ∧ (st = 2 ∨ st = 5 → ∃ t, exec (.linkTrained n) s = .next t ∧ goes 3 [] t ∧ t.link n = { l with alignSeen := 0 })
    ∧ (st ≠ 2 → st ≠ 5 → exec (.linkTrained n) s = .next s)
    ∧ (st = 2 → ∃ t, exec (.trainFail n) s = .next t ∧ goes 1 [] t ∧ t.flag F.lnkStsTrainFail n = true)
    ∧ (st ≠ 2 → exec (.trainFail n) s = .next s)
    ∧ (st = 5 → ∃ t, exec (.recoverTimeout n) s = .next t ∧ goes 1 [] t)
    ∧ (st ≠ 5 → exec (.recoverTimeout n) s = .next s)
    ∧ (st ≠ 3 → st ≠ 4 → exec (.deskewMarker n good spare) s = .next s ∧ exec (.deskewMarkerSend n) s = .next s)
    ∧ (st = 3 → marked ≠ 3 → ∃ t, exec (.deskewMarker n good spare) s = .next t ∧ only [] { l with alignSeen := 0 } t)
    ∧ (st = 3 → marked = 3 → l.alignSeen = 0 → ∃ t, exec (.deskewMarker n good spare) s = .next t
      ∧ only [] { l with alignSeen := 1 } t)
    ∧ (st = 3 → marked = 3 → l.alignSeen ≠ 0 → ∃ t, exec (.deskewMarker n good spare) s = .next t ∧ goes 4 [.lnkReplayCnt] t)
    ∧ (st = 4 → 2 ≤ marked → unasked → exec (.deskewMarker n good spare) s = .next s)
    ∧ (∀ j, st = 4 → l.rxSpare = some j → j < 3 → spare.toNat = j → ∃ t, exec (.deskewMarker n good spare) s = .next t
      ∧ (t.link n).rxSpare = none ∧ t.fld F.lnkMapRxMap n = moveLane map j (spareOf map)
      ∧ t.flag F.lnkStsSpareUsed n = true ∧ keepsCore s t ∧ keepsBytes s t
      ∧ (2 ≤ marked → t.link n = { l with rxSpare := none } ∧ t.fld F.lnkStsState n = 4)
      ∧ (marked < 2 → t.fld F.lnkStsState n = 5))
    ∧ (st = 4 → marked < 2 → unasked → ∃ t, exec (.deskewMarker n good spare) s = .next t ∧ goes 5 [.lnkRetrainCnt] t
      ∧ t.fld F.lnkRetrainCntCount n = min (s.fld F.lnkRetrainCntCount n + 1) 0xFFFFFFFF)
    ∧ (st = 3 ∨ st = 4 → l.sparePend = none → ∃ t, exec (.deskewMarkerSend n) s = .next t
      ∧ only [] { l with deskewCount := (l.deskewCount + 1) % 256 } t
      ∧ t.dev.out = .linkMarker n 0x7C l.deskewCount (s.fld F.lnkMapTxMap n) :: s.dev.out)
    ∧ (∀ j, st = 3 ∨ st = 4 → l.sparePend = some j → j < 3 → ∃ t, exec (.deskewMarkerSend n) s = .next t
      ∧ t.fld F.lnkMapTxMap n = moveLane (s.fld F.lnkMapTxMap n) j (spareOf (s.fld F.lnkMapTxMap n))
      ∧ (t.link n).sparePend = none ∧ t.flag F.lnkStsSpareUsed n = true ∧ keepsCore s t ∧ keepsBytes s t)
    ∧ (s.reaches m .lnkCtl n → s.takes .lnkCtl n w → ∃ t, exec (.retrain m n v) s = .next t
      ∧ t.fld F.lnkCtlLaneErrLim n = bitsOf v.toNat 7 0 ∧ t.flag F.lnkCtlEn n = bitOf v.toNat 28 ∧ t.flag F.lnkCtlRetrain n = false
      ∧ (st = 4 → allowed = true → goes 5 [.lnkCtl, .lnkRetrainCnt] t
        ∧ t.fld F.lnkRetrainCntCount n = min (s.fld F.lnkRetrainCntCount n + 1) 0xFFFFFFFF)
      ∧ (st = 4 → allowed = false → goes 0 [.lnkCtl] t)
      ∧ (st = 0 → allowed = true → bitOf v.toNat 25 = false → goes 1 [.lnkCtl] t)
      ∧ (st = 1 ∨ st = 2 ∨ st = 3 ∨ st = 5 → allowed = true → keepsCore s t ∧ keepsRegs [.lnkCtl] s t ∧ keepsBytes s t))
    ∧ (s.reaches m .lnkCtl n → s.takes .lnkCtl n v.toNat → ∃ t, exec (.test m n v errs) s = .next t
      ∧ (st = 0 → bitOf v.toNat 25 = true → goes 6 [.lnkCtl, .lnkPrbsCnt] t ∧ counted t)
      ∧ (st = 6 → bitOf v.toNat 25 = false → goes 0 [.lnkCtl, .lnkPrbsCnt] t ∧ counted t)
      ∧ (st = 6 → bitOf v.toNat 25 = true → counted t ∧ keepsCore s t ∧ keepsRegs [.lnkCtl, .lnkPrbsCnt] s t ∧ keepsBytes s t)
      ∧ (1 ≤ st → st ≤ 5 → allowed = true → bitOf v.toNat 22 = false →
        keepsCore s t ∧ keepsRegs [.lnkCtl] s t ∧ keepsBytes s t)
      ∧ ((bitOf v.toNat 25 ≠ s.flag F.lnkCtlTest n → st = 0 ∨ st = 6)))

/-- A receiving lane fails when the errors of its window lie above the limit or its CDR lock is lost, once; its errors are counted in any
case. The failure is logged, and SPARE names its logical lane while the spare is free. SPARE received names the lane that moves at this
end's next marker. An eye scan starts with START and ends with its count. No event is routed and no stream is on (R293, R295, R370). -/
def Obligations.LanesAndEyes : Prop :=
  ∀ (m : Master) (n : Fin 4) (p : Fin 4) (nerr : BitVec 16) (k : Fin 3) (v : BitVec 32) (lane : Fin 16) (count : BitVec 41) (s : State),
    s.quiet →
    let l := s.link n
    let map := s.fld F.lnkMapRxMap n
    let q := 4 * n.val + p.val
    let bad := (s.fld F.lnkCtlLaneErrLim n < nerr.toNat ∨ s.flag F.lnkLaneStsCdrLock q = false) ∧ s.flag F.lnkLaneStsFailed q = false
    let lane' (t : State) : Prop := keepsCore s t ∧ keepsBytes s t ∧ keepsOthers .lnkLaneSts q s t
      ∧ t.fld F.lnkLaneStsErr q = min (s.fld F.lnkLaneStsErr q + nerr.toNat) 0xFFFF ∧ ∀ j, j ≠ n.val → t.link j = s.link j
    (∃ t, exec (.spare n k) s = .next t ∧ t.link n = { l with sparePend := some k.val } ∧ (∀ j, j ≠ n.val → t.link j = s.link j)
      ∧ keepsCore s t ∧ keepsRegs [] s t ∧ keepsBytes s t)
    ∧ (¬bad → ∃ t, exec (.laneFailed n p nerr) s = .next t ∧ lane' t ∧ keepsRegs [.lnkLaneSts] s t ∧ t.dev.links = s.dev.links
      ∧ t.dev.out = s.dev.out ∧ t.flag F.lnkLaneStsFailed q = s.flag F.lnkLaneStsFailed q)
    ∧ (bad → ∃ t, exec (.laneFailed n p nerr) s = .next t ∧ lane' t ∧ keepsRegs (.lnkLaneSts :: logRegisters) s t
      ∧ t.flag F.lnkLaneStsFailed q = true
      ∧ ((∀ j, j < 3 → laneOf map j ≠ p.val) → s.logs t 0x10 0 0x08 q 0xFFFF ∧ t.link n = l)
      ∧ (laneOf map k = p.val → (∀ j, j < 3 → laneOf map j = p.val → j = k.val) → spareOf map ≠ p.val →
        (l.rxSpare = none → s.flag F.lnkLaneStsFailed (4 * n.val + spareOf map) = false →
          s.logs t 0x10 1 0x08 (4 * n.val + k.val) (4 * n.val + spareOf map) ∧ t.link n = { l with rxSpare := some k.val }
            ∧ t.dev.out = .linkCtl n 3 k :: s.dev.out)
        ∧ (l.rxSpare ≠ none ∨ s.flag F.lnkLaneStsFailed (4 * n.val + spareOf map) = true →
          s.logs t 0x10 0 0x08 (4 * n.val + k.val) 0xFFFF ∧ t.link n = l ∧ t.dev.out = s.dev.out)))
    ∧ (s.reaches m .lnkEyeCtl lane → s.takes .lnkEyeCtl lane (withBit v.toNat 31) →
      ∃ t, exec (.eyeScanStart m lane v) s = .next t ∧ keepsCore s t ∧ keepsBytes s t
        ∧ keepsRegs [.lnkEyeCtl] s t ∧ keepsOthers .lnkEyeCtl lane s t ∧ t.flag F.lnkEyeCtlStart lane = true
        ∧ t.fld F.lnkEyeCtlV lane = bitsOf v.toNat 23 16 ∧ t.fld F.lnkEyeCtlH lane = bitsOf v.toNat 13 8
        ∧ t.fld F.lnkEyeCtlBitsLog2 lane = bitsOf v.toNat 5 0
        ∧ t.flag F.lnkEyeCtlDone lane = (s.flag F.lnkEyeCtlStart lane && s.flag F.lnkEyeCtlDone lane))
    ∧ (s.flag F.lnkEyeCtlStart lane = true → ∃ t, exec (.eyeScanDone lane count) s = .next t ∧ keepsCore s t ∧ keepsBytes s t
      ∧ keepsRegs [.lnkEyeCtl, .lnkEyeRes] s t ∧ keepsOthers .lnkEyeCtl lane s t ∧ keepsOthers .lnkEyeRes lane s t
      ∧ t.flag F.lnkEyeCtlStart lane = false ∧ t.flag F.lnkEyeCtlDone lane = true
      ∧ t.fld F.lnkEyeResCount lane = min count.toNat 0xFFFFFFFF)
    ∧ (s.flag F.lnkEyeCtlStart lane = false → exec (.eyeScanDone lane count) s = .next s)

/-- A frame whose check fails is counted and answered with one NAK; one out of order with one NAK; the one expected with ACK, and then
handled: an unknown type is dropped and counted, an own ring frame goes no further, a second copy is marked, a new one is remembered and
passed on, and on a bridge a MEM_WR is stored. ACK frees frames, NAK and 4 µs of silence send the rest again, the eighth time leads to
RECOVER. Ten µs without a second copy are counted. No event is routed, no stream is on, and no mailbox command waits (R290 to R299). -/
def Obligations.LinkFrames : Prop :=
  ∀ (n : Fin 4) (b host : List Byte) (err : Bool) (q : BitVec 12) (src : Fin 8) (rs : BitVec 16) (s : State), s.quiet →
    s.dev.cmd.queue = [] →
    let st := s.fld F.lnkStsState n
    let role := s.fld F.lnkCtlRole n
    let l := s.link n
    let framed := st = 3 ∨ st = 4
    let only (R : List Reg) (x : LinkSt) (t : State) : Prop := t.link n = x ∧ (∀ j, j ≠ n.val → t.link j = s.link j)
      ∧ keepsCore s t ∧ keepsRegs R s t ∧ keepsBytes s t
    let naks (t : State) : Prop := t.dev.out = if l.nakSent then s.dev.out else .linkCtl n 2 l.expSeq :: s.dev.out
    let acked (f : WireFrame) (t : State) : Prop := t.link n = { l with expSeq := (l.expSeq + 1) % 4096, nakSent := false }
      ∧ t.dev.out = .linkCtl n 1 f.lseq :: s.dev.out
    let held (u : State) (k : Nat) := ((u.link k).replay ++ (u.link k).waiting).map fun f => (f.type, f.payload)
    let drops (t : State) : Prop := t.fld F.lnkRingDropCntCount 0 = min (s.fld F.lnkRingDropCntCount 0 + 1) 0xFFFFFFFF
      ∧ keepsCore s t ∧ keepsRegs [.lnkRingDropCnt] s t ∧ keepsBytes s t
    let again (x : List LinkFrame) (t : State) : Prop := (t.link n).replay = x.map (fun f => { f with resent := f.resent + 1 })
      ∧ t.dev.out = (x.map fun f => Out.linkFrame n f.type f.dst f.payload).reverse ++ s.dev.out
      ∧ t.fld F.lnkReplayCntCount n = min (s.fld F.lnkReplayCntCount n + x.length) 0xFFFFFFFF
      ∧ keepsCore s t ∧ keepsRegs [.lnkReplayCnt] s t ∧ keepsBytes s t
    let find := s.dev.ring.seen.find? fun e => decide (e.1 = src.val ∧ e.2.1 = rs.toNat)
    (¬framed → exec (.linkFrame n b host err) s = .next s)
    ∧ (framed → readFrame b = none → ∃ t, exec (.linkFrame n b host err) s = .next t ∧ naks t
      ∧ only [.lnkCrcCnt] { l with nakSent := true } t
      ∧ t.fld F.lnkCrcCntCount n = min (s.fld F.lnkCrcCntCount n + 1) 0xFFFFFFFF)
    ∧ (∀ f, framed → readFrame b = some f → f.lseq ≠ l.expSeq → ∃ t, exec (.linkFrame n b host err) s = .next t ∧ naks t
      ∧ only [] { l with nakSent := true } t)
    ∧ (∀ f, framed → readFrame b = some f → f.lseq = l.expSeq → role ≤ 2 → f.type ≠ 0x40 → f.type = 0 ∨ 3 < f.type →
      ∃ t, exec (.linkFrame n b host err) s = .next t ∧ acked f t ∧ drops t)
    ∧ (∀ f, framed → readFrame b = some f → f.lseq = l.expSeq → role ≤ 2 → 1 ≤ f.type → f.type ≤ 3 →
      ∃ t, exec (.linkFrame n b host err) s = .next t
        ∧ (f.hdr % 8 = s.fld F.lnkRingPos 0 → acked f t ∧ t.dev.ring = s.dev.ring ∧ keepsCore s t ∧ keepsRegs [] s t ∧ keepsBytes s t)
        ∧ (f.hdr % 8 ≠ s.fld F.lnkRingPos 0 → (∃ e ∈ s.dev.ring.seen, e.1 = f.hdr % 8 ∧ e.2.1 = f.rseq) → acked f t
          ∧ t.dev.ring.seen = s.dev.ring.seen.map (fun e => if e.1 = f.hdr % 8 ∧ e.2.1 = f.rseq then (e.1, e.2.1, true) else e)
          ∧ keepsCore s t ∧ keepsRegs [] s t ∧ keepsBytes s t)
        ∧ (f.hdr % 8 ≠ s.fld F.lnkRingPos 0 → (∀ e ∈ s.dev.ring.seen, ¬(e.1 = f.hdr % 8 ∧ e.2.1 = f.rseq)) → bitOf f.hdr 6 = false →
          f.hdr / 8 % 8 ≠ s.fld F.lnkRingPos 0 → n.val < 2 →
          t.dev.ring.seen = s.dev.ring.seen ++ [(f.hdr % 8, f.rseq, false)] ∧ keepsCore s t ∧ keepsRegs [] s t ∧ keepsBytes s t
            ∧ (f.hops + 1 < s.fld F.lnkRingSize 0 → s.fld F.lnkCtlRole (1 - n.val) = 1 - n.val + 1 →
              s.fld F.lnkStsState (1 - n.val) = 4 → held t (1 - n.val) = held s (1 - n.val) ++ [(f.type, f.payload)])
            ∧ (s.fld F.lnkRingSize 0 ≤ f.hops + 1 → acked f t)))
    ∧ (∀ f, framed → readFrame b = some f → f.lseq = l.expSeq → 3 ≤ role → f.type = 0x10 → 9 ≤ f.payload.length →
      s.spanTarget (leAt f.payload 0 8) (f.payload.length - 8) = .sram → ∃ t, exec (.linkFrame n b host err) s = .next t ∧ acked f t
        ∧ keepsCore s t ∧ keepsRegs [] s t
        ∧ (∀ x, x < leAt f.payload 0 8 ∨ leAt f.payload 0 8 + (f.payload.length - 8) ≤ x → t.byte x = s.byte x)
        ∧ ∀ j y, (f.payload.drop 8)[j]? = some y → t.byte (leAt f.payload 0 8 + j) = y)
    ∧ (∃ t, exec (.ack n q) s = .next t ∧ keepsCore s t ∧ keepsRegs [] s t ∧ keepsBytes s t
      ∧ held t n = ((l.replay.filter fun f => decide (2048 ≤ (q.toNat + 4096 - f.lseq) % 4096)) ++ l.waiting).map
        (fun f => (f.type, f.payload)))
    ∧ (let rest := l.replay.filter fun f => decide (2048 ≤ ((q.toNat + 4095) % 4096 + 4096 - f.lseq) % 4096)
      (st = 4 → l.waiting = [] → (∀ f ∈ rest, f.resent < 7) → ∃ t, exec (.nak n q) s = .next t ∧ again rest t)
        ∧ (st = 4 → l.waiting = [] → (∃ f ∈ rest, 7 ≤ f.resent) → ∃ t, exec (.nak n q) s = .next t ∧ t.fld F.lnkStsState n = 5
          ∧ t.fld F.lnkRetrainCntCount n = min (s.fld F.lnkRetrainCntCount n + 1) 0xFFFFFFFF
          ∧ held t n = rest.map fun f => (f.type, f.payload)))
    ∧ (st ≠ 4 → ∃ t, exec (.nak n q) s = .next t ∧ keepsCore s t ∧ keepsRegs [] s t ∧ keepsBytes s t
      ∧ held t n = ((l.replay.filter fun f => decide (2048 ≤ ((q.toNat + 4095) % 4096 + 4096 - f.lseq) % 4096)) ++ l.waiting).map
        (fun f => (f.type, f.payload)))
    ∧ (st ≠ 4 ∨ l.replay = [] → exec (.replayTimeout n) s = .next s)
    ∧ (st = 4 → l.replay ≠ [] → (∀ f ∈ l.replay, f.resent < 7) → ∃ t, exec (.replayTimeout n) s = .next t ∧ again l.replay t)
    ∧ (st = 4 → (∃ f ∈ l.replay, 7 ≤ f.resent) → ∃ t, exec (.replayTimeout n) s = .next t ∧ t.fld F.lnkStsState n = 5
      ∧ t.fld F.lnkRetrainCntCount n = min (s.fld F.lnkRetrainCntCount n + 1) 0xFFFFFFFF ∧ held t n = held s n)
    ∧ (find = none → exec (.ringSingleTimeout src rs) s = .next s)
    ∧ (∀ e, find = some e → ∃ t, exec (.ringSingleTimeout src rs) s = .next t ∧ keepsCore s t ∧ keepsRegs [.lnkRingSingleCnt] s t
      ∧ keepsBytes s t ∧ t.dev.ring.seen = s.dev.ring.seen.filter (fun x => !decide (x.1 = src.val ∧ x.2.1 = rs.toNat))
      ∧ t.fld F.lnkRingSingleCntCount 0
        = (if e.2.2 then s.fld F.lnkRingSingleCntCount 0 else min (s.fld F.lnkRingSingleCntCount 0 + 1) 0xFFFFFFFF))

/-- On a bridge that is UP, MEM_WR stores, is posted to the host, or is dropped and counted; MEM_RD is answered with data in pieces of at
most 504 bytes or with STATUS 1; a completion fills the segment it was made for, ends it with an error under STATUS 1, and is dropped and
counted where it fits no read; REG_WR and REG_RD reach the registers from a host-bridge peer alone; INT raises a vector. On a link that is
no bridge, or not UP, they do nothing. No event is routed, no stream is on, and no mailbox command waits (R300). -/
def Obligations.BridgeTransactions : Prop :=
  ∀ (n : Fin 4) (host bs : List Byte) (err : Bool) (a : BitVec 64) (len tag sts off : BitVec 16) (reg v : BitVec 32) (s : State),
    s.quiet → s.dev.cmd.queue = [] →
    let role := s.fld F.lnkCtlRole n
    let l := s.link n
    let bridge := s.bridgeUp n
    let place := s.spanTarget a.toNat
    let read := 1 ≤ len.toNat ∧ len.toNat ≤ 4096
    let pieces (d : List Byte) := (chunksOf 504 9 d).zipIdx.map fun p =>
      (0x12, leBytes 2 tag.toNat ++ leBytes 2 0 ++ leBytes 2 (504 * p.2) ++ p.1)
    let only (R : List Reg) (x : LinkSt) (t : State) : Prop := t.link n = x ∧ (∀ j, j ≠ n.val → t.link j = s.link j)
      ∧ keepsCore s t ∧ keepsRegs R s t ∧ keepsBytes s t
    let held (u : State) (k : Nat) := ((u.link k).replay ++ (u.link k).waiting).map fun f => (f.type, f.payload)
    let drops (t : State) : Prop := t.fld F.lnkRingDropCntCount 0 = min (s.fld F.lnkRingDropCntCount 0 + 1) 0xFFFFFFFF
      ∧ keepsCore s t ∧ keepsRegs [.lnkRingDropCnt] s t ∧ keepsBytes s t
    let answers (R : List Reg) (c : Instr) (l : List (Nat × List Byte)) : Prop := ∃ t, exec c s = .next t ∧ keepsCore s t
      ∧ keepsRegs R s t ∧ keepsBytes s t ∧ held t n = held s n ++ l ∧ ∀ j, j ≠ n.val → t.link j = s.link j
    (bridge = false → ∀ c, c = .memWr n a bs ∨ c = .memRd n a len tag host err ∨ c = .memCpl n tag sts off bs
      ∨ c = .regWr n reg v ∨ c = .regRd n reg tag ∨ c = .regCpl n tag sts v ∨ c = .int n tag → exec c s = .next s)
    ∧ (bridge = true →
      (1 ≤ bs.length → bs.length ≤ 504 → place bs.length = .sram ∨ place bs.length = .dram ∧ s.fwHit a.toNat bs.length = false
          ∧ s.channels.any s.channelDead = false → ∃ t, exec (.memWr n a bs) s = .next t ∧ keepsCore s t ∧ keepsRegs [] s t
        ∧ (∀ x, x < a.toNat ∨ a.toNat + bs.length ≤ x → t.byte x = s.byte x)
        ∧ (s.channels.any s.channelDead = false → ∀ j y, bs[j]? = some y → t.byte (a.toNat + j) = y))
      ∧ (bs = [] ∨ 504 < bs.length ∨ place bs.length = .none ∨ place bs.length = .dram ∧ s.fwHit a.toNat bs.length = true →
        ∃ t, exec (.memWr n a bs) s = .next t ∧ drops t)
      ∧ (1 ≤ bs.length → bs.length ≤ 504 → place bs.length = .host → ∃ t, exec (.memWr n a bs) s = .next t ∧ keepsCore s t
        ∧ keepsRegs [] s t ∧ keepsBytes s t
        ∧ (s.flag F.pciStsDlUp 0 = true → t.dev.out = .hostWrite (a.toNat % 2 ^ 60) bs :: s.dev.out)
        ∧ (s.flag F.pciStsDlUp 0 = false → t.dev.pci.waiting = s.dev.pci.waiting ++ [(a.toNat % 2 ^ 60, bs)]))
      ∧ (read → place len.toNat = .sram ∨ place len.toNat = .dram → s.poisoned a.toNat len.toNat = false →
        answers [] (.memRd n a len tag host err) (pieces (s.bytes a.toNat len.toNat)))
      ∧ (read → place len.toNat = .host → err = false →
        answers [] (.memRd n a len tag host err) (pieces (sliceB host 0 len.toNat)))
      ∧ (¬read ∨ place len.toNat = .none ∨ place len.toNat = .dram ∧ s.poisoned a.toNat len.toNat = true
          ∨ place len.toNat = .host ∧ err = true ∨ place len.toNat = .window ∧ bridgeLink a.toNat = none →
        answers [] (.memRd n a len tag host err)
          [(0x12, leBytes 2 tag.toNat ++ leBytes 2 1 ++ leBytes 2 0)])
      ∧ (read → place len.toNat = .sram → s.poisoned a.toNat len.toNat = true →
        answers (logRegisters ++ [.memSramUeCnt, .memSramSts]) (.memRd n a len tag host err)
          [(0x12, leBytes 2 tag.toNat ++ leBytes 2 1 ++ leBytes 2 0)])
      ∧ ((∀ r ∈ l.reads, r.tag ≠ tag.toNat) → ∃ t, exec (.memCpl n tag sts off bs) s = .next t ∧ drops t)
      ∧ (∀ r, l.reads.find? (fun x => decide (x.tag = tag.toNat)) = some r → (s.chain r.chain).findSeg r.off .reading = none →
        sts.toNat ≠ 0 ∨ bs.length = r.left → ∃ t, exec (.memCpl n tag sts off bs) s = .next t
          ∧ only [] { l with reads := l.reads.filter fun x => decide (x.tag ≠ tag.toNat) } t)
      ∧ (∀ r, l.reads.find? (fun x => decide (x.tag = tag.toNat)) = some r → sts = 0 → r.left < bs.length →
        ∃ t, exec (.memCpl n tag sts off bs) s = .next t ∧ drops t)
      ∧ (∀ r w g, l.reads.find? (fun x => decide (x.tag = tag.toNat)) = some r → (s.chain r.chain).findSeg r.off .reading = some (w, g) →
        let lo := max off.toNat r.skip
        let hi := min (off.toNat + bs.length) (r.skip + r.len)
        sts = 0 → bs.length < r.left → lo < hi → hi - lo < g.left → ∃ t, exec (.memCpl n tag sts off bs) s = .next t
          ∧ only [] { l with reads := l.reads.map fun x => if x.tag = tag.toNat then { x with left := r.left - bs.length } else x } t
          ∧ ∃ w' ∈ (t.chain r.chain).works, w'.addr = w.addr ∧ ∃ g' ∈ w'.segs, g'.off = r.off ∧ g'.left = g.left - (hi - lo)
            ∧ g'.data = putSlice g.data (r.base + (lo - r.skip)) (sliceB bs (lo - off.toNat) (hi - lo)))
      ∧ (∀ r w g, l.reads.find? (fun x => decide (x.tag = tag.toNat)) = some r → (s.chain r.chain).findSeg r.off .reading = some (w, g) →
        sts ≠ 0 → s.dmaRuns = true → s.spanTarget w.desc.src w.desc.len = .window → ∃ t, exec (.memCpl n tag sts off bs) s = .next t
          ∧ ∀ w' ∈ (t.chain r.chain).works, w'.addr = w.addr → w'.error ≠ 0)
      ∧ (tag.toNat ∈ l.regReads → ∃ t, exec (.regCpl n tag sts v) s = .next t
        ∧ only [] { l with regReads := l.regReads.filter (· ≠ tag.toNat) } t)
      ∧ (tag.toNat ∉ l.regReads → ∃ t, exec (.regCpl n tag sts v) s = .next t ∧ drops t)
      ∧ (role ≠ 4 → ∀ c, c = .regWr n reg v ∨ c = .regRd n reg tag ∨ c = .int n tag → ∃ t, exec c s = .next t ∧ drops t)
      ∧ (role = 4 → regAt (reg.toNat % 2 ^ 28) = none → reg.toNat % 2 ^ 28 < 0xC000000 → reg.toNat % 4 = 0 →
        exec (.regWr n reg v) s = .next s
          ∧ answers [] (.regRd n reg tag) [(0x15, leBytes 2 tag.toNat ++ leBytes 2 0 ++ leBytes 4 0)])
      ∧ (∀ i, role = 4 → reg.toNat % 2 ^ 28 = Reg.acqStrWm.addr i → i < 64 → s.powered .acqStrWm i = true →
        (s.flag F.acqStrCtlOn i = false → inRanges .acqStrWm v.toNat = true → ∃ t, exec (.regWr n reg v) s = .next t
          ∧ keepsCore s t ∧ keepsRegs [.acqStrWm] s t ∧ keepsOthers .acqStrWm i s t ∧ keepsBytes s t
          ∧ t.reg .acqStrWm i = s.wordAfter .acqStrWm i v.toNat)
        ∧ (smGet none s.dev.shadow (halfKey (peerOf n) (reg.toNat % 2 ^ 28)) = none →
          answers [] (.regRd n reg tag) [(0x15, leBytes 2 tag.toNat ++ leBytes 2 0 ++ leBytes 4 (s.reg .acqStrWm i))]))
      ∧ (role = 4 → 2048 ≤ tag.toNat → ∃ t, exec (.int n tag) s = .next t ∧ drops t)
      ∧ (role = 4 → tag.toNat < 2048 → s.vectorMasked tag.toNat = true → ∃ t, exec (.int n tag) s = .next t
        ∧ bitOf (t.reg .pciMsixPba (tag.toNat / 32)) (tag.toNat % 32) = true ∧ keepsCore s t ∧ keepsRegs [.pciMsixPba] s t
        ∧ keepsBytes s t))

/-- A configuration request is answered with retry until the block ends its load; then a write completes and a read gives device ID,
revision, class code and the block's or the fallback identity. A host write through BAR2 is stored, or, where the window is closed or
names nothing, discarded and counted; a read gives data, a poisoned TLP (which counts an uncorrectable word of general SRAM) or Completer Abort. MAP takes an address in DRAM or general
SRAM; another value, and any write while MAP is held, is discarded and counted. A reset of the endpoint clears the MSI-X table, marks
its event and halts running chains with a host address; the data link going down is marked, and coming up shows speed and width, at most 4 lanes under the fallback identity, and lets what waited leave. No
event is routed (R303 to R306). -/
def Obligations.EndpointActs : Prop :=
  ∀ (m : Master) (off : BitVec 12) (v lo hi : BitVec 32) (w : BitVec 26) (len : BitVec 13) (bs : List Byte) (kind : Fin 3)
      (speed : Fin 4) (width : Fin 9) (c : Fin 4096) (s : State), s.unrouted →
    let a := s.bar2Addr w.toNat
    let answers (i : Instr) (what : Nat) (d : List Byte) : Prop := ∃ t, exec i s = .next t ∧ t.dev.out = .pcie what d :: s.dev.out
      ∧ keepsCore s t ∧ keepsRegs [] s t ∧ keepsBytes s t
    let own := s.spanTarget a len.toNat = .dram ∨ s.spanTarget a len.toNat = .sram
    let map := s.wordAfter .pciBar2MapLo 0 lo.toNat + 2 ^ 32 * hi.toNat
    (s.dev.pci.ident = 0 → ∀ b, answers (.configRequest b off v) 1 [])
    ∧ (s.dev.pci.ident ≠ 0 → answers (.configRequest true off v) 7 []
      ∧ (off.toNat / 4 = 0 → answers (.configRequest false off v) 2 (leBytes 4 (s.pcieIds % 65536 + 0x07680000)))
      ∧ (off.toNat / 4 = 2 → answers (.configRequest false off v) 2 (leBytes 4 0x118000B1))
      ∧ (off.toNat / 4 = 11 → answers (.configRequest false off v) 2 (leBytes 4 (s.pcieIds / 65536 % 2 ^ 32)))
      ∧ ∃ d, answers (.configRequest false off v) 2 (leBytes 4 d))
    ∧ (s.bar2Closed a bs.length = false → ∃ t, exec (.bar2Write w bs) s = .next t ∧ keepsCore s t ∧ keepsRegs [] s t
      ∧ (∀ x, x < a ∨ a + bs.length ≤ x → t.byte x = s.byte x)
      ∧ (s.channels.any s.channelDead = false → ∀ j y, bs[j]? = some y → t.byte (a + j) = y))
    ∧ (s.bar2Closed a bs.length = true → ∃ t, exec (.bar2Write w bs) s = .next t ∧ keepsCore s t ∧ keepsRegs [.pciBar2ErrCnt] s t
      ∧ keepsBytes s t ∧ t.fld F.pciBar2ErrCntCount 0 = min (s.fld F.pciBar2ErrCntCount 0 + 1) 0xFFFFFFFF)
    ∧ (own → s.poisoned a len.toNat = false → answers (.bar2Read w len) 3 (s.bytes a len.toNat))
    ∧ (s.spanTarget a len.toNat = .dram → s.poisoned a len.toNat = true → answers (.bar2Read w len) 5 [])
    ∧ (s.spanTarget a len.toNat = .sram → s.poisoned a len.toNat = true → ∃ t, exec (.bar2Read w len) s = .next t
      ∧ t.dev.out = .pcie 5 [] :: s.dev.out ∧ keepsCore s t ∧ keepsBytes s t ∧ t.flag F.memSramStsUe 0 = true
      ∧ keepsRegs (logRegisters ++ [.memSramUeCnt, .memSramSts]) s t)
    ∧ (¬own → answers (.bar2Read w len) 4 [])
    ∧ (s.reaches m .pciBar2MapLo 0 →
      (s.mapHeld = false → mapNames map = true → ∃ t, exec (.bar2MapWrite m lo hi) s = .next t ∧ keepsCore s t ∧ keepsBytes s t
        ∧ keepsRegs [.pciBar2MapLo, .pciBar2MapHi] s t ∧ t.pair .pciBar2MapLo .pciBar2MapHi 0 = map)
      ∧ (s.mapHeld = false → mapNames map = false → ∃ t, exec (.bar2MapWrite m lo hi) s = .next t ∧ keepsCore s t ∧ keepsBytes s t
        ∧ keepsRegs [.sysAccErrCnt, .sysAccErrLast, .sysEvtSts] s t ∧ s.countsError t)
      ∧ (s.mapHeld = true → ∃ t, exec (.bar2MapWrite m lo hi) s = .next t ∧ keepsCore s t ∧ keepsBytes s t
        ∧ keepsRegs [.sysAccErrCnt, .sysAccErrLast, .sysEvtSts] s t
        ∧ t.fld F.sysAccErrCntCount 0 = min (s.fld F.sysAccErrCntCount 0 + 2) 0xFFFFFFFF))
    ∧ (∃ t, exec (.pcieReset kind) s = .next t ∧ keepsCore s t ∧ keepsBytes s t
      ∧ (∀ i, i < 8192 → t.reg .pciMsixTab i = (Reg.resetWord .pciMsixTab i).toNat)
      ∧ keepsRegs [.pciMsixTab, .pciSts, .sysEvtSts, .dmaQSts, .dmaQCurLo, .dmaQCurHi, .dmaUse, .dmaOverCnt, .dmaCqSts] s t
      ∧ t.flag F.pciStsFlrEvt 0 = (decide (kind = 1) || s.flag F.pciStsFlrEvt 0)
      ∧ t.flag F.pciStsHotRstEvt 0 = (decide (kind ≠ 1) || s.flag F.pciStsHotRstEvt 0)
      ∧ (s.fld F.dmaQStsState c = 1 →
        (∃ x ∈ (s.chain c).works, 2 ^ 63 ≤ x.addr ∨ 2 ^ 63 ≤ x.desc.src ∨ 2 ^ 63 ≤ x.desc.dst) →
        t.fld F.dmaQStsState c = 3 ∧ t.fld F.dmaQStsHaltCause c = 7 ∧ (t.chain c).works = []))
    ∧ (s.flag F.pciStsDlUp 0 = false → exec .pcieLinkDown s = .next s)
    ∧ (s.flag F.pciStsDlUp 0 = true → ∃ t, exec .pcieLinkDown s = .next t ∧ keepsCore s t ∧ keepsBytes s t
      ∧ keepsRegs [.pciSts, .sysEvtSts] s t ∧ t.flag F.pciStsDlUp 0 = false ∧ t.flag F.pciStsDownEvt 0 = true)
    ∧ (∃ t, exec (.pcieLinkUp speed width) s = .next t ∧ keepsCore s t ∧ t.flag F.pciStsDlUp 0 = true
      ∧ t.fld F.pciStsSpeed 0 = speed + 1 ∧ t.fld F.pciStsWidth 0 = (if s.dev.pci.ident = 2 then min 4 width.val else width) ∧ t.dev.pci.waiting = []
      ∧ (s.dev.dma.chains = [] → keepsRegs [.pciSts] s t ∧ keepsBytes s t
        ∧ t.dev.out = (s.dev.pci.waiting.map fun p => Out.hostWrite p.1 p.2).reverse ++ s.dev.out))

/-- A frame on a port that is down goes unseen; one too short, too long or with a bad check sequence is counted. A second copy on a
redundant pair is counted and removed, an HSR frame of this node's own is removed, and another one that is not for this node alone is
passed on (in log entry 17's way). Then the classifier drops, counts or routes it: to the time base, a receive ring with its 16-byte header, or nowhere.
A queued frame leaves with its check sequence, and a PTP frame's timestamp enters the FIFO, whose head a read of ETH_TS_HI removes. A
link change is shown, logged on a redundant pair and empties queues under FLUSH_DOWN. Supervision frames leave on both ports; an entry
of the duplicate table ends counted unless its partner came. No event is routed, no stream is on, no command waits. -/
def Obligations.PortsCarry : Prop :=
  ∀ (m : Master) (p : Fin 4) (k : Fin 2) (age : BitVec 40) (ok up : Bool) (b : List Byte) (speed : BitVec 3) (src : BitVec 48)
      (seq : BitVec 16) (s : State), s.quiet → s.dev.cmd.queue = [] →
    let f := parseFrame (s.redMode p) b
    let c : Instr := .ethFrameReceived p age ok b
    let good := s.portUp p && ok && decide (60 ≤ b.length) && decide (b.length ≤ s.longest p)
    let rx (R : List Reg) (t : State) : Prop := keepsCore s t ∧ keepsRegs (.ethRxCnt :: R) s t
      ∧ t.fld F.ethRxCntCount p = min (s.fld F.ethRxCntCount p + 1) 0xFFFFFFFF
    let plain := good && decide (f.red = none) && !s.bootTraffic p f
    let cls := s.classify f.etype (f.vid.getD 0)
    let stamp := s.stampAt age.toNat (-(s.fld F.ethAsymRxLat p : Int))
    let o := p.val / 2 * 2 + (1 - p.val % 2)
    let pair := s.ethPair (p / 2)
    let u := s.refillShapers p
    let x := s.ethPort p
    let red := (s.ethPair k).table.find? fun e => decide (e.1 = src.toNat ∧ e.2.1 = seq.toNat)
    (s.portUp p = false → exec c s = .next s)
    ∧ (s.portUp p = true → good = false → ∃ t, exec c s = .next t ∧ keepsCore s t ∧ keepsRegs [.ethRxErrCnt] s t ∧ keepsBytes s t
      ∧ t.fld F.ethRxErrCntCount p = min (s.fld F.ethRxErrCntCount p + 1) 0xFFFFFFFF)
    ∧ (plain = true → cls = none → ∃ t, exec c s = .next t ∧ rx [.ethRxDropCnt] t ∧ keepsBytes s t
      ∧ t.fld F.ethRxDropCntCount p = min (s.fld F.ethRxDropCntCount p + 1) 0xFFFFFFFF)
    ∧ (∀ i, plain = true → cls = some i → s.fld F.ethClsActAct i = 0 ∨ 4 < s.fld F.ethClsActAct i → ∃ t, exec c s = .next t
      ∧ rx [] t ∧ keepsBytes s t ∧ t.dev.out = s.dev.out)
    ∧ (∀ i, plain = true → cls = some i → s.fld F.ethClsActAct i = 1 → ∃ t, exec c s = .next t ∧ rx [] t ∧ keepsBytes s t
      ∧ t.dev.out = .ptpFrame p stamp.1 stamp.2 b :: s.dev.out)
    ∧ (∀ i, plain = true → cls = some i → s.fld F.ethClsActAct i = 4 →
      let r := s.fld F.ethClsActRing i
      let size := 2 ^ s.fld F.ethRxrSizeSizeLog2 r
      let bytes := leBytes 8 stamp.1 ++ leBytes 2 b.length ++ leBytes 1 (p.val + 4 * b2n f.vid.isSome) ++ leBytes 1 stamp.2
        ++ leBytes 4 0 ++ b
      let n := (bytes.length + 7) / 8 * 8
      let at' := sramBase + s.fld F.ethRxrBaseBase r * 4096 + s.reg .ethRxrWr r
      (s.rxFill r + n < size → s.reg .ethRxrWr r + n ≤ size → ∃ t, exec c s = .next t ∧ rx [.ethRxrWr] t
        ∧ t.reg .ethRxrWr r = (s.reg .ethRxrWr r + n) % size ∧ (∀ j y, bytes[j]? = some y → t.byte (at' + j) = y)
        ∧ ∀ q, q < at' ∨ at' + n ≤ q → t.byte q = s.byte q)
      ∧ (size ≤ s.rxFill r + n → ∃ t, exec c s = .next t ∧ rx [.ethRxrDropCnt] t ∧ keepsBytes s t
        ∧ t.fld F.ethRxrDropCntCount r = min (s.fld F.ethRxrDropCntCount r + 1) 0xFFFFFFFF))
    ∧ (∀ n lan, good = true → f.red = some (n, lan) → f.etype ≠ ptpType → s.redMode p = 1 →
      (∃ e ∈ pair.table, e.1 = f.src ∧ e.2.1 = n) → ∃ t, exec c s = .next t ∧ rx [.ethRedDupCnt, .ethRedLanerrCnt] t ∧ keepsBytes s t
        ∧ t.dev.out = s.dev.out ∧ t.fld F.ethRedDupCntCount (p / 2) = min (s.fld F.ethRedDupCntCount (p / 2) + 1) 0xFFFFFFFF
        ∧ (lan ≠ p.val % 2 → t.fld F.ethRedLanerrCntCount (p / 2) = min (s.fld F.ethRedLanerrCntCount (p / 2) + 1) 0xFFFFFFFF))
    ∧ (good = true → f.red ≠ none → s.redMode p = 2 → s.ownMac (p / 2) f.src = true → ∃ t, exec c s = .next t ∧ rx [] t ∧ keepsBytes s t
      ∧ t.dev.out = s.dev.out)
    ∧ (∀ n lan, good = true → f.red = some (n, lan) → f.etype ≠ ptpType → s.redMode p = 2 → s.ownMac (p / 2) f.src = false →
      s.ownMac (p / 2) f.dst = false → s.portUp o = true → (∀ e ∈ pair.table, ¬(e.1 = f.src ∧ e.2.1 = n)) →
      s.bootTraffic p f = false → cls = none → ∃ t, exec c s = .next t ∧ rx [.ethRxDropCnt, .ethTxCnt] t ∧ keepsBytes s t
        ∧ t.dev.out = .ethFrame o (b ++ fcs b) :: s.dev.out
        ∧ (t.ethPair (p / 2)).table = ((f.src, n, p.val, false) :: pair.table).take 512)
    ∧ (∃ t, exec (.ethLinkChange p up speed) s = .next t ∧ keepsCore s t ∧ keepsBytes s t
      ∧ t.flag F.ethPortStsLink p = up ∧ t.fld F.ethPortStsSpeed p = speed.toNat
      ∧ t.flag (if p.val % 2 = 0 then F.ethRedCtlAOk else F.ethRedCtlBOk) (p / 2) = (s.dev.boot.accepted && s.flag F.ethPortCtlEn p && up)
      ∧ keepsRegs (logRegisters ++ [.ethPortSts, .ethRedCtl, .ethTxDropCnt]) s t
      ∧ t.flag F.ethPortStsLinkEvt p = (s.flag F.ethPortStsLinkEvt p || decide (s.flag F.ethPortStsLink p ≠ up))
      ∧ (s.flag F.ethPortStsLink p = true → up = false → s.redMode p ≠ 0 → s.logs t 0x12 1 0x09 p o)
      ∧ ((s.dev.boot.accepted && s.flag F.ethPortCtlEn p && up) = false → s.flag F.ethPortCtlFlushDown p = true → (t.ethPort p).queues = []
        ∧ t.fld F.ethTxDropCntCount p = min (s.fld F.ethTxDropCntCount p + x.queues.length) 0xFFFFFFFF)
      ∧ ((s.dev.boot.accepted && s.flag F.ethPortCtlEn p && up) = true ∨ s.flag F.ethPortCtlFlushDown p = false → t.ethPort p = x))
    ∧ (s.portUp p = false → exec (.ethFrameSent p age) s = .next s)
    ∧ (s.portUp p = true → u.nextFrame p = none → ∃ t, exec (.ethFrameSent p age) s = .next t ∧ keepsCore s t ∧ keepsRegs [] s t
      ∧ keepsBytes s t ∧ (t.ethPort p).queues = x.queues ∧ t.dev.out = s.dev.out)
    ∧ (∀ q l, s.portUp p = true → u.nextFrame p = some (q, l) → ∃ t, exec (.ethFrameSent p age) s = .next t ∧ keepsCore s t
      ∧ keepsBytes s t ∧ t.dev.out = .ethFrame p (l ++ fcs l) :: s.dev.out ∧ (t.ethPort p).queues = dropFirst (q, l) x.queues
      ∧ t.fld F.ethTxCntCount p = min (s.fld F.ethTxCntCount p + 1) 0xFFFFFFFF
      ∧ ((frameType l).1 ≠ ptpType → keepsRegs [.ethTxCnt] s t ∧ (t.ethPort p).stamps = x.stamps)
      ∧ ((frameType l).1 = ptpType → 16 ≤ x.stamps.length → t.flag F.ethTsInfoOvf p = true ∧ (t.ethPort p).stamps = x.stamps)
      ∧ ((frameType l).1 = ptpType → x.stamps.length < 16 → ∃ e, (t.ethPort p).stamps = x.stamps ++ [e]
        ∧ (e.time, e.frac) = s.stampAt age.toNat (s.fld F.ethAsymTxLat p) ∧ t.flag F.ethTsInfoValid p = true))
    ∧ (s.fld F.ethRedCtlMode k = 0 → exec (.supervisionFrame k) s = .next s)
    ∧ (s.fld F.ethRedCtlMode k ≠ 0 → ∃ t, exec (.supervisionFrame k) s = .next t ∧ keepsCore s t ∧ keepsRegs [.ethTxDropCnt] s t
      ∧ keepsBytes s t ∧ (t.ethPair k).seq = ((s.ethPair k).seq + 1) % 65536
      ∧ ∀ i, i = 2 * k.val ∨ i = 2 * k.val + 1 → s.portUp i = true ∨ s.flag F.ethPortCtlFlushDown i = false →
        ∃ l, (t.ethPort i).queues = (s.ethPort i).queues ++ [(7, l)] ∧ l.take 6 = macBytes 0x01154E000100)
    ∧ (red = none → exec (.redSingleTimeout k src seq) s = .next s)
    ∧ (∀ e, red = some e → ∃ t, exec (.redSingleTimeout k src seq) s = .next t ∧ keepsCore s t ∧ keepsRegs [.ethRedSingleCnt] s t
      ∧ keepsBytes s t
      ∧ (t.ethPair k).table = (s.ethPair k).table.filter (fun y => !decide (y.1 = src.toNat ∧ y.2.1 = seq.toNat))
      ∧ t.fld F.ethRedSingleCntCount k
        = (if e.2.2.2 then s.fld F.ethRedSingleCntCount k else min (s.fld F.ethRedSingleCntCount k + 1) 0xFFFFFFFF))
    ∧ (s.reaches m .ethTsHi p → ∃ t, exec (.tsHeadRead m p) s = .next t ∧ keepsCore s t ∧ keepsBytes s t
      ∧ keepsRegs [.ethTsInfo, .ethTsLo, .ethTsHi] s t ∧ (t.ethPort p).stamps = x.stamps.tail
      ∧ t.flag F.ethTsInfoValid p = decide (2 ≤ x.stamps.length)
      ∧ (m = .host → smGet none s.dev.shadow (halfKey .host (Reg.ethTsHi.addr p)) = none →
        t.dev.out = .pcie 6 (leBytes 4 (s.reg .ethTsHi p)) :: s.dev.out))

/-- A time marker on a ring link in ALIGN or UP leaves its count and arrival; the next in order also gives the link's delay. A marker
sent carries the departure of the one before. A time status brings the neighbour's distance and state; one sent says the device's own.
Enough measurements of the upstream make an update with their mean, after which the upstream is chosen anew. No event is routed, no
stream is on (R321 to R329). -/
def Obligations.TimeBaseFollows : Prop :=
  ∀ (n : Fin 2) (k : Fin 4) (count : BitVec 8) (dep : BitVec 64) (pl : List Byte) (s : State), s.quiet →
    let r := s.ringTime n
    let t0 := s.dev.time
    let st := s.fld F.timStsState 0
    let l := s.link k
    let next := r.rxCount.map (fun x => (x + 1) % 256) = some count.toNat ∧ r.t34Valid = true
    let ready := s.timeSrc = 1 ∧ 2 ^ s.fld F.timCtlAvgLog2 0 ≤ t0.sum.length ∧ (st = 2 ∨ st = 3) ∧ s.sys.op ≠ .stabled
    let only (R : List Reg) (t : State) : Prop := keepsCore s t ∧ keepsRegs R s t ∧ keepsBytes s t ∧ t.dev.time.c = t0.c
    (s.ringTimed n = false → exec (.timeMarker n count dep) s = .next s ∧ exec (.timeStatus n pl) s = .next s
      ∧ exec (.timeStatusSend n) s = .next s)
    ∧ (s.ringTimed n = true → ¬next → ∃ t, exec (.timeMarker n count dep) s = .next t ∧ only [] t
      ∧ t.ringTime n = { r with rxCount := some count.toNat, rxArrival := s.instant })
    ∧ (s.ringTimed n = true → next → ∃ t, exec (.timeMarker n count dep) s = .next t
      ∧ t.sfld F.timLinkDelayD n = signed 32 (unsigned 32 (s.linkTheta n dep.toNat r.rxArrival r).2)
      ∧ (s.timeSrc ≠ 1 → only [.timLinkDelay] t)
      ∧ (s.timeSrc = 1 → t0.up = some n.val → s.upstreamOk n = true → s.measures = true → st = 2 ∨ st = 3 → only [.timLinkDelay] t
        ∧ t.dev.time.sum = (s.linkTheta n dep.toNat r.rxArrival r).1 :: t0.sum ∧ t.dev.time.o = t0.o))
    ∧ (s.fld F.lnkStsState k = 3 ∨ s.fld F.lnkStsState k = 4 → ∃ t, exec (.timeMarkerSend k) s = .next t ∧ only [] t
      ∧ t.link k = { l with timeCount := (l.timeCount + 1) % 256, lastDeparture := s.instant }
      ∧ t.dev.out = .linkMarker k 0x3C l.timeCount l.lastDeparture :: s.dev.out)
    ∧ (s.fld F.lnkStsState k ≠ 3 → s.fld F.lnkStsState k ≠ 4 → exec (.timeMarkerSend k) s = .next s)
    ∧ (s.ringTimed n = true → ∃ t, exec (.timeStatus n pl) s = .next t ∧ only [.timSts] t
      ∧ (t.ringTime n).tdist = leAt pl 0 1 ∧ (t.ringTime n).nbState = leAt pl 1 1 % 8 ∧ (t.ringTime n).nbLoaded = bitOf (leAt pl 1 1) 3
      ∧ (t.ringTime n).statusAt = some t0.c ∧ (s.timeSrc ≠ 1 → t.dev.time.up = t0.up ∧ keepsRegs [] s t)
      ∧ (∀ p, r.sent.find? (fun x => decide (x.1 = leAt pl 2 1)) = some p →
        (t.ringTime n).t3 = p.2 ∧ (t.ringTime n).t4 = leAt pl 4 8 ∧ (t.ringTime n).t34Valid = true))
    ∧ (∀ x, s.ringTimed n = true → r.rxCount = some x → (s.link n).replay = [] → ∃ t, exec (.timeStatusSend n) s = .next t ∧ only [] t
      ∧ (t.link n).replay.map (fun f => (f.type, f.payload)) = [(0x40, leBytes 1 s.ownDist ++ leBytes 1 (st % 8 + 8 *
        s.fld F.timStsLoaded 0) ++ leBytes 1 x ++ leBytes 1 0 ++ leBytes 8 r.rxArrival)])
    ∧ (¬ready → exec .chainUpdate s = .next s)
    ∧ (ready → ∃ t, exec .chainUpdate s = .next t ∧ only [.timRate, .timSlew, .timSts, .timErr, .sysEvtSts] t
      ∧ t.dev.time.lastE = some (meanI (t0.sum.drop (t0.sum.length - 2 ^ s.fld F.timCtlAvgLog2 0))) ∧ t.dev.time.sum = []
      ∧ t.dev.time.lastUpdate = t0.c ∧ t.dev.time.o = t0.o ∧ t.dev.time.up = s.chooseUp)

/-- TIM_MEAS is taken under SRC 2: the first one loads the time base by a step of O, one in holdover is kept as the return error, and it
is counted as an error elsewhere. LOSS_MS without a measurement leads ACQUIRING and LOCKED to HOLDOVER. A lost reference is marked and
left for the other one, or none; a present one is shown and taken where there is none; A is returned to. Switches are logged. No event is
routed, no stream is on (R321 to R331, R366). -/
def Obligations.ReferencesFollow : Prop :=
  ∀ (m : Master) (lo hi : BitVec 32) (b : Bool) (s : State), s.quiet →
    let t0 := s.dev.time
    let st := s.fld F.timStsState 0
    let e := signed 64 (lo.toNat + 2 ^ 32 * hi.toNat)
    let only (R : List Reg) (t : State) : Prop := keepsCore s t ∧ keepsRegs R s t ∧ keepsBytes s t ∧ t.dev.time.c = t0.c
    let ref := s.fld F.fmkStsRef 0
    let aOk := s.flag F.timRefStsAOk 0
    let other := if b then (if aOk then 0 else 2) else if s.flag F.timRefStsBOk 0 && s.flag F.timRefStsBEn 0 then 1 else 2
    let switched (v : Nat) (t : State) : Prop := t.fld F.fmkStsRef 0 = v ∧ t.flag F.timRefStsSel 0 = decide (v = 1)
      ∧ t.flag F.timRefStsHold 0 = decide (v = 2)
      ∧ s.logs t 0x0B (b2n (decide (v ≠ 2))) 0x0A (if ref = 2 then v else ref) (if v = 2 then 0xFFFF else v)
      ∧ t.fld F.timRefHoldCntCount 0 = min (s.fld F.timRefHoldCntCount 0 + b2n (decide (v = 2))) 0xFFFFFFFF
    let refRegs := logRegisters ++ [.fmkSts, .timRefSts, .timRefHoldCnt]
    (s.reaches m .timMeasLo 0 →
      (s.timeSrc ≠ 2 ∨ s.measures = false → ∃ t, exec (.timMeasWrite m lo hi) s = .next t
        ∧ only [.sysAccErrCnt, .sysAccErrLast, .sysEvtSts] t ∧ s.countsError t ∧ t.dev.time = t0)
      ∧ (s.timeSrc = 2 → s.sys.op = .init ∨ s.sys.op = .ready → st = 0 → ∃ t, exec (.timMeasWrite m lo hi) s = .next t
        ∧ only [.timSts, .sysEvtSts] t ∧ t.dev.time.o = t0.o - e * 2 ^ 24 ∧ t.dev.time.lastMeas = t0.c
        ∧ t.fld F.timStsState 0 = 2 ∧ t.fld F.timStsLoaded 0 = 1 ∧ t.fld F.timStsLoadPend 0 = 0)
      ∧ (s.timeSrc = 2 → s.measures = true → st = 2 ∨ st = 3 → ∃ t, exec (.timMeasWrite m lo hi) s = .next t
        ∧ only [.timRate, .timSlew, .timSts, .timErr, .sysEvtSts] t ∧ t.dev.time.lastE = some e ∧ t.dev.time.lastMeas = t0.c
        ∧ t.dev.time.o = t0.o)
      ∧ (s.timeSrc = 2 → s.measures = true → st = 4 → ∃ t, exec (.timMeasWrite m lo hi) s = .next t
        ∧ only [.timRate, .timSlew, .timSts, .timErr, .timRetErrLo, .timRetErrHi, .sysEvtSts] t
        ∧ t.pair .timRetErrLo .timRetErrHi 0 = unsigned 64 e ∧ t.dev.time.lastE = some e))
    ∧ (¬((st = 2 ∨ st = 3) ∧ s.sys.op ≠ .stabled) → exec .holdover s = .next s)
    ∧ (st = 2 ∨ st = 3 → s.sys.op ≠ .stabled → ∃ t, exec .holdover s = .next t
      ∧ only (logRegisters ++ [.timSts, .timSlew, .timRate, .timHoldCnt]) t ∧ t.fld F.timStsState 0 = 4 ∧ t.slew = 0
      ∧ t.fld F.timHoldCntCount 0 = min (s.fld F.timHoldCntCount 0 + 1) 0xFFFFFFFF ∧ t.dev.time.o = t0.o
      ∧ (t0.rHist = [] → t.rate = s.rate) ∧ s.logs t 0x0C 0 0x0E 0 0xFFFF)
    ∧ (s.sys.op = .off ∨ s.flag (refField b) 0 = false ∧ ref ≠ b2n b → exec (.referenceLost b) s = .next s)
    ∧ (s.sys.op ≠ .off → ref ≠ b2n b → s.flag (refField b) 0 = true → ∃ t, exec (.referenceLost b) s = .next t
      ∧ only [.timRefSts, .sysEvtSts] t ∧ t.flag (refField b) 0 = false ∧ t.flag F.timRefStsLostEvt 0 = true)
    ∧ (s.sys.op ≠ .off → ref = b2n b → ∃ t, exec (.referenceLost b) s = .next t ∧ only refRegs t
      ∧ t.flag (refField b) 0 = false ∧ t.flag F.timRefStsLostEvt 0 = true ∧ switched other t)
    ∧ (s.sys.op = .off → exec (.referencePresent b) s = .next s)
    ∧ (s.sys.op ≠ .off → ref ≠ 2 → ∃ t, exec (.referencePresent b) s = .next t ∧ only [.timRefSts] t ∧ t.flag (refField b) 0 = true)
    ∧ (s.sys.op ≠ .off → ref = 2 → b = false ∨ s.flag F.timRefStsBEn 0 = true → aOk = false → ∃ t, exec (.referencePresent b) s = .next t
      ∧ only refRegs t ∧ t.flag (refField b) 0 = true ∧ switched (b2n b) t)
    ∧ (s.sys.op = .off ∨ ref ≠ 1 ∨ aOk = false → exec .returnToA s = .next s)
    ∧ (s.sys.op ≠ .off → ref = 1 → aOk = true → ∃ t, exec .returnToA s = .next t ∧ only refRegs t ∧ switched 0 t)

/-! The safety channels (R334 to R360). -/

/-- A tap word leaves its FIFO as it was sent, or with bad parity; inside the zone gate it counts as an intruding or a floor hit, one with a dropped hit takes its shot from
the channel's shots once and counts as neither, and one with bad parity or an overflow spoils the cycle. The pulse test takes the outputs
that are high. A guard's opening starts the start-up test, its closing and locking after enough travel ends a channel's half, and both
halves within 100 ms set TEST_DONE in both. Switches that differ for 100 ms mark the drive, contacts of an input pair that disagree set
DISC_ERR and read 0. An encoder edge counts. Nothing but the safety channels and the tap FIFO changes, and nothing in a channel without
power (R25 to R28, R340 to R350). -/
def Obligations.SafetyInputs : Prop :=
  ∀ (ch : Fin 768) (code : BitVec 23) (dropped parity second o : Bool) (n m : Fin 8) (closed locked level back : Bool)
    (s : State),
    let b := decide (ch.val % 2 = 1)
    let x := s.saf.chan b
    let y := s.saf.chan (!b)
    let d := x.drv n
    let fifo (t : State) := if b then t.dev.rng.tapB else t.dev.rng.tapA
    let other (t : State) := if b then t.dev.rng.tapA else t.dev.rng.tapB
    let taken (i : Instr) (p : Saf → Prop) : Prop := ∃ t, exec i s = .next t ∧ t.sys = s.sys ∧ t.fuse = s.fuse ∧ t.pending = s.pending
      ∧ keepsRegs [] s t ∧ keepsBytes s t ∧ fifo t = (fifo s).tail ∧ other t = other s ∧ p t.saf
    let leads (i : Instr) (p : Saf → Prop) : Prop := ∃ f, exec i s = .next { s with saf := f } ∧ p f
    let off := x.powered = false
    let differ := (s.saf.a.drv n).closed ≠ (s.saf.b.drv n).closed ∨ (s.saf.a.drv n).locked ≠ (s.saf.b.drv n).locked
    let wrong := s.saf.a.powered = true ∧ s.saf.b.powered = true ∧ discInputs (s.saf.a.discSet m).fn = true
      ∧ (((s.saf.a.disc m).level != (s.saf.b.disc m).level) != (s.saf.a.discSet m).anti) = true
    let tapOf (z : Nat) (w : TapWord) (t : SafTap) : Prop :=
      ∃ c, x.zoneSets[z]? = some c ∧ c.taps.find? (fun t => decide (t.ch = w.ch)) = some t
    let i : Instr := .tapWord ch code dropped parity second o
    let sent (w : TapWord) : Prop := w.ch = ch.val ∧ w.code = code.toNat ∧ w.dropped = dropped
    (fifo s = [] → exec i s = .next s)
    ∧ (∀ w l, fifo s = w :: l → parity = true → o = false → ¬sent w → exec i s = .next s)
    ∧ (∀ w l, fifo s = w :: l → off ∨ x.set = none → o = false → sent w ∨ parity = false → taken i fun f => f = s.saf)
    ∧ (fifo s ≠ [] → o = true → taken i fun f => f = s.saf.setChan b { x with tapBad := true })
    ∧ (fifo s ≠ [] → ¬off → x.set.isSome = true → parity = false → taken i fun f =>
      f = s.saf.setChan b { x with tapBad := true })
    ∧ (∀ w l, fifo s = w :: l → ¬off → x.set.isSome = true → parity = true → o = false → sent w → dropped = false → taken i fun f =>
      f = s.saf.setChan b { x with hits := (f.chan b).hits }
        ∧ ∀ z t, tapOf z w t → smGet [] (f.chan b).hits (128 * z + w.ch) = if t.zgOpen ≤ w.code ∧ w.code < t.zgClose then
              addStep (x.ms + b2n second) (b2n (decide (w.code < t.floorNear))) (b2n (decide (t.floorNear ≤ w.code))) 0
                (smGet [] x.hits (128 * z + w.ch))
            else smGet [] x.hits (128 * z + w.ch))
    ∧ (∀ w l, fifo s = w :: l → ¬off → x.set.isSome = true → parity = true → o = false → sent w → dropped = true → taken i fun f =>
      f = s.saf.setChan b { x with hits := (f.chan b).hits, spoilt := (f.chan b).spoilt }
        ∧ ∀ z t, tapOf z w t → smGet [] (f.chan b).hits (128 * z + w.ch) = if t.zgOpen ≤ w.code ∧ w.code < t.zgClose
                ∧ smGet 0 x.spoilt (128 * z + w.ch) ≠ w.shotId + 1 then dropShot (smGet [] x.hits (128 * z + w.ch))
            else smGet [] x.hits (128 * z + w.ch))
    ∧ (off → exec (.stoPulseTest b) s = .next s ∧ exec (.guardSwitchInput b n closed locked) s = .next s
      ∧ exec (.discreteInput b m level) s = .next s ∧ exec (.driveEncoderEdge b n back) s = .next s)
    ∧ (¬off → leads (.stoPulseTest b) fun f => f = s.saf.setChan b { x with tests := x.tests + 1, pulsed := (f.chan b).pulsed }
      ∧ ∀ k, k < 8 → (k ∈ (f.chan b).pulsed ↔ (x.drv k).torque = true) ∧ (8 + k ∈ (f.chan b).pulsed ↔ bitOf x.dout k = true))
    ∧ (¬off → leads (.guardSwitchInput b n closed locked) fun f =>
      let e := (f.chan b).drv n
      let o := (f.chan (!b)).drv n
      let tested := (x.driveSet n).supervised = true ∧ d.testDone = false
      e.closed = closed ∧ e.locked = locked ∧ e.torque = d.torque ∧ e.state = d.state ∧ o.torque = (y.drv n).torque
        ∧ (∀ k, k ≠ n.val → (f.chan b).drv k = x.drv k ∧ (f.chan (!b)).drv k = y.drv k)
        ∧ (closed = (y.drv n).closed → locked = (y.drv n).locked → e.disagree = false ∧ o.disagree = false)
        ∧ (tested → d.closed = true → closed = false → d.phase ≠ 2 → e.phase = 1 ∧ e.travel = 0)
        ∧ (tested → d.phase = 1 → closed = true → locked = true → (x.driveSet n).testCnt ≤ d.travel →
          (y.halfDone n = true → e.testDone = true ∧ o.testDone = true ∧ e.phase = 0 ∧ o.phase = 0)
          ∧ (y.halfDone n = false → e.phase = 2 ∧ e.doneAt = some x.now ∧ e.testDone = false))
        ∧ (d.testDone = true → e.testDone = true))
    ∧ (s.saf.a.powered = true → s.saf.b.powered = true → differ → leads (.switchDisagree n) fun f =>
      f = ⟨s.saf.a.setDrv n { s.saf.a.drv n with disagree := true }, s.saf.b.setDrv n { s.saf.b.drv n with disagree := true }⟩)
    ∧ (s.saf.a.powered = false ∨ s.saf.b.powered = false ∨ ¬differ → exec (.switchDisagree n) s = .next s)
    ∧ (¬off → leads (.discreteInput b m level) fun f => f = s.saf.setChan b (x.setDisc m { x.disc m with level := level }))
    ∧ (wrong → leads (.discErr m) fun f => f = ⟨s.saf.a.setDisc m { s.saf.a.disc m with err := true, reading := false },
      s.saf.b.setDisc m { s.saf.b.disc m with err := true, reading := false }⟩)
    ∧ (¬wrong → exec (.discErr m) s = .next s)
    ∧ (¬off → leads (.driveEncoderEdge b n back) fun f => f = s.saf.setChan b (x.setDrv n { d with
      cur := d.cur + (if back then -1 else 1), travel := if d.phase = 1 then d.travel + 1 else d.travel }))

/-- A band message is discarded and counted for its form, its code or its sequence, or accepted, in each channel with power and a set; a
connection times out; a transmit connection forms its next message with its code. Nothing but the safety channels changes (R351 to
R355). -/
def Obligations.BandMessages : Prop :=
  ∀ (b : Bool) (l : List Byte) (conn : Fin 4) (s : State),
    let x := s.saf.chan b
    let leads (i : Instr) (p : Saf → Prop) : Prop := ∃ f, exec i s = .next { s with saf := f } ∧ p f
    let off := x.powered = false
    leads (.bandMessage l) (fun f => ∀ k,
      let u := s.saf.chan k
      let v := f.chan k
      let q := leAt l 2 2
      let len := leAt l 8 1
      let good := u.bandForm l = true ∧ leAt l (12 + len) 4 = bandCode (u.bandSet q).ident (l.take (12 + len))
      let c := u.band q
      let step := match c.seq with
        | some p => (leAt l 4 4 + 2 ^ 32 - p) % 2 ^ 32
        | none => 1
      (u.powered = false ∨ u.set = none → v = u)
        ∧ (u.powered = true → u.set.isSome = true → q < 4 →
          (¬good → v.band q = { c with okRun := 0, crcCnt := min (c.crcCnt + 1) 255 })
          ∧ (good → step = 0 ∨ (u.bandSet q).seqGap < step → v.band q = { c with okRun := 0, seqCnt := min (c.seqCnt + 1) 255 })
          ∧ (good → 1 ≤ step → step ≤ (u.bandSet q).seqGap → (v.band q).seq = some (leAt l 4 4)
            ∧ (v.band q).payload = (l.drop 12).take len ∧ (v.band q).okRun = c.okRun + 1
            ∧ (v.band q).timeout = (c.timeout && decide (c.okRun = 0)))))
    ∧ (¬off → (x.bandSet conn).dir = 1 → leads (.bandTimeout b conn) fun f =>
      f = s.saf.setChan b (x.setBand conn { x.band conn with timeout := true, okRun := 0 }))
    ∧ (off ∨ (x.bandSet conn).dir ≠ 1 → exec (.bandTimeout b conn) s = .next s)
    ∧ leads (.bandTransmit conn) (fun f => ∀ k,
      let u := s.saf.chan k
      let w := (f.chan k).band conn
      (u.powered = false ∨ (u.bandSet conn).dir ≠ 2 → f.chan k = u)
        ∧ (u.powered = true → (u.bandSet conn).dir = 2 → w.gen = ((u.band conn).gen + 1) % 65536 ∧ w.msg.length = 44
          ∧ w.seq = some (match (u.band conn).seq with
            | some p => (p + 1) % 2 ^ 32
            | none => 0)
          ∧ w.msg.drop 40 = leBytes 4 (bandCode (u.bandSet conn).ident (w.msg.take 40))))

/-- With both supplies good the channels begin in START with their switch readings. At a cycle's end a channel reads the switches, hands
its partner its image and shows itself in the mirror; with its set sealed, its self-test passed and a partner that agrees it enters
NORMAL. Changed switches, a silent partner, a failed self-test, a bad CRC of the set and a readback that does not match lead both
channels to SAFE_STATE with causes 3, 4, 2, 6 and 5, every torque and every discrete output low. A drive too fast loses torque at once in
both channels; one with a stop cause begins to stop; one at standstill ends its stop; one whose four restart conditions hold starts
again. The cover and the scan sense decide the emission permit, which the emitters follow. No event is routed, no stream is on, and
torque stands only where the invariant TorqueOnlyNormal allows it. -/
def Obligations.SafetyCycle : Prop :=
  ∀ (b ok : Bool) (sw swB : BitVec 12) (n : Fin 8) (s : State), s.quiet → s.saf.torqueOk →
    let x := s.saf.chan b
    let y := s.saf.chan (!b)
    let on := x.powered = true
    let rest (t : State) : Prop := t.sys = s.sys ∧ t.fuse = s.fuse ∧ t.pending = s.pending ∧ keepsBytes s t
      ∧ t.flag F.emtStsPermitA 0 = t.saf.a.emission ∧ t.flag F.emtStsPermitB 0 = t.saf.b.emission
    let leads (i : Instr) (p : State → Prop) : Prop := ∃ t, exec i s = .next t ∧ rest t
      ∧ keepsRegs [.emtSts, .emtPortSts, .sysEvtSts] s t ∧ p t
    let safe (c : Nat) (t : State) : Prop := ∀ k, (s.saf.chan k).powered = true → (s.saf.chan k).state ≠ 2 →
      (t.saf.chan k).state = 2 ∧ (t.saf.chan k).cause = c ∧ (t.saf.chan k).dout = 0 ∧ ∀ j, ((t.saf.chan k).drv j).torque = false
    let cycle : Instr := .safetyCycleEnd b sw
    let x1 := { x with now := x.now + 1, missing := if x.got then 0 else x.missing + 1, got := false }
    let w := ((x1.seal sw.toNat).evalZones b s.silentClusters).evalDiscs b
    let c := x.driveSet n
    let d := (x.drv n).sample c
    let normal := on ∧ x.state = 1 ∧ sw.toNat = x.sw0 ∧ x.got = true ∧ x.run < 2 ∧ c.supervised = true
    leads (.safetyPowerGood sw swB) (fun t => t.saf = if s.saf.a.powered ∧ s.saf.b.powered then s.saf
      else ⟨{ sw := sw.toNat }, { sw := swB.toNat }⟩)
    ∧ leads (.selfTest b true) (fun t => t.saf = if x.powered then s.saf.setChan b { x with selfOk := true } else s.saf)
    ∧ (¬on ∨ x.state ≠ 1 → leads (.selfTest b false) fun t =>
      t.saf = if x.powered then s.saf.setChan b { x with selfOk := false } else s.saf)
    ∧ (on → x.state = 1 → leads (.selfTest b false) (safe 2))
    ∧ leads (.setCrcCheck b true) (fun t => t.saf = s.saf)
    ∧ (on → x.state = 1 → leads (.setCrcCheck b false) (safe 6) ∧ leads (.readbackMismatch b) (safe 5))
    ∧ (¬on ∨ x.state ≠ 1 → leads (.setCrcCheck b false) (fun t => t.saf = s.saf) ∧ leads (.readbackMismatch b) (fun t => t.saf = s.saf))
    ∧ leads (.coverInput b ok) (fun t => t.saf = if x.powered then s.saf.setChan b { x with cover := ok } else s.saf)
    ∧ leads (.scanSenseTimeout b) (fun t => t.saf = s.saf.setChan b { x with scanOk := false })
    ∧ leads (.scanSensePulse b) (fun t => t.saf = if x.powered then s.saf.setChan b { x with scanOk := true } else s.saf)
    ∧ (¬on → exec cycle s = .next s)
    ∧ (on → ∃ t, exec cycle s = .next t ∧ rest t
      ∧ keepsRegs [.safSts, .safCycle, .safSeal, .safDisc, .safZone, .safDrv, .safDrvStop, .safBand, .safBandSts, .safTxCtl, .safTxData,
        .safCnt, .emtSts, .emtPortSts, .sysEvtSts] s t
      ∧ (t.saf.chan b).now = x.now + 1 ∧ (t.saf.chan b).sw = sw.toNat ∧ (t.saf.chan b).got = false
      ∧ (y.powered = true → (t.saf.chan (!b)).got = true ∧ ∃ i, (t.saf.chan (!b)).img = some i ∧ i.state = (t.saf.chan b).state
        ∧ i.sw = sw.toNat)
      ∧ t.fld F.safStsState (b2n b) = (t.saf.chan b).state % 16 ∧ t.fld F.safStsCause (b2n b) = (t.saf.chan b).cause % 256
      ∧ t.reg .safCycle (b2n b) = min (x.now + 1) 0xFFFFFFFF
      ∧ (x.state = 1 → sw.toNat ≠ x.sw0 → safe 3 t)
      ∧ (x.state = 1 → sw.toNat = x.sw0 → x.got = false → 1 ≤ x.missing → safe 4 t)
      ∧ (∀ q i, x.state = 0 → x.selfOk = true → x.set = some q → sealMatches q sw.toNat = true → x.got = true → x.run < 2 →
        x.img = some i → i.state ≠ 2 → i.set = some (q.number, q.crc) → (t.saf.chan b).state = 1)
      ∧ (normal → d.state = 3 → speedWithin c d.vN c.vMax = false → (∀ k, ((t.saf.chan k).drv n).torque = false)
        ∧ ((t.saf.chan b).drv n).state = 1 ∧ ((t.saf.chan b).drv n).cause = 6)
      ∧ (normal → d.state = 3 → speedWithin c d.vN c.vMax = true → w.stopCauses n ≠ [] → ((t.saf.chan b).drv n).state = 4
        ∧ ((t.saf.chan b).drv n).decel = true ∧ ((t.saf.chan b).drv n).torque = d.torque
        ∧ ((t.saf.chan b).drv n).cause = leastCause (w.stopCauses n))
      ∧ (normal → d.state = 4 → speedWithin c d.vN c.vStill = true → ((t.saf.chan b).drv n).state = 1
        ∧ ((t.saf.chan b).drv n).torque = false ∧ ((t.saf.chan b).drv n).decel = false ∧ ((t.saf.chan b).drv n).ending = 0)
      ∧ (normal → d.state = 1 → w.stopCauses n = [] → speedWithin c d.vN c.vStill = true → d.armed = true → d.low = true →
        w.permit n = true → ((t.saf.chan b).drv n).state = (if d.testDone then 3 else 2) ∧ ((t.saf.chan b).drv n).torque = true))

/-- In every state in which the two channels have power together or not at all: after any step they still do, and a channel with power
in SAFE_STATE is in SAFE_STATE with the same cause, or has lost its power (R336, R415). No command, frame, reset or change of the
operating state takes it out.
Every step keeps: a channel is in NORMAL only with a parameter set in force, and a torque-off output is high only while its channel
is in NORMAL and the drive is in CREEP, ENABLED or STOPPING (R336, R346 to R348). That the state after reset has it is part of the
statement on reset. -/
def Obligations.SafetyInvariants : Prop :=
  (∀ (s t : State), step s = .next t → s.saf.a.powered = s.saf.b.powered →
     t.saf.a.powered = t.saf.b.powered
     ∧ ∀ b, (s.saf.chan b).powered = true → (s.saf.chan b).state = 2 →
       (t.saf.chan b).powered = false ∨ (t.saf.chan b).state = 2 ∧ (t.saf.chan b).cause = (s.saf.chan b).cause) ∧
  (∀ (s t : State), step s = .next t → s.saf.torqueOk → t.saf.torqueOk)

/-! Measurement, power domains and the register fabric (R13 to R18, R396 to R420, R429 to R437). -/

/-- A sequence period begins the enabled slots in turn, or waits while the converter still converts. An urgent request for an enabled
slot starts on an idle sequence converter and is otherwise dropped and counted; for a disabled slot it is an access error. A conversion
of a plain slot (no lead, no median, no compensation, no resampler) gives its linearised value, clamped to its limits, VALID and SAT with
it, a new value for loops unless it is settling, and one of a slot disabled meanwhile gives nothing; then the next slot converts, a
period that waited begins and is counted late, a continuous converter goes on with its one slot, or the converter is idle. A judged supply slot that stays silent makes its rail UNKNOWN. Outside its conditions none of them does anything. No event is
routed and no stream is on (R400 to R420). -/
def Obligations.MeasurementRuns : Prop :=
  ∀ (m : Master) (k : Fin 4) (v : BitVec 32) (code lead : BitVec 24) (outs : List Nat) (rail : Fin 6) (s : State), s.quiet →
    let x := s.conv k
    let runs := s.convRuns k = true ∧ s.flag F.meaConvCtlMode k = true
    let only (R : List Reg) (t : State) : Prop := keepsCore s t ∧ keepsRegs R s t ∧ keepsBytes s t
    let n := v.toNat % 64
    let q := s.fld F.meaSlotInConv n
    let free := s.convRuns q = true ∧ s.flag F.meaConvCtlMode q = true ∧ (s.conv q).todo = [] ∧ (s.conv q).cont = none
    let ends (t : State) : Prop :=
      (s.flag F.meaConvCtlMode k = true → (∀ c' l, x.todo.tail = c' :: l → (t.conv k).todo = c' :: l ∧ t.flag F.meaConvStsBusy k = true
          ∧ t.fld F.meaConvStsSlot k = c' % 64)
        ∧ (x.todo.tail = [] → x.due = false → t.conv k = {} ∧ t.flag F.meaConvStsBusy k = false)
        ∧ (x.todo.tail = [] → x.due = true → t.fld F.meaConvLateCntCount k = min (s.fld F.meaConvLateCntCount k + 1) 0xFFFFFFFF
          ∧ (t.conv k).todo = s.slotsOf k))
      ∧ (s.flag F.meaConvCtlMode k = false → (∀ c', s.slotsOf k = [c'] → (t.conv k).cont = some c' ∧ (t.conv k).todo = []
          ∧ t.flag F.meaConvStsBusy k = true ∧ t.fld F.meaConvStsSlot k = c' % 64)
        ∧ ((∀ c', s.slotsOf k ≠ [c']) → t.conv k = {} ∧ t.flag F.meaConvStsBusy k = false))
    let begins (c : Nat) (l : List Nat) (t : State) : Prop := (t.conv c).todo = l ∧ t.flag F.meaConvStsBusy c = true
      ∧ t.fld F.meaConvStsSlot c = l.headD 0
    let idle (t : State) : Prop := t.conv k = {} ∧ t.flag F.meaConvStsBusy k = false
    (¬runs → exec (.sequencePeriod k) s = .next s)
    ∧ (runs → x.todo ≠ [] ∨ x.cont ≠ none → ∃ t, exec (.sequencePeriod k) s = .next t ∧ only [] t ∧ t.conv k = { x with due := true })
    ∧ (runs → x.todo = [] → x.cont = none → s.slotsOf k ≠ [] → ∃ t, exec (.sequencePeriod k) s = .next t ∧ only [.meaConvSts] t
      ∧ begins k (s.slotsOf k) t)
    ∧ (runs → x.todo = [] → x.cont = none → s.slotsOf k = [] → ∃ t, exec (.sequencePeriod k) s = .next t ∧ only [.meaConvSts] t ∧ idle t)
    ∧ (s.reaches m .meaUrg 0 →
      (s.flag F.meaSlotInEn n = true → free → ∃ t, exec (.urg m v) s = .next t ∧ only [.meaUrg, .meaConvSts] t ∧ begins q [n] t
        ∧ (t.conv q).urgent = true)
      ∧ (s.flag F.meaSlotInEn n = true → ¬free → ∃ t, exec (.urg m v) s = .next t ∧ only [.meaUrg, .meaUrgDropCnt] t
        ∧ t.fld F.meaUrgDropCntCount 0 = min (s.fld F.meaUrgDropCntCount 0 + 1) 0xFFFFFFFF ∧ t.flag F.meaUrgUrgDrop 0 = true
        ∧ t.dev.mea = s.dev.mea)
      ∧ (s.flag F.meaSlotInEn n = false → ∃ t, exec (.urg m v) s = .next t ∧ only [.sysAccErrCnt, .sysAccErrLast, .sysEvtSts] t
        ∧ s.countsError t ∧ t.dev.mea = s.dev.mea))
    ∧ (s.convRuns k = false ∨ s.converting k = none → exec (.meaConversion k code lead outs) s = .next s)
    ∧ (∀ c, s.convRuns k = true → s.converting k = some c → s.flag F.meaSlotInEn c = false →
      ∃ t, exec (.meaConversion k code lead outs) s = .next t ∧ only [.meaConvSts, .meaConvLateCnt] t ∧ ends t
        ∧ t.dev.mea.slots = s.dev.mea.slots)
    ∧ (∀ c y, s.convRuns k = true → s.converting k = some c → s.flag F.meaSlotInEn c = true → s.flag F.meaSlotRefLeadEn c = false →
      x.cont = none ∨ s.fld F.meaSlotRateRate c = 0 → s.fld F.meaSlotConvMed c = 0 → s.flag F.meaSlotTTEn c = false →
      s.linearise c (signed 24 code.toNat) 0 = some y →
      let z := clampI (s.sfld F.meaSlotMinOutMin c) (s.sfld F.meaSlotMaxOutMax c) y
      let settling := decide ((256 * s.dev.time.c : Int) - s.rawWindow k
        < 256 * ((s.slot c).switchAt : Int) + (s.fld F.meaSlotConvSettleUs c * 256000 : Nat))
      ∃ t, exec (.meaConversion k code lead outs) s = .next t ∧ keepsCore s t ∧ keepsBytes s t ∧ ends t
        ∧ keepsRegs [.meaConvSts, .meaConvLateCnt, .meaSlotVal, .meaSlotSts, .sysEvtSts, .pwrSupSts] s t
        ∧ t.sfld F.meaSlotValValue c = z ∧ t.flag F.meaSlotStsValid c = true ∧ t.flag F.meaSlotStsSettling c = settling
        ∧ t.flag F.meaSlotStsSat c = (s.flag F.meaSlotStsSat c || decide (2 ^ 23 - 1 ≤ (signed 24 code.toNat).natAbs) || decide (z ≠ y))
        ∧ (s.fld F.meaSlotDetDetEn c = 0 → s.fld F.meaSlotDetLoopDet c = 0 → (t.slot c).loopVal
          = if settling then (s.slot c).loopVal else some z))
    ∧ (s.flag F.pwrSupCfgEn rail = false → exec (.supplySlotSilent rail) s = .next s)
    ∧ (s.flag F.pwrSupCfgEn rail = true → ∃ t, exec (.supplySlotSilent rail) s = .next t ∧ only [.pwrSupSts] t
      ∧ bitsOf (t.reg .pwrSupSts 0) (7 + 2 * rail.val) (6 + 2 * rail.val) = 3)

/-- A write to an unassigned address or into the window of histograms does nothing; one into a dark tile's window, one that is not an aligned word, one the master may not make, and one into a domain
that is off are discarded and counted with kinds 1, 0, 3 and 1, one with a value outside its range with kind 2. A write that is taken
changes the fields it may and nothing else, here of registers that start nothing. A read of a low half holds its high half for that
master; a write of a high half takes the low half held. TAIL moves to an entry that stands, an event's route is taken, and switched
domains go off at once and come on when their power is good; a switch that is not allowed is counted. No event is routed. -/
def Obligations.RegistersObey : Prop :=
  ∀ (m : Master) (addr : BitVec 28) (size : Fin 9) (v : BitVec 64) (w : BitVec 32) (e : Fin 64) (n : Fin 5) (d : Fin 140) (r : Reg)
      (i : Nat) (s : State), s.unrouted → m ≠ .pair0 → m ≠ .pair1 →
    let a := addr.toNat
    let c : Instr := .registerWrite m addr size v
    let only (R : List Reg) (t : State) : Prop := keepsCore s t ∧ keepsRegs R s t ∧ keepsBytes s t
    let refused (q : Instr) (kind : Nat) : Prop := ∃ t, exec q s = .next t ∧ only [.sysAccErrCnt, .sysAccErrLast, .sysEvtSts] t
      ∧ s.countsError t ∧ t.fld F.sysAccErrLastKind 0 = kind ∧ t.fld F.sysAccErrLastMaster 0 = masterCode m
    let here := a < 0xC000000 ∧ regAt a = some (r, i) ∧ a % 4 = 0 ∧ size = 4
    let plain : List Reg := [.timServo, .timAlign, .timLinkAsym, .ethAsym, .ethTxqTag, .ethClsMatch, .ethClsAct, .ethRxrBase,
      .ethRxrSize, .pciCplTo, .pwrSupCfg, .sysMbxArg]
    let held := smGet none s.dev.heldLo (halfKey m (Reg.lnkBrBaseLo.addr i))
    let on := s.domainWriteOk n (if n = 4 then w.toNat % 2 ^ 12 else w.toNat)
    (a < 0xC000000 → regAt (a / 4 * 4) = none → exec c s = .next s)
    ∧ (0xC000000 ≤ a → s.windowDark a = false → exec c s = .next s)
    ∧ (0xC000000 ≤ a → s.windowDark a = true → refused c 1)
    ∧ (a < 0xC000000 → regAt (a / 4 * 4) = some (r, i) → size ≠ 4 ∨ a % 4 ≠ 0 → refused c 0)
    ∧ (here → s.mayWrite m r = false → refused c 3)
    ∧ (here → s.mayWrite m r = true → s.powered r i = false → refused c 1)
    ∧ (here → s.mayWrite m r = true → s.powered r i = true → r ∈ plain → inRanges r (v.toNat % 2 ^ 32) = false → refused c 2)
    ∧ (here → s.mayWrite m r = true → s.powered r i = true → r ∈ plain → inRanges r (v.toNat % 2 ^ 32) = true →
      ∃ t, exec c s = .next t ∧ only [r] t ∧ keepsOthers r i s t ∧ t.reg r i = s.wordAfter r i (v.toNat % 2 ^ 32))
    ∧ (∀ h, a < 0xC000000 → regAt a = some (r, i) → a % 4 = 0 → highHalf r = some h → s.mayRead m r = true → s.powered r i = true →
      smGet none s.dev.shadow (halfKey m a) = none → ∃ t, exec (.splitLoRead m addr) s = .next t ∧ only [] t
        ∧ smGet none t.dev.shadow (halfKey m (h.addr i)) = some (s.readWord h i)
        ∧ t.dev.out = if m = .host then .pcie 6 (leBytes 4 (s.readWord r i)) :: s.dev.out else s.dev.out)
    ∧ (a < 0xC000000 → regAt a = some (.lnkBrBaseHi, i) → a % 4 = 0 → s.reaches m .lnkBrBaseHi i →
      ∃ t, exec (.splitHiWrite m addr w) s = .next t ∧ only [.lnkBrBaseLo, .lnkBrBaseHi] t ∧ t.reg .lnkBrBaseHi i = w.toNat
        ∧ keepsOthers .lnkBrBaseHi i s t ∧ keepsOthers .lnkBrBaseLo i s t
        ∧ t.reg .lnkBrBaseLo i = (match held with
          | some x => x % 2 ^ 32
          | none => s.reg .lnkBrBaseLo i)
        ∧ smGet none t.dev.heldLo (halfKey m (Reg.lnkBrBaseLo.addr i)) = none)
    ∧ (s.reaches m .fmkLogTail 0 → refuseLinks s (s.merged .fmkLogTail 0 w.toNat none) .fmkLogTail 0 w.toNat = none →
      ∃ t, exec (.logTailWrite m w) s = .next t ∧ only [.fmkLogTail] t ∧ t.fld F.fmkLogTailTail 0 = w.toNat % 512)
    ∧ (s.reaches m .fmkLogTail 0 → refuseLinks s (s.merged .fmkLogTail 0 w.toNat none) .fmkLogTail 0 w.toNat ≠ none →
      refused (.logTailWrite m w) 4)
    ∧ (s.reaches m .sysEvtRoute e → ∃ t, exec (.eventRouteWrite m e w) s = .next t ∧ keepsCore s t
      ∧ t.reg .sysEvtRoute e = s.wordAfter .sysEvtRoute e w.toNat
      ∧ (bitOf w.toNat 31 = false ∨ 23 ≤ e.val ∨ bitOf (s.reg .sysEvtSts 0) e = false → only [.sysEvtRoute] t
        ∧ keepsOthers .sysEvtRoute e s t)
      ∧ (t.flag F.sysEvtRouteIrqEn e = true → e.val < 23 → bitOf (s.reg .sysEvtSts 0) e = true →
        s.vectorMasked (t.fld F.sysEvtRouteVector e) = true →
        bitOf (t.reg .pciMsixPba (t.fld F.sysEvtRouteVector e / 32)) (t.fld F.sysEvtRouteVector e % 32) = true))
    ∧ (s.reaches m .pwrDomCtl n → on = false → ∃ t, exec (.domainSwitch m n w) s = .next t ∧ only [.pwrRefusedCnt] t
      ∧ t.fld F.pwrRefusedCntCount 0 = min (s.fld F.pwrRefusedCntCount 0 + 1) 0xFFFFFFFF)
    ∧ (s.reaches m .pwrDomCtl n → on = true → ∃ t, exec (.domainSwitch m n w) s = .next t ∧ keepsCore s t
      ∧ t.reg .pwrDomCtl n = (if n = 4 then w.toNat % 2 ^ 12 else w.toNat)
      ∧ ∀ j, j < 32 → t.domBit .pwrDomSts (32 * n.val + j) = (s.domBit .pwrDomSts (32 * n.val + j)
        && bitOf (if n = 4 then w.toNat % 2 ^ 12 else w.toNat) j))
    ∧ (s.pgoodDue d = true → ∃ t, exec (.pgood d) s = .next t ∧ keepsCore s t ∧ t.domBit .pwrDomSts d = true
      ∧ ∀ j, j ≠ d.val → t.domBit .pwrDomSts j = s.domBit .pwrDomSts j)
    ∧ (s.pgoodDue d = false → exec (.pgood d) s = .next s)

/-- An address that no register holds reads 0, whatever the width and the master, and a write to it changes nothing; nothing is
counted either way (R16). A lockstep pair's writes reach the fabric at its commit (R364), and are ignored there. -/
def Obligations.UnassignedAddresses : Prop :=
  ∀ (m : Master) (addr : BitVec 28) (size : Fin 9) (v : BitVec 64) (s : State),
    addr.toNat < 0xC000000 → regAt (addr.toNat / 4 * 4) = none →
    s.busRead m addr.toNat size = (0, s) ∧ s.busWrite m addr.toNat size v.toNat = s
      ∧ (m ≠ .pair0 → m ≠ .pair1 → exec (.registerWrite m addr size v) s = .next s)

/-- PROT_LC reads ENDED (4) with END burned, otherwise BLANK (0) with no LC fuse, PROVISIONED (1) with one, FIELD (2) with an even
number and RETURNED (3) with an odd one; no step burns more than 32 LC fuses or takes one back, so that a device in FIELD with 2 + 2 r of
them has been brought back r times, at most 15 (R387). -/
def Obligations.LifeCycle : Prop :=
  (∀ s : State, s.readWord .protLc 0 =
    if s.fuse.ended = true then 4 else if s.fuse.lc = 0 then 0 else if s.fuse.lc = 1 then 1
    else if s.fuse.lc % 2 = 0 then 2 else 3)
  ∧ ∀ s t : State, s.fuse.lc ≤ 32 → step s = .next t → t.fuse.lc ≤ 32 ∧ s.fuse.lc ≤ t.fuse.lc
    ∧ (s.fuse.ended = true → t.fuse.ended = true)
    ∧ (t.fuse.state = 2 → ∃ r, r ≤ 15 ∧ t.fuse.lc = 2 + 2 * r)
end

