-- ==== Sys2Proof/Laws/Maps.lean ====
section
/-! SUPPORT. The sparse map and the bit fields: what a read gives after a write, and that every operation of the map keeps
its canonical form. -/
namespace Sys2Proof

variable {α : Type}

theorem smGet_erase_same (d : α) (m : List (Nat × α)) (a : Nat) : smGet d (smErase m a) a = d := by
  induction m with
  | nil => rfl
  | cons p m ih =>
    obtain ⟨k, v⟩ := p
    by_cases h : k = a
    · simpa [smErase, h] using ih
    · simp [smErase, smGet, h, ih]

theorem smGet_erase_ne (d : α) (m : List (Nat × α)) {a b : Nat} (h : a ≠ b) : smGet d (smErase m a) b = smGet d m b := by
  induction m with
  | nil => rfl
  | cons p m ih =>
    obtain ⟨k, v⟩ := p
    by_cases hk : k = a
    · subst hk; simp [smErase, smGet, h, ih]
    · simp [smErase, smGet, hk, ih]

theorem smGet_insert_same (d : α) (m : List (Nat × α)) (a : Nat) (v : α)
    (hm : ∀ p ∈ m, p.1 ≠ a) : smGet d (smInsert a v m) a = v := by
  induction m with
  | nil => simp [smInsert, smGet]
  | cons p m ih =>
    obtain ⟨k, w⟩ := p
    have hk : k ≠ a := hm (k, w) (by simp)
    have hm' : ∀ p ∈ m, p.1 ≠ a := fun p hp => hm p (by simp [hp])
    by_cases hl : a < k
    · simp [smInsert, smGet, hl]
    · simp [smInsert, smGet, hl, hk, ih hm']

theorem smGet_insert_ne (d : α) (m : List (Nat × α)) {a b : Nat} (v : α) (h : a ≠ b) :
    smGet d (smInsert a v m) b = smGet d m b := by
  induction m with
  | nil => simp [smInsert, smGet, h]
  | cons p m ih =>
    obtain ⟨k, w⟩ := p
    by_cases hl : a < k
    · simp [smInsert, smGet, hl, h]
    · simp [smInsert, smGet, hl, ih]

theorem smErase_keys (m : List (Nat × α)) (a : Nat) : ∀ p ∈ smErase m a, p.1 ≠ a := by
  induction m with
  | nil => simp [smErase]
  | cons p m ih =>
    obtain ⟨k, v⟩ := p
    by_cases h : k = a
    · simpa [smErase, h] using ih
    · intro q hq
      simp only [smErase, h, if_false, List.mem_cons] at hq
      rcases hq with rfl | hq
      · exact h
      · exact ih q hq

@[simp] theorem smGet_put_same [DecidableEq α] (d : α) (m : List (Nat × α)) (a : Nat) (v : α) : smGet d (smPut d m a v) a = v := by
  unfold smPut
  split
  · rename_i h; rw [smGet_erase_same, h]
  · exact smGet_insert_same d _ a v (smErase_keys m a)

@[simp] theorem smGet_put_ne [DecidableEq α] (d e : α) (m : List (Nat × α)) {a b : Nat} (v : α) (h : a ≠ b) :
    smGet e (smPut d m a v) b = smGet e m b := by
  unfold smPut
  split
  · exact smGet_erase_ne e m h
  · rw [smGet_insert_ne e _ v h, smGet_erase_ne e m h]

/-! The canonical form. -/

section canonical
variable [DecidableEq α]

theorem smWfFrom_mono {d : α} {lo lo' : Nat} {m : List (Nat × α)} (h : smWfFrom d lo m = true) (hl : lo' ≤ lo) :
    smWfFrom d lo' m = true := by
  cases m with
  | nil => rfl
  | cons p m =>
    obtain ⟨k, v⟩ := p
    simp only [smWfFrom, Bool.and_eq_true, decide_eq_true_eq] at h ⊢
    exact ⟨⟨by omega, h.1.2⟩, h.2⟩

theorem smWfFrom_erase {d : α} {lo : Nat} {m : List (Nat × α)} (a : Nat) (h : smWfFrom d lo m = true) :
    smWfFrom d lo (smErase m a) = true := by
  induction m generalizing lo with
  | nil => rfl
  | cons p m ih =>
    obtain ⟨k, v⟩ := p
    simp only [smWfFrom, Bool.and_eq_true, decide_eq_true_eq] at h
    by_cases hk : k = a
    · simp only [smErase, hk, if_true]
      exact smWfFrom_mono (ih h.2) (by omega)
    · simp only [smErase, hk, if_false, smWfFrom, Bool.and_eq_true, decide_eq_true_eq]
      exact ⟨h.1, ih h.2⟩

theorem smWfFrom_insert {d : α} {lo : Nat} {m : List (Nat × α)} {a : Nat} {v : α} (hv : v ≠ d) (hl : lo ≤ a)
    (hm : ∀ p ∈ m, p.1 ≠ a) (h : smWfFrom d lo m = true) : smWfFrom d lo (smInsert a v m) = true := by
  induction m generalizing lo with
  | nil => simp [smInsert, smWfFrom, hv, hl]
  | cons p m ih =>
    obtain ⟨k, w⟩ := p
    simp only [smWfFrom, Bool.and_eq_true, decide_eq_true_eq] at h
    have hk : k ≠ a := hm (k, w) (by simp)
    have hm' : ∀ p ∈ m, p.1 ≠ a := fun p hp => hm p (by simp [hp])
    by_cases ha : a < k
    · simp only [smInsert, ha, if_true, smWfFrom, Bool.and_eq_true, decide_eq_true_eq]
      exact ⟨⟨hl, hv⟩, ⟨by omega, h.1.2⟩, h.2⟩
    · simp only [smInsert, ha, if_false, smWfFrom, Bool.and_eq_true, decide_eq_true_eq]
      exact ⟨h.1, ih (by omega) hm' h.2⟩

theorem smWf_put {d : α} {m : List (Nat × α)} (a : Nat) (v : α) (h : smWf d m = true) : smWf d (smPut d m a v) = true := by
  unfold smPut smWf at *
  split
  · exact smWfFrom_erase a h
  · rename_i hv
    exact smWfFrom_insert hv (by omega) (smErase_keys m a) (smWfFrom_erase a h)

theorem smWfFrom_filter {d : α} {lo : Nat} {m : List (Nat × α)} (p : Nat × α → Bool) (h : smWfFrom d lo m = true) :
    smWfFrom d lo (m.filter p) = true := by
  induction m generalizing lo with
  | nil => rfl
  | cons q m ih =>
    obtain ⟨k, v⟩ := q
    simp only [smWfFrom, Bool.and_eq_true, decide_eq_true_eq] at h
    simp only [List.filter_cons]
    split
    · simp only [smWfFrom, Bool.and_eq_true, decide_eq_true_eq]
      exact ⟨h.1, ih h.2⟩
    · exact smWfFrom_mono (ih h.2) (by omega)

theorem smWf_eraseRange {d : α} {m : List (Nat × α)} (a n : Nat) (h : smWf d m = true) :
    smWf d (smEraseRange m a n) = true := smWfFrom_filter _ h

end canonical

/-! Bit fields. -/

theorem bitsOf_lt (v hi lo : Nat) : bitsOf v hi lo < 2 ^ (hi - lo + 1) := by
  unfold bitsOf
  exact Nat.mod_lt _ (by positivity)

theorem b2n_eq_one (b : Bool) : (b2n b = 1) ↔ b = true := by cases b <;> simp [b2n]

end Sys2Proof

namespace Sys2Proof.Machine

/-- Cells written one after another keep the canonical form. -/
theorem memPutAll_wf {m : List Host.Cell} (h : smWf (0#8 : Byte) m = true) (a : Nat) (bs : List Byte) :
    smWf (0#8 : Byte) (memPutAll m a bs) = true := by
  induction bs generalizing m a with
  | nil => exact h
  | cons b bs ih => exact ih (smWf_put a b h) (a + 1)

theorem memPutLive_wf (s : State) {m : List Host.Cell} (h : smWf (0#8 : Byte) m = true) (a : Nat) (bs : List Byte) :
    smWf (0#8 : Byte) (s.memPutLive m a bs) = true := by
  induction bs generalizing m a with
  | nil => exact h
  | cons b bs ih =>
    simp only [State.memPutLive]
    split
    · exact ih h (a + 1)
    · exact ih (smWf_put a b h) (a + 1)

/-- A byte outside the span written reads as before. -/
theorem memPutAll_outside (m : List Host.Cell) (a : Nat) (bs : List Byte) {b : Nat} (h : b < a ∨ a + bs.length ≤ b) :
    smGet (0#8 : Byte) (memPutAll m a bs) b = smGet 0#8 m b := by
  induction bs generalizing m a with
  | nil => rfl
  | cons x xs ih =>
    simp only [List.length_cons] at h
    simp only [memPutAll]
    rw [ih _ _ (by omega), smGet_put_ne _ _ _ _ (by omega)]

/-- A byte inside the span reads as what was written there. -/
theorem memPutAll_inside (m : List Host.Cell) (a : Nat) (bs : List Byte) (k : Nat) (h : k < bs.length) :
    smGet (0#8 : Byte) (memPutAll m a bs) (a + k) = bs.getD k 0#8 := by
  induction bs generalizing m a k with
  | nil => simp at h
  | cons x xs ih =>
    cases k with
    | zero =>
      simp only [memPutAll, Nat.add_zero]
      rw [memPutAll_outside _ _ _ (by omega)]
      simp
    | succ k =>
      have := ih (m := smPut 0#8 m a x) (a := a + 1) (k := k) (by simpa using h)
      simpa [memPutAll, Nat.add_assoc, Nat.add_comm 1 k] using this

end Sys2Proof.Machine
end

