-- ==== Sys2Proof/Laws/State.lean ====
section
/-! SUPPORT. Reading the state after it was written: the compartments through each lift, registers and fields through each
update, and what each small operation keeps. The proofs are `by rfl`, not `rfl`: used as rewrite rules they leave the kernel
small terms, where used by unfolding a chain of register writes sends it into deep recursion. -/
namespace Sys2Proof

/-! Fields of a word. -/

theorem putBits_eq (w v : Nat) {hi lo : Nat} (h : lo ≤ hi) :
    putBits w hi lo v = 2 ^ (hi + 1) * (w / 2 ^ (hi + 1)) + 2 ^ lo * (v % 2 ^ (hi - lo + 1)) + w % 2 ^ lo := by
  have e : (2 : Nat) ^ (hi + 1) = 2 ^ lo * 2 ^ (hi - lo + 1) := by rw [← pow_add]; congr 1; omega
  have d1 := Nat.div_add_mod w (2 ^ lo)
  have d2 := Nat.div_add_mod (w / 2 ^ lo) (2 ^ (hi - lo + 1))
  rw [Nat.div_div_eq_div_mul, ← e] at d2
  have d3 : 2 ^ (hi + 1) * (w / 2 ^ (hi + 1)) = 2 ^ lo * (2 ^ (hi - lo + 1) * (w / 2 ^ (hi + 1))) := by
    rw [e, Nat.mul_assoc]
  have d4 : w = 2 ^ (hi + 1) * (w / 2 ^ (hi + 1)) + 2 ^ lo * bitsOf w hi lo + w % 2 ^ lo := by
    rw [d3, ← Nat.mul_add]
    unfold bitsOf
    rw [d2, d1]
  unfold putBits
  rw [Nat.mul_comm (bitsOf w hi lo), Nat.mul_comm (v % _)]
  omega

theorem bitsOf_putBits_same (w v : Nat) {hi lo : Nat} (h : lo ≤ hi) :
    bitsOf (putBits w hi lo v) hi lo = v % 2 ^ (hi - lo + 1) := by
  have e : (2 : Nat) ^ (hi + 1) = 2 ^ lo * 2 ^ (hi - lo + 1) := by rw [← pow_add]; congr 1; omega
  have r : w % 2 ^ lo < 2 ^ lo := Nat.mod_lt _ (by positivity)
  rw [putBits_eq w v h, bitsOf, e, Nat.mul_assoc, ← Nat.mul_add, Nat.add_comm, Nat.add_mul_div_left _ _ (by positivity),
    Nat.div_eq_of_lt r, Nat.zero_add, Nat.mul_add_mod, Nat.mod_mod]

theorem bitsOf_putBits_above (w v : Nat) {hi lo hi' lo' : Nat} (h : lo ≤ hi) (ha : hi < lo') :
    bitsOf (putBits w hi lo v) hi' lo' = bitsOf w hi' lo' := by
  have r : w % 2 ^ lo < 2 ^ lo := Nat.mod_lt _ (by positivity)
  have x : v % 2 ^ (hi - lo + 1) < 2 ^ (hi - lo + 1) := Nat.mod_lt _ (by positivity)
  have e : (2 : Nat) ^ (hi + 1) = 2 ^ lo * 2 ^ (hi - lo + 1) := by rw [← pow_add]; congr 1; omega
  have small : 2 ^ lo * (v % 2 ^ (hi - lo + 1)) + w % 2 ^ lo < 2 ^ (hi + 1) := by
    calc _ < 2 ^ lo * (v % 2 ^ (hi - lo + 1)) + 2 ^ lo := by omega
      _ = 2 ^ lo * (v % 2 ^ (hi - lo + 1) + 1) := by ring
      _ ≤ 2 ^ lo * 2 ^ (hi - lo + 1) := Nat.mul_le_mul_left _ x
      _ = _ := e.symm
  have f : (2 : Nat) ^ lo' = 2 ^ (hi + 1) * 2 ^ (lo' - (hi + 1)) := by rw [← pow_add]; congr 1; omega
  have g : putBits w hi lo v / 2 ^ (hi + 1) = w / 2 ^ (hi + 1) := by
    rw [putBits_eq w v h, Nat.add_assoc, Nat.mul_add_div (by positivity), Nat.div_eq_of_lt small, Nat.add_zero]
  unfold bitsOf
  rw [f, ← Nat.div_div_eq_div_mul, ← Nat.div_div_eq_div_mul, g]

theorem bitsOf_putBits_below (w v : Nat) {hi lo hi' lo' : Nat} (h : lo ≤ hi) (hl : lo' ≤ hi') (hb : hi' < lo) :
    bitsOf (putBits w hi lo v) hi' lo' = bitsOf w hi' lo' := by
  have m : ∀ u : Nat, bitsOf u hi' lo' = u % 2 ^ lo / 2 ^ lo' % 2 ^ (hi' - lo' + 1) := by
    intro u
    have e : (2 : Nat) ^ lo = 2 ^ lo' * 2 ^ (lo - lo') := by rw [← pow_add]; congr 1; omega
    have d : (2 : Nat) ^ (hi' - lo' + 1) ∣ 2 ^ (lo - lo') := pow_dvd_pow 2 (by omega)
    rw [e, Nat.mod_mul_right_div_self, Nat.mod_mod_of_dvd _ d, bitsOf]
  have k : putBits w hi lo v % 2 ^ lo = w % 2 ^ lo := by
    have e : (2 : Nat) ^ (hi + 1) = 2 ^ lo * 2 ^ (hi - lo + 1) := by rw [← pow_add]; congr 1; omega
    rw [putBits_eq w v h, e, Nat.mul_assoc, ← Nat.mul_add, Nat.mul_add_mod, Nat.mod_mod]
  rw [m, m, k]

theorem putBits_lt {w hi lo : Nat} (v : Nat) (h : lo ≤ hi) (hh : hi < 32) (hw : w < 2 ^ 32) : putBits w hi lo v < 2 ^ 32 := by
  have r : w % 2 ^ lo < 2 ^ lo := Nat.mod_lt _ (by positivity)
  have x : v % 2 ^ (hi - lo + 1) < 2 ^ (hi - lo + 1) := Nat.mod_lt _ (by positivity)
  have e : (2 : Nat) ^ (hi + 1) = 2 ^ lo * 2 ^ (hi - lo + 1) := by rw [← pow_add]; congr 1; omega
  have small : 2 ^ lo * (v % 2 ^ (hi - lo + 1)) + w % 2 ^ lo < 2 ^ (hi + 1) := by
    calc _ < 2 ^ lo * (v % 2 ^ (hi - lo + 1)) + 2 ^ lo := by omega
      _ = 2 ^ lo * (v % 2 ^ (hi - lo + 1) + 1) := by ring
      _ ≤ 2 ^ lo * 2 ^ (hi - lo + 1) := Nat.mul_le_mul_left _ x
      _ = _ := e.symm
  have f : (2 : Nat) ^ 32 = 2 ^ (hi + 1) * 2 ^ (31 - hi) := by rw [← pow_add]; congr 1; omega
  have q : w / 2 ^ (hi + 1) < 2 ^ (31 - hi) := by rw [Nat.div_lt_iff_lt_mul (by positivity), Nat.mul_comm, ← f]; exact hw
  rw [putBits_eq w v h, f]
  calc _ < 2 ^ (hi + 1) * (w / 2 ^ (hi + 1)) + 2 ^ (hi + 1) := by omega
    _ = 2 ^ (hi + 1) * (w / 2 ^ (hi + 1) + 1) := by ring
    _ ≤ _ := Nat.mul_le_mul_left _ q

theorem satN_eq (w v : Nat) : satN w v = min v (2 ^ w - 1) := by
  have : 0 < 2 ^ w := by positivity
  unfold satN
  split <;> omega

theorem satN_lt (w v : Nat) : satN w v < 2 ^ w := by
  have : 0 < 2 ^ w := by positivity
  unfold satN
  split <;> omega

@[simp] theorem b2n_mod_two (b : Bool) : b2n b % 2 = b2n b := by cases b <;> rfl

/-! Register instances. -/

theorem Reg.ctorIdx_lt (r : Reg) : r.ctorIdx < 512 := by cases r <;> decide

theorem Reg.ctorIdx_inj {r q : Reg} (h : r.ctorIdx = q.ctorIdx) : r = q := by
  rw [← Reg.ofNat_ctorIdx r, ← Reg.ofNat_ctorIdx q, h]

theorem Reg.key_inj {r q : Reg} {i j : Nat} (h : r.key i = q.key j) : r = q ∧ i = j := by
  have a := Reg.ctorIdx_lt r
  have b := Reg.ctorIdx_lt q
  unfold Reg.key at h
  exact ⟨Reg.ctorIdx_inj (by omega), by omega⟩

theorem Reg.key_ne {r q : Reg} {i j : Nat} (h : r ≠ q ∨ i ≠ j) : r.key i ≠ q.key j := by
  intro e
  obtain ⟨rfl, rfl⟩ := Reg.key_inj e
  simp at h

end Sys2Proof

namespace Sys2Proof.Machine

/-! The compartments through the lifts. -/

section lifts
variable (f : State → State) (g : Dev → Dev) (s t : State)

@[simp] theorem onDev_sys : (s.onDev g).sys = s.sys := by rfl
@[simp] theorem onDev_dev : (s.onDev g).dev = g s.dev := by rfl
@[simp] theorem onDev_saf : (s.onDev g).saf = s.saf := by rfl
@[simp] theorem onDev_fuse : (s.onDev g).fuse = s.fuse := by rfl
@[simp] theorem onDev_pending : (s.onDev g).pending = s.pending := by rfl
@[simp] theorem inDev_sys : (inDev f s).sys = s.sys := by rfl
@[simp] theorem inDev_dev : (inDev f s).dev = (f s).dev := by rfl
@[simp] theorem inDev_saf : (inDev f s).saf = s.saf := by rfl
@[simp] theorem inDev_fuse : (inDev f s).fuse = s.fuse := by rfl
@[simp] theorem inDev_pending : (inDev f s).pending = s.pending := by rfl
@[simp] theorem inSysDev_sys : (inSysDev f s).sys = (f s).sys := by rfl
@[simp] theorem inSysDev_dev : (inSysDev f s).dev = (f s).dev := by rfl
@[simp] theorem inSysDev_saf : (inSysDev f s).saf = s.saf := by rfl
@[simp] theorem inSysDev_fuse : (inSysDev f s).fuse = s.fuse := by rfl
@[simp] theorem inSysDev_pending : (inSysDev f s).pending = s.pending := by rfl
@[simp] theorem inCore_sys : (inCore f s).sys = (f s).sys := by rfl
@[simp] theorem inCore_dev : (inCore f s).dev = (f s).dev := by rfl
@[simp] theorem inCore_saf : (inCore f s).saf = s.saf := by rfl
@[simp] theorem inCore_fuse : (inCore f s).fuse = (f s).fuse := by rfl
@[simp] theorem inCore_pending : (inCore f s).pending = s.pending := by rfl
@[simp] theorem inDevSaf_sys : (inDevSaf f s).sys = s.sys := by rfl
@[simp] theorem inDevSaf_dev : (inDevSaf f s).dev = (f s).dev := by rfl
@[simp] theorem inDevSaf_saf : (inDevSaf f s).saf = (f s).saf := by rfl
@[simp] theorem inDevSaf_fuse : (inDevSaf f s).fuse = s.fuse := by rfl
@[simp] theorem inDevSaf_pending : (inDevSaf f s).pending = s.pending := by rfl
@[simp] theorem inSaf_sys : (inSaf f s).sys = s.sys := by rfl
@[simp] theorem inSaf_dev : (inSaf f s).dev = s.dev := by rfl
@[simp] theorem inSaf_saf : (inSaf f s).saf = (f s).saf := by rfl
@[simp] theorem inSaf_fuse : (inSaf f s).fuse = s.fuse := by rfl
@[simp] theorem inSaf_pending : (inSaf f s).pending = s.pending := by rfl
@[simp] theorem inAll_sys : (inAll f s).sys = (f s).sys := by rfl
@[simp] theorem inAll_dev : (inAll f s).dev = (f s).dev := by rfl
@[simp] theorem inAll_saf : (inAll f s).saf = (f s).saf := by rfl
@[simp] theorem inAll_fuse : (inAll f s).fuse = (f s).fuse := by rfl
@[simp] theorem inAll_pending : (inAll f s).pending = s.pending := by rfl
@[simp] theorem keepCmd_sys : (s.keepCmd t).sys = t.sys := by rfl
@[simp] theorem keepCmd_saf : (s.keepCmd t).saf = t.saf := by rfl
@[simp] theorem keepCmd_fuse : (s.keepCmd t).fuse = t.fuse := by rfl
@[simp] theorem keepCmd_pending : (s.keepCmd t).pending = t.pending := by rfl
@[simp] theorem keepCmd_cmd : (s.keepCmd t).dev.cmd = s.dev.cmd := by rfl
@[simp] theorem reg_keepCmd (r : Reg) (i : Nat) : (s.keepCmd t).reg r i = t.reg r i := by rfl
@[simp] theorem takeDev_sys : (s.takeDev t).sys = s.sys := by rfl
@[simp] theorem takeDev_dev : (s.takeDev t).dev = t.dev := by rfl
@[simp] theorem takeDev_saf : (s.takeDev t).saf = s.saf := by rfl
@[simp] theorem takeDev_fuse : (s.takeDev t).fuse = s.fuse := by rfl
@[simp] theorem takeDev_pending : (s.takeDev t).pending = s.pending := by rfl

/-- What reads only the device part reads the same through a lift that passes the device on. -/
theorem reg_of_dev {s t : State} (h : t.dev = s.dev) (r : Reg) (i : Nat) : t.reg r i = s.reg r i := by
  unfold State.reg; rw [h]

@[simp] theorem reg_inDev (r : Reg) (i : Nat) : (inDev f s).reg r i = (f s).reg r i := by rfl
@[simp] theorem reg_inSysDev (r : Reg) (i : Nat) : (inSysDev f s).reg r i = (f s).reg r i := by rfl
@[simp] theorem reg_inCore (r : Reg) (i : Nat) : (inCore f s).reg r i = (f s).reg r i := by rfl
@[simp] theorem reg_inDevSaf (r : Reg) (i : Nat) : (inDevSaf f s).reg r i = (f s).reg r i := by rfl
@[simp] theorem reg_inSaf (r : Reg) (i : Nat) : (inSaf f s).reg r i = s.reg r i := by rfl
@[simp] theorem reg_inAll (r : Reg) (i : Nat) : (inAll f s).reg r i = (f s).reg r i := by rfl
@[simp] theorem reg_takeDev (r : Reg) (i : Nat) : (s.takeDev t).reg r i = t.reg r i := by rfl
@[simp] theorem fld_inDev (x : RegField) (i : Nat) : (inDev f s).fld x i = (f s).fld x i := by rfl
@[simp] theorem fld_inSysDev (x : RegField) (i : Nat) : (inSysDev f s).fld x i = (f s).fld x i := by rfl
@[simp] theorem fld_inCore (x : RegField) (i : Nat) : (inCore f s).fld x i = (f s).fld x i := by rfl
@[simp] theorem fld_inDevSaf (x : RegField) (i : Nat) : (inDevSaf f s).fld x i = (f s).fld x i := by rfl
@[simp] theorem fld_inSaf (x : RegField) (i : Nat) : (inSaf f s).fld x i = s.fld x i := by rfl
@[simp] theorem fld_inAll (x : RegField) (i : Nat) : (inAll f s).fld x i = (f s).fld x i := by rfl
@[simp] theorem fld_takeDev (x : RegField) (i : Nat) : (s.takeDev t).fld x i = t.fld x i := by rfl

end lifts

/-! Registers and fields after a write. -/

variable (s : State) (r q : Reg) (x y : RegField) (i j v n : Nat)

theorem reg_lt : s.reg r i < 2 ^ 32 := by unfold State.reg; exact BitVec.isLt _

@[simp] theorem reg_setReg_same : (s.setReg r i v).reg r i = v % 2 ^ 32 := by
  simp [State.reg, State.setReg, BitVec.toNat_ofNat]

theorem reg_setReg_ne {r q : Reg} {i j : Nat} (h : r ≠ q ∨ i ≠ j) : (s.setReg r i v).reg q j = s.reg q j := by
  simp [State.reg, State.setReg, smGet_put_ne _ _ _ _ (Reg.key_ne h)]

theorem fld_setReg_ne {r : Reg} {y : RegField} {i j : Nat} (h : r ≠ y.reg ∨ i ≠ j) :
    (s.setReg r i v).fld y j = s.fld y j := by
  simp [State.fld, reg_setReg_ne s v h]

theorem fld_lt : s.fld x i < 2 ^ (x.hi - x.lo + 1) := bitsOf_lt _ _ _

/-- A field reads as what was put into it, cut to its width. -/
theorem fld_setFld_same {x : RegField} (h : x.lo ≤ x.hi ∧ x.hi < 32) :
    (s.setFld x i v).fld x i = v % 2 ^ (x.hi - x.lo + 1) := by
  simp only [State.fld, State.setFld, reg_setReg_same]
  rw [Nat.mod_eq_of_lt (putBits_lt v h.1 h.2 (reg_lt s x.reg i)), bitsOf_putBits_same _ _ h.1]

/-- A field of another register or instance, or beside the one written, keeps its value. -/
theorem fld_setFld_ne {x y : RegField} {i j : Nat} (hx : x.lo ≤ x.hi ∧ x.hi < 32) (hy : y.lo ≤ y.hi)
    (h : x.reg ≠ y.reg ∨ i ≠ j ∨ x.hi < y.lo ∨ y.hi < x.lo) : (s.setFld x i v).fld y j = s.fld y j := by
  by_cases e : x.reg = y.reg ∧ i = j
  · obtain ⟨e, rfl⟩ := e
    simp only [State.fld, State.setFld, ← e, reg_setReg_same]
    rw [Nat.mod_eq_of_lt (putBits_lt v hx.1 hx.2 (reg_lt s x.reg i))]
    rcases h with h | h | h | h
    · exact absurd e h
    · exact absurd rfl h
    · exact bitsOf_putBits_above _ _ hx.1 h
    · exact bitsOf_putBits_below _ _ hx.1 hy h
  · exact fld_setReg_ne s _ (by by_cases e' : x.reg = y.reg <;> simp_all)

theorem reg_setFld_ne {x : RegField} {q : Reg} {i j : Nat} (h : x.reg ≠ q ∨ i ≠ j) :
    (s.setFld x i v).reg q j = s.reg q j := reg_setReg_ne s _ h

theorem flag_setFlag_same {x : RegField} (h : x.lo = x.hi ∧ x.hi < 32) (b : Bool) : (s.setFlag x i b).flag x i = b := by
  unfold State.flag State.setFlag
  rw [fld_setFld_same s i _ ⟨h.1.le, h.2⟩]
  simp only [h.1, Nat.sub_self, Nat.zero_add, Nat.pow_one, b2n_mod_two]
  cases b <;> rfl

theorem fld_setFlag_same {x : RegField} (h : x.lo = x.hi ∧ x.hi < 32) (b : Bool) : (s.setFlag x i b).fld x i = b2n b := by
  unfold State.setFlag
  rw [fld_setFld_same s i _ ⟨h.1.le, h.2⟩]
  simp only [h.1, Nat.sub_self, Nat.zero_add, Nat.pow_one, b2n_mod_two]

/-- A saturating counter after it has counted (R76, R435). -/
theorem fld_bump_same {x : RegField} (h : x.lo ≤ x.hi ∧ x.hi < 32) :
    (s.bump x i n).fld x i = min (s.fld x i + n) (2 ^ (x.hi - x.lo + 1) - 1) := by
  unfold State.bump
  rw [fld_setFld_same s i _ h, Nat.mod_eq_of_lt (satN_lt _ _), satN_eq]

theorem reg_bump_ne {x : RegField} {q : Reg} {i j : Nat} (h : x.reg ≠ q ∨ i ≠ j) : (s.bump x i n).reg q j = s.reg q j :=
  reg_setReg_ne s _ h

/-! What the small operations keep. -/

@[simp] theorem setReg_sys : (s.setReg r i v).sys = s.sys := by rfl
@[simp] theorem setReg_saf : (s.setReg r i v).saf = s.saf := by rfl
@[simp] theorem setReg_fuse : (s.setReg r i v).fuse = s.fuse := by rfl
@[simp] theorem setReg_pending : (s.setReg r i v).pending = s.pending := by rfl
@[simp] theorem setReg_mem : (s.setReg r i v).dev.mem = s.dev.mem := by rfl
@[simp] theorem setReg_time : (s.setReg r i v).dev.time = s.dev.time := by rfl
@[simp] theorem setReg_cmd : (s.setReg r i v).dev.cmd = s.dev.cmd := by rfl
@[simp] theorem setReg_boot : (s.setReg r i v).dev.boot = s.dev.boot := by rfl
@[simp] theorem setReg_own : (s.setReg r i v).dev.own = s.dev.own := by rfl
@[simp] theorem setReg_out : (s.setReg r i v).dev.out = s.dev.out := by rfl
@[simp] theorem setFld_sys : (s.setFld x i v).sys = s.sys := by rfl
@[simp] theorem setFld_saf : (s.setFld x i v).saf = s.saf := by rfl
@[simp] theorem setFld_fuse : (s.setFld x i v).fuse = s.fuse := by rfl
@[simp] theorem setFld_pending : (s.setFld x i v).pending = s.pending := by rfl
@[simp] theorem setFld_mem : (s.setFld x i v).dev.mem = s.dev.mem := by rfl
@[simp] theorem setFld_time : (s.setFld x i v).dev.time = s.dev.time := by rfl
@[simp] theorem setFlag_sys (b : Bool) : (s.setFlag x i b).sys = s.sys := by rfl
@[simp] theorem setFlag_saf (b : Bool) : (s.setFlag x i b).saf = s.saf := by rfl
@[simp] theorem setFlag_fuse (b : Bool) : (s.setFlag x i b).fuse = s.fuse := by rfl
@[simp] theorem setFlag_mem (b : Bool) : (s.setFlag x i b).dev.mem = s.dev.mem := by rfl
@[simp] theorem bump_sys : (s.bump x i n).sys = s.sys := by rfl
@[simp] theorem bump_saf : (s.bump x i n).saf = s.saf := by rfl
@[simp] theorem bump_fuse : (s.bump x i n).fuse = s.fuse := by rfl
@[simp] theorem bump_pending : (s.bump x i n).pending = s.pending := by rfl
@[simp] theorem bump_mem : (s.bump x i n).dev.mem = s.dev.mem := by rfl
@[simp] theorem emit_sys (o : Out) : (s.emit o).sys = s.sys := by rfl
@[simp] theorem emit_mem (o : Out) : (s.emit o).dev.mem = s.dev.mem := by rfl
@[simp] theorem emit_reg (o : Out) : (s.emit o).reg r i = s.reg r i := by rfl
@[simp] theorem emit_fld (o : Out) : (s.emit o).fld x i = s.fld x i := by rfl
@[simp] theorem emit_out (o : Out) : (s.emit o).dev.out = o :: s.dev.out := by rfl

/-- A flag is its field compared with 1. -/
theorem flag_iff : s.flag x i = true ↔ s.fld x i = 1 := by simp [State.flag]

/-! Memory after a write. -/

theorem byte_memPutAll (m : List Host.Cell) (a : Nat) (bs : List Byte) (b : Nat) :
    smGet (0#8 : Byte) (memPutAll m a bs) b = if a ≤ b ∧ b < a + bs.length then bs.getD (b - a) 0#8 else smGet 0#8 m b := by
  split
  · rename_i h
    have := memPutAll_inside m a bs (b - a) (by omega)
    rwa [Nat.add_sub_cancel' h.1] at this
  · exact memPutAll_outside m a bs (by omega)

theorem bytes_length (a : Nat) : (s.bytes a n).length = n := by
  induction n generalizing a with
  | zero => rfl
  | succ n ih => simp [State.bytes, ih]

end Sys2Proof.Machine
end

