-- ==== Sys2Proof/Laws/Frame.lean ====
section
/-! SUPPORT. What a shared operation can touch, said once for each: the registers by name and the records of the device part.
`Frame R P s` is carried forward through a chain of operations, so that a proof about a chain cites one lemma for each link. -/
namespace Sys2Proof.Machine

/-- The records of the device part beside its registers. -/
inductive Part where
  | mem | poison | dram | passAt | freeCtr | out | shadow | heldLo | time | cmd | own | boot | acq | dma | links | ring | pci
  | eth | pairs | fmk | rng | mea | thm | loop | lin | odo
deriving DecidableEq, Repr

/-- A record of the device part is the same in two states. -/
def Part.same (d e : Dev) : Part → Prop
  | .mem => e.mem = d.mem | .poison => e.poison = d.poison | .dram => e.dram = d.dram | .passAt => e.passAt = d.passAt
  | .freeCtr => e.freeCtr = d.freeCtr | .out => e.out = d.out | .shadow => e.shadow = d.shadow | .heldLo => e.heldLo = d.heldLo
  | .time => e.time = d.time | .cmd => e.cmd = d.cmd | .own => e.own = d.own | .boot => e.boot = d.boot
  | .acq => e.acq = d.acq | .dma => e.dma = d.dma | .links => e.links = d.links | .ring => e.ring = d.ring
  | .pci => e.pci = d.pci | .eth => e.eth = d.eth | .pairs => e.pairs = d.pairs | .fmk => e.fmk = d.fmk
  | .rng => e.rng = d.rng | .mea => e.mea = d.mea | .thm => e.thm = d.thm | .loop => e.loop = d.loop
  | .lin => e.lin = d.lin | .odo => e.odo = d.odo

theorem Part.same_refl (d : Dev) (p : Part) : p.same d d := by cases p <;> rfl

theorem Part.same_trans {d e f : Dev} {p : Part} (h : p.same d e) (k : p.same e f) : p.same d f := by
  cases p <;> simp only [Part.same] at * <;> exact k.trans h

/-- From `s` to `t` only the registers named in `R` and the records named in `P` may differ. -/
structure Frame (R : List Reg) (P : List Part) (s t : State) : Prop where
  sys : t.sys = s.sys
  saf : t.saf = s.saf
  fuse : t.fuse = s.fuse
  pending : t.pending = s.pending
  reg : ∀ r i, r ∉ R → t.reg r i = s.reg r i
  part : ∀ p, p ∉ P → p.same s.dev t.dev

variable {R R' : List Reg} {P P' : List Part} {s t u : State}

theorem Frame.refl (R : List Reg) (P : List Part) (s : State) : Frame R P s s :=
  ⟨rfl, rfl, rfl, rfl, fun _ _ _ => rfl, fun p _ => Part.same_refl s.dev p⟩

theorem Frame.trans (h : Frame R P s t) (k : Frame R' P' t u) (hR : R' ⊆ R) (hP : P' ⊆ P) : Frame R P s u :=
  ⟨k.sys.trans h.sys, k.saf.trans h.saf, k.fuse.trans h.fuse, k.pending.trans h.pending,
    fun r i n => (k.reg r i fun m => n (hR m)).trans (h.reg r i n),
    fun p n => Part.same_trans (h.part p n) (k.part p fun m => n (hP m))⟩

theorem Frame.mono (k : Frame R' P' s u) (hR : R' ⊆ R) (hP : P' ⊆ P) : Frame R P s u :=
  (Frame.refl R P s).trans k hR hP

/-- A fold whose every step is framed is framed. -/
theorem Frame.foldl {α : Type} {f : State → α → State} (l : List α) (h : Frame R P s t)
    (hf : ∀ u b, Frame R P s u → Frame R P s (f u b)) : Frame R P s (l.foldl f t) := by
  induction l generalizing t with
  | nil => exact h
  | cons b l ih => exact ih (hf t b h)

/-- A fold that carries a counter beside the state. -/
theorem Frame.foldl_pair {α β : Type} {f : State × β → α → State × β} (l : List α) (b : β) (h : Frame R P s t)
    (hf : ∀ p x, Frame R P s p.1 → Frame R P s (f p x).1) : Frame R P s (l.foldl f (t, b)).1 := by
  suffices ∀ p : State × β, Frame R P s p.1 → Frame R P s (l.foldl f p).1 from this _ h
  intro p hp
  induction l generalizing p with
  | nil => exact hp
  | cons x l ih => exact ih _ (hf p x hp)

theorem Frame.ite {c : Prop} [Decidable c] {x y : State} (hx : c → Frame R P s x) (hy : ¬c → Frame R P s y) :
    Frame R P s (if c then x else y) := by
  split
  · exact hx ‹_›
  · exact hy ‹_›

/-- A record of the device part changes. -/
theorem Frame.onDev {g : Dev → Dev} (h : Frame R P s t) (hr : ∀ d, (g d).regs = d.regs)
    (hp : ∀ d p, p ∉ P → p.same d (g d)) : Frame R P s (t.onDev g) :=
  h.trans (R' := R) (P' := P)
    ⟨rfl, rfl, rfl, rfl, fun r i _ => by unfold State.reg; simp [hr], fun p n => hp t.dev p n⟩ (fun _ m => m) (fun _ m => m)

theorem Frame.setReg {r : Reg} {i v : Nat} (h : Frame R P s t) (hr : r ∈ R) : Frame R P s (t.setReg r i v) :=
  h.trans (R' := R) (P' := P)
    ⟨rfl, rfl, rfl, rfl, fun q j n => reg_setReg_ne t v (Or.inl fun e => n (e ▸ hr)), fun p _ => by cases p <;> rfl⟩
    (fun _ m => m) (fun _ m => m)

theorem Frame.setFld {x : RegField} {i v : Nat} (h : Frame R P s t) (hr : x.reg ∈ R) : Frame R P s (t.setFld x i v) :=
  Frame.setReg h hr

theorem Frame.setFlag {x : RegField} {i : Nat} {b : Bool} (h : Frame R P s t) (hr : x.reg ∈ R) :
    Frame R P s (t.setFlag x i b) := Frame.setReg h hr

theorem Frame.bump {x : RegField} {i n : Nat} (h : Frame R P s t) (hr : x.reg ∈ R) : Frame R P s (t.bump x i n) :=
  Frame.setReg h hr

theorem Frame.emit {o : Out} (h : Frame R P s t) (hp : Part.out ∈ P) : Frame R P s (t.emit o) :=
  h.onDev (fun _ => rfl) (fun d p n => by cases p <;> first | rfl | exact absurd hp n)

theorem Frame.setLink {n : Nat} {l : LinkSt} (h : Frame R P s t) (hp : Part.links ∈ P) : Frame R P s (t.setLink n l) :=
  h.onDev (fun _ => rfl) (fun d p n => by cases p <;> first | rfl | exact absurd hp n)

theorem Frame.setDram {n : Nat} {l : DramCh} (h : Frame R P s t) (hp : Part.dram ∈ P) : Frame R P s (t.setDram n l) :=
  h.onDev (fun _ => rfl) (fun d p n => by cases p <;> first | rfl | exact absurd hp n)

theorem Frame.setStream {n : Nat} {l : StreamSt} (h : Frame R P s t) (hp : Part.acq ∈ P) : Frame R P s (t.setStream n l) :=
  h.onDev (fun _ => rfl) (fun d p n => by cases p <;> first | rfl | exact absurd hp n)

theorem Frame.setCqPending {k n : Nat} (h : Frame R P s t) (hp : Part.dma ∈ P) : Frame R P s (t.setCqPending k n) :=
  h.onDev (fun _ => rfl) (fun d p n => by cases p <;> first | rfl | exact absurd hp n)

theorem Frame.setEvtSlot {e : Nat} {x : Option EvtSlot} (h : Frame R P s t) (hp : Part.dma ∈ P) :
    Frame R P s (t.setEvtSlot e x) :=
  h.onDev (fun _ => rfl) (fun d p n => by cases p <;> first | rfl | exact absurd hp n)

theorem Frame.inDev {f : State → State} (h : Frame R P s (f s)) : Frame R P s (inDev f s) :=
  ⟨rfl, rfl, rfl, rfl, h.reg, h.part⟩

/-- A field of a register that is not named keeps its value. -/
theorem Frame.fld (h : Frame R P s t) (x : RegField) (i : Nat) (hx : x.reg ∉ R) : t.fld x i = s.fld x i := by
  unfold State.fld; rw [h.reg _ _ hx]

theorem Frame.flag (h : Frame R P s t) (x : RegField) (i : Nat) (hx : x.reg ∉ R) : t.flag x i = s.flag x i := by
  unfold State.flag; rw [h.fld x i hx]

/-! Bytes stored, and frames sent. -/

/-- A store touches the bytes of memory, the list of spoiled bursts and the DRAM records, and no register. -/
theorem Frame.store {a : Nat} {bs : List Byte} (h : Frame R P s t) (hP : [Part.mem, .poison, .dram] ⊆ P := by decide) :
    Frame R P s (t.store a bs) := by
  unfold State.store
  refine Frame.ite (fun _ => h) (fun _ => ?_)
  refine Frame.foldl _ (h.onDev (fun _ => rfl) ?_) ?_
  · intro d p n
    cases p <;> first | rfl | exact absurd (hP (by decide)) n
  · intro u b hu
    exact Frame.ite (fun _ => hu.setDram (hP (by decide))) (fun _ => hu)

theorem Frame.pumpFrames {n k : Nat} (h : Frame R P s t) (hP : [Part.links, .out] ⊆ P) : Frame R P s (pumpFrames n k t) := by
  induction k generalizing t with
  | zero => exact h
  | succ k ih =>
    simp only [Machine.pumpFrames]
    split
    · exact h
    · refine Frame.ite (fun _ => ih ?_) (fun _ => h)
      exact (h.setLink (hP (by decide))).emit (hP (by decide))

theorem Frame.linkSend {n type dst rseq hops : Nat} {pl : List Byte} (h : Frame R P s t)
    (hP : [Part.links, .out] ⊆ P := by decide) : Frame R P s (t.linkSend n type dst rseq hops pl) := by
  unfold State.linkSend State.linkPump
  refine Frame.ite (fun _ => Frame.pumpFrames ?_ hP) (fun _ => ?_) <;> exact h.setLink (hP (by decide))

theorem Frame.hostPost {a : Nat} {bs : List Byte} (h : Frame R P s t) (hP : [Part.pci, .out] ⊆ P := by decide) :
    Frame R P s (t.hostPost a bs) := by
  unfold State.hostPost
  refine Frame.ite (fun _ => h.emit (hP (by decide))) (fun _ => h.onDev (fun _ => rfl) ?_)
  intro d p n
  cases p <;> first | rfl | exact absurd (hP (by decide)) n

/-- The records that leave the device part by a write of an engine. -/
abbrev writeParts : List Part := [.mem, .poison, .dram, .links, .out, .pci]

theorem Frame.bridgeWrite {n a : Nat} {bs : List Byte} (h : Frame R P s t) (hP : [Part.links, .out] ⊆ P) :
    Frame R P s (t.bridgeWrite n a bs) := by
  unfold State.bridgeWrite
  exact Frame.foldl_pair _ _ h (fun p x hp => hp.linkSend hP)

theorem Frame.dmaWrite {a : Nat} {bs : List Byte} (h : Frame R P s t) (hP : writeParts ⊆ P := by decide) :
    Frame R P s (t.dmaWrite a bs) := by
  have hm : ∀ l : List Part, l ⊆ writeParts → l ⊆ P := fun l hl => List.Subset.trans hl hP
  unfold State.dmaWrite
  split
  · exact h.store (hm _ (by decide))
  · exact h.store (hm _ (by decide))
  · exact h.hostPost (hm _ (by decide))
  · exact Frame.ite (fun _ => h.bridgeWrite (hm _ (by decide))) (fun _ => h)
  · exact h

/-! Vectors, completion queues and events. -/

/-- What posting an event can touch: registers. -/
abbrev postRegs : List Reg := [.sysEvtSts, .sysEvtErr, .pciMsixPba, .dmaCqWr, .dmaCqSts]

/-- What posting an event can touch: records. -/
abbrev postParts : List Part := writeParts ++ [.dma]

theorem Frame.sendVector {v : Nat} (h : Frame R P s t) (hR : [Reg.pciMsixPba] ⊆ R := by decide)
    (hP : [Part.links, .out, .pci] ⊆ P := by decide) : Frame R P s (t.sendVector v) := by
  have hm : ∀ l : List Part, l ⊆ [Part.links, .out, .pci] → l ⊆ P := fun l hl => List.Subset.trans hl hP
  unfold State.sendVector State.setPba State.sendMessage
  refine Frame.ite (fun _ => h.setReg (hR (by decide))) (fun _ => ?_)
  dsimp only
  split
  · exact h.linkSend (hm _ (by decide))
  · exact h.linkSend (hm _ (by decide))
  · exact h.hostPost (hm _ (by decide))

theorem Frame.cqInterrupt {k : Nat} (h : Frame R P s t) (hR : [Reg.pciMsixPba] ⊆ R := by decide)
    (hP : postParts ⊆ P := by decide) : Frame R P s (t.cqInterrupt k) := by
  have hm : ∀ l : List Part, l ⊆ postParts → l ⊆ P := fun l hl => List.Subset.trans hl hP
  exact (h.setCqPending (hP (by decide))).sendVector hR (hm _ (by decide))

theorem Frame.cqWrite {k : Nat} {x : CqRec} {b : Bool} (h : Frame R P s t) (hR : postRegs ⊆ R := by decide)
    (hP : postParts ⊆ P := by decide) : Frame R P s (t.cqWrite k x b) := by
  have hm : ∀ l : List Part, l ⊆ postParts → l ⊆ P := fun l hl => List.Subset.trans hl hP
  have hr : ∀ l : List Reg, l ⊆ postRegs → l ⊆ R := fun l hl => List.Subset.trans hl hR
  have h1 := (h.dmaWrite (a := t.cqSlot k) (bs := cqBytes x (t.flag F.dmaCqStsPhase k) t.tag) (hm _ (by decide)))
  unfold State.cqWrite
  dsimp only
  have h3 : ∀ c n : Nat, ∀ b' : Bool, Frame R P s
      (if c = 0 then ((t.dmaWrite (t.cqSlot k) (cqBytes x (t.flag F.dmaCqStsPhase k) t.tag)).setReg .dmaCqWr k n).setFlag
        F.dmaCqStsPhase k b' else (t.dmaWrite (t.cqSlot k) (cqBytes x (t.flag F.dmaCqStsPhase k) t.tag)).setReg .dmaCqWr k n) := by
    intro c n b'
    have h2 := h1.setReg (r := .dmaCqWr) (i := k) (v := n) (hR (by decide))
    exact Frame.ite (fun _ => h2.setFlag (hR (by decide))) (fun _ => h2)
  refine Frame.ite (fun _ => ?_) (fun _ => h3 _ _ _)
  unfold State.cqCount
  dsimp only
  exact Frame.ite (fun _ => (h3 _ _ _).cqInterrupt (hr _ (by decide)) hP) (fun _ => (h3 _ _ _).setCqPending (hP (by decide)))

theorem Frame.postToQueue {e i : Nat} (h : Frame R P s t) (hR : postRegs ⊆ R := by decide)
    (hP : postParts ⊆ P := by decide) : Frame R P s (t.postToQueue e i) := by
  unfold State.postToQueue
  dsimp only
  refine Frame.ite (fun _ => h.setReg (hR (by decide))) (fun _ => ?_)
  split
  · exact h.setEvtSlot (hP (by decide))
  · exact Frame.ite (fun _ => (h.setEvtSlot (hP (by decide))).setFlag (hR (by decide))) (fun _ => h.cqWrite hR hP)

/-- An interrupt input of a lockstep pair (R437). -/
theorem Frame.setIrq {p e : Nat} {b : Bool} (h : Frame R P s t) (hd : Part.dma ∈ P) (ho : Part.out ∈ P) :
    Frame R P s (t.setIrq p e b) := by
  unfold State.setIrq
  refine Frame.emit (h.onDev (fun _ => rfl) ?_) ho
  exact fun d p n => by cases p <;> first | rfl | exact absurd hd n

/-- Posting an event touches the event status, the vectors' pending bits and the queue it is routed to (R437, R438). -/
theorem Frame.post {e i : Nat} (h : Frame R P s t) (hR : postRegs ⊆ R := by decide) (hP : postParts ⊆ P := by decide) :
    Frame R P s (t.post e i) := by
  have hm : ∀ l : List Part, l ⊆ postParts → l ⊆ P := fun l hl => List.Subset.trans hl hP
  have hr : ∀ l : List Reg, l ⊆ postRegs → l ⊆ R := fun l hl => List.Subset.trans hl hR
  unfold State.post
  dsimp only
  have h1 := h.setReg (r := .sysEvtSts) (i := e / 32) (v := t.reg .sysEvtSts (e / 32) ||| 2 ^ (e % 32)) (hR (by decide))
  have h2 : ∀ (c : Bool) (v : Nat), Frame R P s (if c = true then
      (t.setReg .sysEvtSts (e / 32) (t.reg .sysEvtSts (e / 32) ||| 2 ^ (e % 32))).sendVector v
      else t.setReg .sysEvtSts (e / 32) (t.reg .sysEvtSts (e / 32) ||| 2 ^ (e % 32))) := fun c v =>
    Frame.ite (fun _ => h1.sendVector (hr _ (by decide)) (hm _ (by decide))) (fun _ => h1)
  refine Frame.ite (fun _ => Frame.setIrq ?_ (hP (by decide)) (hP (by decide))) (fun _ => ?_) <;>
    exact Frame.ite (fun _ => (h2 _ _).postToQueue hR hP) (fun _ => h2 _ _)

/-- A sticky flag and its event (R435). -/
theorem Frame.raise {x : RegField} {k e i : Nat} (h : Frame R P s t) (hx : x.reg ∈ R) (hR : postRegs ⊆ R := by decide)
    (hP : postParts ⊆ P := by decide) : Frame R P s (t.raise x k e i) := by
  unfold State.raise
  exact Frame.ite (fun _ => h) (fun _ => (h.setFlag hx).post hR hP)

/-- What an access error can touch: registers. -/
abbrev errRegs : List Reg := [.sysAccErrCnt, .sysAccErrLast] ++ postRegs

theorem Frame.accErr {m : Master} {k a : Nat} (h : Frame R P s t) (hR : errRegs ⊆ R := by decide)
    (hP : postParts ⊆ P := by decide) : Frame R P s (t.accErr m k a) := by
  have hr : ∀ l : List Reg, l ⊆ errRegs → l ⊆ R := fun l hl => List.Subset.trans hl hR
  unfold State.accErr
  exact ((h.bump (hR (by decide))).setReg (hR (by decide))).post (hr _ (by decide)) hP

/-! Records of a stream, change records and the fault log. -/

/-- What writing a record into a ring can touch. -/
abbrev ringRegs : List Reg := [.acqStrWr, .acqStrRecCnt, .acqStrSts]
abbrev ringParts : List Part := [.mem, .poison, .dram, .acq]

theorem Frame.ringPut {n : Nat} {bs : List Byte} (h : Frame R P s t) (hR : ringRegs ⊆ R := by decide)
    (hP : ringParts ⊆ P := by decide) : Frame R P s (t.ringPut n bs) := by
  have hm : ∀ l : List Part, l ⊆ ringParts → l ⊆ P := fun l hl => List.Subset.trans hl hP
  unfold State.ringPut State.updateHigh State.ringStore
  dsimp only
  have h1 := (((h.store (a := t.pair .acqStrBaseLo .acqStrBaseHi n + t.reg .acqStrWr n)
    (bs := (pad8 bs).take (t.ringSize n - t.reg .acqStrWr n)) (hm _ (by decide))).store
    (a := t.pair .acqStrBaseLo .acqStrBaseHi n) (bs := (pad8 bs).drop (t.ringSize n - t.reg .acqStrWr n))
    (hm _ (by decide))).setReg (r := .acqStrWr) (i := n) (v := (t.reg .acqStrWr n + (pad8 bs).length) % t.ringSize n)
    (hR (by decide))).bump (x := F.acqStrRecCntCount) (i := n) (n := 1) (hR (by decide))
  refine Frame.ite (fun _ => Frame.ite (fun _ => h1.setFlag (hR (by decide))) (fun _ => ?_)) (fun _ => h1)
  exact Frame.ite (fun _ => h1.setFlag (hR (by decide))) (fun _ => h1)

theorem Frame.ringPutAll {n : Nat} {l : List (List Byte)} (h : Frame R P s t) (hR : ringRegs ⊆ R := by decide)
    (hP : ringParts ⊆ P := by decide) : Frame R P s (t.ringPutAll n l) :=
  Frame.foldl _ h (fun _ _ hu => hu.ringPut hR hP)

theorem Frame.putUnit {n : Nat} {l : List (List Byte)} (h : Frame R P s t) (hR : ringRegs ⊆ R := by decide)
    (hP : ringParts ⊆ P := by decide) : Frame R P s (t.putUnit n l) := by
  unfold State.putUnit State.putGaps
  dsimp only
  exact (((h.ringPutAll hR hP).setStream (hP (by decide))).ringPutAll hR hP).setFlag (hR (by decide))

/-- What a change of a source can touch: registers. -/
abbrev changeRegs : List Reg := [.acqStrCoalCnt] ++ ringRegs

theorem Frame.offerChange {n src fl tm : Nat} {v : SrcVal} (h : Frame R P s t) (hR : changeRegs ⊆ R := by decide)
    (hP : ringParts ⊆ P := by decide) : Frame R P s (t.offerChange n src v fl tm) := by
  have hr : ∀ l : List Reg, l ⊆ changeRegs → l ⊆ R := fun l hl => List.Subset.trans hl hR
  unfold State.offerChange
  dsimp only
  refine Frame.ite (fun _ => h.putUnit (hr _ (by decide)) hP) (fun _ => ?_)
  refine Frame.ite (fun _ => Frame.bump ?_ (hR (by decide))) (fun _ => ?_) <;>
    exact (h.setFlag (hR (by decide))).setStream (hP (by decide))

/-- A source that reports a value touches the state streams alone (R244). -/
theorem Frame.changeAt {src k v tm : Nat} {b : Bool} (h : Frame R P s t) (hR : changeRegs ⊆ R := by decide)
    (hP : ringParts ⊆ P := by decide) : Frame R P s (t.changeAt src k v b tm) := by
  unfold State.changeAt State.recordChange
  dsimp only
  refine Frame.ite (fun _ => h) (fun _ => ?_)
  have h1 : Frame R P s (t.onDev fun d => { d with acq := { d.acq with src := smPut {} d.acq.src src ⟨v % 2 ^ 32, k, b⟩ } }) :=
    h.onDev (fun _ => rfl) (fun d p n => by cases p <;> first | rfl | exact absurd (hP (by decide)) n)
  refine Frame.ite (fun _ => Frame.foldl _ h1 (fun u b hu => ?_)) (fun _ => h1)
  exact Frame.ite (fun _ => hu.offerChange hR hP) (fun _ => hu)

theorem Frame.change {src k v : Nat} {b : Bool} (h : Frame R P s t) (hR : changeRegs ⊆ R := by decide)
    (hP : ringParts ⊆ P := by decide) : Frame R P s (t.change src k v b) := h.changeAt hR hP

/-- What an entry of the fault log can touch: registers. -/
abbrev logRegs : List Reg := [.fmkLog, .fmkLogHead, .fmkLogTail, .fmkLogOvfCnt] ++ postRegs ++ changeRegs

/-- What an entry of the fault log can touch: records. -/
abbrev logParts : List Part := postParts ++ [.acq]

/-- An entry of the fault log touches the log, event 5 and source 0x0136 (R370). -/
theorem Frame.logFaultAt {tm code fl cls lo ph : Nat} (h : Frame R P s t) (hR : logRegs ⊆ R := by decide)
    (hP : logParts ⊆ P := by decide) : Frame R P s (t.logFaultAt tm code fl cls lo ph) := by
  have hr : ∀ l : List Reg, l ⊆ logRegs → l ⊆ R := fun l hl => List.Subset.trans hl hR
  have hm : ∀ l : List Part, l ⊆ logParts → l ⊆ P := fun l hl => List.Subset.trans hl hP
  unfold State.logFaultAt
  dsimp only
  refine Frame.change (Frame.post (Frame.setFld (Frame.foldl_pair _ _ ?_ ?_) (hR (by decide))) (hr _ (by decide))
    (hm _ (by decide))) (hr _ (by decide)) (hm _ (by decide))
  · exact Frame.ite (fun _ => (h.setFld (hR (by decide))).bump (hR (by decide))) (fun _ => h)
  · intro p x hp
    exact hp.setReg (hR (by decide))

theorem Frame.logFault {code fl cls lo ph : Nat} (h : Frame R P s t) (hR : logRegs ⊆ R := by decide)
    (hP : logParts ⊆ P := by decide) : Frame R P s (t.logFault code fl cls lo ph) := h.logFaultAt hR hP

theorem Frame.flushGaps {n k : Nat} (h : Frame R P s t) (hR : ringRegs ⊆ R := by decide)
    (hP : ringParts ⊆ P := by decide) : Frame R P s (flushGaps n k t) := by
  induction k generalizing t with
  | zero => exact h
  | succ k ih =>
    simp only [Machine.flushGaps]
    split
    · exact h
    · exact Frame.ite (fun _ => ih ((h.ringPut hR hP).setStream (hP (by decide)))) (fun _ => h)

/-- The gap record of a stop touches its stream alone (R237). -/
theorem Frame.stopGap {n c : Nat} (h : Frame R P s t) (hR : ringRegs ⊆ R := by decide)
    (hP : ringParts ⊆ P := by decide) : Frame R P s (t.stopGap n c) :=
  (h.setStream (hP (by decide))).flushGaps hR hP

end Sys2Proof.Machine
end

