-- ==== Sys2Proof/Laws/States.lean ====
section
/-! SUPPORT. The operating state and the mailboxes: what a transition, a cause of FAULT or SAFE_HOLD, a reset and the end of a
command can do, each said once. -/
namespace Sys2Proof.Machine

variable {R : List Reg} {P : List Part} {s t : State}

/-! The end of a command. -/

theorem Frame.onCmd {f : CmdSt → CmdSt} (h : Frame R P s t) (hp : Part.cmd ∈ P) : Frame R P s (t.onCmd f) :=
  h.onDev (fun _ => rfl) (fun d p n => by cases p <;> first | rfl | exact absurd hp n)

theorem endCmd_sys (s : State) (c : MbxCmd) (st r : Nat) : (s.endCmd c st r).sys = s.sys := by
  unfold State.endCmd; split
  · exact takeDev_sys _ _
  · rfl

theorem endCmd_saf (s : State) (c : MbxCmd) (st r : Nat) : (s.endCmd c st r).saf = s.saf := by
  unfold State.endCmd; split
  · exact takeDev_saf _ _
  · rfl

theorem endCmd_fuse (s : State) (c : MbxCmd) (st r : Nat) : (s.endCmd c st r).fuse = s.fuse := by
  unfold State.endCmd; split
  · exact takeDev_fuse _ _
  · rfl

theorem mgmtReply_queue (s : State) (c : MbxCmd) (st r : Nat) :
    (s.mgmtReply c st r).dev.cmd.queue = s.dev.cmd.queue ∧ (s.mgmtReply c st r).dev.cmd.running = s.dev.cmd.running := by
  unfold State.mgmtReply
  split
  · split
    · simp only [keepCmd_cmd]
      exact ⟨rfl, rfl⟩
    · exact ⟨rfl, rfl⟩
  · exact ⟨rfl, rfl⟩

theorem endCmd_queue (s : State) (c : MbxCmd) (st r : Nat) :
    (s.endCmd c st r).dev.cmd.queue = s.dev.cmd.queue ∧ (s.endCmd c st r).dev.cmd.running = s.dev.cmd.running := by
  unfold State.endCmd
  split
  · dsimp only
    rw [takeDev_dev, (mgmtReply_queue _ _ _ _).1, (mgmtReply_queue _ _ _ _).2]
    split
    · simp only [State.bump, State.setFld, setReg_cmd, and_self]
    · simp only [setReg_cmd, and_self]
  · exact ⟨rfl, rfl⟩

/-- Where no management request waits for it, the end of a command shows in its mailbox and touches no other register but
SYS_CMD_CNT, and that one only for STATE_REFUSED (R45, R48). -/
theorem endCmd_shows (s : State) (c : MbxCmd) (st result : Nat) (hm : c.mbx < 2) (hr : c.mbx = 1 → s.dev.cmd.reply = none)
    (h1 : c.tag < 256) (h2 : st < 16) (h3 : result < 256) :
    (s.endCmd c st result).shows c.mbx c.tag st result
      ∧ Frame (if result = 1 then [.sysMbxSts, .sysCmdCnt] else [.sysMbxSts]) [] s (s.endCmd c st result) := by
  unfold State.endCmd
  rw [if_pos hm]
  dsimp only
  generalize hw : s.setReg .sysMbxSts c.mbx (packBits [(8, result), (8, 0), (8, c.tag), (4, st), (2, 0), (1, 1), (1, 0)]) = w
  have f1 : Frame [.sysMbxSts] [] s w := hw ▸ (Frame.refl _ _ _).setReg (by decide)
  have v : w.reg .sysMbxSts c.mbx = packBits [(8, result), (8, 0), (8, c.tag), (4, st), (2, 0), (1, 1), (1, 0)] := by
    rw [← hw, reg_setReg_same]; apply Nat.mod_eq_of_lt; simp only [packBits]; omega
  generalize hx : (if result = 1 then w.bump F.sysCmdCntStateRefusedCnt 0 1 else w) = x
  have f2 : Frame (if result = 1 then [.sysMbxSts, .sysCmdCnt] else [.sysMbxSts]) [] s x := by
    rw [← hx]
    by_cases e : result = 1
    · rw [if_pos e, if_pos e]
      exact Frame.bump (f1.mono (by decide) (by decide)) (by decide)
    · rw [if_neg e, if_neg e]
      exact f1
  have f3 : Frame [.sysCmdCnt] [] w x := hx ▸ Frame.ite (fun _ => (Frame.refl _ _ _).bump (by decide)) (fun _ => Frame.refl _ _ _)
  have hc : x.dev.cmd = s.dev.cmd := f2.part .cmd (by simp)
  have e : x.mgmtReply c st result = x := by
    unfold State.mgmtReply
    split
    · rename_i p mac hrep
      split
      · rename_i h
        rw [hc, hr h] at hrep
        cases hrep
      · rfl
    · rfl
  rw [e]
  refine ⟨?_, ⟨takeDev_sys _ _, takeDev_saf _ _, takeDev_fuse _ _, takeDev_pending _ _, f2.reg, f2.part⟩⟩
  have v' : (s.takeDev x).reg .sysMbxSts c.mbx = packBits [(8, result), (8, 0), (8, c.tag), (4, st), (2, 0), (1, 1), (1, 0)] := by
    rw [reg_takeDev, f3.reg _ _ (by decide), v]
  simp only [State.shows, State.fld, v', bitsOf, packBits]
  refine ⟨?_, ?_, ?_, ?_, ?_⟩ <;> omega

theorem endRunning_sys (s : State) (r : Nat) : (s.endRunning r).sys = s.sys := by
  unfold State.endRunning; split
  · rw [endCmd_sys]; rfl
  · rfl

theorem endRunning_saf (s : State) (r : Nat) : (s.endRunning r).saf = s.saf := by
  unfold State.endRunning; split
  · rw [endCmd_saf]; rfl
  · rfl

theorem endRunning_fuse (s : State) (r : Nat) : (s.endRunning r).fuse = s.fuse := by
  unfold State.endRunning; split
  · rw [endCmd_fuse]; rfl
  · rfl

theorem endRunning_cmd (s : State) (r : Nat) :
    (s.endRunning r).dev.cmd.queue = s.dev.cmd.queue ∧ (s.endRunning r).dev.cmd.running = none := by
  unfold State.endRunning; split
  · rw [(endCmd_queue _ _ _ _).1, (endCmd_queue _ _ _ _).2]; exact ⟨rfl, rfl⟩
  · exact ⟨rfl, by assumption⟩

theorem pump_nil (s : State) (h : s.dev.cmd.queue = []) : s.pump = s := by
  unfold State.pump; rw [h]; rfl

theorem pump_one (v : State) (c : MbxCmd) (hv : v.dev.cmd.queue = [c]) (hr : v.dev.cmd.running = none)
    (hh : v.sys.op.held = false) :
    v.pump = ((v.onCmd fun x => { x with queue := [] }).setFlag F.sysMbxCmdGo c.mbx false).execute c := by
  unfold State.pump
  rw [hv]
  simp only [List.length_singleton, runQueue, hr, hh, hv, Option.isSome_none, Bool.or_false, Bool.false_eq_true, if_false]

/-- A state in which a command of a mailbox is about to be executed: only the mailbox's words and the executor have changed. -/
structure Prep (s p : State) (m : Nat) : Prop where
  frame : Frame [.sysMbxArg, .sysMbxCmd, .sysMbxSts] [.cmd] s p
  running : p.dev.cmd.running = none
  queue : p.dev.cmd.queue = []
  reply : m = 1 → p.dev.cmd.reply = none
  busy : p.flag F.sysMbxStsBusy m = true
  notDone : p.fld F.sysMbxStsDone m = 0

/-- A field of one register leaves every other register. -/
theorem reg_setFlag_ne (s : State) {x : RegField} {r : Reg} (i j : Nat) {b : Bool} (h : r ≠ x.reg) :
    (s.setFlag x j b).reg r i = s.reg r i := by
  unfold State.setFlag State.setFld
  exact reg_setReg_ne _ _ (Or.inl (Ne.symm h))

theorem reg_onCmd (s : State) (f : CmdSt → CmdSt) (r : Reg) (i : Nat) : (s.onCmd f).reg r i = s.reg r i := by rfl

/-- A command rung in a free mailbox where a GO is not held is executed at once, on the arguments as written (R45, R46). -/
theorem command_run (s : State) (m : Fin 2) (tag : BitVec 8) (op : Nat) (args : List Nat)
    (hq : s.mailboxFree m) (hh : s.sys.op.held = false) :
    ∃ p : State, ∃ c : MbxCmd, s.command m tag op args = p.execute c ∧ c.mbx = m ∧ c.tag = tag.toNat ∧ c.opcode = op
      ∧ c.args = (List.range 16).map (fun k => p.reg .sysMbxArg (16 * m + k))
      ∧ p.reg .sysMbxArg = (args.zipIdx.foldl (fun t p => t.setReg .sysMbxArg (16 * m + p.2) p.1) s).reg .sysMbxArg
      ∧ Prep s p m := by
  obtain ⟨h1, h2, h3⟩ := hq
  unfold State.command State.mbxWrite
  generalize ha : inDev (fun s => args.zipIdx.foldl (fun t p => t.setReg .sysMbxArg (16 * m + p.2) p.1) s) s = a
  have fa' : Frame [.sysMbxArg] [] s a := by
    rw [← ha]
    exact Frame.inDev (Frame.foldl _ (Frame.refl _ _ _) fun u b hu => hu.setReg (by decide))
  have fa : Frame [.sysMbxArg, .sysMbxCmd, .sysMbxSts] [.cmd] s a := fa'.mono (by decide) (by decide)
  have hb : a.flag F.sysMbxStsBusy m = false := by rw [fa'.flag _ _ (by decide)]; exact h3
  have hc : a.dev.cmd = s.dev.cmd := fa'.part .cmd (by decide)
  unfold State.mbxRing
  simp only [hb, Bool.not_true, Bool.false_eq_true, if_false]
  generalize hw1 : a.setReg _ _ _ = w1
  have g1 : Frame [.sysMbxArg, .sysMbxCmd, .sysMbxSts] [.cmd] s w1 := hw1 ▸ fa.setReg (by decide)
  have c1 : w1.dev.cmd = s.dev.cmd := by rw [← hw1, setReg_cmd]; exact hc
  have a1 : w1.reg .sysMbxArg = a.reg .sysMbxArg := by
    funext i; rw [← hw1]; exact reg_setReg_ne _ _ (Or.inl (by decide))
  generalize hw2 : (w1.setFlag F.sysMbxCmdGo m true).setFlag F.sysMbxStsBusy m true = w2
  have g2 : Frame [.sysMbxArg, .sysMbxCmd, .sysMbxSts] [.cmd] s w2 := hw2 ▸ (g1.setFlag (by decide)).setFlag (by decide)
  have c2 : w2.dev.cmd = s.dev.cmd := by
    rw [← hw2]; simp only [State.setFlag, State.setFld, setReg_cmd]; exact c1
  have b2 : w2.flag F.sysMbxStsBusy m = true := by rw [← hw2]; exact flag_setFlag_same _ _ (by decide) true
  have a2 : w2.reg .sysMbxArg = a.reg .sysMbxArg := by
    funext i
    rw [← hw2, ← a1, reg_setFlag_ne _ _ _ (by decide), reg_setFlag_ne _ _ _ (by decide)]
  generalize hw3 : w2.setFlag F.sysMbxStsDone m false = w
  have fw : Frame [.sysMbxArg, .sysMbxCmd, .sysMbxSts] [.cmd] s w := hw3 ▸ g2.setFlag (by decide)
  have cw : w.dev.cmd = s.dev.cmd := by
    rw [← hw3]; simp only [State.setFlag, State.setFld, setReg_cmd]; exact c2
  have bw : w.fld F.sysMbxStsBusy m = 1 := by
    rw [← hw3, State.setFlag, fld_setFld_ne _ _ (by decide) (by decide) (Or.inr (Or.inr (Or.inl (by decide))))]
    exact (flag_iff _ _ _).1 b2
  have dw : w.fld F.sysMbxStsDone m = 0 := by rw [← hw3]; exact fld_setFlag_same _ _ (by decide) false
  have aw : w.reg .sysMbxArg = a.reg .sysMbxArg := by
    funext i
    rw [← hw3, ← a2, reg_setFlag_ne _ _ _ (by decide)]
  rw [pump_one _ ⟨m, tag.toNat, op, _⟩ (by simp only [State.onCmd, onDev_dev, cw, h1, List.nil_append]; rfl)
    (by simp only [State.onCmd, onDev_dev, cw, h2]) (by simp only [State.onCmd, onDev_sys, fw.sys, hh])]
  have key : ∀ (f : CmdSt → CmdSt) (g : CmdSt → CmdSt) (j : Nat),
      (((w.onCmd f).onCmd g).setFlag F.sysMbxCmdGo j false).reg .sysMbxArg = a.reg .sysMbxArg := by
    intro f g j
    funext i
    rw [← aw, reg_setFlag_ne _ _ _ (by decide)]
    rw [reg_onCmd, reg_onCmd]
  refine ⟨_, _, rfl, rfl, rfl, rfl, ?_, ?_, ?_, ?_, ?_, ?_, ?_, ?_⟩
  · simp only [key]
  · refine (key _ _ _).trans ?_
    funext i
    rw [← ha]
    exact reg_takeDev _ _ _ _
  · exact Frame.setFlag (Frame.onCmd (Frame.onCmd fw (by decide)) (by decide)) (by decide)
  · simp only [State.onCmd, State.setFlag, State.setFld, setReg_cmd, onDev_dev, cw, h2]
  · simp only [State.onCmd, State.setFlag, State.setFld, setReg_cmd, onDev_dev]
  · intro hm
    simp only [State.onCmd, State.setFlag, State.setFld, setReg_cmd, onDev_dev, hm, if_true]
  · rw [flag_iff, ← bw, State.fld, reg_setFlag_ne _ _ _ (by decide)]
    rw [reg_onCmd, reg_onCmd]
    rfl
  · rw [← dw, State.fld, reg_setFlag_ne _ _ _ (by decide)]
    rw [reg_onCmd, reg_onCmd]
    rfl

/-! Transitions. -/

theorem Frame.reportState {o : OpState} (h : Frame R P s t) (hR : changeRegs ⊆ R := by decide)
    (hP : ringParts ⊆ P := by decide) : Frame R P s (t.reportState o) := by
  unfold State.reportState
  dsimp only
  refine Frame.ite (fun _ => h) (fun _ => ?_)
  generalize t.sysWord = w
  have h1 : Frame R P s (t.onDev fun d => { d with acq := { d.acq with src := smPut {} d.acq.src 0x300 ⟨w, 0x12, false⟩ } }) :=
    h.onDev (fun _ => rfl) (fun d p n => by cases p <;> first | rfl | exact absurd (hP (by decide)) n)
  refine Frame.ite (fun _ => Frame.foldl _ h1 (fun u b hu => ?_)) (fun _ => h1)
  exact Frame.ite (fun _ => hu.offerChange hR hP) (fun _ => hu)

theorem Frame.stopGaps {o : OpState} (h : Frame R P s t) (hR : ringRegs ⊆ R := by decide)
    (hP : ringParts ⊆ P := by decide) : Frame R P s (t.stopGaps o) :=
  Frame.foldl _ h fun _ _ hu => Frame.ite (fun _ => Frame.ite (fun _ => hu.stopGap hR hP) (fun _ => hu)) (fun _ => hu)

/-- A transition names the new state, the old one, and its cause where it has one (R39, R55). -/
theorem enter_sys (s : State) (n : OpState) (c : Option Nat) :
    (s.enter n c).sys = { s.sys with op := n, prev := s.sys.op, cause := c.getD s.sys.cause } := by
  unfold State.enter; dsimp only; rw [takeDev_sys]; split
  · simp only [keepCmd_sys, inDev_sys]
  · rfl

theorem enter_saf (s : State) (n : OpState) (c : Option Nat) : (s.enter n c).saf = s.saf := by
  unfold State.enter; dsimp only; rw [takeDev_saf]; split
  · simp only [keepCmd_saf, inDev_saf]
  · rfl

theorem enter_fuse (s : State) (n : OpState) (c : Option Nat) : (s.enter n c).fuse = s.fuse := by
  unfold State.enter; dsimp only; rw [takeDev_fuse]; split
  · simp only [keepCmd_fuse, inDev_fuse]
  · rfl

/-- A transition leaves the waiting commands; the one executing ends where SAFE_HOLD or FAULT is entered (R47). -/
theorem enter_cmd (s : State) (n : OpState) (c : Option Nat) :
    (s.enter n c).dev.cmd.queue = s.dev.cmd.queue
      ∧ (s.enter n c).dev.cmd.running = (if n = .safeHold ∨ n = .fault then none else s.dev.cmd.running) := by
  unfold State.enter
  dsimp only
  generalize h1 : (if s.sys.op = .run then s.keepCmd (inDev State.closeLines s) else s) = s1
  have c1 : s1.dev.cmd = s.dev.cmd := by
    rw [← h1]; split
    · exact keepCmd_cmd _ _
    · rfl
  generalize h2 : ({ s1 with sys := { s1.sys with op := n, prev := s.sys.op, cause := c.getD s1.sys.cause } } : State) = s2
  have c2 : s2.dev.cmd = s.dev.cmd := by rw [← h2]; exact c1
  generalize h3 : (s2.post 0 n.code).reportState s.sys.op = s3
  have f3 : Frame (postRegs ++ changeRegs) (postParts ++ ringParts) s2 s3 :=
    h3 ▸ ((Frame.refl _ _ _).post (by decide) (by decide)).reportState (by decide) (by decide)
  have c3 : s3.dev.cmd = s.dev.cmd := (f3.part .cmd (by decide)).trans c2
  rw [takeDev_dev, keepCmd_cmd]
  split
  · rw [(endRunning_cmd _ _).1, (endRunning_cmd _ _).2]
    have f4 : Frame ringRegs ringParts s3 (s3.stopGaps s.sys.op) := (Frame.refl _ _ _).stopGaps (by decide) (by decide)
    rw [(f4.part .cmd (by decide) : (s3.stopGaps s.sys.op).dev.cmd = s3.dev.cmd), c3]
    exact ⟨rfl, rfl⟩
  · rw [c3]; exact ⟨rfl, rfl⟩

/-- A reset leaves RESET with its cause and no HOLD bit; PREV names the state before it (R41, R433, R434). -/
theorem resetNow_sys (s : State) (cold : Bool) (source cause : Nat) :
    (s.resetNow cold source cause).sys = ⟨.reset, if s.sys.op = .off then .reset else s.sys.op, cause, false, false, false, false⟩ := by
  unfold State.resetNow; dsimp only; rw [takeDev_sys]

theorem resetNow_saf (s : State) (cold : Bool) (source cause : Nat) : (s.resetNow cold source cause).saf = s.saf := by
  unfold State.resetNow; dsimp only; rw [takeDev_saf]

theorem resetNow_fuse (s : State) (cold : Bool) (source cause : Nat) : (s.resetNow cold source cause).fuse = s.fuse := by
  unfold State.resetNow; dsimp only; rw [takeDev_fuse]

/-- What a cause of FAULT does to the operating state: nothing, or the note of a cause 0x23 found in RESET, or FAULT from a state
that R41 names. -/
theorem toFault_sys (s : State) (cause : Nat) :
    (s.toFault cause).sys = s.sys ∨ (s.sys.op = .reset ∧ (s.toFault cause).sys = { s.sys with found23 := true })
      ∨ (s.sys.op.faults cause = true ∧ (s.toFault cause).sys = { s.sys with op := .fault, prev := s.sys.op, cause := cause }) := by
  unfold State.toFault
  split
  · rename_i h; exact Or.inr (Or.inl ⟨h.1, rfl⟩)
  · split
    · rename_i h; exact Or.inr (Or.inr ⟨h, enter_sys _ _ _⟩)
    · exact Or.inl rfl

/-- A hold cause leads to SAFE_HOLD from READY and RUN, adds its bit in SAFE_HOLD, and does nothing elsewhere (R41, R42). -/
theorem hold_sys (s : State) (cause : Nat) :
    (s.hold cause).sys = (if s.sys.op = .ready ∨ s.sys.op = .run then
        { s.sys.setHold cause true with op := .safeHold, prev := (s.sys.setHold cause true).op, cause := cause }
      else if s.sys.op = .safeHold then s.sys.setHold cause true else s.sys) := by
  unfold State.hold
  split
  · exact enter_sys _ _ _
  · split
    · exact inDev_sys _ _
    · rfl

theorem setHold_op (y : Sys) (c : Nat) (b : Bool) : (y.setHold c b).op = y.op := by unfold Sys.setHold; split <;> rfl

theorem unhold_sys (s : State) (cause : Nat) : (s.unhold cause).sys = s.sys.setHold cause false := inDev_sys _ _

end Sys2Proof.Machine
end

