-- ==== Sys2Proof/Tests/Slice0.lean ====
section
/-! SUPPORT. Tests: for every statement with hypotheses a state and operands that meet them, clause by clause; an ill-formed
command for each check of WellFormed; the worked examples of the spec. -/
namespace Sys2Proof.Tests
open Sys2Proof.Machine

set_option Elab.async false

/-! Small states. -/

/-- A state with these fields set. -/
def put (s : State) (l : List (RegField × Nat × Nat)) : State := l.foldl (fun t p => t.setFld p.1 p.2.1 p.2.2) s

/-- The reset state in another operating state, every switched domain on, with these fields set. -/
def given (op : OpState) (l : List (RegField × Nat × Nat)) : State :=
  put ((List.range 5).foldl (fun t k => t.setReg .pwrDomSts k 0xFFFFFFFF)
    { State.reset with sys := { State.reset.sys with op := op } }) l

/-- No field here is an event's route or a stream's control. -/
def calm (l : List (RegField × Nat × Nat)) : Bool := l.all fun p => decide (p.1.reg ≠ .sysEvtRoute ∧ p.1.reg ≠ .acqStrCtl)

theorem put_reg (r : Reg) (i : Nat) : ∀ (l : List (RegField × Nat × Nat)) (s : State),
    (∀ p ∈ l, p.1.reg ≠ r) → (put s l).reg r i = s.reg r i
  | [], _, _ => rfl
  | p :: l, s, h => by
    have := put_reg r i l (s.setFld p.1 p.2.1 p.2.2) fun q hq => h q (List.mem_cons_of_mem _ hq)
    simp only [put, List.foldl_cons] at this ⊢
    rw [this, State.setFld, reg_setReg_ne]
    exact Or.inl (h p List.mem_cons_self)

theorem base_reg (op : OpState) (r : Reg) (i : Nat) (h : r ≠ .pwrDomSts) : (given op []).reg r i = (r.resetWord i).toNat := by
  have k : ∀ (s : State) (j v : Nat), (s.setReg .pwrDomSts j v).reg r i = s.reg r i :=
    fun s j v => reg_setReg_ne _ _ (Or.inl h.symm)
  simp only [given, put, List.foldl_nil, List.range, List.range.loop, List.foldl_cons, k]
  rfl

theorem given_reg (op : OpState) (l : List (RegField × Nat × Nat)) (r : Reg) (i : Nat) (h : r ≠ .pwrDomSts)
    (hl : ∀ p ∈ l, p.1.reg ≠ r) : (given op l).reg r i = (r.resetWord i).toNat := by
  rw [← base_reg op r i h]
  exact put_reg r i l _ hl

theorem given_quiet (op : OpState) (l : List (RegField × Nat × Nat)) (h : calm l = true) : (given op l).quiet := by
  have k : ∀ p ∈ l, p.1.reg ≠ .sysEvtRoute ∧ p.1.reg ≠ .acqStrCtl := by simpa [calm] using h
  have a : ∀ i, (given op l).reg .sysEvtRoute i = 0 := fun i => given_reg op l _ i (by decide) fun p hp => (k p hp).1
  have b : ∀ i, (given op l).reg .acqStrCtl i = 0 :=
    fun i => given_reg op l _ i (by decide) fun p hp => (k p hp).2
  refine ⟨fun e => ?_, fun n => ?_⟩
  · simp only [State.flag, State.fld, a]; decide
  · simp only [State.flag, State.fld, b]; decide

/-- What no event is routed and no stream is on says of the registers only. -/
theorem quiet_of_regs {s t : State} (h : t.dev.regs = s.dev.regs) (q : s.quiet) : t.quiet := by
  have r : ∀ r i, t.reg r i = s.reg r i := fun r i => by simp only [State.reg, h]
  unfold State.quiet State.unrouted State.flag State.fld at *
  simpa only [r] using q


/-! Every hypothesis of the statements is met together somewhere: `witness_X` meets those of `Obligations.X`, clause by clause. -/

theorem witness_Steps_front : (State.reset.withQueue [.nop 0 7]).pending = .nop 0 7 :: [] := by decide

theorem witness_Steps_idle : State.reset.pending = [] := by decide

theorem witness_OperatingStateInvariants_legal : State.reset.sys.legal ∧ ∃ t, step State.reset = .next t := ⟨by unfold Sys.legal; decide, _, rfl⟩

theorem witness_OperatingStateInvariants_holds : State.reset.sys.holdsInHold ∧ ∃ t, step State.reset = .next t :=
  ⟨by unfold Sys.holdsInHold; decide, _, rfl⟩

theorem witness_OperatingStateInvariants_fault : (given .fault []).sys.op = .fault ∧ ∃ t, step (given .fault []) = .next t := ⟨by decide, _, rfl⟩

theorem witness_FusesOnlyBurn : ∃ t, step State.reset = .next t := ⟨_, rfl⟩

theorem witness_CanonicalFormKept : Memory.wf State.reset.dev.mem = true ∧ risingKeys State.reset.dev.regs = true
    ∧ ∃ t, step State.reset = .next t := ⟨by decide, by decide, _, rfl⟩

theorem witness_LifeCycle : State.reset.fuse.lc ≤ 32 ∧ { State.reset.fuse with lc := 32 }.lc ≤ 32 ∧ ∃ t, step State.reset = .next t :=
  ⟨by decide, by decide, _, rfl⟩

theorem witness_UnassignedAddresses : 0x0FFFFFC < 0xC000000 ∧ regAt (0x0FFFFFC / 4 * 4) = none
    ∧ (0x30 : Nat) < 0xC000000 ∧ (Master.host ≠ .pair0 ∧ Master.host ≠ .pair1) := by decide

/-! Mailbox commands. -/

theorem free_ready (op : OpState) : (given op []).mailboxFree 0 ∧ (given op []).mailboxFree 1 := by
  unfold State.mailboxFree; cases op <;> decide

theorem witness_NopUnknownAndManagement_mailbox : (given .fault []).mailboxFree 1 ∧ (given .fault []).sys.op.held = false
    ∧ 0x10 < (0x11#8).toNat ∧ 0x10 < (0xFF#8).toNat := ⟨(free_ready _).2, by decide⟩

/-- A state whose dual-control slot 3 holds this request word. -/
def asking (op : OpState) (w : Nat) : State := (given op []).setReg .protDcBuf 3072 w

theorem witness_StateRefused : (asking .run 0x0101).mailboxFree 1 ∧ (asking .run 0x0101).sys.op.held = false
    ∧ [0x01, 0x02, 0x04, 0x05, 0x07, 0x0A, 0x0B, 0x0C, 0x0E].all (fun op => !legalIn op .run) = true
    ∧ [0x00, 0x03, 0x06, 0x08, 0x09, 0x0D, 0x0F, 0x10].all (fun op => [OpState.off, .verify, .stabled, .reset].any fun x =>
      !legalIn op x) = true
    ∧ [0x03, 0x06, 0x08, 0x09, 0x0D].all (fun op => !legalIn op .stabled) = true
    ∧ ((asking .run 0x0101).protReq 3).op = 1 ∧ ((asking .run 0x0105).protReq 3).op = 5 := by
  unfold State.mailboxFree; decide

theorem witness_OperatingStateCommands : (given .ready []).sys.op = .ready ∧ (given .run []).sys.op = .run
    ∧ (given .safeHold []).sys.op = .safeHold ∧ (given .safeHold []).sys.holdThermal = false ∧ (given .safeHold []).sys.holdDram = false
    ∧ { (given .safeHold []).sys with holdDram := true }.holdDram = true := by decide

/-- STABLED with a wake under way. -/
def waking : State := (given .stabled []).onDev fun d =>
  { d with cmd := { d.cmd with running := some (⟨1, 7, 5, []⟩, 9) }, rng := { d.rng with pll := { d.rng.pll with relock := false } } }

theorem witness_OperatingStateCommands_stable : (given .stabled []).sys.op = .stabled ∧ (given .stabled []).dev.cmd.running = none
    ∧ (given .stabled []).wakeStarted = false ∧ waking.dev.cmd.queue = [] ∧ waking.wakeStarted = true
    ∧ waking.dev.cmd.running = some (⟨1, 7, 5, []⟩, 9) ∧ waking.dev.cmd.reply = none := by decide

theorem witness_Resets : (given .off []).sys.op = .off ∧ (given .run []).sys.op ≠ .off ∧ (given .run []).sys.op.held = false
    ∧ ¬((1 : Fin 2) = 1 ∧ (given .run []).dev.boot.mgmtProt = true)
    ∧ ((given .run []).onBoot fun b => { b with mgmtProt := true }).dev.boot.mgmtProt = true := by decide

/-! Boot. -/

theorem witness_OverwriteAndInit : (given .reset []).dev.cmd.queue = [] ∧ (given .reset []).sys.op = .reset
    ∧ { State.reset with sys := { State.reset.sys with op := .init } }.calibrated = true
    ∧ (given .init []).sys.op = .init ∧ (given .init []).flag F.thmStsShutdown 0 = false
    ∧ (given .init []).calibrated = false ∧ (given .init [(F.thmStsShutdown, 0, 1)]).flag F.thmStsShutdown 0 = true
    ∧ (let s : State := put { State.reset with sys := { State.reset.sys with op := .init } } [(F.memCfgPop, 0, 1), (F.memChStsState, 0, 1)]
      s.calibrated = true ∧ 0 ∈ s.channels ∧ s.fld F.memChStsState 0 = 1) := by decide

/-- A directory entry for a section of zeros. -/
def entry (k off len : Nat) : List Byte := leBytes 4 k ++ leBytes 4 off ++ leBytes 4 len ++ leBytes 4 (crc32c (List.replicate len 0#8))

/-- A block of 1,024 bytes whose five required sections are zeros. -/
def block : List Byte :=
  leBytes 4 0x4B424C4B ++ leBytes 2 1 ++ leBytes 2 5 ++ leBytes 4 1024 ++ List.replicate 52 0#8 ++ entry 1 144 4 ++ entry 2 148 4
    ++ entry 7 152 64 ++ entry 8 216 64 ++ entry 0xFF 280 4 ++ List.replicate 880 0#8

/-- Its contents: DRAM channel 0 with 32 MiB of firmware region. -/
def blockBody : BlockBody := { device := { memCfg := 0x08001101 } }

theorem witness_BlockCopiesAndWipe :
    let s := given .blockLoad []
    let s1 := (s.setReg .sysOwnConflict0 0 0xFFFFFFFF).setReg .sysOwnConflict1 0 0
    s.dev.cmd.queue = [] ∧ s.sys.op = .blockLoad ∧ s.fuse.blockCode block = 0 ∧ (s1.content block blockBody).isLeft = true
      ∧ s.fuse.blockCode (block.take 1023) = 2 ∧ s.fuse.blockCode [] = 1 ∧ s.dev.boot.copy = 0
      ∧ (s.onBoot fun b => { b with copy := 1 }).dev.boot.copy ≠ 0 ∧ (given .wipe []).sys.op = .wipe := by decide +kernel

theorem witness_BlockCopiesAndWipe_unrouted : (given .wipe []).unrouted := (given_quiet _ _ (by decide)).1

/-- AWAIT_FIRMWARE with a fetch under way, from a server where `known` says so, one chunk of 4 asked for. -/
def fetching (known : Bool) : State := (given .awaitFw [(F.memCfgPop, 0, 1), (F.memCfgFwSize, 0, 1)]).onBoot fun b =>
  { b with fetching := true, bootPath := 2, server := if known then some 5 else none, offerLen := 4096, requested := [3] }

theorem witness_FirmwareFetched :
    (fetching false).duplicates 0 0 = false ∧ (fetching false).flag F.ethPortCtlFlushDown 0 = false
    ∧ (fetching false).fetches = true ∧ (fetching false).dev.boot.server = none
    ∧ (fetching true).dev.boot.server = some 5 ∧ (fetching true).dev.boot.requested.contains 3 = true
    ∧ (given .awaitFw []).fetches = false ∧ (fetching true).dev.boot.requested.contains 0 = false
    ∧ (4096 ≤ 4096 ∧ 4096 ≤ 2 ^ 24 ∧ 4096 ≤ (fetching false).fwSize)
    ∧ (fetching true).dev.boot.held.contains 3 = false ∧ 3072 < (fetching true).dev.boot.offerLen
    ∧ min 1024 ((fetching true).dev.boot.offerLen - 3072) = 1024 ∧ 2 < chunkCount 4096
    ∧ (fetching true).channels.any (fetching true).channelDead = false
    ∧ (fetching true).commitCheck 4096 0 = 0 ∧ (fetching true).commitCheck 4095 0 = 3
    ∧ ((fetching true).onBoot fun b => { b with bootPath := 1 }).commitCheck 4096 0 = 5 := by decide +kernel

/-! Causes of FAULT and SAFE_HOLD. -/

theorem witness_FaultAndHoldCauses : OpState.faults .run 0x21 = true ∧ OpState.faults .reset 0x21 = false ∧ OpState.faults .run 0x23 = true
    ∧ (given .reset []).sys.op = .reset ∧ OpState.faults .fault 0x23 = false ∧ OpState.faults .off 0x23 = false := by decide

/-- RUN with pair 0 in some record. -/
def paired (p : Pair) : State := (given .run []).onDev fun d => { d with fmk := { d.fmk with pair0 := p } }

theorem witness_LockstepPairs :
    ((paired { recovering := true }).corePair false).recovering = true ∧ (given .off []).sys.op = .off
    ∧ ((paired {}).corePair false).recovering = false ∧ ((paired {}).corePair false).unproven = false
    ∧ ((paired { unproven := true }).corePair false).unproven = true
    ∧ 4 ≤ (((paired { recoveries := [0, 0, 0, 0] }).corePair false).recoveries.filter fun t => decide (0 < t + 1000000000)).length
    ∧ OpState.faults .run 0x20 = true ∧ ((paired {}).corePair false).held = []
    ∧ ((paired { held := [(Reg.fmkLogTail.addr 0, 4, 0)] }).corePair false).held = [(Reg.fmkLogTail.addr 0, 4, 0)]
    ∧ refuseLinks (paired {}) ((paired {}).merged .fmkLogTail 0 0 none) .fmkLogTail 0 0 = none := by decide

/-- 64 sensors, the first at `hot` in 1/16 °C. -/
def raws (hot : BitVec 16) : List (BitVec 16) := hot :: List.replicate 63 hot

theorem witness_FaultAndHoldCauses_temperature : (raws 1999).length = 64 ∧ (raws 2000).length = 64 ∧ (given .off []).sys.op = .off
    ∧ (given .run []).sys.op = .run ∧ (given .init [(F.thmStsHot, 0, 1759)]).sfld F.thmStsHot 0 < 1760
    ∧ 1760 ≤ (given .init [(F.thmStsHot, 0, 1760)]).sfld F.thmStsHot 0 := by decide


/-! Streams, time, ownership, attestation, protection, management. -/

/-- READY with 4 GiB of DRAM and stream 63, of a class, on or off, with a ring of 64 KiB. -/
def streamed (cls on : Nat) : State := given .ready [(F.memCapCap, 0, 4096), (F.acqStrSizeSizeLog2, 63, 16), (F.acqStrWmLwm, 63, 1),
  (F.acqStrWmHwm, 63, 2), (F.acqStrCtlClass, 63, cls), (F.acqStrCtlOn, 63, on)]

/-- The same owned by feature 7, whose quota slot 5 has none left. -/
def quotaless (cls : Nat) : State := (put (streamed cls 0) [(F.dmaQuotaOwnFeature, 5, 7), (F.dmaQuotaQuota, 5, 0)]).onOwn fun o =>
  { o with owner := [(0x0800003F, 7)] }

theorem witness_StreamOnOff : (streamed 0 0).flag F.acqStrCtlOn 63 = false ∧ (streamed 0 0).streamLegal 63 = true
    ∧ (streamed 0 0).streamQuota 63 = true ∧ (streamed 0 0).fld F.acqStrCtlClass 63 = 0 ∧ (streamed 3 0).fld F.acqStrCtlClass 63 = 3
    ∧ (streamed 3 0).streamLegal 63 = true ∧ (streamed 3 1).flag F.acqStrCtlOn 63 = true
    ∧ (given .ready []).flag F.acqStrCtlOn 63 = false ∧ (given .ready []).streamLegal 63 = false
    ∧ 64 ≤ (64#32).toNat ∧ (63#32).toNat < 64
    ∧ (streamed 2 0).streamLegal 63 = true ∧ (streamed 2 0).fld F.acqStrCtlClass 63 = 2 ∧ (streamed 1 0).streamLegal 63 = true
    ∧ (given .run [(F.acqStrCtlClass, 63, 1)]).fld F.acqStrCtlClass 63 = 1
    ∧ (quotaless 0).streamLegal 63 = true
    ∧ (quotaless 0).streamQuota 63 = false
    ∧ ((streamed 0 1).stream 63).gaps = [] ∧ ((streamed 0 1).stream 63).pend = [] := by decide

/-- READY with this last error of the time base. -/
def erred (e : Option Int) (st : Nat) : State :=
  (given .ready [(F.timStsState, 0, st)]).onDev fun d => { d with time := { d.time with lastE := e } }

theorem witness_TimeAndOwners_step : (0x8000000000000000#64).toNat = 2 ^ 63 ∧ (0x8000000000000001#64).toNat ≠ 2 ^ 63
    ∧ (erred (some 100) 0).dev.time.lastE = some 100 ∧ (erred none 1).dev.time.lastE = none
    ∧ (erred (some 100) 0).fld F.timStsState 0 = 0 ∧ (erred none 1).fld F.timStsState 0 ≠ 0 := by decide

/-- READY with channel 767 in the pool of enabled feature 5 and owned by `who`. -/
def pooled (who : Nat) : State :=
  (given .ready []).onOwn fun _ => { owner := if who = 0xFFFF then [] else [(0x020002FF, who)], pool := [0x020002FF], enabled := [5] }

theorem witness_TimeAndOwners_claim : (resourceOk 0x020002FF && (pooled 0xFFFF).dev.own.enabled.contains 5) = true
    ∧ (resourceOk 0x02000300 && (pooled 0xFFFF).dev.own.enabled.contains 5) = false
    ∧ ((pooled 0xFFFF).dev.own.pool.contains 0x020002FF && decide ((pooled 0xFFFF).ownerOf 0x020002FF = 0xFFFF)
      && (resourceDomain 0x020002FF).all (pooled 0xFFFF).domainOn) = true
    ∧ ((pooled 5).dev.own.pool.contains 0x020002FF && decide ((pooled 5).ownerOf 0x020002FF = 0xFFFF)) = false
    ∧ (pooled 5).ownerOf 0x020002FF = 5 ∧ (pooled 0xFFFF).ownerOf 0x020002FF ≠ 5 := by decide

/-- A part with `lc` life-cycle fuses and these slots programmed. -/
def fused (op : OpState) (lc programmed : Nat) : State :=
  { given op [] with fuse := { State.reset.fuse with lc := lc, programmed := programmed } }

theorem witness_AttestReports : (fused .fault 1 0x300).inOp [.awaitFw, .init, .ready, .run, .safeHold, .fault] = true
    ∧ (fused .fault 1 0x300).fuse.state ≠ 0 ∧ (fused .fault 32 0x300).fuse.state ≠ 4 ∧ (fused .fault 0 0x300).fuse.state = 0
    ∧ { (fused .fault 5 0x300).fuse with ended := true }.state = 4 := by decide

/-- READY in BLANK, with a valid request in slot 3: word 0, and word 1 for a generation, of which 1 is in force. -/
def requesting (programmed w : Nat) : State :=
  (((fused .ready 0 programmed).setFlag F.protDcCtlValid 3 true).onBoot fun b => { b with protGen := 1 }).dcPut 3 0 [w, 1]

/-- The result of a request by mailbox 0. -/
def requestResult (s : State) : Nat := s.protResult ⟨0, 7, 0x0E, [3]⟩ (s.protReq 3)

theorem witness_ProtectionChanges :
    ((requesting 0x311 0x0101).protReq 3).op = 1 ∧ requestResult (requesting 0x311 0x0101) = 0
    ∧ ((requesting 0x300 0x0702).protReq 3).op = 2 ∧ requestResult (requesting 0x300 0x0702) = 0
    ∧ ((requesting 0x303 0x0003).protReq 3).op = 3 ∧ requestResult (requesting 0x303 0x0003) = 0
    ∧ ((requesting 0x300 0x0004).protReq 3).op = 4 ∧ requestResult (requesting 0x300 0x0004) = 0
    ∧ ((requesting 0x300 0x0205).protReq 3).op = 5 ∧ requestResult (requesting 0x300 0x0205) = 3
    ∧ requestResult (requesting 0x300 0x0101) = 3 ∧ 4 ≤ (4#32).toNat ∧ (3#32).toNat < 4 := by decide

/-- A part whose management block names VID 7, EtherType 0x88B5 and the address 1 in its last place. -/
def managed (busy : Nat) : State := given .run [(F.ethMgmtCfgVid, 0, 7), (F.ethMgmtCfgEtype, 0, 0x88B5), (F.ethMgmtLoMac, 7, 1),
  (F.sysMbxStsBusy, 1, busy)]

theorem witness_NopUnknownAndManagement_frame : (managed 0).fld F.ethMgmtCfgVid 0 = 7 ∧ (managed 0).fld F.ethMgmtCfgEtype 0 = 0x88B5
    ∧ leAt [1#8, 0#8] 0 1 = 1 ∧ leAt [1#8, 0#8] 1 1 = 0 ∧ (managed 0).mayManage 1 = true ∧ (managed 0).sys.op.held = false
    ∧ ((managed 0).dev.cmd.queue = [] ∧ (managed 0).dev.cmd.running = none ∧ (managed 0).flag F.sysMbxStsBusy 1 = false)
    ∧ (managed 1).flag F.sysMbxStsBusy 1 = true ∧ (managed 0).mayManage 2 = false := by decide

/-! The emitters. -/

/-- The same with another record of the PLL. -/
def withPll (s : State) (relock : Bool) (div : Nat) : State :=
  s.onDev fun d => { d with rng := { d.rng with pll := { d.rng.pll with relock := relock, div := div } } }

theorem witness_PllCommands : (given .ready []).reaches .host .emtPllCtl 0 ∧ (given .ready []).shadowGood = true
    ∧ (given .run []).reaches .host .emtPllCtl 0 ∧ (given .ready [(F.emtPllDivP, 0, 4), (F.emtPllDivM, 0, 160)]).shadowGood = true
    ∧ (given .ready [(F.emtPllDivP, 0, 3)]).shadowGood = false
    ∧ (given .ready [(F.emtPllStsApplyPend, 0, 1)]).flag F.emtPllStsApplyPend 0 = true
    ∧ (withPll (given .ready []) true 0).dev.rng.pll.div ≠ (given .ready []).reg .emtPllDiv 0
    ∧ (withPll (given .ready []) true 0).dev.rng.pll.relock = true ∧ (withPll (given .ready []) false 0).dev.rng.pll.relock = false
    ∧ (given .run [(F.emtPllStsLocked, 0, 1)]).flag F.emtPllStsLocked 0 = true
    ∧ (given .run [(F.emtPllStsLocked, 0, 0)]).flag F.emtPllStsLocked 0 = false
    ∧ (given .ready [(F.emtPllStsApplyPend, 0, 1)]).sys.op ≠ .run ∧ (given .ready [(F.emtPllStsApplyPend, 0, 1)]).shadowGood = true
    ∧ (withPll (given .ready [(F.emtPllStsApplyPend, 0, 1)]) false ((given .ready []).reg .emtPllDiv 0)).dev.rng.pll.div
      = (given .ready []).reg .emtPllDiv 0
    ∧ (given .ready []).flag F.emtPllStsApplyPend 0 = false
    ∧ ((given .ready []).clus 0).due = false ∧ ((given .ready []).clus 0).hits = [] := by
  unfold State.reaches; decide

/-- RUN, port 31 enabled and both permits given, with a record of the port. -/
def firing (p : PortSt) (l : List (RegField × Nat × Nat)) : State :=
  (withPll (given .run ([(F.emtPortCtlEn, 31, 1), (F.emtStsPermitA, 0, 1), (F.emtStsPermitB, 0, 1), (F.emtPllStsSafeClk, 0, 0)] ++ l))
    false 0x2801).setPort 31 p

/-- A shot drawn. -/
def shotDrawn (sampled blocked skip : Bool) : PortSt :=
  { drawn := some { k := 0, tNom := 100, offset := 0, phase := 0, sampled := sampled, blocked := blocked, skip := skip } }

theorem witness_ShotsFire : (firing {} []).sys.op = .run ∧ ((firing {} []).port 31).drawn = none
    ∧ ((firing (shotDrawn false false false) []).port 31).drawn = (shotDrawn false false false).drawn
    ∧ ((firing (shotDrawn false false false) []).port 31).joinAt ≤ 100
    ∧ (firing (shotDrawn false false false) []).flag F.emtPortCtlEn 31 = true
    ∧ (firing (shotDrawn false false false) []).withdrawCause 31 { k := 0, tNom := 100, offset := 0, phase := 0 } = 0
    ∧ (firing (shotDrawn false false false) [(F.emtPortStsSenseLost, 31, 1)]).withdrawCause 31 { k := 0, tNom := 100, offset := 0, phase := 0 } = 3
    ∧ (firing (shotDrawn false false false) [(F.emtStsPermitA, 0, 0)]).withdrawCause 31 { k := 0, tNom := 100, offset := 0, phase := 0 } = 1
    ∧ (firing {} [(F.emtStsPermitA, 0, 1)]).flag F.emtStsPermitA 0 = true ∧ (firing {} []).saf.a.emission = false
    ∧ (firing (shotDrawn false false true) []).flag F.emtPortCtlEn 31 = true
    ∧ (put (firing (shotDrawn false false false) []) [(F.emtPortCtlEn, 31, 0)]).flag F.emtPortCtlEn 31 = false
    ∧ 100 < ((firing { shotDrawn false false false with joinAt := 101 } []).port 31).joinAt
    ∧ ((firing (shotDrawn true true false) []).port 31).drawn = (shotDrawn true true false).drawn
    ∧ (firing (shotDrawn true false false) []).flag F.emtPllStsSafeClk 0 = false ∧ ((firing (shotDrawn true false false) []).port 31).noEngine = false
    ∧ (put (firing (shotDrawn true false false) []) [(F.emtPllStsSafeClk, 0, 1)]).flag F.emtPllStsSafeClk 0 = true
    ∧ ((firing { shotDrawn true false false with noEngine := true } []).port 31).noEngine = true := by decide

/-- A shot that fired and has no edge yet. -/
def shotFlying (fired edge resolved : Bool) : PortSt :=
  { cur := some { k := 0, tNom := 100, offset := 0, phase := 0, sampled := true, fired := fired, edge := edge, resolved := resolved } }

theorem witness_StartSenseAndGates : (firing {} []).domainOn 139 = true
    ∧ { State.reset with sys := { State.reset.sys with op := .stabled } }.domainOn 139 = false
    ∧ (firing (shotFlying true false false) [(F.emtPortSenseSenseMin, 31, 2), (F.emtPortSenseSenseMax, 31, 3)]).senseInWindow 31 256 = true
    ∧ (firing (shotFlying true false false) [(F.emtPortSenseSenseMin, 31, 2), (F.emtPortSenseSenseMax, 31, 3)]).senseInWindow 31 384 = true
    ∧ (firing (shotFlying true false false) [(F.emtPortSenseSenseMin, 31, 2), (F.emtPortSenseSenseMax, 31, 3)]).senseInWindow 31 385 = false
    ∧ ((firing (shotFlying true false false) []).port 31).cur = (shotFlying true false false).cur
    ∧ ((firing (shotFlying true true false) []).port 31).cur = (shotFlying true true false).cur
    ∧ ((firing {} []).port 31).cur = none
    ∧ (firing {} [(F.emtPortCtlSenseLostLimit, 31, 1)]).fld F.emtPortCtlSenseLostLimit 31 ≤ 0 + 1
    ∧ (firing {} []).flag F.emtPortStsSenseLost 31 = false
    ∧ (((firing {} []).setChan 767 { gateOpen := true }).chan 767).gateOpen = true
    ∧ ((firing {} []).chan 767).gateOpen = false
    ∧ ((firing (shotFlying true false false) []).engineFree (senseUnit 31) && !(firing (shotFlying true false false) []).flag F.emtPllStsSafeClk 0) = true
    ∧ ((firing (shotFlying true false false) []).setEngine (senseUnit 31) { busy := true }).engineFree (senseUnit 31) = false
    ∧ ((firing (shotFlying true false true) []).port 31).cur = (shotFlying true false true).cur
    ∧ ((firing (shotFlying false false false) []).port 31).cur = (shotFlying false false false).cur
    ∧ 0 + 1 < (firing {} [(F.emtPortCtlSenseLostLimit, 31, 2)]).fld F.emtPortCtlSenseLostLimit 31
    ∧ (firing {} []).awaiting 31 0 = [] ∧ ((firing {} []).clus 47).due = false ∧ (((firing {} []).setClus 47 { due := true }).clus 47).due = true := by decide

/-! Engines and hits. -/

/-- RUN with the record of an engine and of its cluster's shot. -/
def engaged (u : Nat) (e : Engine) (l : List (RegField × Nat × Nat)) : State := (given .run l).setEngine u e

theorem witness_EngineUpkeep : (given .run []).slotStarts 0 = false ∧ (given .run []).slotStarts 2035 = true
    ∧ (given .run []).unitWorks 2035 = true ∧ (given .run []).slotSkipped 2035 = false
    ∧ (engaged 2035 { busy := true } []).slotSkipped 2035 = true ∧ (engaged 2035 { busy := true } []).unitWorks 2035 = true
    ∧ (given .run []).unitWorks 1631 = true ∧ 64 ≤ ((engaged 1631 { aboveRun := 64 } []).engine 1631).aboveRun
    ∧ 64 ≤ ((engaged 1631 { belowRun := 64 } []).engine 1631).belowRun ∧ ((engaged 1631 { belowRun := 64 } []).engine 1631).aboveRun < 64
    ∧ (engaged 1631 { failed := true } []).unitWorks 1631 = false
    ∧ ¬(2000 ≤ 1631 ∧ 1631 < 2032 ∧ ((given .run []).engine 1631).busy = true) := by decide


/-! Hits, conversions, channel upkeep. -/

/-- A shot with its reference. -/
def shotCtx : ShotCtx := { k := 5, fireFix := 0, tRef := some 0, void := false }

/-- RUN with the written settings of channel 767 and cluster 47 in force, and their records. -/
def gated (k : ChanSt) (c : ClusterSt) (l : List (RegField × Nat × Nat)) : State :=
  ((given .run [(F.rcvChGateOpen, forceAt 767, 10), (F.rcvChGateClose, forceAt 767, 20),
    (F.rcvChCtlMask, forceAt 767, 0)]).setClus 47 c).setChan 767 k |> (put · l)

theorem witness_HitAdmission :
    let s := gated { gateOpen := true } { shot := some shotCtx } []
    let late := gated { gateOpen := true, lowUntil := 2 ^ 40 } { shot := some shotCtx } [];
    s.chanLive 767 = true ∧ (gated {} {} [(F.rcvChCtlMask, forceAt 767, 1)]).chanLive 767 = false
    ∧ (s.chan 767).lowUntil ≤ s.refInstant 47 + 512 * 1280 ∧ late.chanLive 767 = true
    ∧ ¬(late.chan 767).lowUntil ≤ late.refInstant 47 + 512 * 1280
    ∧ ((gated {} {} []).clus 47).shot = none ∧ (gated {} {} []).chanLive 767 = true
    ∧ (s.clus 47).shot = some shotCtx ∧ shotCtx.tRef = some 0 ∧ shotCtx.void = false ∧ s.gateValid 767 = true ∧ (s.clus 47).dark = false
    ∧ (decide (s.inForce F.rcvChGateOpen 767 ≤ 1280 / 128) && decide (1280 / 128 < s.inForce F.rcvChGateClose 767)
      && (s.chan 767).gateOpen) = true
    ∧ decide (2560 / 128 < s.inForce F.rcvChGateClose 767) = false
    ∧ 0 < (((s.refillChan 767).refillClus 47).chan 767).tokens ∧ (s.pickEngine 767).isSome = true
    ∧ 0 < (((s.refillChan 767).refillClus 47).clus 47).tokens
    ∧ (let r := gated { gateOpen := true, tokens := 0 } { shot := some shotCtx, tokens := 0 } []
      (((r.refillChan 767).refillClus 47).chan 767).tokens = 0 ∧ (((r.refillChan 767).refillClus 47).clus 47).tokens = 0)
    ∧ ((s.setEngine 1628 { busy := true }).setEngine 1629 { busy := true }).pickEngine 767 = none := by decide

/-- RUN with engine 1629 converting a hit of channel 767 whose first edge has coarse count `coarse`, its trailing edge at `trail`, for a
histogram numbered `hist`. -/
def converting (coinc coarse hist : Nat) (trail : Int) : State := ((given .run []).setEngine 1629
  { busy := true, conv := some { ch := 767, tRef := 0, shotId := 5, n := 9, buf := false, hist := hist, lowEff := 1, highEff := 2, coinc := coinc,
                                 coarse := coarse, trail := trail } }).setClus 47 { shot := some { shotCtx with n := 9 } }

/-- What a conversion gives: the histogram wanted, whether the code lies in it, and whether the width is at its limit. -/
def given' (s : State) : List (Nat × Bool × Bool) :=
  (s.convResult 1629 100).toList.map fun r => (r.1.hist, decide (r.2.1 / 128 < 8192), decide (4095 ≤ r.2.2.1))

theorem witness_ConversionsEnd : (given .run []).unitWorks 1629 = true
    ∧ (((given .run []).setEngine 1629 { failed := true }).unitWorks 1629) = false
    ∧ given' (converting 0 10 0 0) = [(0, true, false)] ∧ given' (converting 0 60000 0 0) = [(0, false, false)]
    ∧ given' (converting 0 10 0 (2 ^ 40)) = [(0, true, true)] ∧ given' (converting 0 10 1 0) = [(1, true, false)]
    ∧ (((converting 0 10 0 0).clus 47).buf false).no = 0 ∧ ((converting 0 10 0 0).clus 47).hits = []
    ∧ (((converting 0 10 0 0).clus 47).buf ((converting 0 10 0 0).accBuf 47)).no = 0
    ∧ given' (converting 0x80000000 10 0 0) = [(0, true, false)] ∧ bitOf 0x80000000 31 = true
    ∧ ((converting 0x80000000 10 0 0).clus 47).shot = some { shotCtx with n := 9 }
    ∧ (given .run [(F.rejClCoincCoincEn, forceAt 47, 1)]).inForceFlag F.rejClCoincCoincEn 47 = true
    ∧ ((given .run []).engine 2035).conv = none ∧ ((given .run []).engine 2035).busy = false ∧ (given .run []).samples 2035 = true
    ∧ (given .run []).samples 1629 = false ∧ ((given .run []).engine 1629).conv = none ∧ ((given .run []).engine 1629).busy = false
    ∧ (given .run []).bowOn 2035 = true ∧ ((given .run []).engine 2035).total < 2 ^ 20
    ∧ ((given .run []).setEngine 2035 { total := 2 ^ 20 - 1 }).unitWorks 2035 = true := by decide +kernel

/-- Port 3 with a shot that waits for the conversion of its first start-sense edge. -/
def sensing : State :=
  let x : PortShot := { k := 0, tNom := 100, offset := 0, phase := 0, sampled := true, fired := true, edge := true }
  ((given .run []).setPort 3 { missRun := 5, cur := some x }).setEngine (senseUnit 3) { busy := true }

theorem witness_ConversionsEnd_sense : sensing.unitWorks (senseUnit 3) = true ∧ (sensing.engine (senseUnit 3)).conv = none
    ∧ (sensing.engine (senseUnit 3)).busy = true ∧ ((sensing.port 3).cur.map fun x => (x.edge, x.resolved)) = some (true, false)
    ∧ sensing.awaiting 3 0 = [] := by decide

/-- RUN with an adaptive window of 1,024 shots that has ended on channel 767. -/
def adapting (count gate adapt : Nat) : State := gated { adaptShots := 1024, adaptCount := count, adaptGate := gate } {}
  [(F.rcvChCtlAdaptEn, forceAt 767, 1), (F.rejClAdaptAdaptWin, forceAt 47, 10), (F.rejClAdaptAdaptMax, forceAt 47, 8),
   (F.rejClAdaptRateHi, forceAt 47, 20), (F.rejClAdaptRateLo, forceAt 47, 10), (F.rejClAdaptStepUp, forceAt 47, 4),
   (F.rejChStatAdapt, 767, adapt)]

/-- Does the window end? -/
def windowEnds (s : State) : Bool :=
  s.adapting 767 && decide (2 ^ s.inForce F.rejClAdaptAdaptWin 47 ≤ (s.chan 767).adaptShots)

/-- Counts of a window's rate against its two limits. -/
def rates (s : State) : Nat × Nat × Nat := (s.inForce F.rejClAdaptRateHi 47 * (s.chan 767).adaptGate, (s.chan 767).adaptCount * 1000,
  s.inForce F.rejClAdaptRateLo 47 * (s.chan 767).adaptGate)

theorem witness_ChannelUpkeep : windowEnds (given .run []) = false ∧ windowEnds (adapting 21 1000 4) = true
    ∧ rates (adapting 21 1000 4) = (20000, 21000, 10000) ∧ rates (adapting 20 1000 4) = (20000, 20000, 10000)
    ∧ rates (adapting 9 1000 4) = (20000, 9000, 10000) ∧ ((adapting 0 0 4).chan 767).adaptGate = 0
    ∧ (adapting 21 1000 4).inForce F.rejClAdaptAdaptMax 47 ≤ (adapting 21 1000 4).fld F.rejChStatAdapt 767
      + (adapting 21 1000 4).inForce F.rejClAdaptStepUp 47
    ∧ (given .run []).domainOn 47 = true ∧ (given .run []).clusterOn 47 = true ∧ State.reset.domainOn 47 = false
    ∧ (given .run []).clusterPowered 47 = true ∧ State.reset.clusterPowered 47 = false ∧ State.reset.clusterOn 47 = false
    ∧ (gated { idle := true } {} [(F.tdcTileCtlTrimEn, 11, 1)]).probes 767 = true ∧ (gated {} {} [(F.tdcTileCtlTrimEn, 11, 1)]).probes 767 = false
    ∧ (given .ready [(F.tdcTileCtlTrimEn, 11, 1)]).probes 767 = true
    ∧ (given .run [(F.tdcTrimLowTrim, 767, 63)]).sfld F.tdcTrimLowTrim 767 = 63
    ∧ (given .run [(F.tdcTrimLowTrim, 767, 64)]).sfld F.tdcTrimLowTrim 767 = -64
    ∧ (given .run []).sys.op = .run ∧ (given .ready []).sys.op ≠ .run := by decide

theorem witness_WalkAndSnapshot : (given .run []).reaches .host .rcvTileCtl 11 ∧ (given .run []).reaches .host .felSnap 11
    ∧ (given .run []).flag F.rcvTileCtlWalkCommit 11 = false
    ∧ (given .run [(F.rcvTileCtlWalkCommit, 11, 1)]).flag F.rcvTileCtlWalkCommit 11 = true
    ∧ (((gated {} { inProgress := true } []).clus 47).inProgress && (gated {} { inProgress := true } []).clusterOn 47) = true
    ∧ ((gated {} {} []).clus 47).inProgress = false := by
  unfold State.reaches; decide

/-- 8,192 samples in every bin. -/
def evenBins : List (Nat × Nat) := (List.range 128).map (·, 8192)

/-- RUN with the utility engines' domain on and engine 11 enabled in a mode. -/
def measuring (mode : Nat) : State := given .run [(F.tdcUtilCtlEn, 11, 1), (F.tdcUtilCtlMode, 11, mode)]

theorem witness_TablesAndUtility : ((given .run []).engine 0).total < 2 ^ 20
    ∧ 2 ^ 20 ≤ (((given .run []).setEngine 0 { total := 2 ^ 20 }).engine 0).total ∧ ((given .run []).setEngine 0 { total := 2 ^ 20 }).unitWorks 0 = true
    ∧ rejectBow [] = true ∧ rejectBow evenBins = false ∧ 2 ≤ { rejRun := 2 : Engine }.rejRun
    ∧ ((given .run []).onDev fun d => { d with rng := { d.rng with runSlots := true } }).dev.rng.runSlots = true
    ∧ (given .run []).dev.rng.runSlots = false ∧ (given .run []).slotSkipped 31 = false
    ∧ ((given .run []).setEngine 31 { busy := true }).slotSkipped 31 = true
    ∧ [((31 : Fin 2112), (1 : Fin 320), (2 : Fin 320))].find? (fun p => p.1 = 31) = some (31, 1, 2)
    ∧ ((given .run []).domainOn 139 && (given .run []).flag F.tdcUtilCtlEn 11) = false
    ∧ ((measuring 0).domainOn 139 && (measuring 0).flag F.tdcUtilCtlEn 11 && !(measuring 0).flag F.tdcUtilStsFailed 11) = true
    ∧ (measuring 0).utilMode 11 = 0 ∧ (measuring 1).utilMode 11 = 1
    ∧ (given .run [(F.tdcUtilCtlEn, 3, 1), (F.tdcUtilCtlMode, 3, 2)]).utilMode 3 = 2
    ∧ (2#32).toNat = 2 ∧ (1#32).toNat < 2 ∧ (measuring 1).utilEdge 11 (2, 0) - (measuring 1).utilEdge 11 (1, 0) ≠ 0 := by decide +kernel

/-! Histograms, the schedule, bistatic sources. -/

/-- A cluster whose accumulating buffer holds `n` shots. -/
def filling (n : Nat) : ClusterSt := { buf0 := { delivered := n }, inProgress := decide (0 < n) }

theorem witness_HistogramsClose :
    let s := gated {} (filling 16) [(F.felClCtlShots, forceAt 47, 16)];
    s.sys.op = .run ∧ 0 < ((s.clus 47).buf (s.accBuf 47)).delivered
      ∧ s.inForce F.felClCtlShots 47 ≤ ((s.clus 47).buf (s.accBuf 47)).delivered ∧ s.anyGate 47 = false
      ∧ (gated { gateOpen := true } (filling 16) [(F.felClCtlShots, forceAt 47, 16)]).anyGate 47 = true
      ∧ ((gated {} (filling 15) [(F.felClCtlShots, forceAt 47, 16)]).clus 47).buf0.delivered < 16
      ∧ (((gated {} (filling 0) []).clus 47).buf (s.accBuf 47)).delivered = 0
      ∧ (s.tile 11).queue = [] ∧ ((s.setTile 11 { queue := [(47, 15)] }).tile 11).queue = [(47, 15)]
      ∧ ((s.setTile 11 { queue := [(47, 14), (46, 0)] }).tile 11).queue = [(47, 14), (46, 0)] := by decide

/-- RUN with the schedule's keeper running, `ns` after the start of frame 1 of 1 ms. -/
def scheduled (ns : Nat) (l : List (RegField × Nat × Nat)) : State :=
  (given .run ([(F.rejSchedStsRunning, 0, 1), (F.rejSchedCtlSchedEn, 0, 1), (F.rejSchedPeriodPeriod, 0, 1000000)] ++ l)).onDev fun d =>
    { d with time := { d.time with c := 1000000 + ns }, rng := { d.rng with sched := { shots := [(0, 1, true)] } } }

theorem witness_ScheduleKept : (scheduled 0 []).sys.op = .run ∧ (scheduled 0 []).flag F.rejSchedStsRunning 0 = true
    ∧ (given .run []).flag F.rejSchedStsRunning 0 = false ∧ (scheduled 0 []).tag256 - 256 * (scheduled 0 []).frameTag 1 = 0
    ∧ (scheduled 1 []).tag256 - 256 * (scheduled 1 []).frameTag 1 = 256
    ∧ (scheduled 2 [(F.rejSchedGuardTol, 0, 1)]).fld F.rejSchedGuardTol 0 * 256 < 512
    ∧ (given .ready []).sys.op ≠ .run ∧ (given .run []).dev.rng.sched.shots = []
    ∧ (scheduled 0 []).dev.rng.sched.shots ≠ []
    ∧ (scheduled 0 []).dev.rng.sched.nextStart + 1000000 ≤ (((scheduled 0 []).setPort 31 { tNom := 1000000 }).port 31).tNom
    ∧ ((scheduled 0 []).port 31).tNom < (scheduled 0 []).dev.rng.sched.nextStart + 1000000 := by decide

theorem witness_ScheduleKept_unrouted : (scheduled 1 []).unrouted :=
  (quiet_of_regs rfl (given_quiet .run ([(F.rejSchedStsRunning, 0, 1), (F.rejSchedCtlSchedEn, 0, 1),
    (F.rejSchedPeriodPeriod, 0, 1000000)] ++ []) (by decide))).1

/-- A port announced. -/
def announced : AnnPort := { port := 3, en := true, phaseEn := false, codeset := 0, span := 0, period := 20000, offset := 0 }

/-- RUN with bistatic source 7 naming port 3 of device 5, followed by cluster 47. -/
def listening (x : BiSt) : State := (given .run [(F.rejBiCtlEn, 7, 1), (F.rejBiCtlDevice, 7, 5), (F.rejBiCtlPort, 7, 3),
  (F.rejClBiBiEn, forceAt 47, 1), (F.rejClBiBiSrc, forceAt 47, 7), (F.rejSchedPeriodPeriod, 0, 1000000), (F.emtPllStsSafeClk, 0, 0)]).setSource 7 x

/-- An announcement of one port by frame 0, with or without the withdrawal mark. -/
def announcing (withdrawn : Nat) (port : Nat) : List Byte :=
  leBytes 8 0 ++ leBytes 1 1 ++ leBytes 1 withdrawn ++ leBytes 2 0 ++ leBytes 1 port ++ leBytes 1 1 ++ leBytes 2 0 ++ leBytes 4 20000
    ++ leBytes 4 0

theorem witness_BistaticSources : 7 ∈ (listening {}).sourcesOf 5 ∧ 7 ∉ (listening {}).sourcesOf 4
    ∧ bitOf (leAt (announcing 1 3) 9 1) 0 = true ∧ bitOf (leAt (announcing 0 3) 9 1) 0 = false
    ∧ ((List.range 1).map (annEntry (announcing 0 3))).find? (fun a => decide (a.port = 3)) = some announced
    ∧ ((List.range 1).map (annEntry (announcing 0 2))).find? (fun a => decide (a.port = 3)) = none
    ∧ ((listening { ann := some announced }).source 7).ann = some announced ∧ ((listening {}).source 7).ann = none
    ∧ (listening {}).sourceFrame { ann := some announced, k := 50 } announced 50 = 1
    ∧ 256 * (listening {}).frameTag 0 ≤ (listening {}).tag256 ∧ (listening {}).tag256 < 256 * (listening {}).frameTag 1
    ∧ (listening {}).sys.op = .run ∧ announced.en = true ∧ (listening {}).flag F.emtPllStsSafeClk 0 = false
    ∧ (listening { slips := [(1, 1)] }).source 7 ≠ {} ∧ (listening {}).clus 47 = {} ∧ (listening {}).histFull 47 = false
    ∧ ((listening {}).setClus 47 { skip := some 50 }).clus 47 = { skip := some 50 }
    ∧ 47 ∈ (listening {}).biFollowers 7 ∧ (listening {}).fld F.rejBiCtlPort 7 = 131 % 32
    ∧ leAt [1#8, 0#8, 0#8, 0#8, 0x83#8] 0 1 = 1 ∧ bitOf (leAt [1#8, 0#8, 0#8, 0#8, 0x83#8] 4 1) 7 = true
    ∧ bitOf (leAt [1#8, 0#8, 0#8, 0#8, 0x03#8] 4 1) 7 = false := by decide

/-! Loops and axes. -/

/-- READY with loop 31 enabled, regulating encoder position 3. -/
def looping (l : List (RegField × Nat × Nat)) : State := given .ready ([(F.loopCtlEn, 31, 1), (F.loopSrcFbKind, 31, 1),
  (F.loopSrcFbIdx, 31, 3), (F.loopOutMaxOutMax, 31, 100), (F.loopSchedPhase, 31, 1)] ++ l)

theorem witness_LoopSamples : (given .ready []).loopRuns 31 = false ∧ (looping []).loopRuns 31 = true
    ∧ (looping []).flag F.loopCtlGrpEn 31 = false ∧ (looping []).fld F.loopCtlRampMode 31 = 0 ∧ (looping []).flag F.loopCtlSpMode 31 = false
    ∧ (looping []).flag F.loopCtlNotch0En 31 = false ∧ (looping []).flag F.loopCtlNotch1En 31 = false
    ∧ (looping []).fld F.loopSrcFbKind 31 = 1 ∧ ((looping []).loop 31).held = false
    ∧ (((looping []).setLoop 31 { active := true, next := some 5 }).loop 31).next = some 5
    ∧ bitOf (0#32).toNat 7 = false ∧ bitOf (0#32).toNat 31 = false ∧ inRanges .loopSched 0x00400040 = true
    ∧ ((looping []).merged .loopSched 31 0x00400040 none).phasesOk 31 = false := by decide

theorem witness_LoopSamples_writes : (looping []).reaches .host .loopSched 31 ∧ (looping []).takes .loopSched 31 0x001F0040
    ∧ (looping []).reaches .host .loopCtl 31 ∧ (given .ready []).takes .loopCtl 31 0 ∧ (given .ready []).takes .loopCtl 31 (withBit 0 7)
    ∧ (looping []).reaches .boot .loopSched 31 ∧ (looping []).setLocked .loopSched 31 = false
    ∧ (looping []).ownerStops ((looping []).merged .loopSched 31 0x00400040 none) .loopSched 31 = none := by
  unfold State.reaches State.takes; decide +kernel

theorem witness_AxisInputs : (given .run []).flag F.odoSrcKind 0 = false ∧ quadStep false false true true = none
    ∧ quadStep false false false false = some 0 ∧ quadStep false false true false ≠ some 0
    ∧ (given .run [(F.loopSaxCprCpr, 3, 4096)]).fld F.loopSaxCprIndexTol 3 <
      min ((2048 : Int) % 4096).toNat (4096 - ((2048 : Int) % 4096).toNat)
    ∧ (given .run [(F.loopSaxCtlMode, 3, 1)]).fld F.loopSaxCtlMode 3 = 1 ∧ (7 : Fin 8) = 7 := by decide


/-! Imaging and motion. -/

/-- A state whose bank 11 holds this capture, in an operating state. -/
def banked (op : OpState) (x : BankSt) (l : List (RegField × Nat × Nat)) : State := (given op l).setBank 11 x

/-- READY or RUN with bank 11's one illuminator, port 11, carrying current. -/
def lamped (op : OpState) : State := ((banked op {} [(F.linBankIllIllMask, 11, 0x800), (F.linIllCtlImax, 11, 100),
  (F.linBankWrefWrefEn, 11, 1)]).onDev fun d => { d with lin := { d.lin with ills := [(11, { u := some 50 })] } })

theorem witness_CapturesAndShading : (given .ready []).reaches .host .linBankCap 11
    ∧ (given .ready []).takes .linBankCap 11 (withBit 0x04000000 31) ∧ (given .ready []).flag F.linBankStsCapBusy 11 = false
    ∧ inRanges .linBankCap (withBit 0x04000000 31) = true ∧ (given .run []).sys.op ≠ .ready
    ∧ (given .run []).reaches .host .linShade 147455
    ∧ (given .run []).shadeAccepts 23 = true ∧ (given .ready []).shadeAccepts 23 = true
    ∧ (given .run [(F.linShadeStgHeld, 0, 1), (F.linShadeStgOwner, 0, 22)]).shadeAccepts 23 = false
    ∧ (given .run [(F.linShadeStgHeld, 0, 1)]).flag F.linShadeStgHeld 0 = true ∧ (given .run []).flag F.linShadeStgHeld 0 = false
    ∧ (given .run []).reaches .host .linShadeStg 0 := by
  unfold State.reaches State.takes; decide +kernel

theorem witness_CapturesAndShading_timer :
    let seg (left : Nat) := banked .ready { cap := some { white := true, left := left } } [(F.linSegCtlEn, forceAt 23, 1), (F.linSegCtlBank, forceAt 23, 11)]
    let bare (left : Nat) := banked .ready { cap := some { white := true, left := left } } [];
    ((seg 1).bank 11).cap = some { white := true, left := 1 } ∧ (seg 1).segmentsOf 11 ≠ [] ∧ (bare 1).segmentsOf 11 = []
    ∧ ((bare 2).bank 11).cap = some { white := true, left := 2 } ∧ ((bare 0).bank 11).cap = some { white := true, left := 0 }
    ∧ ((banked .ready {} []).bank 11).cap = none := by decide +kernel

theorem witness_LampsWatched :
    let q (n sum count : Nat) := banked .ready { count := n, sum := sum, means := List.replicate 10 (5, count) } [(F.linBankWrefWrefEn, 11, 1)];
    (banked .ready { count := 2 } []).flag F.linBankWrefWrefEn 11 = false ∧ ((q 0 0 1).bank 11).count = 0
    ∧ (q 2 10 1).flag F.linBankWrefWrefEn 11 = true ∧ 0 < ((q 2 10 1).bank 11).count ∧ ((q 2 10 1).bank 11).means[9]? = some (5, 1)
    ∧ ((lamped .ready).inOp [.init, .ready] && (lamped .ready).flag F.linBankWrefWrefEn 11 && (lamped .ready).lampsOn 11
      && !(lamped .ready).flag F.linBankStsCapBusy 11) = true
    ∧ (lamped .run).inOp [.init, .ready] = false := by decide +kernel

/-- A line of index 5 whose segment 23 waits, reads out, or is done. -/
def oneLine (kind : Nat) (waits reads : List Nat) : Line :=
  { id := 4, kind := kind, bank := 0, idx := 5, grid := 500, pitch := 100, trig := 0, centre := 0, record := true, waits := waits, reads := reads }

/-- RUN at grid position `next` with a pitch of 100 µm, not at standstill, with lines on their way, a held trigger, a last one at 0. -/
def travelling (next : Int) (lines : List Line) (held : Option Int) (c : Nat) (l : List (RegField × Nat × Nat)) : State :=
  (given .run ([(F.odoPitchPitch, 0, 100), (F.odoStsStandstill, 0, 0)] ++ l)).onDev fun d =>
    { d with lin := { d.lin with lines := lines, held := held, lastTrig := some 0 }, time := { d.time with c := c }
             odo := { d.odo with next := next } }

/-- With segment 23 enabled, its clock running or not. -/
def clocked (on : Bool) (next : Int) (held : Option Int) (c : Nat) (l : List (RegField × Nat × Nat)) : State :=
  (travelling next [] held c ([(F.linSegCtlEn, forceAt 23, 1), (F.linSegPixActPix, forceAt 23, 100)] ++ l)).onDev fun d =>
    { d with rng := { d.rng with pll := { d.rng.pll with outs := [if on then 0x80000028 else 0x28, 0, 0, 0] } } }

theorem witness_LinesTriggered :
    let s := clocked true 0 none (2 ^ 40) []
    let h := clocked true 0 (some 5) 0 [];
    (s.sys.op = .run ∧ s.flag F.odoStsBackward 0 = false ∧ s.lineDue = true) ∧ (clocked true 1 none 0 []).lineDue = false
    ∧ (travelling 0 [] none 0 [(F.odoStsStandstill, 0, 1)]).lineDue = false
    ∧ (clocked true 0 none 0 [(F.odoStsBackward, 0, 1)]).flag F.odoStsBackward 0 = true
    ∧ (clocked true 0 none 0 [(F.odoStsOverspeed, 0, 1)]).lineDue = true ∧ (clocked true 0 none 0 [(F.odoStsOverspeed, 0, 1)]).gapRule = true
    ∧ s.gapRule = false ∧ (clocked false 0 none 0 []).lineDue = true ∧ (clocked false 0 none 0 []).noClock = true ∧ s.noClock = false
    ∧ s.dev.lin.held = none ∧ s.dev.lin.lastTrig = some 0 ∧ s.tmin ≤ 2 ^ 40 ∧ 0 < (clocked true 0 none 0 []).tmin
    ∧ h.dev.lin.held = some 5 ∧ h.lineDue = true ∧ h.gapRule = false ∧ h.noClock = false
    ∧ (clocked true 0 (some 5) 0 [(F.odoStsOverspeed, 0, 1)]).gapRule = true ∧ (clocked false 0 (some 5) 0 []).noClock = true
    ∧ s.segments = [23] := by decide +kernel

theorem witness_LinesTriggered_pulse :
    let s := travelling 0 [oneLine 0 [23] []] none 0 [(F.linSegCtlEn, forceAt 23, 1)];
    (s.inOp [.init, .ready, .run] && s.inForceFlag F.linSegCtlEn 23) = true
    ∧ s.dev.lin.lines.find? (·.waits.contains 23) = some (oneLine 0 [23] [])
    ∧ (travelling 0 [] none 0 []).inForceFlag F.linSegCtlEn 23 = false := by decide +kernel

theorem witness_LinesRead :
    let s (k : Nat) := travelling 0 [oneLine k [] [23]] none 0 []
    let out (op : OpState) (n : Nat) : State := { (travelling 0 [oneLine 0 [] []] none 0 []).onDev fun d =>
      { d with lin := { d.lin with fifo := List.replicate n (oneLine 0 [] [], []) } } with sys := { State.reset.sys with op := op } }
    let whole (l : Line) : Bool := decide (l.kind = 0) && l.waits.isEmpty && l.reads.isEmpty;
    (∀ l ∈ (travelling 0 [oneLine 0 [23] []] none 0 []).dev.lin.lines, 23 ∉ l.reads)
    ∧ (s 0).dev.lin.lines.find? (·.reads.contains 23) = some (oneLine 0 [] [23])
    ∧ (s 1).dev.lin.lines.find? (·.reads.contains 23) = some (oneLine 1 [] [23])
    ∧ (s 2).dev.lin.lines.find? (·.reads.contains 23) = some (oneLine 2 [] [23])
    ∧ (s 0).dev.lin.lines.find? whole = none ∧ (out .run 0).dev.lin.lines.find? whole = some (oneLine 0 [] [])
    ∧ (∀ k ∈ (out .run 0).dev.lin.lines, k.id = 4 → k = oneLine 0 [] [])
    ∧ ((out .run 0).sys.op = .run ∧ (oneLine 0 [] []).prime = false ∧ (oneLine 0 [] []).dropped = false ∧ (oneLine 0 [] []).record = true)
    ∧ (out .run 7).dev.lin.fifo.length < 8 ∧ 8 ≤ (out .run 8).dev.lin.fifo.length ∧ (out .run 0).dev.lin.fifo = []
    ∧ (out .run 0).dev.odo.high = none ∧ (out .run 0).inForceFlag F.linAsmCtlPolicy 0 = false ∧ (out .run 0).flag F.linAsmCtlPolicy 0 = false
    ∧ (out .run 0).flag F.odoStsStall 0 = false ∧ (out .run 0).lineStream = none ∧ (out .ready 0).sys.op ≠ .run := by decide +kernel

/-- A state whose odometry inputs 0 and 3 have moved. -/
def moved (da db : Int) (l : List (RegField × Nat × Nat)) : State := (given .ready l).onDev fun d =>
  { d with odo := { d.odo with ins := [(0, { moved := da }), (3, { moved := db })] } }

theorem witness_MotionInputs : (given .ready [(F.odoInCtlEn, 3, 0)]).flag F.odoInCtlEn 3 = false
    ∧ (given .ready [(F.odoInCtlEn, 3, 1)]).flag F.odoInCtlEn 3 = true ∧ (given .ready [(F.odoInCtlEn, 3, 1)]).flag F.odoInCtlMode 3 = false
    ∧ (given .ready [(F.odoInCtlEn, 3, 1)]).fld F.odoInCtlPresc 3 = 0 ∧ (given .ready [(F.odoInCtlEn, 3, 1)]).flag F.odoInCtlDirInv 3 = false
    ∧ quadStep false false true false ≠ none ∧ ((given .ready []).odoIn 3).rest = 0 ∧ ((given .ready []).odoIn 3).lastAt = none
    ∧ (given .ready [(F.odoSrcPrim, 0, 3)]).flag F.odoSrcKind 0 = false ∧ (given .ready [(F.odoSrcPrim, 0, 3)]).fld F.odoSrcPrim 0 = 3
    ∧ (let s := moved (100000 * 65536) 0 [(F.odoSrcChkEn, 0, 1), (F.odoSrcPrim, 0, 0), (F.odoSrcChk, 0, 3), (F.odoSrcDisPct, 0, 10)];
      s.flag F.odoSrcChkEn 0 = true ∧ (s.odoIn 0).moved = 100000 * 65536 ∧ (s.odoIn 3).moved = 0
        ∧ 100000 * 65536 * s.fld F.odoSrcDisPct 0 < 1000 * (100000 * 65536) ∧ s.flag F.odoStsSlip 0 = false) := by decide

/-! The DMA engine, queues and streams. -/

/-- READY with 4 GiB of DRAM, all quota, chain 4095 with a record and STATE, enabled or not. -/
def chained (x : Chain) (st en : Nat) (l : List (RegField × Nat × Nat)) : State := (given .ready ([(F.memCapCap, 0, 4096), (F.dmaQStsState, 4095, st),
  (F.dmaQCtlEn, 4095, en), (F.dmaQuotaQuota, 0, 1000), (F.dmaCqCtlEn, 0, 1)] ++ l)).setChain 4095 x

/-- The 32 bytes of a descriptor that copies 64 bytes from 0x1000 to general SRAM. -/
def descBytes (eoc : Nat) : List Byte := leBytes 8 0x2000 ++ leBytes 8 0x1000 ++ leBytes 8 sramBase ++ leBytes 3 64 ++ leBytes 3 eoc ++ leBytes 2 0

/-- The same written at a host address. -/
def hostAddr : Nat := 0x8000000000000000

theorem witness_ChainsRun : (chained {} 0 0 []).reaches .host .dmaQDb 4095 ∧ (chained {} 0 0 []).flag F.dmaQCtlEn 4095 = false
    ∧ (chained {} 0 1 []).flag F.dmaQCtlEn 4095 = true ∧ (chained {} 0 1 []).fld F.dmaQStsState 4095 = 0
    ∧ (chained {} 1 1 []).fld F.dmaQStsState 4095 = 1 ∧ (chained {} 2 1 []).fld F.dmaQStsState 4095 = 2
    ∧ (chained {} 3 1 []).fld F.dmaQStsState 4095 = 3 ∧ ((chained { newHead := true } 3 1 []).chain 4095).newHead = true
    ∧ ((chained {} 3 1 []).chain 4095).newHead = false ∧ (chained {} 3 1 [(F.dmaQStsHaltCause, 4095, 6)]).fld F.dmaQStsHaltCause 4095 = 6
    ∧ (chained {} 3 1 [(F.dmaQStsHaltCause, 4095, 7)]).fld F.dmaQStsHaltCause 4095 = 7
    ∧ (chained {} 3 1 [(F.dmaQStsHaltCause, 4095, 1)]).fld F.dmaQStsHaltCause 4095 = 1
    ∧ ((chained { lastEoc := true } 3 1 []).chain 4095).lastEoc = true ∧ ((chained { lastEoc := false } 3 1 []).chain 4095).lastEoc = false
    ∧ ((chained { lastEoc := true } 3 1 []).chain 4095).stopping = false ∧ ((chained { lastEoc := false } 3 1 []).chain 4095).works = []
    ∧ (chained {} 0 0 []).reaches .host .dmaQCtl 4095
    ∧ ((chained {} 0 0 []).onOwn fun o => { o with owner := [(0x07000FFF, 5)] }).takes .dmaQCtl 4095 0x80000000
    ∧ (chained {} 1 1 []).takes .dmaQCtl 4095 0 ∧ bitOf 0 31 = false
    ∧ (chained {} 0 0 []).reaches .host .dmaQHeadLo 4095 ∧ (chained {} 0 0 []).reaches .host .dmaQHeadHi 4095 := by
  unfold State.reaches State.takes; decide +kernel

/-- Chain 4095 running with a descriptor to fetch, or its tail to read again. -/
def fetching' (a : Nat) : State := chained { fetch := some a } 1 1 []
/-- The tail at this address. -/
def rereading (a pend : Nat) : State := chained { reread := true, lastDone := a } 1 1 [(F.dmaQStsDbPend, 4095, pend)]

theorem witness_ChainsRun_fetch :
    let s := fetching' hostAddr;
    ((chained {} 1 1 []).chain 4095).fetch = none ∧ (s.chain 4095).fetch = some hostAddr
      ∧ (s.dmaRuns && s.quotaOpen 4095 && (s.chain 4095).waitCq.isNone) = true
      ∧ s.fetchBytes hostAddr 32 [] true = none ∧ hostAddr % 32 = 0 ∧ (hostAddr + 16) % 32 ≠ 0
      ∧ s.fetchBytes hostAddr 32 (descBytes 0) false = some (descBytes 0)
      ∧ s.flag F.dmaCqCtlEn (readDesc (descBytes 0)).cq = true ∧ s.descCheck (readDesc (descBytes 0)) = 0
      ∧ (given .fault []).dmaRuns = false := by decide +kernel

theorem witness_ChainsRun_tail :
    let s := rereading hostAddr 0;
    ((chained {} 1 1 []).chain 4095).reread = false ∧ (s.chain 4095).reread = true ∧ s.dmaRuns = true
      ∧ s.fetchBytes (hostAddr + 24) 8 [] true = none
      ∧ s.fetchBytes (hostAddr + 24) 8 ((descBytes 0).drop 24) false = some ((descBytes 0).drop 24)
      ∧ bitOf (leAt ((descBytes 0).drop 24) 3 1) 0 = false ∧ bitOf (leAt ((descBytes 1).drop 24) 3 1) 0 = true
      ∧ s.fetchBytes hostAddr 8 (descBytes 0) false = some ((descBytes 0).take 8)
      ∧ s.flag F.dmaQStsDbPend 4095 = false ∧ (rereading hostAddr 1).flag F.dmaQStsDbPend 4095 = true := by decide +kernel

/-- A tail in general SRAM whose bytes 24 to 31 read well and whose NEXT does not. -/
def halfBad : State := (rereading sramBase 0).onDev fun d => { d with poison := [sramBase] }

theorem witness_ChainsRun_next : halfBad.fetchBytes (sramBase + 24) 8 [] false = some (List.replicate 8 0#8)
    ∧ halfBad.fetchBytes sramBase 8 [] false = none := by decide +kernel

/-- The descriptor in work, its one segment in a state. -/
def working (st : SegSt) (src : Nat) : Chain :=
  { works := [{ addr := 0x4000, desc := { readDesc (descBytes 1) with src := src }, segs := [{ off := 0, len := 64, st := st, data := List.replicate 64 7#8 }] }] }

theorem witness_SegmentsMove : ((chained {} 1 1 []).chain 4095).findSeg 0 .reading = none
    ∧ (((chained (working .reading 0x1000) 1 1 []).chain 4095).findSeg 0 .reading).isSome = true
    ∧ (chained (working .reading 0x1000) 1 1 []).dmaRuns = true
    ∧ (chained (working .reading 0x1000) 1 1 []).localError { readDesc (descBytes 1) with src := 0x1000 } { off := 0, len := 64 } = 0
    ∧ (chained (working .reading 0x1000) 1 1 []).spanTarget 0x1000 64 = .dram
    ∧ (chained (working .reading 0x1000) 1 1 []).spanTarget sramBase 64 = .sram
    ∧ (chained (working .reading 0x1000) 1 1 []).spanTarget hostAddr 64 = .host
    ∧ (((chained (working .filled 0x1000) 1 1 []).chain 4095).findSeg 0 .filled).isSome = true
    ∧ (chained (working .filled 0x1000) 1 1 []).channels.any (chained (working .filled 0x1000) 1 1 []).channelDead = false
    ∧ (chained (working .filled 0x1000) 1 1 []).writeRefused sramBase 64 = false ∧ (readDesc (descBytes 1)).mode = 0
    ∧ (readDesc (descBytes 1)).dst = sramBase ∧ (readDesc (descBytes 1)).out = 64 ∧ (ethWindow sramBase).isNone = true
    ∧ (chained (working .filled 0x1000) 1 1 []).cqFull (readDesc (descBytes 1)).cq = false := by decide +kernel

/-- Two segments of 64 bytes, one behind the other, from one address to another. -/
def working2 (st0 st1 : SegSt) (src dst : Nat) : Chain :=
  { works := [{ addr := 0x4000, desc := { readDesc (descBytes 1) with src := src, dst := dst, len := 128 }
                segs := [{ off := 0, len := 64, st := st0, data := List.replicate 64 7#8 }, { off := 64, len := 64, st := st1, data := List.replicate 64 8#8 }] }] }

theorem witness_SegmentsMove_two :
    let s (a b : SegSt) (src dst : Nat) := chained (working2 a b src dst) 1 1 [(F.memCfgPop, 0, 1), (F.memCfgFwSize, 0, 1)]
    let seg (st : SegSt) (x : Option (DescWork × Seg)) : List (Nat × Nat × Nat) := x.toList.map fun p => (p.1.desc.len, p.2.off + p.2.len, b2n (decide (p.2.st = st)));
    seg .reading (((s .reading .reading 0x1000 sramBase).chain 4095).findSeg 0 .reading) = [(128, 64, 1)]
    ∧ seg .reading (((s .reading .reading 0x1000 sramBase).chain 4095).findSeg 64 .reading) = [(128, 128, 1)]
    ∧ (s .reading .reading 0x1000 sramBase).spanTarget 0x1000 128 = .dram ∧ (s .reading .reading hostAddr sramBase).spanTarget hostAddr 128 = .host
    ∧ (s .reading .reading 0x1000 sramBase).localError { readDesc (descBytes 1) with src := 0x1000 } { off := 0, len := 64 } = 0
    ∧ seg .filled (((s .filled .reading 0x1000 sramBase).chain 4095).findSeg 0 .filled) = [(128, 64, 1)]
    ∧ (s .filled .reading 0x1000 sramBase).spanTarget (sramBase + 64) 64 = .sram
    ∧ (s .filled .reading 0x1000 0x1000).writeRefused 0x1000 64 = true ∧ (s .filled .reading 0x1000 0x1000).spanTarget 0x1000 128 = .dram
    ∧ (s .filled .reading 0x1000 0x2000000).writeRefused 0x2000000 64 = false
    ∧ (s .filled .reading 0x1000 0x2000000).spanTarget 0x2000000 64 = .dram
    ∧ (s .reading .written 0x1000 sramBase).cqReachable 0 = true ∧ (s .reading .written 0x1000 sramBase).dmaRuns = true := by decide +kernel

/-- A stream as `streamed`, in another operating state, with these fields too. -/
def recording (l : List (RegField × Nat × Nat)) : State := given .run ([(F.memCapCap, 0, 4096), (F.acqStrSizeSizeLog2, 63, 16),
  (F.acqStrWmLwm, 63, 1), (F.acqStrWmHwm, 63, 2), (F.acqStrCtlOn, 63, 1)] ++ l)

theorem witness_RingsAndQueues :
    (let s := recording [(⟨.acqStrWr, 31, 0⟩, 63, 64)];
      s.reaches .host .acqStrRd 63 ∧ s.rdLegal 63 64 = true ∧ s.rdLegal 63 72 = false ∧ s.rdLegal 63 4 = false
      ∧ s.reaches .host .dmaCqRd 4095 ∧ s.cqRdLegal 4095 0 = true ∧ s.cqRdLegal 4095 1 = false
      ∧ s.reaches .host .dmaCqCtl 4095 ∧ s.takes .dmaCqCtl 4095 4 ∧ inRanges .dmaCqCtl 0x80000004 = true ∧ s.flag F.dmaCqCtlEn 4095 = false
      ∧ bitOf 0x80000004 31 = true ∧ s.pair .dmaCqBaseLo .dmaCqBaseHi 4095 < 2 ^ 35
      ∧ s.reaches .host .dmaQuota 63 ∧ s.takes .dmaQuota 63 0)
    ∧ (let s := (given .ready []).onOwn fun o => { o with owner := [(0x07001FFF, 5)] };
      s.ownerOf (0x07001000 + 4095) ≠ 0xFFFF ∧ s.overQuota (s.fld F.dmaCqCtlOwner 4095) ((16 * 2 ^ bitsOf 0x80000004 4 0 + 4095) / 4096) = true)
    ∧ (given .run []).cqPending 4095 = 0 ∧ ((given .run []).setCqPending 4095 1).cqPending 4095 ≠ 0 ∧ (given .run []).vectorMasked 2047 = true
    ∧ (given .run []).fld F.dmaCqCoalCoalUs 4095 = 0 ∧ ((given .run [(F.dmaCqCoalCoalUs, 4095, 5)]).setCqPending 4095 1).cqPending 4095 ≠ 0
    ∧ (given .run [(F.dmaCqCoalCoalUs, 4095, 5)]).fld F.dmaCqCoalCoalUs 4095 ≠ 0 := by
  unfold State.reaches State.takes; decide +kernel

/-- A measurement stream on its timer, with a newest result of slot 63 and a ring of 2^`size` bytes. -/
def metering (size : Nat) : State := (recording [(F.acqStrCtlClass, 63, 3), (F.acqStrCtlTimer, 63, 1), (⟨.acqStrSelHi, 31, 0⟩, 63, 0x80000000),
  (⟨.acqStrSelLo, 31, 0⟩, 63, 0), (F.acqStrSizeSizeLog2, 63, size)]).onDev fun d => { d with acq := { d.acq with newest := [(63, {})] } }

/-- A state stream with these sources and its refresh. -/
def refreshing (sel : Nat) : State := recording [(F.acqStrCtlClass, 63, 2), (F.acqStrCtlParam, 63, 1), (⟨.acqStrSelHi, 31, 0⟩, 63, 0),
  (⟨.acqStrSelLo, 31, 0⟩, 63, sel)]

theorem witness_StreamTimers : (given .run []).streamOn 63 3 = false ∧ (given .run []).streamOn 63 2 = false
    ∧ (metering 16).streamOn 63 3 = true ∧ (metering 16).flag F.acqStrCtlTimer 63 = true ∧ (metering 16).sys.op.records = true
    ∧ (metering 16).pair .acqStrSelLo .acqStrSelHi 63 = 2 ^ 63 ∧ (metering 16).dev.acq.newest = [(63, {})]
    ∧ (metering 16).fill 63 + 40 < (metering 16).ringSize 63 ∧ ((metering 16).stream 63).gaps = []
    ∧ (metering 5).ringSize 63 ≤ (metering 5).fill 63 + 40
    ∧ (refreshing 8).streamOn 63 2 = true ∧ 1 ≤ (refreshing 8).fld F.acqStrCtlParam 63
    ∧ (refreshing 8).pair .acqStrSelLo .acqStrSelHi 63 = 2 ^ 3 ∧ ((refreshing 8).stream 63).pend = [] ∧ ((refreshing 8).stream 63).gaps = []
    ∧ (refreshing 8).fill 63 + 40 < (refreshing 8).ringSize 63 := by decide +kernel


/-! Memory. -/

/-- RUN, or another state, with two DRAM channels in service, 256 MiB each, 32 MiB of firmware region. -/
def twoChannels (op : OpState) (l : List (RegField × Nat × Nat)) : State := given op ([(F.memCapCap, 0, 512), (F.memCfgPop, 0, 3),
  (F.memCfgFwSize, 0, 1), (F.memCfgGrainLog2, 0, 8), (F.memCfgRemapEn, 0, 1), (F.memChStsState, 0, 2), (F.memChStsState, 1, 2)] ++ l)

/-- Four channels, of which channel 3 in a state. -/
def fourChannels (st : Nat) : State := twoChannels .ready [(F.memCfgPop, 0, 15), (F.memChStsState, 2, 2), (F.memChStsState, 3, st)]

theorem witness_MemoryErrors :
    let s := twoChannels .run []
    let a := 64 * 524288
    (!s.inOp [.off, .reset, .stabled] && s.scrubbed 3 0) = true ∧ (!s.inOp [.off, .reset, .stabled] && s.scrubbed 0 60) = false
    ∧ s.fwSize = a ∧ a < s.dramCap ∧ s.dev.poison.contains a = false ∧ s.lostBurst 524288 = false ∧ s.servedBy a = 0
    ∧ s.channelUp 0 = true ∧ s.channelUp 1 = true ∧ s.channelUp 3 = false
    ∧ ((s.dram 0).ues.filter (·.1 ≠ a)).length < 3 ∧ 64 * 524287 < s.fwSize ∧ s.dev.poison.contains (mirrorBase + 64 * 524287) = false
    ∧ s.dramCap ≤ 64 * 8388608 ∧ s.inOp [.init, .ready, .run, .safeHold] = true ∧ 2 ≤ s.channels.length
    ∧ (twoChannels .fault []).inOp [.init, .ready, .run, .safeHold] = false
    ∧ 1024 ≤ 1023 + 1 ∧ 16 * 1024 < 10 * s.channels.length * 1023 ∧ ¬16 * 1024 < 10 * s.channels.length * 512 := by decide +kernel

theorem witness_ChannelsFail :
    let s := twoChannels .ready []
    let g := (twoChannels .ready [(F.memChStsState, 1, 4)]).setDram 1 { flipped := 5 }
    s.migrateOk 1 = true ∧ (s.dram 1).degraded = false ∧ (twoChannels .ready [(F.memCfgRemapEn, 0, 0)]).migrateOk 1 = false
    ∧ (s.inOp [.ready, .run, .safeHold] && s.channelUp 1) = true ∧ (s.inOp [.ready, .run, .safeHold] && s.channelUp 3) = false
    ∧ s.fld F.memChStsState 1 = 2 ∧ s.reserveFree 1 = true ∧ g.fld F.memChStsState 1 = 4 ∧ (g.dram 1).flipped + 1 < g.grains
    ∧ s.grains ≤ ((s.setDram 1 { flipped := s.grains - 1 }).dram 1).flipped + 1
    ∧ 3 ∈ (fourChannels 2).channels ∧ (fourChannels 2).fld F.memChStsState 3 = 2 ∧ (fourChannels 6).fld F.memChStsState 3 = 6
    ∧ ((fourChannels 2).inOp [.ready, .run, .safeHold] && (fourChannels 2).channelUp 3) = true
    ∧ 0 ∈ s.channels ∧ s.fwCopy 1 = true ∧ (twoChannels .ready [(F.memCfgRemapEn, 0, 0)]).reserveFree 0 = false := by decide +kernel

theorem witness_ChannelsFail_reaches : (twoChannels .ready []).reaches .host .memChCtl 3 := by unfold State.reaches; decide

/-! Links. -/

/-- READY with link 3, or another, in a role and a state, its record, and these fields. -/
def linked (n role st : Nat) (x : LinkSt) (l : List (RegField × Nat × Nat)) : State :=
  (given .ready ([(F.lnkCtlRole, n, role), (F.lnkStsState, n, st)] ++ l)).setLink n x

theorem witness_LinksTrain_quiet : (linked 3 3 4 {} []).quiet := by
  refine quiet_of_regs rfl (given_quiet .ready ([(F.lnkCtlRole, 3, 3), (F.lnkStsState, 3, 4)] ++ []) (by decide))

theorem witness_LinksTrain : ((List.range 4).filter fun j => bitOf 0b0111 j && !(linked 3 3 1 {} []).flag F.lnkLaneStsFailed (12 + j)).length = 3
    ∧ ((List.range 4).filter fun j => bitOf 0b0011 j && !(linked 3 3 1 {} []).flag F.lnkLaneStsFailed (12 + j)).length = 2
    ∧ (linked 3 3 1 {} []).fld F.lnkStsState 3 = 1 ∧ (linked 3 3 5 {} []).fld F.lnkStsState 3 = 5 ∧ (linked 3 3 6 {} []).fld F.lnkStsState 3 = 6
    ∧ (linked 3 3 1 {} []).fld F.fmkMapMiscLinks 0 = 0
    ∧ ((List.range 3).filter fun j => bitOf 0b0111 (laneOf ((linked 3 3 3 {} []).fld F.lnkMapRxMap 3) j)).length = 3
    ∧ ((List.range 3).filter fun j => bitOf 0b0011 (laneOf ((linked 3 3 3 {} []).fld F.lnkMapRxMap 3) j)).length = 2
    ∧ ((List.range 3).filter fun j => bitOf 0b0001 (laneOf ((linked 3 3 3 {} []).fld F.lnkMapRxMap 3) j)).length = 1
    ∧ ((linked 3 3 3 { alignSeen := 1 } []).link 3).alignSeen ≠ 0 ∧ ((linked 3 3 3 {} []).link 3).alignSeen = 0
    ∧ ((linked 3 3 4 { rxSpare := some 2 } []).link 3).rxSpare = some 2 ∧ (2#8).toNat = 2 ∧ ((linked 3 3 4 {} []).link 3).rxSpare = none
    ∧ ((linked 3 3 4 { sparePend := some 2 } []).link 3).sparePend = some 2 ∧ ((linked 3 3 4 {} []).link 3).sparePend = none := by decide

theorem witness_LinksTrain_writes : (linked 3 3 4 {} []).reaches .host .lnkCtl 3 ∧ (linked 3 3 4 {} []).takes .lnkCtl 3 (withBit 0x10000010 22)
    ∧ (decide ((linked 3 3 4 {} []).fld F.lnkCtlRole 3 ≠ 0) && bitOf 0x10000010 28 && (linked 3 3 4 {} []).inOp [.init, .ready, .run, .safeHold])
      = true
    ∧ (linked 3 3 4 {} []).takes .lnkCtl 3 (withBit 0x10 22) ∧ bitOf 0x10 28 = false
    ∧ (linked 3 3 0 {} []).takes .lnkCtl 3 0x02000010 ∧ bitOf 0x02000010 25 = true
    ∧ (linked 3 3 6 {} [(F.lnkCtlTest, 3, 1)]).takes .lnkCtl 3 0x10 ∧ bitOf 0x10 25 = false
    ∧ (linked 3 3 6 {} [(F.lnkCtlTest, 3, 1)]).takes .lnkCtl 3 0x02000010
    ∧ (linked 3 3 4 {} []).takes .lnkCtl 3 0x10000010 ∧ bitOf 0x10000010 22 = false ∧ (linked 3 3 0 {} []).takes .lnkCtl 3 (withBit 0x10000010 22)
    := by
  unfold State.reaches State.takes; decide +kernel

theorem witness_LanesAndEyes_quiet : (linked 3 3 4 {} [(F.lnkLaneStsCdrLock, 14, 1)]).quiet := by
  refine quiet_of_regs rfl (given_quiet .ready ([(F.lnkCtlRole, 3, 3), (F.lnkStsState, 3, 4)] ++ [(F.lnkLaneStsCdrLock, 14, 1)]) (by decide))

theorem witness_LanesAndEyes :
    let s (lock : Nat) := linked 3 3 4 {} [(F.lnkLaneStsCdrLock, 14, lock)]
    let map := (s 1).fld F.lnkMapRxMap 3;
    (∀ j : Fin 3, laneOf map j ≠ 3) ∧ laneOf map 2 = 2 ∧ (∀ j : Fin 3, laneOf map j = 2 → j.val = 2)
    ∧ spareOf map = 3 ∧ spareOf map ≠ 2 ∧ (s 1).fld F.lnkCtlLaneErrLim 3 < 65535 ∧ (s 0).flag F.lnkLaneStsCdrLock 14 = false
    ∧ (s 1).flag F.lnkLaneStsCdrLock 14 = true ∧ (s 1).flag F.lnkLaneStsFailed 14 = false ∧ ¬(s 1).fld F.lnkCtlLaneErrLim 3 < 0
    ∧ ((s 1).link 3).rxSpare = none ∧ (s 1).flag F.lnkLaneStsFailed 15 = false
    ∧ ((linked 3 3 4 { rxSpare := some 1 } []).link 3).rxSpare ≠ none
    ∧ (linked 3 3 4 {} [(F.lnkLaneStsFailed, 15, 1)]).flag F.lnkLaneStsFailed 15 = true
    ∧ (linked 3 3 4 {} [(F.lnkEyeCtlStart, 15, 1)]).flag F.lnkEyeCtlStart 15 = true
    ∧ (linked 3 3 4 {} []).flag F.lnkEyeCtlStart 15 = false := by decide

theorem witness_LanesAndEyes_writes : (linked 3 3 4 {} []).reaches .host .lnkEyeCtl 15
    ∧ (linked 3 3 4 {} []).takes .lnkEyeCtl 15 (withBit 20 31) := by
  unfold State.reaches State.takes; decide +kernel

/-- A frame on a link, with its check. -/
def wire (type hdr lseq hops rseq : Nat) (pl : List Byte) : List Byte :=
  let h := leBytes 1 type ++ leBytes 1 hdr ++ leBytes 2 (lseq + 4096 * hops) ++ leBytes 2 rseq ++ leBytes 2 pl.length ++ pl
  h ++ leBytes 4 (crc32c h)

/-- The same, read back. -/
def onWire (type hdr lseq hops rseq : Nat) (pl : List Byte) : WireFrame :=
  { type := type, hdr := hdr, lseq := lseq, hops := hops, rseq := rseq, payload := pl }

/-- A frame sent and not acknowledged. -/
def sentFrame (lseq resent : Nat) : LinkFrame := { type := 1, dst := 0, lseq := lseq, hops := 0, rseq := 0, payload := [1], resent := resent }

/-- A bridge link with the frames it keeps: link 3 UP and a host bridge beyond it, or a ring link 0 or 1. -/
def bridged (role : Nat) (x : LinkSt) : State := linked 3 role 4 x [(F.lnkRingPos, 0, 1), (F.lnkRingSize, 0, 4)]

theorem linked_quiet (n role st : Nat) (x : LinkSt) (l : List (RegField × Nat × Nat)) (h : calm l = true) : (linked n role st x l).quiet :=
  quiet_of_regs (s := given .ready ([(F.lnkCtlRole, n, role), (F.lnkStsState, n, st)] ++ l)) rfl (given_quiet .ready _ (by
    have a : calm [(F.lnkCtlRole, n, role), (F.lnkStsState, n, st)] = true := by simp [calm]
    rw [calm, List.all_append, Bool.and_eq_true]
    exact ⟨a, h⟩))

theorem bridged_quiet (role : Nat) (x : LinkSt) : (bridged role x).quiet := linked_quiet 3 role 4 x _ (by decide)

/-- The ring links, each UP, with the frames seen. -/
def ringed (seen : List (Nat × Nat × Bool)) : State :=
  let s := given .ready [(F.lnkCtlRole, 0, 1), (F.lnkStsState, 0, 4), (F.lnkCtlRole, 1, 2), (F.lnkStsState, 1, 4), (F.lnkRingPos, 0, 1),
    (F.lnkRingSize, 0, 4)]
  s.onDev fun d => { d with ring := { d.ring with seen := seen } }

theorem ringed_quiet (seen : List (Nat × Nat × Bool)) : (ringed seen).quiet :=
  quiet_of_regs rfl (given_quiet .ready [(F.lnkCtlRole, 0, 1), (F.lnkStsState, 0, 4), (F.lnkCtlRole, 1, 2), (F.lnkStsState, 1, 4),
    (F.lnkRingPos, 0, 1), (F.lnkRingSize, 0, 4)] (by decide))

/-- A frame's parts, for comparison. -/
def parts (f : WireFrame) : List Nat × List Byte := ([f.type, f.hdr, f.lseq, f.hops, f.rseq], f.payload)

theorem witness_LinkFrames :
    let s := ringed [(3, 7, false)]
    s.dev.cmd.queue = [] ∧ s.fld F.lnkStsState 0 = 4 ∧ s.fld F.lnkStsState 2 ≠ 3 ∧ s.fld F.lnkStsState 2 ≠ 4
    ∧ (readFrame [1, 2, 3]).isNone = true ∧ (s.link 0).expSeq = 0 ∧ s.fld F.lnkCtlRole 0 = 1
    ∧ (readFrame (wire 1 0 5 0 9 [1, 2])).map parts = some ([1, 0, 5, 0, 9], [1, 2])
    ∧ (readFrame (wire 4 0 0 0 9 [1, 2])).map parts = some ([4, 0, 0, 0, 9], [1, 2])
    ∧ (readFrame (wire 0 0 0 0 9 [])).map parts = some ([0, 0, 0, 0, 9], [])
    ∧ (readFrame (wire 1 1 0 0 9 [1])).map parts = some ([1, 1, 0, 0, 9], [1]) ∧ 1 % 8 = s.fld F.lnkRingPos 0
    ∧ (readFrame (wire 3 3 0 0 7 [1])).map parts = some ([3, 3, 0, 0, 7], [1]) ∧ (3, 7, false) ∈ s.dev.ring.seen
    ∧ (readFrame (wire 2 3 0 0 8 [1])).map parts = some ([2, 3, 0, 0, 8], [1]) ∧ (∀ e ∈ s.dev.ring.seen, ¬(e.1 = 3 % 8 ∧ e.2.1 = 8))
    := by decide +kernel

theorem witness_LinkFrames_ring :
    let s := ringed [(3, 7, false)];
    bitOf 3 6 = false ∧ 3 / 8 % 8 ≠ s.fld F.lnkRingPos 0 ∧ 0 + 1 < s.fld F.lnkRingSize 0 ∧ s.fld F.lnkCtlRole (1 - 0) = 1 - 0 + 1
    ∧ s.fld F.lnkStsState (1 - 0) = 4
    ∧ (readFrame (wire 2 3 0 3 8 [1])).map parts = some ([2, 3, 0, 3, 8], [1]) ∧ s.fld F.lnkRingSize 0 ≤ 3 + 1
    ∧ (bridged 3 {}).fld F.lnkCtlRole 3 = 3
    ∧ (readFrame (wire 16 0 0 0 0 (leBytes 8 sramBase ++ [7]))).map parts = some ([16, 0, 0, 0, 0], leBytes 8 sramBase ++ [7])
    ∧ 9 ≤ (leBytes 8 sramBase ++ [7]).length ∧ leAt (leBytes 8 sramBase ++ [7]) 0 8 = sramBase ∧ (bridged 3 {}).spanTarget sramBase 1 = .sram
    ∧ s.dev.ring.seen.find? (fun e => decide (e.1 = 3 ∧ e.2.1 = 7)) = some (3, 7, false)
    ∧ s.dev.ring.seen.find? (fun e => decide (e.1 = 3 ∧ e.2.1 = 8)) = none := by decide +kernel

theorem witness_LinkFrames_replay :
    let fresh := bridged 3 { replay := [sentFrame 4 0, sentFrame 5 0] }
    let old := bridged 3 { replay := [sentFrame 4 0, sentFrame 5 7] }
    let rest (s : State) := (s.link 3).replay.filter fun f => decide (2048 ≤ ((5 + 4095) % 4096 + 4096 - f.lseq) % 4096);
    (fresh.link 3).waiting = [] ∧ rest fresh = [sentFrame 5 0] ∧ (∀ f ∈ rest fresh, f.resent < 7) ∧ (∃ f ∈ rest old, 7 ≤ f.resent)
    ∧ fresh.fld F.lnkStsState 3 = 4 ∧ (fresh.link 3).replay ≠ [] ∧ (∀ f ∈ (fresh.link 3).replay, f.resent < 7)
    ∧ (∃ f ∈ (old.link 3).replay, 7 ≤ f.resent) ∧ ((bridged 3 {}).link 3).replay = [] := by decide

/-- A bridge link whose peer owes the bytes of a segment of 8, its own read having asked for `left` of them. -/
def owed (left : Nat) : State :=
  let d : Desc := ⟨0, 0x2000000000, sramBase, 8, 0⟩
  let w : DescWork := { addr := 0x40, desc := d, segs := [{ off := 0, len := 8, st := .reading, left := 8 }] }
  (bridged 3 { reads := [⟨6, 2, 0, 0, 0, 8, left⟩], regReads := [9] }).setChain 2 { works := [w] }

theorem witness_BridgeTransactions :
    let s := bridged 4 {}
    let d := (s.setFld F.memCapCap 0 512).setFld F.memCfgFwSize 0 1
    let bad := s.onDev fun d => { d with poison := [sramBase] }
    let o := owed 64
    (o.bridgeUp 3 = true ∧ s.bridgeUp 3 = true) ∧ (linked 3 3 3 {} []).bridgeUp 3 = false ∧ s.spanTarget sramBase 504 = .sram
    ∧ d.spanTarget 0x2000000 8 = .dram ∧ d.fwHit 0x2000000 8 = false ∧ d.channels.any d.channelDead = false
    ∧ d.spanTarget 0x1FFFFFC 8 = .dram ∧ d.fwHit 0x1FFFFFC 8 = true ∧ s.spanTarget (2 ^ 35) 4 = .none
    ∧ s.poisoned sramBase 8 = false ∧ bad.poisoned sramBase 8 = true
    ∧ (∀ r ∈ (o.link 3).reads, r.tag ≠ 5) ∧ (o.link 3).reads.find? (fun x => decide (x.tag = 6)) = some ⟨6, 2, 0, 0, 0, 8, 64⟩
    ∧ ((o.chain 2).findSeg 0 .reading).map (fun p => (p.1.addr, p.2.left)) = some (0x40, 8)
    ∧ (((o.setChain 2 {}).chain 2).findSeg 0 .reading).isNone = true
    ∧ [(1 : Byte), 2].length < 64 ∧ min (0 + 2) (0 + 8) - max 0 0 < 8 ∧ 9 ∈ (o.link 3).regReads ∧ 8 ∉ (o.link 3).regReads
    ∧ o.fld F.lnkCtlRole 3 ≠ 4 ∧ s.fld F.lnkCtlRole 3 = 4 ∧ regAt 0xBFFFFFC = none
    ∧ s.powered .acqStrWm 2 = true ∧ s.flag F.acqStrCtlOn 2 = false ∧ inRanges .acqStrWm 5 = true
    ∧ smGet none s.dev.shadow (halfKey (peerOf 3) (Reg.acqStrWm.addr 2)) = none ∧ s.vectorMasked 2047 = true
    ∧ s.spanTarget (2 ^ 63) 8 = .host ∧ (s.setFlag F.pciStsDlUp 0 true).flag F.pciStsDlUp 0 = true ∧ s.flag F.pciStsDlUp 0 = false
    ∧ o.dmaRuns = true ∧ o.spanTarget 0x2000000000 8 = .window ∧ s.spanTarget 0x2000000000 8 = .window ∧ bridgeLink 0x2000000000 = some 2 := by decide +kernel

/-! The host, Ethernet. -/

/-- READY with the endpoint in an identity, DRAM and the firmware region, and these fields. -/
def endpoint (ident : Nat) (l : List (RegField × Nat × Nat)) : State :=
  (given .ready ([(F.memCapCap, 0, 512), (F.memCfgPop, 0, 1), (F.memCfgFwSize, 0, 1)] ++ l)).onDev fun d => { d with pci := { d.pci with ident := ident } }

/-- The same with BAR2 mapped. -/
def mapped (a : Nat) : State := (endpoint 1 []).setPair .pciBar2MapLo .pciBar2MapHi 0 a

theorem witness_EndpointActs :
    let s := endpoint 1 [(F.pciStsDlUp, 0, 1)]
    let bad := (mapped sramBase).onDev fun d => { d with poison := [sramBase] }
    let x := (endpoint 1 [(F.dmaQStsState, 5, 1)]).setChain 5 { works := [{ addr := 0x40, desc := ⟨0, 2 ^ 63, 0, 8, 0⟩, segs := [] }] };
    (endpoint 0 []).dev.pci.ident = 0 ∧ s.dev.pci.ident ≠ 0 ∧ (mapped sramBase).bar2Addr 16 = sramBase + 16
    ∧ (mapped sramBase).bar2Closed (sramBase + 16) 4 = false ∧ (mapped sramBase).channels.any (mapped sramBase).channelDead = false
    ∧ (mapped 0x2000000).bar2Closed 0x2000000 4 = false ∧ (mapped 0).bar2Closed 0x1FFFFFC 4 = true ∧ (endpoint 2 []).bar2Closed sramBase 4 = true
    ∧ (mapped sramBase).spanTarget sramBase 4096 = .sram ∧ (mapped sramBase).poisoned sramBase 4096 = false
    ∧ bad.spanTarget sramBase 8 = .sram ∧ bad.poisoned sramBase 8 = true
    ∧ (mapped (2 ^ 34)).spanTarget (2 ^ 34) 4 = .none
    ∧ s.mapHeld = false ∧ (endpoint 2 []).mapHeld = true
    ∧ mapNames (s.wordAfter .pciBar2MapLo 0 0 + 2 ^ 32 * 16) = true ∧ mapNames (s.wordAfter .pciBar2MapLo 0 0 + 2 ^ 32 * 15) = false
    ∧ x.fld F.dmaQStsState 5 = 1 ∧ (∃ w ∈ (x.chain 5).works, 2 ^ 63 ≤ w.desc.src)
    ∧ s.flag F.pciStsDlUp 0 = true ∧ (endpoint 1 []).flag F.pciStsDlUp 0 = false ∧ s.dev.dma.chains = [] := by decide +kernel

theorem witness_EndpointActs_reaches : (endpoint 1 []).reaches .host .pciBar2MapLo 0 ∧ (endpoint 2 []).reaches .host .pciBar2MapLo 0 := by
  unfold State.reaches; decide +kernel

theorem witness_EndpointActs_unrouted : (endpoint 1 []).unrouted :=
  (quiet_of_regs rfl (given_quiet .ready ([(F.memCapCap, 0, 512), (F.memCfgPop, 0, 1), (F.memCfgFwSize, 0, 1)] ++ []) (by decide)) : (endpoint 1 []).quiet).1

/-- The same after a block has been accepted. -/
def accepting (s : State) : State := s.onDev fun d => { d with boot := { d.boot with accepted := true } }

/-- READY with ports 0 and 1 up, and these fields; classifier entry 3 takes EtherType 0x0800 without a VLAN. -/
def ports (l : List (RegField × Nat × Nat)) : State := accepting (given .ready ([(F.ethPortCtlEn, 0, 1), (F.ethPortStsLink, 0, 1), (F.ethPortCtlEn, 1, 1),
  (F.ethPortStsLink, 1, 1), (F.ethClsMatchEn, 3, 1), (F.ethClsMatchEtype, 3, 0x0800)] ++ l))

theorem ports_quiet : (ports [(F.ethRedCtlMode, 0, 2)]).quiet :=
  quiet_of_regs rfl (given_quiet .ready ([(F.ethPortCtlEn, 0, 1), (F.ethPortStsLink, 0, 1), (F.ethPortCtlEn, 1, 1), (F.ethPortStsLink, 1, 1),
    (F.ethClsMatchEn, 3, 1), (F.ethClsMatchEtype, 3, 0x0800)] ++ [(F.ethRedCtlMode, 0, 2)]) (by decide))

/-- A frame of 60 bytes from one MAC to another. -/
def etherFrame (dst src etype : Nat) (pl : List Byte) : List Byte := pad60 (macBytes dst ++ macBytes src ++ beBytes 2 etype ++ pl)

/-- The same with an HSR tag, and with a PRP trailer. -/
def hsr (src seq : Nat) : List Byte := etherFrame 9 src 0x892F (beBytes 2 0x002E ++ beBytes 2 seq ++ beBytes 2 0x0801)
/-- With a PRP trailer on LAN B. -/
def prp (src seq : Nat) : List Byte :=
  (etherFrame 9 src 0x0800 []).take 54 ++ beBytes 2 seq ++ beBytes 2 0xB02E ++ beBytes 2 0x88FB

/-- What is said of a frame at a port. -/
def plainAt (s : State) (b : List Byte) : Bool :=
  let f := parseFrame (s.redMode 0) b
  s.portUp 0 && decide (60 ≤ b.length) && decide (b.length ≤ s.longest 0) && decide (f.red = none)
    && !s.bootTraffic 0 f

theorem witness_PortsCarry_received :
    let s := ports []
    let b := etherFrame 9 5 0x0800 [1]
    let r := ports [(F.ethClsActAct, 3, 4), (F.ethClsActRing, 3, 2), (F.ethRxrSizeSizeLog2, 2, 12)]
    let d := (ports [(F.ethRedCtlMode, 0, 1)]).setEthPair 0 { table := [(5, 77, 0, false)] }
    let h := ports [(F.ethRedCtlMode, 0, 2)]
    s.dev.cmd.queue = [] ∧ s.portUp 2 = false ∧ s.portUp 0 = true ∧ s.longest 0 = 1518 ∧ plainAt s b = true
    ∧ s.classify 0x0801 0 = none ∧ plainAt s (etherFrame 9 5 0x0801 []) = true
    ∧ s.classify 0x0800 0 = some 3 ∧ s.fld F.ethClsActAct 3 = 0 ∧ (ports [(F.ethClsActAct, 3, 1)]).fld F.ethClsActAct 3 = 1
    ∧ r.fld F.ethClsActAct 3 = 4 ∧ r.rxFill 2 + 80 < 2 ^ r.fld F.ethRxrSizeSizeLog2 2 ∧ r.reg .ethRxrWr 2 + 80 ≤ 4096
    ∧ 4096 ≤ (r.setReg .ethRxrRd 2 8).rxFill 2 + 80
    ∧ d.redMode 0 = 1 ∧ (prp 5 77).length = 60 ∧ (parseFrame 1 (prp 5 77)).red = some (77, 1) ∧ 1 ≠ 0 % 2
    ∧ (parseFrame 1 (prp 5 77)).src = 5 ∧ (parseFrame 1 (prp 5 77)).etype = 0x0800 ∧ (∃ e ∈ (d.ethPair 0).table, e.1 = 5 ∧ e.2.1 = 77)
    ∧ h.redMode 0 = 2 ∧ (parseFrame 2 (hsr 5 77)).red = some (77, 0) ∧ h.ownMac 0 5 = false ∧ h.ownMac 0 9 = false ∧ h.portUp 1 = true
    ∧ (∀ e ∈ (h.ethPair 0).table, ¬(e.1 = 5 ∧ e.2.1 = 77)) ∧ h.classify 0x0801 0 = none ∧ (parseFrame 2 (hsr 5 77)).etype = 0x0801
    ∧ h.bootTraffic 0 (parseFrame 2 (hsr 5 77)) = false ∧ h.ownMac 0 0 = true ∧ (parseFrame 2 (hsr 0 77)).src = 0
    ∧ (hsr 5 77).length ≤ h.longest 0 := by decide +kernel

/-- A PTP frame. -/
def ptp : List Byte := etherFrame 9 5 ptpType [0]

theorem witness_PortsCarry_sent :
    let s := (ports [(F.ethPortCtlFlushDown, 0, 1)]).setEthPort 0 { queues := [(7, etherFrame 9 5 0x0800 [1]), (7, ptp)] }
    let q := (ports []).setEthPort 0 { queues := [(2, ptp)] }
    let f := (ports []).setEthPort 0 { queues := [(2, ptp)], stamps := List.replicate 16 ⟨0, 0, 0, 0⟩ }
    let r := (ports [(F.ethRedCtlMode, 0, 1)]).setEthPair 0 { table := [(5, 77, 0, true), (6, 77, 1, false)] };
    (s.refillShapers 0).nextFrame 0 = some (7, etherFrame 9 5 0x0800 [1]) ∧ (frameType (etherFrame 9 5 0x0800 [1])).1 ≠ ptpType
    ∧ ((ports []).refillShapers 0).nextFrame 0 = none ∧ (q.refillShapers 0).nextFrame 0 = some (2, ptp)
    ∧ (frameType ptp).1 = ptpType ∧ (q.ethPort 0).stamps.length < 16 ∧ (f.refillShapers 0).nextFrame 0 = some (2, ptp)
    ∧ 16 ≤ (f.ethPort 0).stamps.length ∧ s.flag F.ethPortStsLink 0 = true ∧ s.flag F.ethPortCtlFlushDown 0 = true
    ∧ (ports []).flag F.ethPortCtlFlushDown 0 = false ∧ r.redMode 0 ≠ 0 ∧ r.flag F.ethPortStsLink 0 = true
    ∧ r.fld F.ethRedCtlMode 0 ≠ 0 ∧ r.fld F.ethRedCtlMode 1 = 0 ∧ r.portUp 1 = true
    ∧ (r.ethPair 0).table.find? (fun e => decide (e.1 = 5 ∧ e.2.1 = 77)) = some (5, 77, 0, true)
    ∧ (r.ethPair 0).table.find? (fun e => decide (e.1 = 6 ∧ e.2.1 = 77)) = some (6, 77, 1, false)
    ∧ (r.ethPair 0).table.find? (fun e => decide (e.1 = 5 ∧ e.2.1 = 78)) = none
    ∧ smGet none r.dev.shadow (halfKey .host (Reg.ethTsHi.addr 3)) = none := by decide +kernel

theorem witness_PortsCarry_reaches : (ports []).reaches .host .ethTsHi 3 := by unfold State.reaches; decide +kernel

/-! The safety channels. -/

/-- A parameter set: one zone with a tap of channel 4, drive 2 supervised with its permit from connection 1, connection 1 to receive and
2 to transmit, discrete pair 3. -/
def safetySet : SafSet :=
  { number := 5, crc := 0x2A, zones := [{ taps := [{ ch := 4, zgOpen := 10, zgClose := 90, floorNear := 50 }], drives := 4 }]
    drives := [{}, {}, { supervised := true, scale := 16, vMax := 1000, vCreep := 100, vStill := 10, testCnt := 3, band := some 1 }]
    bands := [{}, { dir := 1, ident := 77, seqGap := 3 }, { dir := 2, ident := 78 }], discs := [{}, {}, {}, { fn := 2 }] }

/-- The device with its two safety channels in these records. -/
def safe (a b : SafChan) : State := { given .run [] with saf := ⟨a, b⟩ }

theorem safe_quiet (a b : SafChan) : (safe a b).quiet := quiet_of_regs rfl (given_quiet .run [] rfl)

/-- A channel with its set, in a state, with this drive 2. -/
def chan (st : Nat) (d : SafDrv) : SafChan := { state := st, set := some safetySet, sw := 0x2A5, sw0 := 0x2A5, drives := [(2, d)] }

/-- A band message of connection 1. -/
def bandText (seq code : Nat) : List Byte :=
  leBytes 1 1 ++ leBytes 1 1 ++ leBytes 2 1 ++ leBytes 4 seq ++ leBytes 1 4 ++ leBytes 3 0 ++ leBytes 4 0 ++ leBytes 4 code

/-- A word of channel 4's tap at a code, with or without a dropped hit. -/
def tapAt (code : Nat) (dropped : Bool) : TapWord := ⟨4, 9, code, dropped⟩

/-- Both FIFOs with this word. -/
def tapped (w : TapWord) (s : State) : State := s.onDev fun d => { d with rng := { d.rng with tapA := [w], tapB := [w] } }

theorem witness_SafetyInputs_tap :
    let s := tapped (tapAt 49 false) (safe (chan 1 {}) (chan 1 {}))
    let d := tapped (tapAt 50 true) (safe { chan 1 {} with spoilt := [(4, 7)] } (chan 1 {}))
    let off := tapped (tapAt 5 false) (safe { powered := false } { powered := false });
    (safe (chan 1 {}) (chan 1 {})).dev.rng.tapA = [] ∧ off.dev.rng.tapA ≠ [] ∧ off.saf.a.powered = false ∧ off.saf.b.set = none
    ∧ s.dev.rng.tapA = [tapAt 49 false] ∧ s.saf.a.powered = true ∧ s.saf.a.set.isSome = true ∧ (tapAt 49 false).dropped = false
    ∧ s.saf.a.zoneSets.length = 1 ∧ (s.saf.a.zoneSets[0]?.bind fun c => c.taps.find? fun t => decide (t.ch = 4))
      = some { ch := 4, zgOpen := 10, zgClose := 90, floorNear := 50 }
    ∧ 10 ≤ 49 ∧ 49 < 50 ∧ 50 < 90 ∧ ¬10 ≤ 9 ∧ d.dev.rng.tapB = [tapAt 50 true]
    ∧ (tapAt 49 false).ch = (4 : Fin 768).val ∧ (tapAt 49 false).code = (49#23).toNat ∧ (tapAt 49 false).code ≠ (48#23).toNat
    ∧ (tapAt 50 true).dropped = true
    ∧ smGet 0 d.saf.a.spoilt 4 ≠ (tapAt 50 true).shotId + 1 ∧ smGet 0 d.saf.b.spoilt 4 ≠ (tapAt 50 true).shotId + 1 := by decide +kernel

theorem witness_SafetyInputs :
    let s := safe (chan 1 { torque := true, state := 3 }) { chan 1 {} with discs := [(3, { level := true })] }
    let off := (safe { powered := false } { powered := false }).saf
    let t := (safe (chan 1 { closed := true }) (chan 1 { closed := true, phase := 2, doneAt := some 0 })).saf
    let u := (safe (chan 1 { phase := 1, travel := 3 }) (chan 1 {})).saf
    let done := (safe (chan 1 { testDone := true }) (chan 1 {})).saf;
    off.a.powered = false ∧ off.b.powered = false ∧ (s.saf.a.drv 2).torque = true ∧ t.a.halfDone 2 = false ∧ t.b.halfDone 2 = true
    ∧ (t.a.driveSet 2).supervised = true ∧ (t.a.drv 2).testDone = false ∧ (t.a.drv 2).closed = true ∧ (t.a.drv 2).phase ≠ 2
    ∧ (u.a.drv 2).phase = 1 ∧ (u.a.driveSet 2).testCnt ≤ (u.a.drv 2).travel ∧ u.b.halfDone 2 = false ∧ (done.a.drv 2).testDone = true
    ∧ (u.a.drv 2).closed = (u.b.drv 2).closed ∧ (t.a.drv 2).closed ≠ (u.b.drv 2).closed
    ∧ ((safe (chan 1 { closed := true }) (chan 1 {})).saf.a.drv 2).closed ≠ ((safe (chan 1 { closed := true }) (chan 1 {})).saf.b.drv 2).closed
    ∧ s.saf.a.powered = true ∧ s.saf.b.powered = true ∧ discInputs (s.saf.a.discSet 3).fn = true
    ∧ (((s.saf.a.disc 3).level != (s.saf.b.disc 3).level) != (s.saf.a.discSet 3).anti) = true
    ∧ discInputs (s.saf.a.discSet 4).fn = false := by decide +kernel

theorem witness_BandMessages :
    let g := { chan 1 {} with bands := [(1, { seq := some 8, okRun := 1, timeout := true })] }
    let m := bandText 9 (bandCode 77 ((bandText 9 0).take 16));
    (safe g g).saf.a.powered = true ∧ (safe g g).saf.b.set.isSome = true ∧ (safe { powered := false } g).saf.a.powered = false
    ∧ g.bandForm m = true ∧ leAt m 16 4 = bandCode 77 (m.take 16) ∧ leAt m 2 2 = 1 ∧ (leAt m 4 4 + 2 ^ 32 - 8) % 2 ^ 32 = 1
    ∧ g.bandForm [1, 2] = false ∧ leAt [(1 : Byte), 2] 2 2 < 4 ∧ leAt (bandText 9 0) 16 4 ≠ bandCode 77 ((bandText 9 0).take 16)
    ∧ (leAt (bandText 8 0) 4 4 + 2 ^ 32 - 8) % 2 ^ 32 = 0 ∧ (g.bandSet 1).seqGap < (leAt (bandText 12 0) 4 4 + 2 ^ 32 - 8) % 2 ^ 32
    ∧ (leAt (bandText 11 0) 4 4 + 2 ^ 32 - 8) % 2 ^ 32 ≤ (g.bandSet 1).seqGap
    ∧ (g.bandSet 1).dir = 1 ∧ (g.bandSet 2).dir = 2 ∧ (g.bandSet 0).dir ≠ 1 ∧ (g.bandSet 0).dir ≠ 2 := by decide +kernel

/-- The partner's image as a channel with the set sends it in a state. -/
def partner (st : Nat) : SafImage := { (chan st {}).image with state := st }

/-- Normal at a cycle's end: the partner heard, its image and drive 2. -/
def running (d : SafDrv) : SafChan := { chan 1 d with got := true, img := some (partner 1) }

/-- Normal with drive 2 permitted over the band. -/
def permitted (d : SafDrv) : SafChan :=
  { running d with bands := [(1, { kind := 1, payload := [4, 0, 0, 0] })], discs := [(3, { level := true, reading := true })]
                   zones := [], sense := [(0, 1)] }

/-- The work of a cycle before the drives. -/
def workBefore (x : SafChan) : SafChan :=
  ((({ x with now := x.now + 1, missing := if x.got then 0 else x.missing + 1, got := false } : SafChan).seal 0x2A5).evalZones false []).evalDiscs false

/-- The set without its zone, its discrete pair read. -/
def quietSet : SafSet := { safetySet with zones := [], discs := [] }

/-- A drive after its counts of the cycle. -/
def sampled (x : SafChan) : SafDrv := (x.drv 2).sample (x.driveSet 2)

theorem witness_SafetyCycle_invariant : (safe (running { state := 3, torque := true, cur := 40 }) (chan 1 {})).saf.torqueOk := by
  unfold Saf.torqueOk SafChan.torqueOk; decide

theorem witness_SafetyCycle :
    let start : SafChan := { chan 0 {} with selfOk := true, got := true, img := some (partner 0) }
    let fast := running { state := 3, torque := true, cur := 40 }
    let slow := running { state := 3, torque := true, cur := 4 }
    let ends := running { state := 4, torque := true, decel := true }
    let again (done : Bool) := { permitted { state := 1, armed := true, low := true, testDone := done } with set := some quietSet };
    (safe fast (chan 1 {})).saf.a.powered = true ∧ fast.state = 1 ∧ (0x2A5 : Nat) = fast.sw0 ∧ 0x2A4 ≠ fast.sw0 ∧ fast.got = true ∧ fast.run < 2
    ∧ (fast.driveSet 2).supervised = true
    ∧ start.state = 0 ∧ start.selfOk = true ∧ start.set = some safetySet ∧ sealMatches safetySet 0x2A5 = true
    ∧ (start.img.map fun i => (i.state, i.set)) = some (0, some (5, 0x2A))
    ∧ { chan 1 {} with missing := 1 }.got = false
    ∧ (sampled fast).state = 3 ∧ speedWithin (fast.driveSet 2) (sampled fast).vN (fast.driveSet 2).vMax = true
    ∧ speedWithin (fast.driveSet 2) (sampled (running { state := 3, cur := 40000 })).vN (fast.driveSet 2).vMax = false
    ∧ (workBefore slow).stopCauses 2 = [2]
    ∧ (sampled ends).state = 4 ∧ speedWithin (ends.driveSet 2) (sampled ends).vN (ends.driveSet 2).vStill = true
    ∧ (sampled (again true)).state = 1 ∧ (workBefore (again true)).stopCauses 2 = [] ∧ (workBefore (again false)).permit 2 = true
    ∧ (sampled (again false)).armed = true ∧ (sampled (again false)).low = true ∧ (sampled (again true)).testDone = true := by decide +kernel

theorem witness_SafetyInvariants_safe : let s := safe (chan 2 {}) (chan 2 {})
    (∃ t, step s = .next t) ∧ s.saf.a.powered = s.saf.b.powered ∧ (s.saf.chan true).powered = true ∧ (s.saf.chan true).state = 2 :=
  ⟨⟨_, rfl⟩, rfl, rfl, rfl⟩

theorem witness_SafetyInvariants_torque : let s := safe (running { state := 3, torque := true }) (chan 1 {})
    (∃ t, step s = .next t) ∧ s.saf.torqueOk := ⟨⟨_, rfl⟩, by unfold Saf.torqueOk SafChan.torqueOk; decide⟩

/-! Measurement. -/

/-- READY with converter 1 sequencing slots 9 and 10, and these fields. -/
def sequencing (l : List (RegField × Nat × Nat)) : State := given .ready ([(F.meaConvCtlMode, 1, 1), (F.meaConvCtlEn, 1, 1), (F.meaSlotInEn, 9, 1),
  (F.meaSlotInConv, 9, 1), (F.meaSlotInEn, 10, 1), (F.meaSlotInConv, 10, 1), (F.meaSlotMaxOutMax, 9, 1000000)] ++ l)

theorem sequencing_quiet : (sequencing [(F.meaSlotConvMed, 9, 0)]).quiet :=
  given_quiet .ready ([(F.meaConvCtlMode, 1, 1), (F.meaConvCtlEn, 1, 1), (F.meaSlotInEn, 9, 1),
    (F.meaSlotInConv, 9, 1), (F.meaSlotInEn, 10, 1), (F.meaSlotInConv, 10, 1), (F.meaSlotMaxOutMax, 9, 1000000)] ++ [(F.meaSlotConvMed, 9, 0)])
    (by decide)

theorem witness_MeasurementRuns :
    let s := sequencing []
    let b := s.setConv 1 { todo := [9, 10] }
    let d := s.setConv 1 { todo := [9], due := true };
    s.convRuns 1 = true ∧ s.flag F.meaConvCtlMode 1 = true ∧ (given .ready []).convRuns 1 = false ∧ (s.conv 1).todo = []
    ∧ s.slotsOf 1 = [9, 10] ∧ (given .ready [(F.meaConvCtlMode, 1, 1), (F.meaConvCtlEn, 1, 1)]).slotsOf 1 = []
    ∧ (given .ready [(F.meaConvCtlMode, 1, 1), (F.meaConvCtlEn, 1, 1)]).convRuns 1 = true
    ∧ (b.conv 1).todo = [9, 10] ∧ s.flag F.meaSlotInEn 9 = true ∧ s.fld F.meaSlotInConv 9 = 1 ∧ s.flag F.meaSlotInEn 63 = false
    ∧ s.flag F.meaSlotRefLeadEn 9 = false ∧ s.fld F.meaSlotConvMed 9 = 0 ∧ s.flag F.meaSlotTTEn 9 = false
    ∧ (s.linearise 9 (signed 24 (2 ^ 23 - 1)) 0).isSome = true ∧ (s.linearise 9 (signed 24 5) 0).isSome = true
    ∧ (d.conv 1).due = true ∧ (b.conv 1).due = false ∧ s.fld F.meaSlotDetDetEn 9 = 0 ∧ s.fld F.meaSlotDetLoopDet 9 = 0
    ∧ (given .ready [(F.pwrSupCfgEn, 5, 1)]).flag F.pwrSupCfgEn 5 = true ∧ (given .ready [(F.pwrSupCfgEn, 5, 0)]).flag F.pwrSupCfgEn 5 = false
    ∧ (s.setConv 1 { cont := some 9 }).conv 1 = { cont := some 9 } ∧ b.converting 1 = some 9 ∧ s.converting 1 = none
    ∧ (b.setFld F.meaSlotInEn 9 0).converting 1 = some 9 ∧ (b.setFld F.meaSlotInEn 9 0).flag F.meaSlotInEn 9 = false
    ∧ (s.setFld F.meaConvCtlMode 1 0).flag F.meaConvCtlMode 1 = false ∧ (s.setFld F.meaConvCtlMode 1 0).slotsOf 1 = [9, 10]
    ∧ ((s.setFld F.meaConvCtlMode 1 0).setFld F.meaSlotInEn 10 0).slotsOf 1 = [9]
    ∧ s.fld F.meaSlotRateRate 9 = 0 := by
  decide +kernel

theorem witness_MeasurementRuns_reaches : (sequencing []).reaches .host .meaUrg 0 := by unfold State.reaches; decide +kernel

/-! Registers. -/

theorem witness_RegistersObey :
    let s := given .ready []
    let held := s.onDev fun d => { d with heldLo := smPut none d.heldLo (halfKey .host (Reg.lnkBrBaseLo.addr 1)) (some 0x1000) }
    let off := (s.setReg .pwrDomSts 0 0).setReg .pwrDomSts 1 0
    let owned := s.setReg .pwrDomOwn 0 3;
    regAt 0xBFFFFFC = none ∧ regAt 0x8000100 = some (.lnkCtl, 0) ∧ 0x8000100 / 4 * 4 = 0x8000100
    ∧ regAt (Reg.timServo.addr 0) = some (.timServo, 0) ∧ Reg.timServo.addr 0 % 4 = 0 ∧ s.mayWrite .host .timServo = true
    ∧ s.powered .timServo 0 = true ∧ inRanges .timServo (s.reg .timServo 0) = true
    ∧ s.mayWrite .host .timSts = true ∧ (off.powered .rcvChCtl 0 = false ∧ regAt (Reg.rcvChCtl.addr 0) = some (.rcvChCtl, 0))
    ∧ highHalf .timMeasLo = some .timMeasHi ∧ s.mayRead .host .timMeasLo = true ∧ smGet none s.dev.shadow (halfKey .host (Reg.timMeasLo.addr 0)) = none
    ∧ regAt (Reg.lnkBrBaseHi.addr 1) = some (.lnkBrBaseHi, 1) ∧ Reg.lnkBrBaseHi.addr 1 % 4 = 0
    ∧ smGet none held.dev.heldLo (halfKey .host (Reg.lnkBrBaseLo.addr 1)) = some 0x1000
    ∧ (refuseLinks s (s.merged .fmkLogTail 0 0 none) .fmkLogTail 0 0).isNone = true
    ∧ (refuseLinks s (s.merged .fmkLogTail 0 300 none) .fmkLogTail 0 300).isNone = false
    ∧ bitOf (s.reg .sysEvtSts 0) 4 = false ∧ bitOf ((s.setReg .sysEvtSts 0 16).reg .sysEvtSts 0) 4 = true ∧ s.vectorMasked 7 = true
    ∧ owned.domainWriteOk 0 3 = true ∧ s.domainWriteOk 0 4 = false ∧ s.domainWriteOk 4 (s.reg .pwrDomCtl 4) = true
    ∧ s.windowDark 0xC000000 = false ∧ (State.reset).windowDark 0xC000000 = true
    ∧ s.mayWrite .debug .timServo = false ∧ inRanges .timServo 0 = false
    ∧ State.reset.pgoodDue 0 = false ∧ (State.reset.setReg .pwrDomCtl 0 1).pgoodDue 0 = true := by decide +kernel

/-! The time base. -/

/-- An operating state with the time source and state, ring links 0 and 1 UP, and these fields. -/
def timed (op : OpState) (src st : Nat) (l : List (RegField × Nat × Nat)) (f : TimeSt → TimeSt) : State :=
  (given op ([(F.timCtlSrc, 0, src), (F.timStsState, 0, st), (F.lnkCtlRole, 0, 1), (F.lnkStsState, 0, 4), (F.lnkCtlRole, 1, 2), (F.lnkStsState, 1, 3)]
    ++ l)).onTime f

theorem timed_quiet (f : TimeSt → TimeSt) : (timed .ready 1 2 [(F.timCtlAvgLog2, 0, 2)] f).quiet :=
  quiet_of_regs rfl (given_quiet .ready ([(F.timCtlSrc, 0, 1), (F.timStsState, 0, 2), (F.lnkCtlRole, 0, 1), (F.lnkStsState, 0, 4),
    (F.lnkCtlRole, 1, 2), (F.lnkStsState, 1, 3)] ++ [(F.timCtlAvgLog2, 0, 2)]) rfl)

theorem witness_TimeBaseFollows_ring :
    let r : RingTime := { rxCount := some 255, t34Valid := true, sent := [(7, 900)], statusAt := some 0, nbLoaded := true, tdist := 2 }
    let s := timed .ready 1 2 [(F.timCtlAvgLog2, 0, 2)] fun t => { t with ring0 := r, up := some 0 }
    let four := timed .ready 1 3 [(F.timCtlAvgLog2, 0, 2)] fun t => { t with sum := [1, 2, 3, -4] };
    s.ringTimed 0 = true ∧ s.ringTimed 1 = true ∧ (given .ready []).ringTimed 0 = false
    ∧ (s.ringTime 0).rxCount.map (fun x => (x + 1) % 256) = some 0 ∧ (s.ringTime 0).t34Valid = true ∧ (s.ringTime 1).rxCount = none
    ∧ s.timeSrc = 1 ∧ s.dev.time.up = some 0 ∧ s.upstreamOk 0 = true ∧ s.measures = true ∧ s.fld F.timStsState 0 = 2
    ∧ s.fld F.lnkStsState 0 = 4 ∧ s.fld F.lnkStsState 1 = 3 ∧ s.fld F.lnkStsState 2 = 0
    ∧ (s.ringTime 0).sent.find? (fun x => decide (x.1 = leAt [1, 2, 7, 0] 2 1)) = some (7, 900)
    ∧ (s.link 0).replay = [] ∧ 2 ^ four.fld F.timCtlAvgLog2 0 ≤ four.dev.time.sum.length ∧ ¬2 ^ s.fld F.timCtlAvgLog2 0 ≤ s.dev.time.sum.length
    ∧ four.fld F.timStsState 0 = 3 ∧ four.sys.op ≠ .stabled := by decide +kernel

theorem witness_ReferencesFollow :
    let s (st : Nat) := timed .init 2 st [] id
    let a := timed .run 0 2 [(F.fmkStsRef, 0, 0), (F.timRefStsAOk, 0, 1), (F.timRefStsBOk, 0, 1), (F.timRefStsBEn, 0, 1)] id
    let b := timed .run 0 2 [(F.fmkStsRef, 0, 1), (F.timRefStsAOk, 0, 1)] id
    let none' := timed .run 0 2 [(F.fmkStsRef, 0, 2), (F.timRefStsBEn, 0, 1)] id;
    (s 0).timeSrc = 2 ∧ (s 0).sys.op = .init ∧ (s 0).fld F.timStsState 0 = 0 ∧ (s 3).measures = true ∧ (s 3).fld F.timStsState 0 = 3
    ∧ (s 4).fld F.timStsState 0 = 4 ∧ a.timeSrc ≠ 2
    ∧ a.sys.op ≠ .off ∧ a.fld F.fmkStsRef 0 = 0 ∧ a.flag (refField true) 0 = true ∧ (timed .off 0 0 [] id).sys.op = .off
    ∧ none'.fld F.fmkStsRef 0 = 2 ∧ none'.flag (refField true) 0 = false ∧ none'.flag F.timRefStsBEn 0 = true
    ∧ none'.flag F.timRefStsAOk 0 = false ∧ b.fld F.fmkStsRef 0 = 1 ∧ b.flag F.timRefStsAOk 0 = true
    ∧ (timed .run 0 2 [(F.fmkStsRef, 0, 1)] id).flag F.timRefStsAOk 0 = false := by decide +kernel

theorem witness_ReferencesFollow_reaches : (timed .init 2 0 [] id).reaches .host .timMeasLo 0 := by unfold State.reaches; decide +kernel

/-! Ill-formed commands, one for each check. -/

theorem test_wf_no_unit : (Instr.calibrationSlot 1632 128 256).wf = false ∧ (Instr.calibrationSlot 2035 128 256).wf = true := by decide

theorem test_wf_unit_twice : (Instr.internalBoundary [(1, 128, 256), (1, 129, 256)]).wf = false := by decide

theorem test_wf_two_edges : (Instr.hit 0 [(3, 5, none, 9, true), (3, 20, none, 25, true)]).wf = false := by decide

theorem test_wf_trim_count : (Instr.trimDecision 0 true 0x100001 0).wf = false := by decide

theorem test_wf_data_offset : (Instr.data 0 0 512 [1]).wf = false ∧ (Instr.data 0 0 1024 []).wf = false := by decide

theorem test_wf_ring_payload : (Instr.announcement 1 (List.replicate 257 0)).wf = false := by decide +kernel

theorem test_wf_bridge_payload : (Instr.memWr 3 0 (List.replicate 513 0)).wf = false := by decide +kernel

theorem test_wf_lamp_twice : (Instr.startPulse 0 [(2, 5), (2, 6)]).wf = false := by decide

theorem test_wf_long_row : (Instr.readoutComplete 0 (List.replicate 6145 0) [] [] [] (false, 0)).wf = false := by decide +kernel

theorem test_wf_burst_twice : (Instr.grainCopied 1 [4, 4]).wf = false := by decide

theorem test_wf_lane_counts : (Instr.test .host 0 0 [1, 2, 3]).wf = false := by decide

theorem test_wf_sensors : (Instr.temperatureSample [1, 2]).wf = false := by decide

theorem test_wf_window_spans : (Instr.bar2Write 0 []).wf = false ∧ (Instr.bar2Read 0 4097).wf = false := by decide

theorem test_wf_runt : (Instr.ethFrameReceived 0 0 true [1, 2, 3]).wf = false := by decide

theorem test_wf_eye_count : (Instr.eyeScanDone 0 0x10000000001).wf = false := by decide

theorem test_wf_access : (Instr.registerWrite .host 0 3 0).wf = false ∧ (Instr.splitLoRead .host 2).wf = false
    ∧ (Instr.splitHiWrite .host 6 0).wf = false := by decide

/-! The spec's own examples. -/

/-- "A cab-nose echo at 800 m" (after R96): 41,085 as centre 80, g = 127, s = 4, C = 5,350, N = 84, t_ref = 12.6875 ns. -/
theorem test_cab_nose_echo :
    tauCode (convTime { g := 127, skew := 4, table := some (List.replicate 80 0 ++ [41085]) } (128 * 256) 5350 84) (203 * 4096) = 683095 := by
  decide +kernel

/-- "A cab-nose schedule" (after R128): w = 0x9C2D gives 29 ns and 45 phase steps. -/
theorem test_cab_nose_draw : ditherOffset 0x9C2D 127 = 29 ∧ ditherPhase 0x9C2D true = 45 := by decide

/-- The window and the candidate of "A coach at 120 km/h" (before R150's registers): the counts of bins 20 to 27. -/
def coachWindow : FineWin × WinAcc :=
  (⟨85361, true, 53372520, 10000⟩, { bins := [(20, 2), (21, 5), (22, 8), (23, 9), (24, 7), (25, 5), (26, 3), (27, 1)], hits := 40 })

/-- Its scan: 32 counts in 64 background bins. -/
def coachScan : Scan := { bins := [(5336, 40)], gopen := 40, gclose := 5500, s0 := 8, bn := 32, bd := 64, bgLo := 48, bgHi := 112
                          taps := [32, 96, 127, 96, 32], centre := 2, nom := 0, detK := 80, minCount := 4, sv := 100 }

/-- The candidate at bin 5,336 with its span of one bin. -/
def coachCand : Cand := { b := 5336, y := 0, rcN := 10673, rcD := 2, p := 5336, lo := 5336, hi := 5336 }

/-- The range is 7,999,273 (799.9273 m). -/
theorem test_coach_range :
    qualifies coachCand coachWindow.1 = true ∧ (coachScan.claim 8 [coachWindow] [coachCand] []).map (rangeOf · 0) = [7999273] := by
  decide +kernel

/-- The window was predicted at 85,361 from echoes at 5,336.8962 ns and 5,337.2520 ns. -/
theorem test_coach_prediction :
    (predictOne true 24 [coachWindow] { coachCand with win := some 0, tauN := 53368962, tauD := 10000 }).start = 85361 := by decide +kernel

/-- "An under-floor bar at 160 km/h" (after R205): the aligned red pixel. -/
theorem test_bar_pixel : alignPixel 87 3100 3000 = 3066 := by decide

/-- The check value that RFC 3720 gives CRC-32C, and that of the Ethernet check sequence. -/
theorem test_check_sequences :
    crc32c [0x31, 0x32, 0x33, 0x34, 0x35, 0x36, 0x37, 0x38, 0x39] = 0xE3069283
      ∧ fcs [0x31, 0x32, 0x33, 0x34, 0x35, 0x36, 0x37, 0x38, 0x39] = leBytes 4 0xCBF43926 := by decide +kernel

/-- The table gives its rows no bits: no word spells a command. -/
theorem test_no_words : decodeTableWord 32 0x12345678 = none ∧ State.reset.withFetchWord 32 0 = State.reset := ⟨rfl, rfl⟩

/-- The board of R278's example: four channels of 8 GiB, FW_SIZE 2, GRAIN_LOG2 12. -/
def exampleBoard : State := ((State.reset.setReg .memCfg 0 0x0C00320F).setReg .memCap 0 28480).setReg .memHash 0 0x5A3C6E17

/-- "A DMA descriptor names device address 0x1_8000_0028" (after R278): channel, data offset, DRAM address and check byte. -/
theorem test_dram_place :
    capacity 0x0C00320F = 28480 ∧ exampleBoard.servedBy 0x180000028 = 3 ∧ exampleBoard.dramOffset 0x180000028 = 1660944424
      ∧ rawAddress 1660944424 = 0x71249268 ∧ checkAddress 1660944424 = 0x712493CD := by decide +kernel

/-- "Two balls traced" (after R448): RCV_IN_517 is L40 beside RCV_REF_32 at L43, and AE21 between the members of SEG_5_VG is a
VDDA_0V9 ball. -/
theorem test_balls_traced :
    returnBall 517 = ⟨10, 40⟩ ∧ referenceBall 32 = ⟨10, 43⟩ ∧ rowName 10 = "L" ∧ SignalGroup.video.pos 5 3 = 218
      ∧ signalBall 218 = ⟨23, 22⟩ ∧ signalBall 217 = ⟨23, 20⟩ ∧ rowName 23 = "AE"
      ∧ supplyBall ⟨23, 21⟩ = some (.rail .a0v9) := by decide

/-- The counts of R443's supply balls, from its table. -/
theorem test_supply_counts :
    let all := (List.range 34).flatMap fun r => (List.range 52).map fun c => supplyBall ⟨17 + r, c⟩
    ([.vss, .rail .a0v9, .rail .a1v8, .rail .core, .rail .io3v3, .rail .q1v05, .rail .q0v5] : List Supply).map
      (fun x => (all.filter (· = some x)).length) = [442, 96, 40, 140, 36, 48, 48] := by decide +kernel

/-! Steps. -/

/-- An empty queue is one period of the clock of C; a command at the front is taken from it. -/
theorem test_queue : (match step State.reset with
      | .next t => t.dev.time.c
      | _ => 0) = State.reset.tickNs
    ∧ (match step { State.reset with pending := [.slipCheck, .slipCheck] } with
      | .next t => t.pending
      | _ => []) = [.slipCheck] := ⟨by decide +kernel, rfl⟩

/-- The supplies' good report from OFF leads to RESET (R34). -/
theorem test_power_up : (match exec .suppliesGood { State.reset with sys := { State.reset.sys with op := .off } } with
    | .next t => t.sys.op
    | _ => .off) = .reset := by decide +kernel

end Sys2Proof.Tests
end

section
/-! SUPPORT. The way of a register access: which path a write or a read of a master takes (R13 to R17, R33, R430), where a
register stands, and what an access error leaves. -/
namespace Sys2Proof.Machine

variable {R : List Reg} {P : List Part} {s t : State} {m : Master} {r : Reg} {i a size v : Nat}

/-! From a frame to the parts a statement speaks of. -/

/-- A frame that leaves memory keeps what the statements name. -/
theorem Frame.keeps (h : Frame R P s t) (hm : Part.mem ∉ P) : keepsCore s t ∧ keepsRegs R s t ∧ keepsBytes s t := by
  have hmem : t.dev.mem = s.dev.mem := h.part .mem hm
  exact ⟨⟨h.sys, h.saf, h.fuse, h.pending⟩, fun r i hr => h.reg r i hr, fun b => by unfold State.byte; rw [hmem]⟩

/-- Only the written one of a register's instances may differ. -/
theorem keepsOthers_setReg (s : State) (r : Reg) (i v : Nat) : keepsOthers r i s (s.setReg r i v) :=
  fun _ hj => reg_setReg_ne s v (Or.inr hj.symm)

theorem Frame.unrouted (h : Frame R P s t) (hs : s.unrouted) (hR : Reg.sysEvtRoute ∉ R := by decide) : t.unrouted := by
  intro e
  rw [h.flag _ _ hR, h.flag _ _ hR, h.flag _ _ hR]
  exact hs e

theorem setReg_mod (s : State) (r : Reg) (i v : Nat) : s.setReg r i (v % 2 ^ 32) = s.setReg r i v := by
  unfold State.setReg
  rw [show BitVec.ofNat 32 (v % 2 ^ 32) = BitVec.ofNat 32 v from BitVec.eq_of_toNat_eq (by simp)]

/-! Events that are routed nowhere. -/

/-- An event that is routed nowhere sets its status bit and does nothing else (R437). -/
theorem post_unrouted (hs : s.unrouted) (e inst : Nat) :
    s.post e inst = s.setReg .sysEvtSts (e / 32) (s.reg .sysEvtSts (e / 32) ||| 2 ^ (e % 32)) := by
  obtain ⟨hirq, heq, hcore⟩ := hs e
  simp [State.post, hirq, heq, hcore]

theorem Frame.post_unrouted {e inst : Nat} (h : Frame R P s t) (hs : s.unrouted) (hn : Reg.sysEvtRoute ∉ R := by decide)
    (hR : Reg.sysEvtSts ∈ R := by decide) : Frame R P s (t.post e inst) := by
  rw [Machine.post_unrouted (h.unrouted hs hn)]
  exact h.setReg hR

/-! Access errors (R432). -/

/-- The registers that an access error moves where no event is routed. -/
abbrev accErrRegs : List Reg := [.sysAccErrCnt, .sysAccErrLast, .sysEvtSts]

theorem masterCode_lt (m : Master) : masterCode m < 8 := by cases m <;> decide

theorem Frame.accErr_unrouted (hs : s.unrouted) (m : Master) (kind addr : Nat) :
    Frame accErrRegs [] s (s.accErr m kind addr) := by
  unfold State.accErr
  exact (((Frame.refl _ _ s).bump (by decide)).setReg (by decide)).post_unrouted hs

/-- An access error is counted, and SYS_ACC_ERR_LAST names its kind and its master (R431, R432). -/
theorem accErr_shows (hs : s.unrouted) (m : Master) {kind : Nat} (hk : kind < 8) (addr : Nat) :
    s.countsError (s.accErr m kind addr) ∧ (s.accErr m kind addr).fld F.sysAccErrLastKind 0 = kind
      ∧ (s.accErr m kind addr).fld F.sysAccErrLastMaster 0 = masterCode m := by
  have hm := masterCode_lt m
  unfold State.countsError State.accErr
  set b := s.bump F.sysAccErrCntCount 0 1 with hb
  set w := packBits [(26, addr / 4), (3, kind), (3, masterCode m)] with hw
  have hu : (b.setReg .sysAccErrLast 0 w).unrouted :=
    Frame.unrouted (R := accErrRegs) (P := []) (((Frame.refl _ _ s).bump (by decide)).setReg (by decide)) hs
  rw [post_unrouted hu]
  have last : ((b.setReg .sysAccErrLast 0 w).setReg .sysEvtSts (22 / 32)
      ((b.setReg .sysAccErrLast 0 w).reg .sysEvtSts (22 / 32) ||| 2 ^ (22 % 32))).reg .sysAccErrLast 0 = w % 2 ^ 32 := by
    rw [reg_setReg_ne _ _ (Or.inl (by decide)), reg_setReg_same]
  refine ⟨?_, ?_, ?_⟩
  · rw [fld_setReg_ne _ _ (Or.inl (by decide)), fld_setReg_ne _ _ (Or.inl (by decide)), hb, fld_bump_same _ _ _ (by decide)]
    rfl
  · change bitsOf (State.reg _ .sysAccErrLast 0) 28 26 = kind
    rw [last, hw]
    simp only [bitsOf, packBits]
    omega
  · change bitsOf (State.reg _ .sysAccErrLast 0) 31 29 = masterCode m
    rw [last, hw]
    simp only [bitsOf, packBits]
    omega

/-! The lifts of the accesses. -/

theorem inCore_self {f : State → State} (h : f s = s) : inCore f s = s := by
  unfold inCore
  rw [h]

/-! The path of a write. -/

theorem masterWrite_direct (h0 : m ≠ .pair0) (h1 : m ≠ .pair1) : s.masterWrite m a size v = s.busWrite m a size v := by
  cases m with
  | pair0 => exact absurd rfl h0
  | pair1 => exact absurd rfl h1
  | _ => rfl

/-- A write into the window of histograms is ignored, or counted where the tile is dark (R33, R150). -/
theorem busWrite_window (ha : 0xC000000 ≤ a) :
    s.busWrite m a size v = if s.windowDark a then inDev (·.accErr m 1 a) s else s := by
  unfold State.busWrite
  rw [if_pos ha]

/-- A write to an address that no register holds is ignored (R16). -/
theorem busWrite_unassigned (ha : a < 0xC000000) (hr : regAt (a / 4 * 4) = none) : s.busWrite m a size v = s := by
  unfold State.busWrite
  rw [if_neg (by omega), hr]

/-- The checks of a write to a register, in their order (R13, R430, R33). -/
theorem busWrite_register (ha : a < 0xC000000) (hr : regAt (a / 4 * 4) = some (r, i)) :
    s.busWrite m a size v =
      if size ≠ 4 ∨ a % 4 ≠ 0 then inDev (·.accErr m 0 a) s
      else if !s.mayWrite m r then inDev (·.accErr m 3 a) s
      else if !s.powered r i then inDev (·.accErr m 1 a) s
      else if r = .sysMbxCmd then s.mbxWrite i (v / 65536 % 256) (v % 256) (bitOf v 31)
      else inDev (fun t => t.writeReg m r i (v % 2 ^ 32) a) s := by
  unfold State.busWrite
  rw [if_neg (by omega), hr]

/-- A write that reaches a register other than a mailbox's command. -/
theorem busWrite_reaching (ha : a < 0xC000000) (hal : a % 4 = 0) (hr : regAt a = some (r, i)) (hm : s.mayWrite m r = true)
    (hp : s.powered r i = true) (hc : r ≠ .sysMbxCmd) :
    s.busWrite m a 4 v = inDev (fun t => t.writeReg m r i (v % 2 ^ 32) a) s := by
  have hal4 : a / 4 * 4 = a := by omega
  rw [busWrite_register ha (by rw [hal4]; exact hr)]
  simp [hal, hm, hp, hc]

/-- A read of an address that no register holds gives 0 and changes nothing (R16). -/
theorem busRead_unassigned (ha : a < 0xC000000) (hr : regAt (a / 4 * 4) = none) : s.busRead m a size = (0, s) := by
  unfold State.busRead
  dsimp only
  rw [if_neg (by omega), hr]

/-- Settles O59: the fabric finds no register at the address, and leaves the state as it is. -/
theorem unassignedAddresses : Obligations.UnassignedAddresses := by
  intro m addr size v s ha hr
  refine ⟨busRead_unassigned ha hr, busWrite_unassigned ha hr, fun h0 h1 => ?_⟩
  have hw : s.masterWrite m addr.toNat size v.toNat = s := by
    rw [masterWrite_direct h0 h1]
    exact busWrite_unassigned ha hr
  exact congrArg Host.Outcome.next (inCore_self hw)

end Sys2Proof.Machine
end

section
/-! SUPPORT. A MEM_RD of no bytes whose address lies inside an uncorrectable word of general SRAM: the span it reads is empty, yet the
word is counted and logged, where the statement of bridge transactions lets such a read change no register. -/
namespace Sys2Proof.Machine

/-- A device whose link 2 is a host bridge in UP and whose first word of general SRAM is uncorrectable. -/
def spoiltBridge : State :=
  ((State.reset.setFld F.lnkCtlRole 2 4).setFld F.lnkStsState 2 4).onDev fun d => { d with poison := [sramBase] }

theorem frame_spoiltBridge : Frame [.lnkCtl, .lnkSts] [.poison] State.reset spoiltBridge :=
  (((Frame.refl _ _ _).setFld (by decide)).setFld (by decide)).onDev (fun _ => rfl)
    (fun _ p hp => by cases p <;> first | rfl | exact absurd (by decide) hp)

theorem reset_quiet : State.reset.quiet := by
  have route (e : Nat) : State.reset.reg .sysEvtRoute e = 0 := by rfl
  have stream (n : Nat) : State.reset.reg .acqStrCtl n = 0 := by rfl
  refine ⟨fun e => ?_, fun n => ?_⟩
  · simp [State.flag, State.fld, route, bitsOf]
  · simp [State.flag, State.fld, stream, bitsOf]

theorem spoiltBridge_quiet : spoiltBridge.quiet :=
  ⟨frame_spoiltBridge.unrouted reset_quiet.1, fun n => by
    rw [frame_spoiltBridge.flag _ _ (by decide)]; exact reset_quiet.2 n⟩

theorem spoiltBridge_up : spoiltBridge.bridgeUp 2 = true := by decide +kernel

/-- What the read leaves: the count of uncorrectable words of general SRAM has moved. -/
theorem emptyRead_counts :
    (match exec (.memRd 2 (BitVec.ofNat 64 (sramBase + 4)) 0 0 [] false) spoiltBridge with
      | .next t => t.reg .memSramUeCnt 0
      | _ => 0) ≠ spoiltBridge.reg .memSramUeCnt 0 := by decide +kernel

/-- Refutes O48: a MEM_RD of 0 bytes is answered with STATUS 1, and the statement lets it change no register. Where its address lies
inside an uncorrectable word of general SRAM the empty span still touches the word, which is counted and logged (R273). -/
theorem not_bridgeTransactions : ¬ Obligations.BridgeTransactions := by
  intro h
  obtain ⟨-, hup⟩ := h 2 [] [] false (BitVec.ofNat 64 (sramBase + 4)) 0 0 0 0 0 0 spoiltBridge spoiltBridge_quiet rfl
  obtain ⟨-, -, -, -, -, hread, -⟩ := hup spoiltBridge_up
  obtain ⟨t, ht, -, hregs, -⟩ := hread (Or.inl (by decide))
  have hcount := emptyRead_counts
  rw [ht] at hcount
  exact hcount (hregs .memSramUeCnt 0 (by decide))

end Sys2Proof.Machine
end

section
/-! SUPPORT. Where register instances stand (R429), and what a write and a read do once they have reached their register (R9, R13 to
R17, R431). -/
namespace Sys2Proof.Machine

variable {R : List Reg} {P : List Part} {s t : State} {m : Master} {r l h : Reg} {i a size v : Nat} {lo : Option Nat}

/-! Addresses. -/

/-- How many instances a list of strides spans. -/
def instances (dims : List (Nat × Nat)) : Nat := dims.foldl (fun n d => n * d.1) 1

theorem foldl_mul_eq (dims : List (Nat × Nat)) (n : Nat) : dims.foldl (fun n d => n * d.1) n = n * instances dims := by
  unfold instances
  induction dims generalizing n with
  | nil => simp
  | cons d dims ih => rw [List.foldl_cons, List.foldl_cons, ih, ih (1 * d.1)]; ring

theorem instances_cons (d : Nat × Nat) (dims : List (Nat × Nat)) : instances (d :: dims) = d.1 * instances dims := by
  unfold instances
  rw [List.foldl_cons, foldl_mul_eq, Nat.one_mul]
  rfl

/-- What is found at a distance stands at that distance. -/
theorem offsetIn_of_indexIn {dims : List (Nat × Nat)} (hd : ∀ d ∈ dims, 0 < d.1) {off k : Nat}
    (hk : Reg.indexIn dims off = some k) : Reg.offsetIn dims k = off ∧ k < instances dims := by
  induction dims generalizing off k with
  | nil =>
    by_cases h0 : off = 0 <;> simp only [Reg.indexIn, h0, if_true, if_false, reduceCtorEq, Option.some.injEq] at hk
    subst hk
    exact ⟨h0.symm, by decide⟩
  | cons d dims ih =>
    have hpos : 0 < d.1 := hd d (by simp)
    simp only [Reg.indexIn] at hk
    set q := min (off / d.2) (d.1 - 1) with hq
    split at hk
    next k' hk' =>
      obtain ⟨hoff, hlt⟩ := ih (fun e he => hd e (by simp [he])) hk'
      obtain rfl : q * instances dims + k' = k := Option.some.inj hk
      have hqd : q * d.2 ≤ off :=
        (Nat.mul_le_mul_right _ (Nat.min_le_left _ _)).trans (Nat.div_mul_le_self off d.2)
      have hdiv : (q * instances dims + k') / instances dims = q := by
        rw [Nat.mul_comm, Nat.mul_add_div (by omega), Nat.div_eq_of_lt hlt, Nat.add_zero]
      have hmod : (q * instances dims + k') % instances dims = k' := by
        rw [Nat.mul_comm, Nat.mul_add_mod, Nat.mod_eq_of_lt hlt]
      refine ⟨?_, ?_⟩
      · change (q * instances dims + k') / instances dims * d.2
          + Reg.offsetIn dims ((q * instances dims + k') % instances dims) = off
        rw [hdiv, hmod, hoff]
        omega
      · rw [instances_cons]
        calc q * instances dims + k' < q * instances dims + instances dims := by omega
          _ = (q + 1) * instances dims := by ring
          _ ≤ d.1 * instances dims := Nat.mul_le_mul_right _ (by omega)
    next => simp at hk

theorem dims_pos (r : Reg) : ∀ d ∈ r.dims, 0 < d.1 := by cases r <;> decide

/-- The register found at an address stands there (R429). -/
theorem addr_of_regAt (hr : regAt a = some (r, i)) : r.addr i = a := by
  obtain ⟨q, -, hq⟩ := List.exists_of_findSome?_eq_some hr
  unfold Reg.at at hq
  split at hq
  next hle =>
    split at hq
    next k hk =>
      obtain ⟨rfl, rfl⟩ : q = r ∧ k = i := by simpa using hq
      have hoff := (offsetIn_of_indexIn (dims_pos q) hk).1
      unfold Reg.addr
      omega
    next => simp at hq
  next => simp at hq

/-- A register stands at its address, aligned and below the window of histograms. -/
def Placed (r : Reg) (i : Nat) : Prop := r.addr i < 0xC000000 ∧ r.addr i % 4 = 0 ∧ regAt (r.addr i) = some (r, i)

/-- The registers with a command of their own stand where the commands write them. -/
theorem placed_all : Placed .fmkLogTail 0 ∧ Placed .timMeasLo 0 ∧ Placed .timMeasHi 0 ∧ (∀ n : Fin 5, Placed .pwrDomCtl n)
    ∧ ∀ e : Fin 64, Placed .sysEvtRoute e := by
  unfold Placed
  decide +kernel

theorem placed_fmkLogTail : Placed .fmkLogTail 0 := placed_all.1

theorem placed_timMeasLo : Placed .timMeasLo 0 := placed_all.2.1

theorem placed_timMeasHi : Placed .timMeasHi 0 := placed_all.2.2.1

theorem placed_pwrDomCtl (n : Fin 5) : Placed .pwrDomCtl n := placed_all.2.2.2.1 n

theorem placed_sysEvtRoute (e : Fin 64) : Placed .sysEvtRoute e := placed_all.2.2.2.2 e

/-! A write that has reached its register. -/

theorem mayWrite_of_ne_debug (hm : m ≠ .debug) (r : Reg) : s.mayWrite m r = true := by simp [State.mayWrite, hm]

/-- A master that reaches a register writes it at its address. -/
theorem writeAt_reaching (hp : Placed r i) (hr : s.reaches m r i) (hc : r ≠ .sysMbxCmd) (v : Nat) :
    s.writeAt m r i v = inDev (fun t => t.writeReg m r i (v % 2 ^ 32) (r.addr i)) s := by
  obtain ⟨hlt, hal, hat⟩ := hp
  obtain ⟨h0, h1, hd, hpow⟩ := hr
  unfold State.writeAt
  rw [masterWrite_direct h0 h1, busWrite_reaching hlt hal hat (mayWrite_of_ne_debug hd r) hpow hc]

theorem writeReg_single (hf : heldFor r = none) (hl : lowHalf r = none) :
    s.writeReg m r i v a = s.applyWrite m r i v a none := by
  unfold State.writeReg
  rw [hf, hl]

/-- The low half that a master holds for a register is used up (R17). -/
def State.dropHeld (s : State) (k : Nat) : State := s.onDev fun d => { d with heldLo := smPut none d.heldLo k none }

/-- A write of a high half takes the low half held for its master (R17). -/
theorem writeReg_high (hf : heldFor r = none) (hl : lowHalf r = some l) :
    s.writeReg m r i v a = (s.dropHeld (halfKey m (l.addr i))).applyWrite m r i v a
      (smGet none s.dev.heldLo (halfKey m (l.addr i))) := by
  unfold State.writeReg
  rw [hf, hl]
  rfl

theorem Frame.dropHeld (h : Frame R P s t) (hP : Part.heldLo ∈ P) (k : Nat) : Frame R P s (t.dropHeld k) :=
  h.onDev (fun _ => rfl) (fun d p n => by cases p <;> first | rfl | exact absurd hP n)

/-- A register of which a write is stored as a word where it is not refused: it is no command of its own, no parameter set or owner of
another resource stops it, all values of its ranges go together, and nothing must happen before it is stored. -/
structure Unguarded (r : Reg) : Prop where
  mailbox : r ≠ .sysMbxCmd
  shade : r ≠ .linShade
  period : r ≠ .emtPortPeriod
  held : heldFor r = none
  judged : loadJudged r = false
  command : ∀ (s : State) m i v a lo, s.commandReg m r i v a lo = none
  locked : ∀ (s : State) i, s.setLocked r i = false
  fixed : ∀ i, wordFixed r i = false
  values : ∀ (t : State) i, t.valueOk r i = true
  owner : ∀ (s t : State) i, s.ownerStops t r i = none
  before : ∀ (s t : State) i, s.beforeWrite t r i = s

theorem Unguarded.outOfRange (u : Unguarded r) (hl : lowHalf r = none) (hv : inRanges r v = false) :
    s.writeReg m r i v a = s.accErr m 2 a := by
  rw [writeReg_single u.held hl]
  unfold State.applyWrite
  rw [u.command]
  simp [u.locked, u.fixed, hv, u.period]

theorem Unguarded.applyWrite (u : Unguarded r) (hv : inRanges r v = true) :
    s.applyWrite m r i v a lo = s.applyChecked (s.merged r i v lo) m r i v a := by
  unfold State.applyWrite
  rw [u.command]
  simp [u.locked, u.fixed, hv, u.values, u.owner]

/-- A rule of another chapter refuses the write (R431). -/
theorem Unguarded.refused (u : Unguarded r) (hl : lowHalf r = none) (hv : inRanges r v = true) {x : Nat × State}
    (hx : refusedBy s (s.merged r i v none) r i v = some x) : s.writeReg m r i v a = x.2.accErr m x.1 a := by
  rw [writeReg_single u.held hl, u.applyWrite hv]
  unfold State.applyChecked
  simp [u.judged, hx]

/-- Where no rule refuses the write the word is stored, and what it starts follows. -/
theorem Unguarded.applyChecked_single (u : Unguarded r) (hl : lowHalf r = none) (hx : refusedBy s t r i v = none) :
    s.applyChecked t m r i v a = s.afterWrite (s.setReg r i (t.reg r i)) r i v := by
  unfold State.applyChecked
  simp [hx, u.shade, u.before, hl]

/-- The same of a high half, which is stored with its low half (R17). -/
theorem Unguarded.applyChecked_pair (u : Unguarded r) (hl : lowHalf r = some l) (hx : refusedBy s t r i v = none) :
    s.applyChecked t m r i v a = s.afterWrite ((s.setReg l i (t.reg l i)).setReg r i (t.reg r i)) r i v := by
  unfold State.applyChecked
  simp [hx, u.shade, u.before, hl]

theorem merged_single (hl : lowHalf r = none) :
    s.merged r i v none = s.setReg r i (mergeWord r i (s.reg r i) v) := by
  unfold State.merged
  rw [hl]

/-- A write that nothing refuses stores its word, and starts what the register starts (R14). -/
theorem Unguarded.stored (u : Unguarded r) (hl : lowHalf r = none) (hv : inRanges r v = true)
    (hx : refusedBy s (s.merged r i v none) r i v = none) :
    s.writeReg m r i v a = s.afterWrite (s.setReg r i (mergeWord r i (s.reg r i) v)) r i v := by
  rw [writeReg_single u.held hl, u.applyWrite hv, u.applyChecked_single hl hx, merged_single hl, reg_setReg_same, setReg_mod]

end Sys2Proof.Machine
end

section
/-! SUPPORT. The registers whose writes and reads have a clause of their own (R14, R17, R305, R370, R437): plain registers, the halves
of a split register, the log's TAIL and the event routes. -/
namespace Sys2Proof.Machine

variable {R : List Reg} {P : List Part} {s t : State} {m : Master} {r l h : Reg} {i j a v w : Nat}

/-! Bits of a word. -/

theorem bitOf_eq_bitsOf (w i : Nat) : bitOf w i = decide (bitsOf w i i = 1) := by simp [bitOf, bitsOf]

/-- A field of a word is a field of the number it is cut from. -/
theorem bitsOf_mod_word {hi lo : Nat} (u : Nat) (hl : lo ≤ hi) (hh : hi < 32) : bitsOf (u % 2 ^ 32) hi lo = bitsOf u hi lo := by
  have hd : (2 : Nat) ^ (lo + (hi - lo + 1)) ∣ 2 ^ 32 := pow_dvd_pow 2 (by omega)
  unfold bitsOf
  rw [← Nat.mod_mul_right_div_self, ← Nat.mod_mul_right_div_self (m := u), ← pow_add, Nat.mod_mod_of_dvd u hd]

theorem bitOf_putBits_same (hi : i < 32) (b : Bool) : bitOf (putBits w i i (b2n b) % 2 ^ 32) i = b := by
  rw [bitOf_eq_bitsOf, bitsOf_mod_word _ le_rfl hi, bitsOf_putBits_same _ _ le_rfl]
  cases b <;> simp [b2n]

theorem bitOf_putBits_ne (hj : j < 32) (hij : i ≠ j) (b : Bool) :
    bitOf (putBits w i i (b2n b) % 2 ^ 32) j = bitOf w j := by
  rw [bitOf_eq_bitsOf, bitOf_eq_bitsOf, bitsOf_mod_word _ le_rfl hj]
  rcases Nat.lt_or_gt_of_ne hij with hlt | hgt
  · rw [bitsOf_putBits_above _ _ le_rfl hlt]
  · rw [bitsOf_putBits_below _ _ le_rfl le_rfl hgt]

/-! Plain registers. -/

/-- The registers of the statement whose writes start nothing and meet no rule of another chapter. -/
def plainRegs : List Reg := [.timServo, .timAlign, .timLinkAsym, .ethAsym, .ethTxqTag, .ethClsMatch, .ethClsAct, .ethRxrBase,
  .ethRxrSize, .pciCplTo, .pwrSupCfg, .sysMbxArg]

theorem unguarded_of_plain (hr : r ∈ plainRegs) : Unguarded r := by
  simp only [plainRegs, List.mem_cons, List.not_mem_nil, or_false] at hr
  rcases hr with rfl | rfl | rfl | rfl | rfl | rfl | rfl | rfl | rfl | rfl | rfl | rfl <;>
    exact { mailbox := by decide, shade := by decide, period := by decide, held := by decide +kernel, judged := by rfl,
            command := fun _ _ _ _ _ _ => by rfl, locked := fun _ _ => by rfl, fixed := fun _ => by rfl,
            values := fun _ _ => by rfl, owner := fun _ _ _ => by rfl, before := fun _ _ _ => by rfl }

theorem lowHalf_plain (hr : r ∈ plainRegs) : lowHalf r = none := by
  simp only [plainRegs, List.mem_cons, List.not_mem_nil, or_false] at hr
  rcases hr with rfl | rfl | rfl | rfl | rfl | rfl | rfl | rfl | rfl | rfl | rfl | rfl <;> rfl

theorem refusedBy_plain (hr : r ∈ plainRegs) : refusedBy s t r i v = none := by
  simp only [plainRegs, List.mem_cons, List.not_mem_nil, or_false] at hr
  rcases hr with rfl | rfl | rfl | rfl | rfl | rfl | rfl | rfl | rfl | rfl | rfl | rfl <;> rfl

theorem afterWrite_plain (hr : r ∈ plainRegs) : s.afterWrite t r i v = t := by
  simp only [plainRegs, List.mem_cons, List.not_mem_nil, or_false] at hr
  rcases hr with rfl | rfl | rfl | rfl | rfl | rfl | rfl | rfl | rfl | rfl | rfl | rfl <;> rfl

/-- A value outside its range is refused with kind 2 (R9, R431). -/
theorem writeReg_plain_refused (hr : r ∈ plainRegs) (hv : inRanges r v = false) : s.writeReg m r i v a = s.accErr m 2 a :=
  (unguarded_of_plain hr).outOfRange (lowHalf_plain hr) hv

/-- A plain register stores the fields that the write may change (R14). -/
theorem writeReg_plain (hr : r ∈ plainRegs) (hv : inRanges r v = true) :
    s.writeReg m r i v a = s.setReg r i (mergeWord r i (s.reg r i) v) := by
  rw [(unguarded_of_plain hr).stored (lowHalf_plain hr) hv (refusedBy_plain hr), afterWrite_plain hr]

/-! TAIL of the fault log. -/

theorem unguarded_fmkLogTail : Unguarded .fmkLogTail :=
  { mailbox := by decide, shade := by decide, period := by decide, held := by decide +kernel, judged := by rfl,
    command := fun _ _ _ _ _ _ => by rfl, locked := fun _ _ => by rfl, fixed := fun _ => by rfl,
    values := fun _ _ => by rfl, owner := fun _ _ _ => by rfl, before := fun _ _ _ => by rfl }

theorem fields_fmkLogTail : Reg.fields .fmkLogTail = [⟨31, 9, .rsv, 0, 8388607⟩, ⟨8, 0, .rws, 0, 511⟩] := by rfl

theorem lowHalf_fmkLogTail : lowHalf .fmkLogTail = none := by rfl

theorem inRanges_fmkLogTail (v : Nat) : inRanges .fmkLogTail v = true := by
  have hlt := bitsOf_lt v 8 0
  simp [inRanges, fields_fmkLogTail]
  omega

/-- Only R370 refuses a write of TAIL. -/
theorem refusedBy_fmkLogTail : refusedBy s t .fmkLogTail i v = refuseLinks s t .fmkLogTail i v := by
  change (refuseLinks s t .fmkLogTail i v).orElse (fun _ => none) = _
  cases refuseLinks s t .fmkLogTail i v <;> rfl

theorem refuseLinks_fmkLogTail : refuseLinks s t .fmkLogTail i v = none ∨ refuseLinks s t .fmkLogTail i v = some (4, s) := by
  unfold refuseLinks
  dsimp only
  split
  · exact Or.inr rfl
  · exact Or.inl rfl

theorem writeReg_fmkLogTail (hx : refuseLinks s (s.merged .fmkLogTail i v none) .fmkLogTail i v = none) :
    s.writeReg m .fmkLogTail i v a = s.setFld F.fmkLogTailTail i v := by
  rw [unguarded_fmkLogTail.stored lowHalf_fmkLogTail (inRanges_fmkLogTail v) (refusedBy_fmkLogTail.trans hx)]
  change s.setFld F.fmkLogTailTail i (bitsOf v 8 0) = _
  unfold State.setFld putBits
  simp [bitsOf]

theorem writeReg_fmkLogTail_refused (hx : refuseLinks s (s.merged .fmkLogTail i v none) .fmkLogTail i v ≠ none) :
    s.writeReg m .fmkLogTail i v a = s.accErr m 4 a := by
  have hx4 := refuseLinks_fmkLogTail.resolve_left hx
  rw [unguarded_fmkLogTail.refused lowHalf_fmkLogTail (inRanges_fmkLogTail v) (refusedBy_fmkLogTail.trans hx4)]

/-! Event routes (R437). -/

theorem unguarded_sysEvtRoute : Unguarded .sysEvtRoute :=
  { mailbox := by decide, shade := by decide, period := by decide, held := by decide +kernel, judged := by rfl,
    command := fun _ _ _ _ _ _ => by rfl, locked := fun _ _ => by rfl, fixed := fun _ => by rfl,
    values := fun _ _ => by rfl, owner := fun _ _ _ => by rfl, before := fun _ _ _ => by rfl }

theorem fields_sysEvtRoute : Reg.fields .sysEvtRoute = [⟨31, 31, .rw, 0, 1⟩, ⟨30, 30, .rw, 0, 1⟩, ⟨29, 29, .rw, 0, 1⟩,
    ⟨28, 28, .rw, 0, 1⟩, ⟨27, 16, .rw, 0, 4095⟩, ⟨15, 11, .rsv, 0, 31⟩, ⟨10, 0, .rw, 0, 2047⟩] := by rfl

theorem lowHalf_sysEvtRoute : lowHalf .sysEvtRoute = none := by rfl

theorem refusedBy_sysEvtRoute : refusedBy s t .sysEvtRoute i v = none := by rfl

theorem inRanges_sysEvtRoute (v : Nat) : inRanges .sysEvtRoute v = true := by
  have h31 := bitsOf_lt v 31 31
  have h30 := bitsOf_lt v 30 30
  have h29 := bitsOf_lt v 29 29
  have h28 := bitsOf_lt v 28 28
  have h27 := bitsOf_lt v 27 16
  have h10 := bitsOf_lt v 10 0
  simp [inRanges, fields_sysEvtRoute]
  omega

theorem writeReg_sysEvtRoute :
    s.writeReg m .sysEvtRoute i v a
      = s.routeWritten (s.setReg .sysEvtRoute i (mergeWord .sysEvtRoute i (s.reg .sysEvtRoute i) v)) i := by
  rw [unguarded_sysEvtRoute.stored lowHalf_sysEvtRoute (inRanges_sysEvtRoute v) refusedBy_sysEvtRoute]
  rfl

theorem mergeWord_sysEvtRoute : mergeWord .sysEvtRoute i w v = copyBits v (copyBits v (copyBits v (copyBits v (copyBits v
    (copyBits v w 31 31) 30 30) 29 29) 28 28) 27 16) 10 0 := by rfl

/-- The written word takes IRQ_EN from the value. -/
theorem irqEn_of_written :
    (s.setReg .sysEvtRoute i (mergeWord .sysEvtRoute i (s.reg .sysEvtRoute i) v)).flag F.sysEvtRouteIrqEn i = bitOf v 31 := by
  have hbit : bitsOf (mergeWord .sysEvtRoute i (s.reg .sysEvtRoute i) v) 31 31 = bitsOf v 31 31 := by
    rw [mergeWord_sysEvtRoute]
    unfold copyBits
    iterate 5 rw [bitsOf_putBits_above _ _ (by decide) (by decide)]
    rw [bitsOf_putBits_same _ _ le_rfl]
    exact Nat.mod_eq_of_lt (bitsOf_lt v 31 31)
  unfold State.flag State.fld
  rw [reg_setReg_same, bitsOf_mod_word _ (by decide) (by decide), bitOf_eq_bitsOf, hbit]

/-- A route that is written with IRQ_EN 0, of an event that no vector can carry, or of one whose status bit is clear sends nothing. -/
theorem routeWritten_silent (h : t.flag F.sysEvtRouteIrqEn i = false ∨ 23 ≤ i ∨ bitOf (t.reg .sysEvtSts 0) i = false) :
    s.routeWritten t i = t := by
  unfold State.routeWritten
  rw [if_neg]
  rcases h with h | h | h <;> simp [h]

/-- A route that gains IRQ_EN while the status bit of its event stands sends its vector. -/
theorem routeWritten_sends (hs : s.flag F.sysEvtRouteIrqEn i = false) (ht : t.flag F.sysEvtRouteIrqEn i = true) (hi : i < 23)
    (hb : bitOf (t.reg .sysEvtSts 0) i = true) : s.routeWritten t i = t.sendVector (t.fld F.sysEvtRouteVector i) := by
  unfold State.routeWritten
  rw [if_pos]
  simp [hs, ht, hi, hb]

theorem Frame.routeWritten (h : Frame R P s t) (u : State) (i : Nat) (hR : Reg.pciMsixPba ∈ R := by decide)
    (hP : [Part.links, .out, .pci] ⊆ P := by decide) : Frame R P s (u.routeWritten t i) :=
  Frame.ite (fun _ => h.sendVector (by simpa using hR) hP) (fun _ => h)

/-! Vectors (R305). -/

/-- A masked vector keeps its pending bit. -/
theorem sendVector_masked (hv : s.vectorMasked v = true) :
    bitOf ((s.sendVector v).reg .pciMsixPba (v / 32)) (v % 32) = true := by
  unfold State.sendVector State.setPba
  rw [if_pos hv, reg_setReg_same]
  exact bitOf_putBits_same (by omega) true

end Sys2Proof.Machine
end

section
/-! SUPPORT. The halves of a split register (R17): a read of a low half latches its high half, and a write of a high half takes the low
half held for its master. -/
namespace Sys2Proof.Machine

variable {R : List Reg} {P : List Part} {s t : State} {m : Master} {r h : Reg} {i a v w : Nat}

/-! Reading a low half. -/

theorem highHalf_ethTsHi : highHalf .ethTsHi = none := by decide +kernel

theorem highHalf_timNowLo : highHalf .timNowLo = some .timNowHi := by decide +kernel

theorem ne_ethTsHi_of_highHalf (hh : highHalf r = some h) : r ≠ .ethTsHi := by
  rintro rfl
  rw [highHalf_ethTsHi] at hh
  cases hh

/-- A read that reaches its register (R13, R33, R430). -/
theorem busRead_reaching (ha : a < 0xC000000) (hal : a % 4 = 0) (hr : regAt a = some (r, i)) (hm : s.mayRead m r = true)
    (hp : s.powered r i = true) : s.busRead m a 4 = s.readReg m r i := by
  have hal4 : a / 4 * 4 = a := by omega
  unfold State.busRead
  dsimp only
  rw [if_neg (by omega), hal4, hr]
  simp [hal, hm, hp]

/-- A read latches nothing but shadows. -/
theorem frame_latch (s : State) (m : Master) (r : Reg) (i : Nat) : Frame [] [.shadow] s (s.latch m r i) := by
  have put : ∀ (u : State) (k : Nat) (x : Option Nat), Frame [] [.shadow] s u →
      Frame [] [.shadow] s (u.onDev fun d => { d with shadow := smPut none d.shadow k x }) := fun u k x hu =>
    hu.onDev (fun _ => rfl) (fun d p n => by cases p <;> first | rfl | exact absurd (by decide) n)
  unfold State.latch
  dsimp only
  split
  · exact Frame.ite (fun _ => put _ _ _ (put _ _ _ (Frame.refl _ _ _))) (fun _ => put _ _ _ (Frame.refl _ _ _))
  · exact Frame.refl _ _ _

/-- A read of a low half holds its high half for its master. -/
theorem latch_shadow (hh : highHalf r = some h) :
    smGet none (s.latch m r i).dev.shadow (halfKey m (h.addr i)) = some (s.readWord h i) := by
  unfold State.latch
  dsimp only
  rw [hh]
  dsimp only
  by_cases hr : r = .timNowLo
  · subst hr
    obtain rfl : Reg.timNowHi = h := by rw [highHalf_timNowLo] at hh; exact Option.some.inj hh
    have hkey : halfKey m (Reg.timNowFrac.addr i) ≠ halfKey m (Reg.timNowHi.addr i) := by
      have hf : Reg.timNowFrac.addr i = 0x300018 := by rfl
      have hi : Reg.timNowHi.addr i = 0x300014 := by rfl
      unfold halfKey
      omega
    rw [if_pos rfl]
    simp only [onDev_dev, smGet_put_ne _ _ _ _ hkey, smGet_put_same]
  · rw [if_neg hr]
    simp only [onDev_dev, smGet_put_same]

theorem readReg_low (hh : highHalf r = some h) (hk : smGet none s.dev.shadow (halfKey m (r.addr i)) = none) :
    s.readReg m r i = (s.readWord r i, s.latch m r i) := by
  unfold State.readReg
  dsimp only
  rw [hk]
  simp [ne_ethTsHi_of_highHalf hh]

theorem masterRead_direct (h0 : m ≠ .pair0) (h1 : m ≠ .pair1) :
    s.masterRead m a v = ((s.busRead m a v).1, s.takeDev (s.busRead m a v).2) := by
  cases m with
  | pair0 => exact absurd rfl h0
  | pair1 => exact absurd rfl h1
  | _ => rfl

theorem Frame.takeDev (h : Frame R P s t) : Frame R P s (s.takeDev t) := ⟨rfl, rfl, rfl, rfl, h.reg, h.part⟩

/-! Writing a high half: a bridge's base address. -/

/-- The fields of a word that is one field are its 32 bits. -/
theorem copyBits_word (v w : Nat) : copyBits v w 31 0 % 2 ^ 32 = v % 2 ^ 32 := by
  have whole : ∀ u : Nat, u % 2 ^ 32 = bitsOf u 31 0 := by intro u; simp [bitsOf]
  unfold copyBits
  rw [whole, bitsOf_putBits_same _ _ (by decide), ← whole]
  exact Nat.mod_mod _ _

theorem unguarded_lnkBrBaseHi : Unguarded .lnkBrBaseHi :=
  { mailbox := by decide, shade := by decide, period := by decide, held := by decide +kernel, judged := by rfl,
    command := fun _ _ _ _ _ _ => by rfl, locked := fun _ _ => by rfl, fixed := fun _ => by rfl,
    values := fun _ _ => by rfl, owner := fun _ _ _ => by rfl, before := fun _ _ _ => by rfl }

theorem fields_lnkBrBaseHi : Reg.fields .lnkBrBaseHi = [⟨31, 0, .rw, 0, 4294967295⟩] := by rfl

theorem inRanges_lnkBrBaseHi (v : Nat) : inRanges .lnkBrBaseHi v = true := by
  have hlt := bitsOf_lt v 31 0
  simp [inRanges, fields_lnkBrBaseHi]
  omega

theorem lowHalf_lnkBrBaseHi : lowHalf .lnkBrBaseHi = some .lnkBrBaseLo := by rfl

theorem refusedBy_lnkBrBaseHi : refusedBy s t .lnkBrBaseHi i v = none := by rfl

theorem afterWrite_lnkBrBaseHi : s.afterWrite t .lnkBrBaseHi i v = t := by rfl

theorem merged_lnkBrBaseHi_hi (lo : Option Nat) : (s.merged .lnkBrBaseHi i v lo).reg .lnkBrBaseHi i = v % 2 ^ 32 := by
  have word : mergeWord .lnkBrBaseHi i (s.reg .lnkBrBaseHi i) v = copyBits v (s.reg .lnkBrBaseHi i) 31 0 := by rfl
  unfold State.merged
  rw [word, reg_setReg_same, copyBits_word]

theorem merged_lnkBrBaseHi_lo (lo : Option Nat) :
    (s.merged .lnkBrBaseHi i v lo).reg .lnkBrBaseLo i = lo.getD (s.reg .lnkBrBaseLo i) % 2 ^ 32 := by
  unfold State.merged
  rw [reg_setReg_ne _ _ (Or.inl (by decide))]
  cases lo with
  | none => exact (Nat.mod_eq_of_lt (reg_lt s .lnkBrBaseLo i)).symm
  | some x =>
    have word : mergeWord .lnkBrBaseLo i (s.reg .lnkBrBaseLo i) x = copyBits x (s.reg .lnkBrBaseLo i) 31 0 := by rfl
    change (s.setReg .lnkBrBaseLo i (mergeWord .lnkBrBaseLo i (s.reg .lnkBrBaseLo i) x)).reg .lnkBrBaseLo i = _
    rw [word, reg_setReg_same, copyBits_word]
    rfl

/-- A bridge's base address is written as a whole: the high half with the low half held, which is used up, or alone (R17). -/
theorem writeReg_lnkBrBaseHi : s.writeReg m .lnkBrBaseHi i v a
    = ((s.dropHeld (halfKey m (Reg.lnkBrBaseLo.addr i))).setReg .lnkBrBaseLo i
        ((smGet none s.dev.heldLo (halfKey m (Reg.lnkBrBaseLo.addr i))).getD (s.reg .lnkBrBaseLo i))).setReg .lnkBrBaseHi i v := by
  rw [writeReg_high unguarded_lnkBrBaseHi.held lowHalf_lnkBrBaseHi, unguarded_lnkBrBaseHi.applyWrite (inRanges_lnkBrBaseHi v),
    unguarded_lnkBrBaseHi.applyChecked_pair lowHalf_lnkBrBaseHi refusedBy_lnkBrBaseHi, afterWrite_lnkBrBaseHi,
    merged_lnkBrBaseHi_hi, merged_lnkBrBaseHi_lo, setReg_mod, setReg_mod]
  rfl

end Sys2Proof.Machine
end

section
/-! SUPPORT. Power domains (R416 to R418): what switching a domain off or on leaves of the operating state, the safety channels, the
fuses and the domain registers. -/
namespace Sys2Proof.Machine

variable {R : List Reg} {P : List Part} {s t u : State} {r : Reg} {x : RegField} {d e i v : Nat}

/-! Domain bits. -/

theorem domBit_setDomBit_same (s : State) (r : Reg) (d : Nat) (b : Bool) : (s.setDomBit r d b).domBit r d = b := by
  unfold State.domBit State.setDomBit
  rw [reg_setReg_same]
  exact bitOf_putBits_same (Nat.mod_lt _ (by decide)) b

theorem domBit_setDomBit_ne (s : State) (r : Reg) (b : Bool) (h : d ≠ e) : (s.setDomBit r d b).domBit r e = s.domBit r e := by
  unfold State.domBit State.setDomBit
  by_cases hq : d / 32 = e / 32
  · rw [← hq, reg_setReg_same]
    exact bitOf_putBits_ne (Nat.mod_lt _ (by decide)) (by omega) b
  · rw [reg_setReg_ne _ _ (Or.inr hq)]

/-! What the domain registers survive. -/

/-- The registers of the domains: to be on, and good. -/
abbrev powerRegs : List Reg := [.pwrDomCtl, .pwrDomSts]

/-- From `s` to `t` the device part alone may differ, and of it not the domain registers. -/
structure SparesPower (s t : State) : Prop where
  core : keepsCore s t
  reg : ∀ r i, r ∈ powerRegs → t.reg r i = s.reg r i

namespace SparesPower

theorem refl (s : State) : SparesPower s s := ⟨⟨rfl, rfl, rfl, rfl⟩, fun _ _ _ => rfl⟩

theorem trans (h : SparesPower s t) (k : SparesPower t u) : SparesPower s u := by
  obtain ⟨⟨hsys, hsaf, hfuse, hpend⟩, hreg⟩ := h
  obtain ⟨⟨ksys, ksaf, kfuse, kpend⟩, kreg⟩ := k
  exact ⟨⟨ksys.trans hsys, ksaf.trans hsaf, kfuse.trans hfuse, kpend.trans hpend⟩,
    fun r i hr => (kreg r i hr).trans (hreg r i hr)⟩

theorem domBit (h : SparesPower s t) (hr : r ∈ powerRegs) (d : Nat) : t.domBit r d = s.domBit r d := by
  unfold State.domBit
  rw [h.reg r _ hr]

theorem of_frame (h : SparesPower s t) (f : Frame R P t u) (hR : ∀ r ∈ powerRegs, r ∉ R := by decide) : SparesPower s u :=
  h.trans ⟨⟨f.sys, f.saf, f.fuse, f.pending⟩, fun r i hr => f.reg r i (hR r hr)⟩

theorem onDev {g : Dev → Dev} (h : SparesPower s t) (hg : ∀ d, (g d).regs = d.regs := by intro; rfl) :
    SparesPower s (t.onDev g) :=
  h.trans ⟨⟨rfl, rfl, rfl, rfl⟩, fun r i _ => by unfold State.reg; rw [onDev_dev, hg]⟩

theorem setReg (h : SparesPower s t) (hr : r ∉ powerRegs := by decide) : SparesPower s (t.setReg r i v) :=
  h.trans ⟨⟨rfl, rfl, rfl, rfl⟩, fun _ _ hq => reg_setReg_ne t v (Or.inl fun heq => hr (heq ▸ hq))⟩

theorem setFld (h : SparesPower s t) (hx : x.reg ∉ powerRegs := by decide) : SparesPower s (t.setFld x i v) := h.setReg hx

theorem setFlag {b : Bool} (h : SparesPower s t) (hx : x.reg ∉ powerRegs := by decide) : SparesPower s (t.setFlag x i b) :=
  h.setReg hx

theorem emit {o : Out} (h : SparesPower s t) : SparesPower s (t.emit o) := h.onDev

theorem ite {c : Prop} [Decidable c] {y z : State} (hy : SparesPower s y) (hz : SparesPower s z) :
    SparesPower s (if c then y else z) := by
  split
  · exact hy
  · exact hz

theorem foldl {α : Type} {f : State → α → State} (l : List α) (h : SparesPower s t)
    (hf : ∀ u b, SparesPower s u → SparesPower s (f u b)) : SparesPower s (l.foldl f t) := by
  induction l generalizing t with
  | nil => exact h
  | cons b l ih => exact ih (hf t b h)

/-! Parts of a switched domain. -/

theorem addGap {n : Nat} {g : GapRec} (h : SparesPower s t) : SparesPower s (t.addGap n g) := by
  unfold State.addGap
  exact h.onDev

theorem abandon {c : Nat} (h : SparesPower s t) : SparesPower s (t.abandon c) := by
  unfold State.abandon
  dsimp only
  split
  · exact h
  · have gap : ∀ g, SparesPower s (t.cloudGap c g) := fun g => foldl _ h fun _ _ hu => ite hu.addGap hu
    exact (gap _).onDev.setFld

theorem sendDemand (h : SparesPower s t) : SparesPower s (t.sendDemand i) := ite h h.onDev.emit

theorem strobeOff (h : SparesPower s t) : SparesPower s (t.strobeOff i) := h.onDev.emit.sendDemand

theorem endCaptures (h : SparesPower s t) : SparesPower s t.endCaptures := by
  have dark : ∀ p, SparesPower s (t.dropLines p) := fun p => foldl _ h.onDev fun _ _ hu => hu.strobeOff
  exact foldl _ (dark _) fun _ _ hu => ite hu.onDev.setFlag.setFlag.setFlag hu

theorem setClock (h : SparesPower s t) : SparesPower s (t.setClock i v) := ite h h.onDev.emit

theorem showPair (h : SparesPower s t) : SparesPower s (t.showPair i) := h.setFlag.setFlag

theorem setLinkState (h : SparesPower s t) : SparesPower s (t.setLinkState i v) := by
  unfold State.setLinkState
  dsimp only
  refine ite h (of_frame ?_ ((Frame.refl postRegs postParts _).post (by decide) (by decide)))
  exact ite h.setFld.setFlag (ite h.setFld.setFlag h.setFld)

theorem dropCores {b : Bool} (h : SparesPower s t) : SparesPower s (t.dropCores b) := by
  unfold State.dropCores
  dsimp only
  refine setFld (h.onDev ?_)
  intro v
  cases b <;> rfl

/-- What a domain's blocks hold is lost; the domain registers are not. -/
theorem dropDomain (h : SparesPower s t) : SparesPower s (t.dropDomain d) := by
  unfold State.dropDomain
  dsimp only
  refine ite (foldl _ h fun _ _ hu => hu.onDev) (ite ?_ (ite ?_ (ite ?_ (ite ?_ (ite ?_ (ite ?_ (ite ?_ (ite ?_ (ite ?_ h)))))))))
  · exact foldl _ h.abandon.onDev.onDev fun _ _ hu => hu.onDev
  · exact (setClock (ite h.endCaptures h)).onDev
  · exact (h.setFlag.onDev).showPair
  · exact h.setLinkState.onDev
  · exact h.setFlag
  · exact h.dropCores
  · exact h.onDev
  · exact h.onDev
  · exact h.onDev

theorem setFlds {l : List Nat} (h : SparesPower s t) (hx : x.reg ∉ powerRegs := by decide) : SparesPower s (t.setFlds x l) :=
  foldl _ h fun _ _ hu => hu.setFld hx

theorem blockFields (h : SparesPower s t) : SparesPower s t.blockFields := by
  unfold State.blockFields
  refine ite ?_ h
  exact h.setFld.setFld.setFld.setFlds.setFld.setFld.setFld.setFld.setFlag.setFlds.setFlds.setFlds.setFlds.setFlds.setFlds.setFlds
    |>.setFld.setFld.setReg

theorem refreshTiming (h : SparesPower s t) : SparesPower s t.refreshTiming := by
  unfold State.refreshTiming State.driveClocks
  dsimp only
  refine foldl _ (setFld (setFld (foldl _ (foldl _ h fun _ _ hu => hu.setFlag) fun _ _ hu => hu.setFld))) fun _ _ hu => hu.setClock

theorem showDrives (h : SparesPower s t) (u : State) : SparesPower s (u.showDrives t) := by
  unfold State.showDrives
  dsimp only
  refine foldl _ (foldl _ h fun _ _ hu => ite hu hu.emit) fun _ _ hu => ?_
  exact ite (ite hu hu.emit) (emit (ite hu hu.emit))

theorem startConvs (h : SparesPower s t) : SparesPower s t.startConvs := by
  unfold State.startConvs
  refine foldl _ h fun _ _ hu => ?_
  unfold State.startConv
  refine ite ?_ hu
  split
  · exact hu.onDev.setFlag.setFld
  · exact hu

/-! Channels that come up with a parameter set in force (R69). -/

theorem recomputeThr (h : SparesPower s t) : SparesPower s (t.recomputeThr i) := h.setFld.setFld

theorem onHist {c p : Nat} {b : Bool} {f : ChanHist → ChanHist} (h : SparesPower s t) : SparesPower s (t.onHist c b p f) := by
  unfold State.onHist
  exact h.onDev

theorem clearChan (h : SparesPower s t) : SparesPower s (t.clearChan i) := by
  unfold State.clearChan
  exact foldl _ h.onDev.onDev.onHist fun _ _ hu => hu.setReg

theorem takeAdapt (h : SparesPower s t) : SparesPower s (t.takeAdapt i) := ite h h.setFld.onDev.setFld.recomputeThr

theorem takeChan (h : SparesPower s t) : SparesPower s (t.takeChan i) := by
  have force : SparesPower s (heldChanRegs.foldl (fun t r => t.applyReg r i) t) := h.setReg.setReg.setReg
  unfold State.takeChan
  exact ite (ite force.setFlag.setFlag force.setFlag).clearChan (ite force.setFlag.setFlag force.setFlag)

theorem lockTap {p : SafTap} (h : SparesPower s t) : SparesPower s (t.lockTap p) :=
  h.setReg.setReg.setReg.setFlag.takeAdapt.takeChan.recomputeThr

theorem lockTaps (h : SparesPower s t) : SparesPower s t.lockTaps := by
  unfold State.lockTaps
  exact foldl _ (foldl _ h fun _ _ hu => foldl _ hu fun _ _ hv => ite hv.lockTap hv)
    fun _ _ hu => foldl _ hu fun _ _ hv => ite hv.lockTap hv

end SparesPower

/-! Registers dropped with their domain (R33). -/

theorem smGet_filter {α : Type} (d : α) (q : Nat × α → Bool) (m : List (Nat × α)) {k : Nat} (hk : ∀ v, q (k, v) = true) :
    smGet d (m.filter q) k = smGet d m k := by
  induction m with
  | nil => rfl
  | cons p m ih =>
    obtain ⟨k', v⟩ := p
    by_cases hp : q (k', v) = true
    · rw [List.filter_cons_of_pos hp, smGet, smGet, ih]
    · have hne : k' ≠ k := fun heq => hp (heq ▸ hk v)
      rw [List.filter_cons_of_neg hp, smGet, if_neg hne, ih]

theorem keyReg_power (hr : r ∈ powerRegs) (i : Nat) : (keyReg (r.key i)).1 = r := by
  have hidx : r.key i % 512 = r.ctorIdx := by
    have := Reg.ctorIdx_lt r
    unfold Reg.key
    omega
  unfold keyReg
  rw [hidx]
  simp only [List.mem_cons, List.not_mem_nil, or_false] at hr
  rcases hr with rfl | rfl <;> rfl

theorem SparesPower.dropRegs {p : Reg → Nat → Bool} (h : SparesPower s t) (hp : ∀ r i, r ∈ powerRegs → p r i = false) :
    SparesPower s (t.dropRegs p) := by
  refine h.trans ⟨⟨rfl, rfl, rfl, rfl⟩, fun r i hr => ?_⟩
  unfold State.reg State.dropRegs
  rw [onDev_dev, smGet_filter _ _ _ fun v => ?_]
  rw [keyReg_power hr, hp _ _ hr]
  rfl

/-- The domain registers lie in no domain. -/
theorem domains_power (hr : r ∈ powerRegs) : Reg.domains r i = [] := by
  simp only [List.mem_cons, List.not_mem_nil, or_false] at hr
  rcases hr with rfl | rfl <;> rfl

/-! Domains that go off (R418). -/

/-- From `s` to `t` the domains of a list have gone off: their power-good bits are taken back, and nothing else of the domain
registers. -/
structure DomainsOff (l : List Nat) (s t : State) : Prop where
  core : keepsCore s t
  ctl : ∀ i, t.reg .pwrDomCtl i = s.reg .pwrDomCtl i
  good : ∀ e, t.domBit .pwrDomSts e = (s.domBit .pwrDomSts e && !decide (e ∈ l))

theorem domainOff_domainsOff (s : State) (d : Nat) : DomainsOff [d] s (s.domainOff d) := by
  have before := (SparesPower.refl s).dropDomain (d := d)
  set u := (s.dropDomain d).setDomBit .pwrDomSts d false with hu
  have after : SparesPower u (s.domainOff d) := by
    unfold State.domainOff
    dsimp only
    rw [← hu]
    refine (((SparesPower.refl u).dropRegs fun r i hr => ?_).blockFields.refreshTiming).showDrives s
    rw [domains_power hr]
    rfl
  obtain ⟨hsys, hsaf, hfuse, hpend⟩ := before.core
  obtain ⟨ksys, ksaf, kfuse, kpend⟩ := after.core
  refine ⟨⟨ksys.trans hsys, ksaf.trans hsaf, kfuse.trans hfuse, kpend.trans hpend⟩, fun i => ?_, fun e => ?_⟩
  · rw [after.reg _ _ (by decide), hu, State.setDomBit, reg_setReg_ne _ _ (Or.inl (by decide)), before.reg _ _ (by decide)]
  · rw [after.domBit (by decide), hu]
    by_cases hde : d = e
    · subst hde
      rw [domBit_setDomBit_same]
      simp
    · rw [domBit_setDomBit_ne _ _ _ hde, before.domBit (by decide)]
      simp [Ne.symm hde]

/-- Domains that go off together; one that is off already stays as it is. -/
theorem domainsOff_domainsOff (s : State) (l : List Nat) : DomainsOff l s (s.domainsOff l) := by
  unfold State.domainsOff
  induction l generalizing s with
  | nil => exact ⟨⟨rfl, rfl, rfl, rfl⟩, fun _ => rfl, fun _ => by simp⟩
  | cons d l ih =>
    rw [List.foldl_cons]
    have first : DomainsOff [d] s (if s.domBit .pwrDomSts d then s.domainOff d else s) := by
      split
      · exact domainOff_domainsOff s d
      next hoff =>
        refine ⟨⟨rfl, rfl, rfl, rfl⟩, fun _ => rfl, fun e => ?_⟩
        by_cases hed : e = d
        · subst hed; simp [hoff]
        · simp [hed]
    obtain ⟨⟨hsys, hsaf, hfuse, hpend⟩, hctl, hgood⟩ := first
    obtain ⟨⟨ksys, ksaf, kfuse, kpend⟩, kctl, kgood⟩ := ih (if s.domBit .pwrDomSts d then s.domainOff d else s)
    refine ⟨⟨ksys.trans hsys, ksaf.trans hsaf, kfuse.trans hfuse, kpend.trans hpend⟩, fun i => (kctl i).trans (hctl i), fun e => ?_⟩
    rw [kgood, hgood, Bool.and_assoc]
    simp

/-! The write of PWR_DOM_CTL, and power-good (R418). -/

/-- The bits of the register that name a domain. -/
def domainWord (n v : Nat) : Nat := if n = 4 then v % 2 ^ 12 else v

theorem domainWrite_refused {n : Nat} (h : s.domainWriteOk n (domainWord n v) = false) :
    s.domainWrite n v = s.bump F.pwrRefusedCntCount 0 1 := by
  unfold domainWord at h
  unfold State.domainWrite
  dsimp only
  rw [if_neg (by rw [h]; decide)]

/-- A switch that is allowed: the word is stored, and the domains it leaves out go off at once. -/
theorem domainWrite_switches {n : Nat} (h : s.domainWriteOk n (domainWord n v) = true) (hv : domainWord n v < 2 ^ 32) :
    keepsCore s (s.domainWrite n v) ∧ (s.domainWrite n v).reg .pwrDomCtl n = domainWord n v
      ∧ ∀ j, j < 32 → (s.domainWrite n v).domBit .pwrDomSts (32 * n + j)
        = (s.domBit .pwrDomSts (32 * n + j) && bitOf (domainWord n v) j) := by
  set w := domainWord n v with hw
  set l := ((List.range 32).filter fun i => !bitOf w i).map (32 * n + ·) with hl
  have heq : s.domainWrite n v = (s.setReg .pwrDomCtl n w).domainsOff l := by
    unfold State.domainWrite
    dsimp only
    rw [← domainWord, ← hw, if_pos h]
  rw [heq]
  obtain ⟨hcore, hctl, hgood⟩ := domainsOff_domainsOff (s.setReg .pwrDomCtl n w) l
  refine ⟨hcore, ?_, fun j hj => ?_⟩
  · rw [hctl, reg_setReg_same, Nat.mod_eq_of_lt hv]
  · have hmem : decide (32 * n + j ∈ l) = !bitOf w j := by
      rw [Bool.eq_iff_iff]
      simp [hl, hj]
    have hsts : (s.setReg .pwrDomCtl n w).domBit .pwrDomSts (32 * n + j) = s.domBit .pwrDomSts (32 * n + j) := by
      unfold State.domBit
      rw [reg_setReg_ne _ _ (Or.inl (by decide))]
    rw [hgood, hsts, hmem, Bool.not_not]

/-- A domain that comes on shows its power as good, and changes no other domain's bit. -/
theorem pgood_shows (s : State) (d : Nat) : keepsCore s (s.pgood d).lockTaps ∧ (s.pgood d).lockTaps.domBit .pwrDomSts d = true
    ∧ ∀ j, j ≠ d → (s.pgood d).lockTaps.domBit .pwrDomSts j = s.domBit .pwrDomSts j := by
  set u := s.setDomBit .pwrDomSts d true with hu
  have comes : SparesPower u (s.pgood d).lockTaps := by
    have hc : SparesPower u ((u.blockFields.refreshTiming).startConvs) :=
      (SparesPower.refl u).blockFields.refreshTiming.startConvs
    unfold State.pgood
    exact (SparesPower.ite hc.onDev hc).lockTaps
  refine ⟨comes.core, ?_, fun j hj => ?_⟩
  · rw [comes.domBit (by decide), hu, domBit_setDomBit_same]
  · rw [comes.domBit (by decide), hu, domBit_setDomBit_ne _ _ _ (Ne.symm hj)]

end Sys2Proof.Machine
end

section
/-! The statement of the register accesses (R13 to R17, R418, R430 to R432), clause by clause. -/
namespace Sys2Proof.Machine

variable {R : List Reg} {P : List Part} {s t u : State} {m : Master} {r h : Reg} {i a k : Nat} {f : State → State}

/-! From an access to the command that makes it. -/

theorem Frame.core (h : Frame R P s t) : keepsCore s t := ⟨h.sys, h.saf, h.fuse, h.pending⟩

theorem inDev_eq (hf : f s = u) (hu : keepsCore s u) : inDev f s = u := by
  obtain ⟨hsys, hsaf, hfuse, hpend⟩ := hu
  unfold inDev
  rw [hf, ← hsys, ← hsaf, ← hfuse, ← hpend]

theorem inCore_eq (hf : f s = u) (hu : keepsCore s u) : inCore f s = u := by
  obtain ⟨hsys, hsaf, hfuse, hpend⟩ := hu
  unfold inCore
  rw [hf, ← hsaf, ← hpend]

/-- A write of a command's own register, by a master that reaches it, does what the write of the register does. -/
theorem inCore_writeAt {v : Nat} (hp : Placed r i) (hr : s.reaches m r i) (hc : r ≠ .sysMbxCmd)
    (hw : s.writeReg m r i (v % 2 ^ 32) (r.addr i) = u) (hu : keepsCore s u) : inCore (fun s => s.writeAt m r i v) s = u := by
  refine inCore_eq ?_ hu
  rw [writeAt_reaching hp hr hc]
  exact inDev_eq hw hu

theorem exec_registerWrite {addr : BitVec 28} {size : Fin 9} {v : BitVec 64} (h0 : m ≠ .pair0) (h1 : m ≠ .pair1)
    (hw : s.busWrite m addr.toNat size v.toNat = u) (hu : keepsCore s u) : exec (.registerWrite m addr size v) s = .next u := by
  refine congrArg Host.Outcome.next (inCore_eq ?_ hu)
  rw [masterWrite_direct h0 h1, hw]

/-! Accesses that are discarded and counted (R431, R432). -/

/-- A command is discarded and counted with a kind of R431: nothing changes but what an access error shows. -/
def Discards (s : State) (q : Instr) (m : Master) (kind : Nat) : Prop :=
  ∃ t, exec q s = .next t ∧ (keepsCore s t ∧ keepsRegs accErrRegs s t ∧ keepsBytes s t) ∧ s.countsError t
    ∧ t.fld F.sysAccErrLastKind 0 = kind ∧ t.fld F.sysAccErrLastMaster 0 = masterCode m

theorem discards_of_exec {q : Instr} (hs : s.unrouted) (hk : k < 8) (hq : exec q s = .next (s.accErr m k a)) :
    Discards s q m k :=
  ⟨_, hq, (Frame.accErr_unrouted hs m k a).keeps (by decide), accErr_shows hs m hk a⟩

/-- A register write whose path ends in an access error. -/
theorem discards_registerWrite {addr : BitVec 28} {size : Fin 9} {v : BitVec 64} (hs : s.unrouted) (h0 : m ≠ .pair0)
    (h1 : m ≠ .pair1) (hk : k < 8)
    (hw : s.busWrite m addr.toNat size v.toNat = inDev (·.accErr m k addr.toNat) s) :
    Discards s (.registerWrite m addr size v) m k := by
  have hcore := (Frame.accErr_unrouted hs m k addr.toNat).core
  exact discards_of_exec hs hk (exec_registerWrite h0 h1 (hw.trans (inDev_eq rfl hcore)) hcore)

/-! A plain register (R9, R14). -/

/-- A value outside its range is discarded and counted with kind 2. -/
theorem registerWrite_plain_refused {addr : BitVec 28} {v : BitVec 64} (hs : s.unrouted) (h0 : m ≠ .pair0) (h1 : m ≠ .pair1)
    (hb : s.busWrite m addr.toNat 4 v.toNat = inDev (fun t => t.writeReg m r i (v.toNat % 2 ^ 32) addr.toNat) s)
    (hr : r ∈ plainRegs) (hv : inRanges r (v.toNat % 2 ^ 32) = false) : Discards s (.registerWrite m addr 4 v) m 2 := by
  have hcore := (Frame.accErr_unrouted hs m 2 addr.toNat).core
  exact discards_of_exec hs (by decide)
    (exec_registerWrite h0 h1 (hb.trans (inDev_eq (writeReg_plain_refused hr hv) hcore)) hcore)

/-- A value of its ranges is stored as far as the fields say, and nothing else changes. -/
theorem registerWrite_plain {addr : BitVec 28} {v : BitVec 64} (h0 : m ≠ .pair0) (h1 : m ≠ .pair1)
    (hb : s.busWrite m addr.toNat 4 v.toNat = inDev (fun t => t.writeReg m r i (v.toNat % 2 ^ 32) addr.toNat) s)
    (hr : r ∈ plainRegs) (hv : inRanges r (v.toNat % 2 ^ 32) = true) :
    ∃ t, exec (.registerWrite m addr 4 v) s = .next t ∧ (keepsCore s t ∧ keepsRegs [r] s t ∧ keepsBytes s t)
      ∧ keepsOthers r i s t ∧ t.reg r i = s.wordAfter r i (v.toNat % 2 ^ 32) := by
  set word := mergeWord r i (s.reg r i) (v.toNat % 2 ^ 32) with hword
  have frame : Frame [r] [] s (s.setReg r i word) := (Frame.refl _ _ _).setReg (List.mem_singleton.mpr rfl)
  refine ⟨s.setReg r i word, exec_registerWrite h0 h1 (hb.trans (inDev_eq ?_ frame.core)) frame.core, frame.keeps (by decide),
    keepsOthers_setReg _ _ _ _, reg_setReg_same _ _ _ _⟩
  exact writeReg_plain hr hv

/-! A low half read, and a high half written (R17). -/

theorem splitLoRead_latches {addr : BitVec 28} (h0 : m ≠ .pair0) (h1 : m ≠ .pair1) (ha : addr.toNat < 0xC000000)
    (hr : regAt addr.toNat = some (r, i)) (hal : addr.toNat % 4 = 0) (hh : highHalf r = some h) (hm : s.mayRead m r = true)
    (hp : s.powered r i = true) (hk : smGet none s.dev.shadow (halfKey m addr.toNat) = none) :
    ∃ t, exec (.splitLoRead m addr) s = .next t ∧ (keepsCore s t ∧ keepsRegs [] s t ∧ keepsBytes s t)
      ∧ smGet none t.dev.shadow (halfKey m (h.addr i)) = some (s.readWord h i)
      ∧ t.dev.out = if m = .host then .pcie 6 (leBytes 4 (s.readWord r i)) :: s.dev.out else s.dev.out := by
  have haddr : r.addr i = addr.toNat := addr_of_regAt hr
  have hread : s.masterRead m addr.toNat 4 = (s.readWord r i, s.takeDev (s.latch m r i)) := by
    rw [masterRead_direct h0 h1, busRead_reaching ha hal hr hm hp, readReg_low hh (by rw [haddr]; exact hk)]
  have latched : Frame [] [.shadow, .out] s (s.takeDev (s.latch m r i)) :=
    ((frame_latch s m r i).takeDev).mono (by decide) (by decide)
  have answered : Frame [] [.shadow, .out] s (State.answerRead m (s.readWord r i, s.takeDev (s.latch m r i))) :=
    Frame.ite (fun _ => latched.emit (by decide)) (fun _ => latched)
  have hout : (s.latch m r i).dev.out = s.dev.out := (frame_latch s m r i).part .out (by decide)
  refine ⟨_, congrArg Host.Outcome.next (inCore_eq (congrArg (State.answerRead m) hread) answered.core), answered.keeps (by decide),
    ?_, ?_⟩
  · rw [← latch_shadow (m := m) hh]
    unfold State.answerRead
    split <;> rfl
  · unfold State.answerRead
    split
    · exact congrArg (List.cons _) hout
    · exact hout

theorem splitHiWrite_takes {addr : BitVec 28} {w : BitVec 32} (ha : addr.toNat < 0xC000000)
    (hr : regAt addr.toNat = some (.lnkBrBaseHi, i)) (hal : addr.toNat % 4 = 0) (hreach : s.reaches m .lnkBrBaseHi i) :
    ∃ t, exec (.splitHiWrite m addr w) s = .next t
      ∧ (keepsCore s t ∧ keepsRegs [.lnkBrBaseLo, .lnkBrBaseHi] s t ∧ keepsBytes s t) ∧ t.reg .lnkBrBaseHi i = w.toNat
      ∧ keepsOthers .lnkBrBaseHi i s t ∧ keepsOthers .lnkBrBaseLo i s t
      ∧ t.reg .lnkBrBaseLo i
        = (smGet none s.dev.heldLo (halfKey m (Reg.lnkBrBaseLo.addr i))).getD (s.reg .lnkBrBaseLo i) % 2 ^ 32
      ∧ smGet none t.dev.heldLo (halfKey m (Reg.lnkBrBaseLo.addr i)) = none := by
  obtain ⟨h0, h1, hd, hp⟩ := hreach
  set k := halfKey m (Reg.lnkBrBaseLo.addr i) with hk
  set lo := (smGet none s.dev.heldLo k).getD (s.reg .lnkBrBaseLo i) with hlo
  set u := ((s.dropHeld k).setReg .lnkBrBaseLo i lo).setReg .lnkBrBaseHi i w.toNat with hu
  have frame : Frame [.lnkBrBaseLo, .lnkBrBaseHi] [.heldLo] s u :=
    (((Frame.refl _ _ _).dropHeld (by decide) k).setReg (by decide)).setReg (by decide)
  have hw : s.masterWrite m addr.toNat 4 w.toNat = u := by
    rw [masterWrite_direct h0 h1, busWrite_reaching ha hal hr (mayWrite_of_ne_debug hd _) hp (by decide)]
    refine inDev_eq ?_ frame.core
    rw [Nat.mod_eq_of_lt w.isLt, writeReg_lnkBrBaseHi]
  refine ⟨u, congrArg Host.Outcome.next (inCore_eq hw frame.core), frame.keeps (by decide), ?_, fun j hj => ?_, fun j hj => ?_, ?_, ?_⟩
  · rw [hu, reg_setReg_same, Nat.mod_eq_of_lt w.isLt]
  · rw [hu, reg_setReg_ne _ _ (Or.inr hj.symm), reg_setReg_ne _ _ (Or.inl (by decide))]
    rfl
  · rw [hu, reg_setReg_ne _ _ (Or.inl (by decide)), reg_setReg_ne _ _ (Or.inr hj.symm)]
    rfl
  · rw [hu, reg_setReg_ne _ _ (Or.inl (by decide)), reg_setReg_same]
  · exact smGet_put_same none s.dev.heldLo k none

/-! TAIL, and the event routes (R370, R437). -/

theorem logTailWrite_moves {w : BitVec 32} (hr : s.reaches m .fmkLogTail 0)
    (hx : refuseLinks s (s.merged .fmkLogTail 0 w.toNat none) .fmkLogTail 0 w.toNat = none) :
    ∃ t, exec (.logTailWrite m w) s = .next t ∧ (keepsCore s t ∧ keepsRegs [.fmkLogTail] s t ∧ keepsBytes s t)
      ∧ t.fld F.fmkLogTailTail 0 = w.toNat % 512 := by
  have frame : Frame [.fmkLogTail] [] s (s.setFld F.fmkLogTailTail 0 w.toNat) := (Frame.refl _ _ _).setFld (by decide)
  refine ⟨_, congrArg Host.Outcome.next (inCore_writeAt placed_fmkLogTail hr (by decide) ?_ frame.core), frame.keeps (by decide),
    fld_setFld_same _ _ _ (by decide)⟩
  rw [Nat.mod_eq_of_lt w.isLt]
  exact writeReg_fmkLogTail hx

theorem logTailWrite_refused {w : BitVec 32} (hs : s.unrouted) (hr : s.reaches m .fmkLogTail 0)
    (hx : refuseLinks s (s.merged .fmkLogTail 0 w.toNat none) .fmkLogTail 0 w.toNat ≠ none) :
    Discards s (.logTailWrite m w) m 4 := by
  have hcore := (Frame.accErr_unrouted hs m 4 (Reg.fmkLogTail.addr 0)).core
  refine discards_of_exec (a := Reg.fmkLogTail.addr 0) hs (by decide)
    (congrArg Host.Outcome.next (inCore_writeAt placed_fmkLogTail hr (by decide) ?_ hcore))
  rw [Nat.mod_eq_of_lt w.isLt]
  exact writeReg_fmkLogTail_refused hx

theorem eventRouteWrite_taken {e : Fin 64} {w : BitVec 32} (hs : s.unrouted) (hr : s.reaches m .sysEvtRoute e) :
    ∃ t, exec (.eventRouteWrite m e w) s = .next t ∧ keepsCore s t
      ∧ t.reg .sysEvtRoute e = s.wordAfter .sysEvtRoute e w.toNat
      ∧ (bitOf w.toNat 31 = false ∨ 23 ≤ e.val ∨ bitOf (s.reg .sysEvtSts 0) e = false →
        (keepsCore s t ∧ keepsRegs [.sysEvtRoute] s t ∧ keepsBytes s t) ∧ keepsOthers .sysEvtRoute e s t)
      ∧ (t.flag F.sysEvtRouteIrqEn e = true → e.val < 23 → bitOf (s.reg .sysEvtSts 0) e = true →
        s.vectorMasked (t.fld F.sysEvtRouteVector e) = true →
        bitOf (t.reg .pciMsixPba (t.fld F.sysEvtRouteVector e / 32)) (t.fld F.sysEvtRouteVector e % 32) = true) := by
  set p := s.setReg .sysEvtRoute e (mergeWord .sysEvtRoute e (s.reg .sysEvtRoute e) w.toNat) with hp
  have stored : Frame [.sysEvtRoute] [] s p := (Frame.refl _ _ _).setReg (by decide)
  have sent : Frame [.pciMsixPba] [.links, .out, .pci] p (s.routeWritten p e) := (Frame.refl _ _ _).routeWritten s e
  have whole := (stored.mono (R := [.sysEvtRoute, .pciMsixPba]) (P := [.links, .out, .pci]) (by decide) (by decide)).trans sent
    (by decide) (by decide)
  have hsts : p.reg .sysEvtSts 0 = s.reg .sysEvtSts 0 := stored.reg _ _ (by decide)
  refine ⟨s.routeWritten p e, congrArg Host.Outcome.next (inCore_writeAt (placed_sysEvtRoute e) hr (by decide) ?_ whole.core),
    whole.core, ?_, fun hsilent => ?_, fun hirq he hbit hmask => ?_⟩
  · rw [Nat.mod_eq_of_lt w.isLt]
    exact writeReg_sysEvtRoute
  · rw [sent.reg _ _ (by decide), hp, reg_setReg_same]
    rfl
  · rw [routeWritten_silent (by rw [hp, irqEn_of_written, ← hp, hsts]; exact hsilent)]
    exact ⟨stored.keeps (by decide), keepsOthers_setReg _ _ _ _⟩
  · rw [sent.flag _ _ (by decide)] at hirq
    rw [sent.fld _ _ (by decide)] at hmask ⊢
    rw [routeWritten_sends (hs e).1 hirq he (by rw [hsts]; exact hbit)]
    refine sendVector_masked ?_
    unfold State.vectorMasked at hmask ⊢
    rw [stored.reg _ _ (by decide)]
    exact hmask

/-! Domains (R418). -/

theorem heldFor_pwrDomCtl : heldFor .pwrDomCtl = none := by decide +kernel

theorem lowHalf_pwrDomCtl : lowHalf .pwrDomCtl = none := by rfl

theorem writeReg_pwrDomCtl {v : Nat} : s.writeReg m .pwrDomCtl i v a = s.domainWrite i v := by
  rw [writeReg_single heldFor_pwrDomCtl lowHalf_pwrDomCtl]
  rfl

theorem exec_domainSwitch {n : Fin 5} {w : BitVec 32} (hr : s.reaches m .pwrDomCtl n)
    (hcore : keepsCore s (s.domainWrite n w.toNat)) : exec (.domainSwitch m n w) s = .next (s.domainWrite n w.toNat) := by
  refine congrArg Host.Outcome.next (inCore_writeAt (placed_pwrDomCtl n) hr (by decide) ?_ hcore)
  rw [Nat.mod_eq_of_lt w.isLt]
  exact writeReg_pwrDomCtl

theorem domainWord_fin (n : Fin 5) (v : Nat) : domainWord n v = if n = 4 then v % 2 ^ 12 else v := by
  unfold domainWord
  simp only [Fin.ext_iff]
  rfl

theorem domainWord_lt (n : Nat) (w : BitVec 32) : domainWord n w.toNat < 2 ^ 32 := by
  have := w.isLt
  unfold domainWord
  split <;> omega

/-- A switch that is not allowed is counted. -/
theorem domainSwitch_refused {n : Fin 5} {w : BitVec 32} (hr : s.reaches m .pwrDomCtl n)
    (hon : s.domainWriteOk n (domainWord n w.toNat) = false) :
    ∃ t, exec (.domainSwitch m n w) s = .next t ∧ (keepsCore s t ∧ keepsRegs [.pwrRefusedCnt] s t ∧ keepsBytes s t)
      ∧ t.fld F.pwrRefusedCntCount 0 = min (s.fld F.pwrRefusedCntCount 0 + 1) 0xFFFFFFFF := by
  have frame : Frame [.pwrRefusedCnt] [] s (s.domainWrite n w.toNat) := by
    rw [domainWrite_refused hon]
    exact (Frame.refl _ _ _).bump (by decide)
  refine ⟨_, exec_domainSwitch hr frame.core, frame.keeps (by decide), ?_⟩
  rw [domainWrite_refused hon]
  exact fld_bump_same _ _ _ (by decide)

theorem pgood_comes {d : Fin 140} (hd : s.pgoodDue d = true) :
    ∃ t, exec (.pgood d) s = .next t ∧ keepsCore s t ∧ t.domBit .pwrDomSts d = true
      ∧ ∀ j, j ≠ d.val → t.domBit .pwrDomSts j = s.domBit .pwrDomSts j := by
  obtain ⟨hcore, hset, hothers⟩ := pgood_shows s d
  refine ⟨_, congrArg Host.Outcome.next (inDev_eq ?_ hcore), hcore, hset, hothers⟩
  exact if_pos hd

theorem pgood_waits {d : Fin 140} (hd : s.pgoodDue d = false) : exec (.pgood d) s = .next s := by
  refine congrArg Host.Outcome.next (inDev_eq ?_ ⟨rfl, rfl, rfl, rfl⟩)
  rw [if_neg (by rw [hd]; decide)]

/-- Settles O58: each clause follows the path that the fabric takes for the access, and the frame of what stands at its end. -/
theorem registersObey : Obligations.RegistersObey := by
  intro m addr size v w e n d r i s hs h0 h1 a c only refused here plain held on
  have reaching : here → s.mayWrite m r = true → s.powered r i = true → r ∈ plain →
      s.busWrite m addr.toNat 4 v.toNat = inDev (fun t => t.writeReg m r i (v.toNat % 2 ^ 32) addr.toNat) s :=
    fun hhere hm hp hr => by
      obtain ⟨ha, hat, hal, -⟩ := hhere
      exact busWrite_reaching ha hal hat hm hp (unguarded_of_plain hr).mailbox
  have checked : here → s.busWrite m addr.toNat size v.toNat =
      if !s.mayWrite m r then inDev (·.accErr m 3 addr.toNat) s
      else if !s.powered r i then inDev (·.accErr m 1 addr.toNat) s
      else if r = .sysMbxCmd then s.mbxWrite i (v.toNat / 65536 % 256) (v.toNat % 256) (bitOf v.toNat 31)
      else inDev (fun t => t.writeReg m r i (v.toNat % 2 ^ 32) addr.toNat) s := fun hhere => by
    obtain ⟨ha, hat, hal, rfl⟩ := hhere
    have hal4 : addr.toNat / 4 * 4 = addr.toNat := Nat.div_mul_cancel (Nat.dvd_of_mod_eq_zero hal)
    rw [busWrite_register ha (by rw [hal4]; exact hat), if_neg (by simpa using hal)]
  refine ⟨fun ha hr => ?_, fun ha hd => ?_, fun ha hd => ?_, fun ha hr hbad => ?_, fun hhere hm => ?_, fun hhere hm hp => ?_,
    fun hhere hm hp hr hv => ?_, fun hhere hm hp hr hv => ?_, fun h ha hr hal hh hm hp hk => ?_, fun ha hr hal hreach => ?_,
    fun hr hx => ?_, fun hr hx => ?_, fun hr => ?_, fun hr hon => ?_, fun hr hon => ?_, fun hd => ?_, fun hd => ?_⟩
  · exact exec_registerWrite h0 h1 (busWrite_unassigned ha hr) ⟨rfl, rfl, rfl, rfl⟩
  · exact exec_registerWrite h0 h1 ((busWrite_window ha).trans (if_neg (by rw [hd]; decide))) ⟨rfl, rfl, rfl, rfl⟩
  · exact discards_registerWrite hs h0 h1 (by decide) ((busWrite_window ha).trans (if_pos hd))
  · refine discards_registerWrite hs h0 h1 (by decide) ((busWrite_register ha hr).trans (if_pos ?_))
    exact hbad.imp_left fun hsize hfour => hsize (Fin.ext hfour)
  · exact discards_registerWrite hs h0 h1 (by decide) ((checked hhere).trans (if_pos (by rw [hm]; rfl)))
  · refine discards_registerWrite hs h0 h1 (by decide) ((checked hhere).trans ?_)
    rw [hm, hp]
    rfl
  · have hb := reaching hhere hm hp hr
    obtain ⟨-, -, -, rfl⟩ := hhere
    exact registerWrite_plain_refused hs h0 h1 hb hr hv
  · have hb := reaching hhere hm hp hr
    obtain ⟨-, -, -, rfl⟩ := hhere
    exact registerWrite_plain h0 h1 hb hr hv
  · exact splitLoRead_latches h0 h1 ha hr hal hh hm hp hk
  · obtain ⟨t, hexec, honly, hhi, hothers, hlos, hlo, hdrop⟩ := splitHiWrite_takes (w := w) ha hr hal hreach
    refine ⟨t, hexec, honly, hhi, hothers, hlos, hlo.trans ?_, hdrop⟩
    change held.getD _ % 2 ^ 32 = _
    cases held with
    | none => exact Nat.mod_eq_of_lt (reg_lt _ _ _)
    | some x => rfl
  · exact logTailWrite_moves hr hx
  · exact logTailWrite_refused hs hr hx
  · exact eventRouteWrite_taken hs hr
  · exact domainSwitch_refused hr (by rw [domainWord_fin]; exact hon)
  · have hok : s.domainWriteOk n (domainWord n w.toNat) = true := by rw [domainWord_fin]; exact hon
    obtain ⟨hcore, hctl, hgood⟩ := domainWrite_switches hok (domainWord_lt n w)
    rw [domainWord_fin] at hctl hgood
    exact ⟨_, exec_domainSwitch hr hcore, hcore, hctl, hgood⟩
  · exact pgood_comes hd
  · exact pgood_waits hd

end Sys2Proof.Machine
end

section
/-! SUPPORT. A device that routes no event and runs no stream: change records reach nobody, and an entry of the fault log touches the
log alone (R244, R370). -/
namespace Sys2Proof.Machine

variable {R : List Reg} {P : List Part} {s t u : State} {r : Reg}

/-- Registers whose change keeps a device quiet. -/
abbrev Hushed (R : List Reg) : Prop := Reg.sysEvtRoute ∉ R ∧ Reg.acqStrCtl ∉ R

theorem Frame.quiet (h : Frame R P s t) (hs : s.quiet) (hR : Hushed R := by decide) : t.quiet := by
  refine ⟨h.unrouted hs.1 hR.1, fun n => ?_⟩
  rw [h.flag _ _ hR.2]
  exact hs.2 n

theorem streamsOf_quiet (hs : s.quiet) (cls : Nat) : s.streamsOf cls = [] := by
  unfold State.streamsOf
  rw [List.filter_eq_nil_iff]
  intro n _
  simp [State.streamOn, hs.2 n]

/-- With no stream on a change record has nowhere to go. -/
theorem recordChange_quiet (hs : s.quiet) (src : Nat) (v : SrcVal) (tm : Nat) : s.recordChange src v tm = s := by
  unfold State.recordChange
  rw [streamsOf_quiet hs]
  split <;> rfl

/-- A source that reports a value keeps it, and touches nothing else. -/
theorem Frame.change_quiet {src k v : Nat} {b : Bool} (h : Frame R P s t) (hs : s.quiet) (hR : Hushed R := by decide)
    (hP : Part.acq ∈ P := by decide) : Frame R P s (t.change src k v b) := by
  unfold State.change State.changeAt
  dsimp only
  refine Frame.ite (fun _ => h) (fun _ => ?_)
  have kept : Frame R P s (t.onDev fun d => { d with acq := { d.acq with src := smPut {} d.acq.src src ⟨v % 2 ^ 32, k, b⟩ } }) :=
    h.onDev (fun _ => rfl) (fun d p n => by cases p <;> first | rfl | exact absurd hP n)
  rw [recordChange_quiet (kept.quiet hs hR)]
  exact kept

/-! The fault log. -/

theorem Frame.logFaultAt_quiet {tm code fl cls lo ph : Nat} (h : Frame R P s t) (hs : s.quiet) (hR : Hushed R := by decide)
    (hlog : logRegisters ⊆ R := by decide) (hP : Part.acq ∈ P := by decide) :
    Frame R P s (t.logFaultAt tm code fl cls lo ph) := by
  unfold State.logFaultAt
  dsimp only
  refine Frame.change_quiet (Frame.post_unrouted (Frame.setFld (Frame.foldl_pair _ _ ?_ ?_) (hlog (by decide))) hs.1 hR.1
    (hlog (by decide))) hs hR hP
  · exact Frame.ite (fun _ => (h.setFld (hlog (by decide))).bump (hlog (by decide))) (fun _ => h)
  · intro p x hp
    exact hp.setReg (hlog (by decide))

/-- Words stored one after another in the instances of a register from one on: those before it stay, and each reads as stored. -/
theorem foldl_setReg_reg (l : List Nat) (s : State) (r : Reg) (i : Nat) :
    (∀ j, j < i → (l.foldl (fun (p : State × Nat) w => (p.1.setReg r p.2 w, p.2 + 1)) (s, i)).1.reg r j = s.reg r j)
      ∧ ∀ k, k < l.length → (l.foldl (fun (p : State × Nat) w => (p.1.setReg r p.2 w, p.2 + 1)) (s, i)).1.reg r (i + k)
        = l.getD k 0 % 2 ^ 32 := by
  induction l generalizing s i with
  | nil => exact ⟨fun _ _ => rfl, fun k hk => absurd hk (Nat.not_lt_zero k)⟩
  | cons w l ih =>
    obtain ⟨hbefore, hstored⟩ := ih (s.setReg r i w) (i + 1)
    refine ⟨fun j hj => ?_, fun k hk => ?_⟩
    · rw [List.foldl_cons, hbefore j (by omega), reg_setReg_ne _ _ (Or.inr (by omega))]
    · cases k with
      | zero =>
        exact (hbefore i (Nat.lt_succ_self i)).trans (reg_setReg_same _ _ _ _)
      | succ k =>
        have hk' : k < l.length := by simpa using hk
        rw [List.foldl_cons, show i + (k + 1) = i + 1 + k by omega, hstored k hk']
        rfl

theorem logWords_lt (tm code fl cls lo ph k : Nat) : (logWords tm code fl cls lo ph).getD k 0 < 2 ^ 32 := by
  unfold logWords
  match k with
  | 0 => exact Nat.mod_lt _ (by decide)
  | 1 => exact Nat.mod_lt _ (by decide)
  | 2 => simp only [packBits, List.getD_cons_succ, List.getD_cons_zero]; omega
  | 3 => simp only [packBits, List.getD_cons_succ, List.getD_cons_zero]; omega
  | k + 4 => simp

/-- What an entry leaves in the log (R370): the head has moved on, and the words stand where it was. -/
theorem logFaultAt_shows (hs : s.quiet) (tm code fl cls lo ph : Nat) :
    (s.logFaultAt tm code fl cls lo ph).fld F.fmkLogHeadHead 0 = (s.fld F.fmkLogHeadHead 0 + 1) % 512
      ∧ ∀ k, k < 4 → (s.logFaultAt tm code fl cls lo ph).reg .fmkLog (4 * (s.fld F.fmkLogHeadHead 0 % 256) + k)
        = (logWords tm code fl cls lo ph).getD k 0 := by
  set head := s.fld F.fmkLogHeadHead 0 with hhead
  set s1 := if (head + 512 - s.fld F.fmkLogTailTail 0) % 512 = 256 then
      (s.setFld F.fmkLogTailTail 0 ((s.fld F.fmkLogTailTail 0 + 1) % 512)).bump F.fmkLogOvfCntCount 0 1 else s with hs1
  set s2 := ((logWords tm code fl cls lo ph).foldl
    (fun (p : State × Nat) w => (p.1.setReg .fmkLog p.2 w, p.2 + 1)) (s1, 4 * (head % 256))).1 with hs2
  set s3 := s2.setFld F.fmkLogHeadHead 0 ((head + 1) % 512) with hs3
  have f1 : Frame logRegisters [.acq] s s1 :=
    Frame.ite (fun _ => ((Frame.refl _ _ _).setFld (by decide)).bump (by decide)) (fun _ => Frame.refl _ _ _)
  have f3 : Frame logRegisters [.acq] s s3 :=
    (Frame.foldl_pair _ _ f1 fun p x hp => hp.setReg (by decide)).setFld (by decide)
  have last : Frame [.sysEvtSts] [.acq] s3 (s.logFaultAt tm code fl cls lo ph) :=
    ((Frame.refl [.sysEvtSts] [.acq] s3).post_unrouted (f3.quiet hs).1).change_quiet (f3.quiet hs)
  refine ⟨?_, fun k hk => ?_⟩
  · rw [last.fld _ _ (by decide), hs3, fld_setFld_same _ _ _ (by decide)]
    exact Nat.mod_eq_of_lt (Nat.mod_lt _ (by decide))
  · rw [last.reg _ _ (by decide), hs3, reg_setFld_ne _ _ (Or.inl (by decide)), hs2,
      (foldl_setReg_reg (logWords tm code fl cls lo ph) _ _ _).2 k hk]
    exact Nat.mod_eq_of_lt (logWords_lt _ _ _ _ _ _ k)

/-- A step to `t` that leaves the time tag and the log's head, then an entry, then a step that leaves the log, has logged it. -/
theorem logs_of_logFault {code fl cls lo ph : Nat} (hs : t.quiet) (htag : t.tag = s.tag)
    (hhead : t.fld F.fmkLogHeadHead 0 = s.fld F.fmkLogHeadHead 0) (hu : Frame R P (t.logFault code fl cls lo ph) u)
    (hR : Reg.fmkLog ∉ R ∧ Reg.fmkLogHead ∉ R := by decide) : s.logs u code fl cls lo ph := by
  obtain ⟨hnext, hwords⟩ := logFaultAt_shows hs t.tag code fl cls lo ph
  rw [hhead] at hnext hwords
  rw [htag] at hwords
  refine ⟨?_, fun k hk => ?_⟩
  · rw [hu.fld _ _ hR.2]
    exact hnext
  · rw [hu.reg _ _ hR.1, ← hwords k hk]
    unfold State.logFault
    rw [htag]

end Sys2Proof.Machine
end

section
/-! SUPPORT. The time base (R317, R320 to R325): its states, the servo, a measurement of the host and holdover, on a device that routes no
event and runs no stream. -/
namespace Sys2Proof.Machine

variable {R : List Reg} {P : List Part} {s t u : State} {m : Master} {r : Reg} {x y : RegField} {i j : Nat} {e : Int}

theorem Frame.onTime {f : TimeSt → TimeSt} (h : Frame R P s t) (hP : Part.time ∈ P := by decide) : Frame R P s (t.onTime f) :=
  h.onDev (fun _ => rfl) (fun d p n => by cases p <;> first | rfl | exact absurd hP n)

@[simp] theorem onTime_time (s : State) (f : TimeSt → TimeSt) : (s.onTime f).dev.time = f s.dev.time := by rfl

theorem Frame.setSfld {v : Int} (h : Frame R P s t) (hx : x.reg ∈ R) : Frame R P s (t.setSfld x i v) := h.setFld hx

theorem Frame.setPair {l h : Reg} {v : Nat} (f : Frame R P s t) (hl : l ∈ R) (hh : h ∈ R) : Frame R P s (t.setPair l h i v) :=
  (f.setReg hl).setReg hh

theorem pair_setPair {l h : Reg} {v : Nat} (hne : l ≠ h) (hv : v < 2 ^ 64) : (s.setPair l h i v).pair l h i = v := by
  unfold State.pair State.setPair
  rw [reg_setReg_ne _ _ (Or.inl hne.symm), reg_setReg_same, reg_setReg_same]
  omega

theorem Frame.pair {l h : Reg} (f : Frame R P s t) (hl : l ∉ R) (hh : h ∉ R) (i : Nat) : t.pair l h i = s.pair l h i := by
  unfold State.pair
  rw [f.reg _ _ hl, f.reg _ _ hh]

theorem unsigned_lt (w : Nat) (v : Int) : unsigned w v < 2 ^ w := by
  have hpos : (0 : Int) < 2 ^ w := by positivity
  have hlt := Int.emod_lt_of_pos v hpos
  have hnn := Int.emod_nonneg v hpos.ne'
  unfold unsigned
  zify
  omega

/-! The state of the time base. -/

/-- A change of the state touches TIM_STS and the event status alone. -/
theorem Frame.setTimState {v : Nat} (h : Frame R P s t) (hs : s.unrouted) (hn : Reg.sysEvtRoute ∉ R := by decide)
    (hR : [Reg.timSts, .sysEvtSts] ⊆ R := by decide) : Frame R P s (t.setTimState v) := by
  have hsts : Reg.timSts ∈ R := hR (by decide)
  unfold State.setTimState
  refine Frame.ite (fun _ => h) (fun _ => Frame.post_unrouted ?_ hs hn (hR (by decide)))
  exact Frame.ite (fun _ => h.setFld hsts) (fun _ => (h.setFld hsts).setFlag hsts)

theorem time_setTimState {v : Nat} (hs : s.unrouted) : (s.setTimState v).dev.time = s.dev.time :=
  ((Frame.refl [.timSts, .sysEvtSts] [] s).setTimState hs).part .time (by decide)

/-- The fields of TIM_STS between STATE and ALIGNED stay as the state changes. -/
theorem fld_setTimState_ne {v : Nat} (hs : s.unrouted) (hreg : x.reg = .timSts) (hx : x.lo ≤ x.hi) (h : 25 < x.lo ∧ x.hi < 28) :
    (s.setTimState v).fld x 0 = s.fld x 0 := by
  have moved : (s.setFld F.timStsState 0 v).fld x 0 = s.fld x 0 :=
    fld_setFld_ne _ _ (by decide) hx (Or.inr (Or.inr (Or.inr h.2)))
  have stepped : ∀ w : State, Frame [.timSts, .sysEvtSts] [] s w → w.fld x 0 = s.fld x 0 →
      (w.post 1 v).fld x 0 = s.fld x 0 := fun w hw hfld => by
    rw [post_unrouted (hw.unrouted hs), fld_setReg_ne _ _ (Or.inl (by rw [hreg]; decide)), hfld]
  have f1 : Frame [.timSts, .sysEvtSts] [] s (s.setFld F.timStsState 0 v) := (Frame.refl _ _ _).setFld (by decide)
  unfold State.setTimState
  split
  · rfl
  · dsimp only
    split
    · exact stepped _ f1 moved
    · refine stepped _ (f1.setFlag (by decide)) ?_
      exact (fld_setFld_ne _ _ (by decide) hx (Or.inr (Or.inr (Or.inl h.1)))).trans moved

theorem setTimState_shows {v : Nat} (hs : s.unrouted) (hv : v < 16) : (s.setTimState v).fld F.timStsState 0 = v := by
  have stored : (s.setFld F.timStsState 0 v).fld F.timStsState 0 = v :=
    (fld_setFld_same _ _ _ (by decide)).trans (Nat.mod_eq_of_lt hv)
  unfold State.setTimState
  split
  next h => exact h
  next h =>
    have posted : ∀ w : State, Frame [.timSts] [] s w → w.fld F.timStsState 0 = v → (w.post 1 v).fld F.timStsState 0 = v :=
      fun w hw hfld => by rw [post_unrouted (hw.unrouted hs), fld_setReg_ne _ _ (Or.inl (by decide)), hfld]
    have f1 : Frame [.timSts] [] s (s.setFld F.timStsState 0 v) := (Frame.refl _ _ _).setFld (by decide)
    dsimp only
    split
    · exact posted _ f1 stored
    · refine posted _ (f1.setFlag (by decide)) ?_
      exact (fld_setFld_ne _ _ (by decide) (by decide) (Or.inr (Or.inr (Or.inl (by decide))))).trans stored

/-! The servo. -/

/-- An update of the servo keeps the clock, its offset and the instant of the last measurement, and its error is the one given. -/
def Updated (e : Int) (s t : State) : Prop :=
  t.dev.time.c = s.dev.time.c ∧ t.dev.time.o = s.dev.time.o ∧ t.dev.time.lastMeas = s.dev.time.lastMeas ∧ t.dev.time.lastE = some e

theorem Updated.of_time (h : Updated e s t) (ht : u.dev.time = t.dev.time) : Updated e s u := by
  unfold Updated
  rw [ht]
  exact h

theorem Updated.restart (h : Updated e s t) : Updated e s (t.onTime fun t => { t with lockRun := 0 }) := h

/-- An update of the servo stores its terms, and may then change the state of the time base (R322). -/
theorem servo_cases (s : State) (e : Int) : ∃ t, Frame [.timRate, .timSlew, .timSts, .timErr] [.time] s t ∧ Updated e s t
    ∧ (s.servo e = t ∨ ∃ v, s.servo e = t.setTimState v) := by
  generalize hu : s.servo e = u
  unfold State.servo at hu
  extract_lets _ tu clamped sl r run s1 s2 at hu
  have f1 : Frame [.timRate, .timSlew, .timSts, .timErr] [.time] s s1 := (Frame.refl _ _ s).onTime
  have f2 : Frame [.timRate, .timSlew, .timSts, .timErr] [.time] s s2 :=
    (f1.setSfld (by decide)).setSfld (by decide) |>.setFlag (by decide) |>.setSfld (by decide) |>.setFlag (by decide)
  have k1 : Updated e s s1 := ⟨rfl, rfl, rfl, rfl⟩
  have k2 : Updated e s s2 := k1.of_time (by simp [s2, State.setSfld, State.setFlag])
  split at hu
  · split at hu
    · exact ⟨s2, f2, k2, Or.inr ⟨_, hu.symm⟩⟩
    · exact ⟨s2, f2, k2, Or.inl hu.symm⟩
  · split at hu
    · exact ⟨_, f2.onTime, k2.restart, Or.inr ⟨_, hu.symm⟩⟩
    · exact ⟨s2, f2, k2, Or.inl hu.symm⟩
  · exact ⟨s2, f2, k2, Or.inl hu.symm⟩

/-- The registers that an update of the servo moves. -/
abbrev servoRegs : List Reg := [.timRate, .timSlew, .timSts, .timErr, .sysEvtSts]

theorem servo_shows (hs : s.unrouted) (e : Int) : Frame servoRegs [.time] s (s.servo e) ∧ Updated e s (s.servo e) := by
  obtain ⟨t, hframe, hupd, hstays | ⟨v, hstate⟩⟩ := servo_cases s e
  · rw [hstays]
    exact ⟨hframe.mono (by decide) (by decide), hupd⟩
  · rw [hstate]
    exact ⟨(hframe.mono (by decide) (by decide)).setTimState hs, hupd.of_time (time_setTimState (hframe.unrouted hs))⟩

/-! A measurement (R321, R324). -/

/-- The first measurement steps the clock onto the host's (R321). -/
theorem measure_loads (hs : s.unrouted) (hop : s.inOp [.init, .ready] = true) (hst : s.fld F.timStsState 0 = 0) (e : Int) :
    Frame [.timSts, .sysEvtSts] [.time] s (s.measure e) ∧ (s.measure e).dev.time.c = s.dev.time.c
      ∧ (s.measure e).dev.time.o = s.dev.time.o - e * 2 ^ 24 ∧ (s.measure e).dev.time.lastMeas = s.dev.time.c
      ∧ (s.measure e).fld F.timStsState 0 = 2 ∧ (s.measure e).fld F.timStsLoaded 0 = 1
      ∧ (s.measure e).fld F.timStsLoadPend 0 = 0 := by
  set v := ((s.onTime fun t => { t with lastMeas := t.c }).stepO (-e * 2 ^ 24)).onTime fun t => { t with lockRun := 0 } with hv
  set w := (v.setFlag F.timStsLoaded 0 true).setFlag F.timStsLoadPend 0 false with hw
  have hm : s.measure e = w.setTimState 2 := by simp [State.measure, State.firstMeasure, hst, hop, hw, hv]
  have htime : w.dev.time = v.dev.time := by simp [hw, State.setFlag]
  have fw : Frame [.timSts, .sysEvtSts] [.time] s w :=
    ((Frame.refl _ _ s).onTime.onTime.onTime.setFlag (by decide)).setFlag (by decide)
  have hwu := fw.unrouted hs
  rw [hm, time_setTimState hwu, htime]
  refine ⟨fw.setTimState hs, rfl, ?_, rfl, setTimState_shows hwu (by decide), ?_, ?_⟩
  · change s.dev.time.o + -e * 2 ^ 24 = _
    ring
  · rw [fld_setTimState_ne hwu rfl (by decide) (by decide), hw]
    exact (fld_setFld_ne _ _ (by decide) (by decide) (by decide)).trans (fld_setFlag_same v 0 (by decide) true)
  · rw [fld_setTimState_ne hwu rfl (by decide) (by decide)]
    exact fld_setFlag_same _ 0 (by decide) false

/-- One that finds the time base following is an update of the servo (R322). -/
theorem measure_follows (hs : s.unrouted) (hst : s.fld F.timStsState 0 = 2 ∨ s.fld F.timStsState 0 = 3) (e : Int) :
    Frame servoRegs [.time] s (s.measure e) ∧ (s.measure e).dev.time.c = s.dev.time.c
      ∧ (s.measure e).dev.time.o = s.dev.time.o ∧ (s.measure e).dev.time.lastMeas = s.dev.time.c
      ∧ (s.measure e).dev.time.lastE = some e := by
  set v := s.onTime fun t => { t with lastMeas := t.c } with hv
  have hm : s.measure e = v.servo e := by
    unfold State.measure State.firstMeasure
    rcases hst with hst | hst <;> simp [hst, hv]
  have fv : Frame servoRegs [.time] s v := (Frame.refl _ _ s).onTime
  obtain ⟨hframe, hc, ho, hmeas, he⟩ := servo_shows (fv.unrouted hs) e
  rw [hm]
  exact ⟨fv.trans hframe (by decide) (by decide), hc, ho, hmeas, he⟩

/-- The first one after holdover is kept as the return error (R324). -/
theorem measure_returns (hs : s.unrouted) (hst : s.fld F.timStsState 0 = 4) (e : Int) :
    Frame (servoRegs ++ [.timRetErrLo, .timRetErrHi]) [.time] s (s.measure e) ∧ (s.measure e).dev.time.c = s.dev.time.c
      ∧ (s.measure e).pair .timRetErrLo .timRetErrHi 0 = unsigned 64 e ∧ (s.measure e).dev.time.lastE = some e := by
  set p := (s.onTime fun t => { t with lastMeas := t.c }).setPair .timRetErrLo .timRetErrHi 0 (unsigned 64 e) with hp
  set v := p.onTime fun t => { t with lockRun := 0 } with hv
  have hm : s.measure e = (v.setTimState 2).servo e := by
    simp [State.measure, State.firstMeasure, hst, hv, hp]
  have fv : Frame [.timRetErrLo, .timRetErrHi] [.time] s v := ((Frame.refl _ _ s).onTime.setPair (by decide) (by decide)).onTime
  have fstate : Frame servoRegs [.time] v (v.setTimState 2) := (Frame.refl _ _ v).setTimState (fv.unrouted hs)
  obtain ⟨hframe, hc, -, -, he⟩ := servo_shows (fstate.unrouted (fv.unrouted hs)) e
  have whole := fstate.trans hframe (by decide) (by decide)
  rw [hm]
  refine ⟨(fv.mono (by decide) (by decide)).trans whole (by decide) (by decide), ?_, ?_, he⟩
  · rw [hc, time_setTimState (fv.unrouted hs)]
    simp [hv, hp, State.setPair]
  · rw [whole.pair (by decide) (by decide)]
    exact pair_setPair (by decide) (unsigned_lt _ _)

/-! Holdover (R323). -/

theorem setSfld_zero (hx : x.lo ≤ x.hi ∧ x.hi < 32) : (s.setSfld x i 0).sfld x i = 0 := by
  unfold State.setSfld State.sfld
  rw [fld_setFld_same _ _ _ hx]
  simp [unsigned, signed]

/-- What the time base leaves as it enters holdover, and the entry of the log. -/
theorem holdoverNow_shows (hs : s.quiet) :
    Frame (logRegisters ++ [.timSts, .timSlew, .timRate, .timHoldCnt]) [.time, .acq] s s.holdoverNow
      ∧ s.holdoverNow.dev.time.c = s.dev.time.c ∧ s.holdoverNow.dev.time.o = s.dev.time.o
      ∧ s.holdoverNow.fld F.timStsState 0 = 4 ∧ s.holdoverNow.slew = 0
      ∧ s.holdoverNow.fld F.timHoldCntCount 0 = min (s.fld F.timHoldCntCount 0 + 1) 0xFFFFFFFF
      ∧ (s.dev.time.rHist = [] → s.holdoverNow.rate = s.rate) ∧ s.logs s.holdoverNow 0x0C 0 0x0E 0 0xFFFF := by
  set a := if s.dev.time.rHist.isEmpty then s else s.setSfld F.timRateR 0 (meanI s.dev.time.rHist) with ha
  set b := (a.setSfld F.timSlewS 0 0).onTime fun t => { t with sum := [], lockRun := 0 } with hb
  set c := b.bump F.timHoldCntCount 0 1 with hc
  set d := c.setTimState 4 with hd
  have hh : s.holdoverNow = d.logFault 0x0C 0 0x0E 0 0xFFFF := rfl
  have fa : Frame [.timRate] [] s a := Frame.ite (fun _ => Frame.refl _ _ s) (fun _ => (Frame.refl _ _ s).setSfld (by decide))
  have fb : Frame [.timSlew, .timRate] [.time] s b := ((fa.mono (by decide) (by decide)).setSfld (by decide)).onTime
  have fc : Frame [.timSlew, .timRate, .timHoldCnt] [.time] s c := (fb.mono (by decide) (by decide)).bump (by decide)
  have hcu : c.unrouted := fc.unrouted hs.1
  have fcd : Frame [.timSts, .sysEvtSts] [] c d := (Frame.refl _ _ c).setTimState hcu
  have fd : Frame [.timSts, .timSlew, .timRate, .timHoldCnt, .sysEvtSts] [.time] s d :=
    (fc.mono (by decide) (by decide)).trans fcd (by decide) (by decide)
  have hdq := fd.quiet hs
  have flog : Frame logRegisters [.acq] d s.holdoverNow := (Frame.refl _ _ d).logFaultAt_quiet hdq
  have hatime : a.dev.time = s.dev.time := fa.part .time (by decide)
  have hdtime : d.dev.time = { s.dev.time with sum := [], lockRun := 0 } := by
    rw [hd, time_setTimState hcu]
    simp [hc, hb, State.bump, State.setSfld, hatime]
  have htime : s.holdoverNow.dev.time = { s.dev.time with sum := [], lockRun := 0 } :=
    (show s.holdoverNow.dev.time = d.dev.time from flog.part .time (by decide)).trans hdtime
  refine ⟨(fd.mono (by decide) (by decide)).trans flog (by decide) (by decide), ?_, ?_, ?_, ?_, ?_, fun hempty => ?_, ?_⟩
  · rw [htime]
  · rw [htime]
  · rw [flog.fld _ _ (by decide)]
    exact setTimState_shows hcu (by decide)
  · have fbh : Frame (logRegisters ++ [.timSts, .timHoldCnt]) [.time, .acq] b s.holdoverNow :=
      (((Frame.refl _ _ b).bump (by decide)).trans fcd (by decide) (by decide)).trans flog (by decide) (by decide)
    unfold State.slew State.sfld
    rw [fbh.fld _ _ (by decide)]
    exact setSfld_zero (s := a) (by decide)
  · rw [flog.fld _ _ (by decide), fcd.fld _ _ (by decide), hc, fld_bump_same _ _ _ (by decide), fb.fld _ _ (by decide)]
    rfl
  · have hsame : a = s := if_pos (by rw [hempty]; rfl)
    have fah : Frame (logRegisters ++ [.timSts, .timSlew, .timHoldCnt]) [.time, .acq] a s.holdoverNow :=
      ((((Frame.refl _ _ a).setSfld (by decide)).onTime.bump (by decide)).trans fcd (by decide) (by decide)).trans flog
        (by decide) (by decide)
    unfold State.rate State.sfld
    rw [fah.fld _ _ (by decide), hsame]
  · refine logs_of_logFault (t := d) (R := []) (P := []) hdq ?_ (fd.fld _ _ (by decide)) (hh ▸ Frame.refl _ _ _)
    unfold State.tag State.timeFix
    rw [hdtime]

end Sys2Proof.Machine
end

section
/-! SUPPORT. TIM_MEAS_WRITE and HOLDOVER (R17, R321 to R324, R331): the path of the two halves to a measurement, and the commands. -/
namespace Sys2Proof.Machine

variable {R : List Reg} {P : List Part} {s t u : State} {m : Master} {lo hi : BitVec 32} {e : Int}

/-- A frame that leaves memory and the clock keeps what the statement names. -/
theorem Frame.keepsTime (h : Frame R P s t) (hm : Part.mem ∉ P) (hc : t.dev.time.c = s.dev.time.c) :
    keepsCore s t ∧ keepsRegs R s t ∧ keepsBytes s t ∧ t.dev.time.c = s.dev.time.c := by
  obtain ⟨hcore, hregs, hbytes⟩ := h.keeps hm
  exact ⟨hcore, hregs, hbytes, hc⟩

theorem keepsCore_trans (h : keepsCore s t) (k : keepsCore t u) : keepsCore s u := by
  obtain ⟨hsys, hsaf, hfuse, hpend⟩ := h
  obtain ⟨ksys, ksaf, kfuse, kpend⟩ := k
  exact ⟨ksys.trans hsys, ksaf.trans hsaf, kfuse.trans hfuse, kpend.trans hpend⟩

/-! The two halves. -/

theorem heldFor_timMeas : heldFor .timMeasLo = some .timMeasHi ∧ heldFor .timMeasHi = none := by decide +kernel

/-- A master's low half is held for its high half (R17). -/
def State.holdLow (s : State) (k v : Nat) : State := s.onDev fun d => { d with heldLo := smPut none d.heldLo k (some v) }

theorem Frame.holdLow {v : Nat} (h : Frame R P s t) (hP : Part.heldLo ∈ P) (k : Nat) : Frame R P s (t.holdLow k v) :=
  h.onDev (fun _ => rfl) (fun d p n => by cases p <;> first | rfl | exact absurd hP n)

theorem writeReg_timMeasLo {v a : Nat} : s.writeReg m .timMeasLo 0 v a = s.holdLow (halfKey m a) v := by
  unfold State.writeReg
  rw [heldFor_timMeas.1]
  simp [State.holdLow]

/-- What a write of TIM_MEAS_HI does with a low half (R321, R331). -/
theorem applyWrite_timMeasHi {v a w : Nat} : s.applyWrite m .timMeasHi 0 v a (some w) =
    if s.timeSrc ≠ 2 then s.accErr m 4 a
    else if s.measures = false then s.accErr m 3 a
    else s.measure (signed 64 (w + 2 ^ 32 * v)) := by
  unfold State.applyWrite State.commandReg
  rw [Nat.mul_comm (2 ^ 32) v]
  by_cases hsrc : s.timeSrc = 2 <;> by_cases hm : s.measures = false <;> simp [hsrc, hm]

theorem reaches_timMeasHi (hr : s.reaches m .timMeasLo 0) (t : State) : t.reaches m .timMeasHi 0 := by
  obtain ⟨h0, h1, hd, -⟩ := hr
  exact ⟨h0, h1, hd, rfl⟩

/-- Both halves, written by a master that reaches them, come to the time base as one measurement, and hold nothing back. -/
theorem timMeasWrite_path (hr : s.reaches m .timMeasLo 0) (lo hi : BitVec 32) : ∃ u, Frame [] [.heldLo] s u
    ∧ ∀ t, u.applyWrite m .timMeasHi 0 hi.toNat (Reg.timMeasHi.addr 0) (some lo.toNat) = t → keepsCore u t →
      exec (.timMeasWrite m lo hi) s = .next t := by
  set k := halfKey m (Reg.timMeasLo.addr 0) with hk
  set p := s.holdLow k lo.toNat with hp
  have fp : Frame [] [.heldLo] s p := (Frame.refl _ _ s).holdLow (by decide) k
  have fu : Frame [] [.heldLo] p (p.dropHeld k) := (Frame.refl _ _ p).dropHeld (by decide) k
  refine ⟨p.dropHeld k, fp.trans fu (by decide) (by decide), fun t ht hcore => ?_⟩
  have hlow : s.writeAt m .timMeasLo 0 lo.toNat = p := by
    rw [writeAt_reaching placed_timMeasLo hr (by decide)]
    refine inDev_eq ?_ fp.core
    rw [Nat.mod_eq_of_lt lo.isLt, writeReg_timMeasLo]
  have hheld : smGet none p.dev.heldLo k = some lo.toNat := by
    rw [hp]
    exact smGet_put_same none s.dev.heldLo k (some lo.toNat)
  have keeps : keepsCore p t := keepsCore_trans fu.core hcore
  have hhigh : p.writeAt m .timMeasHi 0 hi.toNat = t := by
    rw [writeAt_reaching placed_timMeasHi (reaches_timMeasHi hr p) (by decide)]
    refine inDev_eq ?_ keeps
    rw [Nat.mod_eq_of_lt hi.isLt, writeReg_high heldFor_timMeas.2 rfl, ← hk, hheld, ht]
  refine congrArg Host.Outcome.next (inCore_eq ?_ (keepsCore_trans fp.core keeps))
  unfold State.writeHalves
  rw [hlow, hhigh]

/-! The clauses of a measurement. -/

/-- What a frame without registers keeps of the time base. -/
theorem Frame.timeFacts (f : Frame [] [.heldLo] s u) : u.timeSrc = s.timeSrc ∧ u.measures = s.measures ∧ u.dev.time = s.dev.time
    ∧ u.fld F.timStsState 0 = s.fld F.timStsState 0 := by
  refine ⟨?_, ?_, f.part .time (by decide), f.fld _ _ (by decide)⟩
  · unfold State.timeSrc
    rw [f.fld _ _ (by decide)]
  · unfold State.measures State.inOp
    rw [f.sys]

theorem measures_of_entry (hop : s.sys.op = .init ∨ s.sys.op = .ready) : s.measures = true := by
  unfold State.measures State.inOp
  rcases hop with hop | hop <;> rw [hop] <;> rfl

/-- Elsewhere than under SRC 2, or in a state that takes no measurement, it is counted as an error. -/
theorem timMeasWrite_refused (hs : s.unrouted) (hr : s.reaches m .timMeasLo 0) (hno : s.timeSrc ≠ 2 ∨ s.measures = false) :
    ∃ t, exec (.timMeasWrite m lo hi) s = .next t ∧ Frame accErrRegs [.heldLo] s t ∧ s.countsError t
      ∧ t.dev.time = s.dev.time := by
  obtain ⟨u, fu, path⟩ := timMeasWrite_path hr lo hi
  obtain ⟨hsrc, hmeas, htime, -⟩ := fu.timeFacts
  have hu := fu.unrouted hs
  obtain ⟨kind, hk, happ⟩ : ∃ kind < 8, u.applyWrite m .timMeasHi 0 hi.toNat (Reg.timMeasHi.addr 0) (some lo.toNat)
      = u.accErr m kind (Reg.timMeasHi.addr 0) := by
    rw [applyWrite_timMeasHi, hsrc, hmeas]
    by_cases hne : s.timeSrc ≠ 2
    · exact ⟨4, by decide, if_pos hne⟩
    · exact ⟨3, by decide, (if_neg hne).trans (if_pos (hno.resolve_left hne))⟩
  have ferr := Frame.accErr_unrouted hu m kind (Reg.timMeasHi.addr 0)
  have hcount : (u.accErr m kind (Reg.timMeasHi.addr 0)).fld F.sysAccErrCntCount 0 = _ := (accErr_shows hu m hk _).1
  refine ⟨_, path _ happ ferr.core, (fu.mono (by decide) (by decide)).trans ferr (by decide) (by decide), ?_,
    (ferr.part .time (by decide)).trans htime⟩
  unfold State.countsError
  rw [hcount, fu.fld _ _ (by decide)]

/-- Under SRC 2, in a state that takes measurements, the time base takes it. -/
theorem timMeasWrite_measures (hr : s.reaches m .timMeasLo 0) (hsrc : s.timeSrc = 2) (hmeas : s.measures = true)
    (he : e = signed 64 (lo.toNat + 2 ^ 32 * hi.toNat)) :
    ∃ u, Frame [] [.heldLo] s u ∧ (keepsCore u (u.measure e) → exec (.timMeasWrite m lo hi) s = .next (u.measure e)) := by
  obtain ⟨u, fu, path⟩ := timMeasWrite_path hr lo hi
  obtain ⟨husrc, humeas, -, -⟩ := fu.timeFacts
  refine ⟨u, fu, path _ ?_⟩
  rw [applyWrite_timMeasHi, husrc, humeas, ← he]
  simp [hsrc, hmeas]

theorem timMeasWrite_loads (hs : s.unrouted) (hr : s.reaches m .timMeasLo 0) (hsrc : s.timeSrc = 2)
    (hop : s.sys.op = .init ∨ s.sys.op = .ready) (hst : s.fld F.timStsState 0 = 0)
    (he : e = signed 64 (lo.toNat + 2 ^ 32 * hi.toNat)) :
    ∃ t, exec (.timMeasWrite m lo hi) s = .next t ∧ Frame [.timSts, .sysEvtSts] [.heldLo, .time] s t
      ∧ t.dev.time.c = s.dev.time.c ∧ t.dev.time.o = s.dev.time.o - e * 2 ^ 24 ∧ t.dev.time.lastMeas = s.dev.time.c
      ∧ t.fld F.timStsState 0 = 2 ∧ t.fld F.timStsLoaded 0 = 1 ∧ t.fld F.timStsLoadPend 0 = 0 := by
  have hentry : s.inOp [.init, .ready] = true := by simpa [State.inOp] using hop
  obtain ⟨u, fu, path⟩ := timMeasWrite_measures hr hsrc (measures_of_entry hop) he
  obtain ⟨-, -, htime, hust⟩ := fu.timeFacts
  have huentry : u.inOp [.init, .ready] = true := by rw [← hentry]; unfold State.inOp; rw [fu.sys]
  obtain ⟨frame, shown⟩ := measure_loads (fu.unrouted hs) huentry (hust.trans hst) e
  rw [htime] at shown
  exact ⟨_, path frame.core, (fu.mono (by decide) (by decide)).trans frame (by decide) (by decide), shown⟩

theorem timMeasWrite_follows (hs : s.unrouted) (hr : s.reaches m .timMeasLo 0) (hsrc : s.timeSrc = 2) (hmeas : s.measures = true)
    (hst : s.fld F.timStsState 0 = 2 ∨ s.fld F.timStsState 0 = 3) (he : e = signed 64 (lo.toNat + 2 ^ 32 * hi.toNat)) :
    ∃ t, exec (.timMeasWrite m lo hi) s = .next t ∧ Frame servoRegs [.heldLo, .time] s t ∧ t.dev.time.c = s.dev.time.c
      ∧ t.dev.time.o = s.dev.time.o ∧ t.dev.time.lastMeas = s.dev.time.c ∧ t.dev.time.lastE = some e := by
  obtain ⟨u, fu, path⟩ := timMeasWrite_measures hr hsrc hmeas he
  obtain ⟨-, -, htime, hust⟩ := fu.timeFacts
  rw [← hust] at hst
  obtain ⟨frame, shown⟩ := measure_follows (fu.unrouted hs) hst e
  rw [htime] at shown
  exact ⟨_, path frame.core, (fu.mono (by decide) (by decide)).trans frame (by decide) (by decide), shown⟩

theorem timMeasWrite_returns (hs : s.unrouted) (hr : s.reaches m .timMeasLo 0) (hsrc : s.timeSrc = 2) (hmeas : s.measures = true)
    (hst : s.fld F.timStsState 0 = 4) (he : e = signed 64 (lo.toNat + 2 ^ 32 * hi.toNat)) :
    ∃ t, exec (.timMeasWrite m lo hi) s = .next t ∧ Frame (servoRegs ++ [.timRetErrLo, .timRetErrHi]) [.heldLo, .time] s t
      ∧ t.dev.time.c = s.dev.time.c ∧ t.pair .timRetErrLo .timRetErrHi 0 = unsigned 64 e ∧ t.dev.time.lastE = some e := by
  obtain ⟨u, fu, path⟩ := timMeasWrite_measures hr hsrc hmeas he
  obtain ⟨-, -, htime, hust⟩ := fu.timeFacts
  obtain ⟨frame, shown⟩ := measure_returns (fu.unrouted hs) (hust.trans hst) e
  rw [htime] at shown
  exact ⟨_, path frame.core, (fu.mono (by decide) (by decide)).trans frame (by decide) (by decide), shown⟩

/-! Holdover. -/

theorem holdover_enters (hs : s.quiet) (hst : s.fld F.timStsState 0 = 2 ∨ s.fld F.timStsState 0 = 3) (hop : s.sys.op ≠ .stabled) :
    exec .holdover s = .next s.holdoverNow :=
  congrArg Host.Outcome.next (inDev_eq (if_pos ⟨hst, hop⟩) (holdoverNow_shows hs).1.core)

theorem holdover_stays (h : ¬((s.fld F.timStsState 0 = 2 ∨ s.fld F.timStsState 0 = 3) ∧ s.sys.op ≠ .stabled)) :
    exec .holdover s = .next s :=
  congrArg Host.Outcome.next (inDev_eq (if_neg h) ⟨rfl, rfl, rfl, rfl⟩)

end Sys2Proof.Machine
end

section
/-! SUPPORT. The choice of the reference clock (R326, R366), on a device that routes no event and runs no stream. -/
namespace Sys2Proof.Machine

variable {R : List Reg} {P : List Part} {s t u w : State} {x : RegField} {v : Nat} {b : Bool}

/-- A frame that leaves the clock too. -/
theorem Frame.keepsClock (h : Frame R P s t) (hm : Part.mem ∉ P := by decide) (ht : Part.time ∉ P := by decide) :
    keepsCore s t ∧ keepsRegs R s t ∧ keepsBytes s t ∧ t.dev.time.c = s.dev.time.c :=
  h.keepsTime hm (congrArg TimeSt.c (h.part .time ht))

theorem flag_setFlag_ne {y : RegField} {i j : Nat} (hx : x.lo ≤ x.hi ∧ x.hi < 32) (hy : y.lo ≤ y.hi)
    (h : x.reg ≠ y.reg ∨ i ≠ j ∨ x.hi < y.lo ∨ y.hi < x.lo) : (s.setFlag x i b).flag y j = s.flag y j := by
  unfold State.flag State.setFlag
  rw [fld_setFld_ne _ _ hx hy h]

/-! A switch. -/

/-- The registers that a switch moves. -/
abbrev refRegs : List Reg := logRegisters ++ [.fmkSts, .timRefSts, .timRefHoldCnt]

/-- From `s` to `t` the PLL has taken the reference `v`: it is shown and logged, and an entry to holdover is counted (R366, R369). -/
def Switched (s t : State) (v : Nat) : Prop :=
  let ref := s.fld F.fmkStsRef 0
  t.fld F.fmkStsRef 0 = v ∧ t.flag F.timRefStsSel 0 = decide (v = 1) ∧ t.flag F.timRefStsHold 0 = decide (v = 2)
    ∧ s.logs t 0x0B (b2n (decide (v ≠ 2))) 0x0A (if ref = 2 then v else ref) (if v = 2 then 0xFFFF else v)
    ∧ t.fld F.timRefHoldCntCount 0 = min (s.fld F.timRefHoldCntCount 0 + b2n (decide (v = 2))) 0xFFFFFFFF

/-- What comes before a switch and leaves the references' choice, the log and the clock may be counted to it. -/
theorem Switched.of_frame (h : Switched w t v) (f : Frame [.timRefSts, .sysEvtSts] [] s w) : Switched s t v := by
  have htag : w.tag = s.tag := by
    unfold State.tag State.timeFix
    rw [show w.dev.time = s.dev.time from f.part .time (by decide)]
  unfold Switched State.logs at *
  rw [htag, f.fld F.fmkStsRef 0 (by decide), f.fld F.fmkLogHeadHead 0 (by decide),
    f.fld F.timRefHoldCntCount 0 (by decide)] at h
  exact h

/-- The flags of TIM_REF_STS that a switch leaves: all but SEL and HOLD. -/
abbrev BesideChoice (x : RegField) : Prop := x.reg = .timRefSts ∧ x.lo ≤ x.hi ∧ (29 < x.lo ∨ x.hi < 28)

/-- The fields that show the reference taken. -/
def State.showRef (s : State) (v : Nat) : State :=
  ((s.setFld F.fmkStsRef 0 v).setFlag F.timRefStsSel 0 (decide (v = 1))).setFlag F.timRefStsHold 0 (decide (v = 2))

/-- A switch shows the reference and counts an entry to holdover, logs it, and reports it. -/
theorem setRef_eq (hne : s.fld F.fmkStsRef 0 ≠ v) : s.setRef v =
    (((if v = 2 then (s.showRef v).bump F.timRefHoldCntCount 0 1 else s.showRef v).logFault 0x0B (b2n (decide (v ≠ 2))) 0x0A
      (if s.fld F.fmkStsRef 0 = 2 then v else s.fld F.fmkStsRef 0) (if v = 2 then 0xFFFF else v)).change 0x134 0x12 v false).post 2 v :=
  if_neg hne

theorem showRef_shows (hv : v ≤ 2) : Frame [.fmkSts, .timRefSts] [] s (s.showRef v) ∧ (s.showRef v).fld F.fmkStsRef 0 = v
    ∧ (s.showRef v).flag F.timRefStsSel 0 = decide (v = 1) ∧ (s.showRef v).flag F.timRefStsHold 0 = decide (v = 2)
    ∧ ∀ x, BesideChoice x → (s.showRef v).flag x 0 = s.flag x 0 := by
  unfold State.showRef
  set p := s.setFld F.fmkStsRef 0 v with hp
  set q := p.setFlag F.timRefStsSel 0 (decide (v = 1)) with hq
  have fp : Frame [.fmkSts] [] s p := (Frame.refl _ _ s).setFld (by decide)
  have fq : Frame [.timRefSts] [] p q := (Frame.refl _ _ p).setFlag (by decide)
  have fr : Frame [.timRefSts] [] p (q.setFlag F.timRefStsHold 0 (decide (v = 2))) := fq.setFlag (by decide)
  refine ⟨(fp.mono (by decide) (by decide)).trans fr (by decide) (by decide), ?_, ?_, flag_setFlag_same _ _ (by decide) _,
    fun x ⟨hreg, hx, hside⟩ => ?_⟩
  · rw [fr.fld _ _ (by decide), hp, fld_setFld_same _ _ _ (by decide)]
    exact Nat.mod_eq_of_lt (Nat.lt_of_le_of_lt hv (by decide))
  · rw [flag_setFlag_ne (by decide) (by decide) (by decide), hq]
    exact flag_setFlag_same _ _ (by decide) _
  · have hhold : 28 < x.lo ∨ x.hi < 28 := by omega
    have hsel : 29 < x.lo ∨ x.hi < 29 := by omega
    rw [flag_setFlag_ne (by decide) hx (Or.inr (Or.inr hhold)), hq, flag_setFlag_ne (by decide) hx (Or.inr (Or.inr hsel)),
      fp.flag _ _ (by rw [hreg]; decide)]

theorem setRef_shows (hs : s.quiet) (hv : v ≤ 2) (hne : s.fld F.fmkStsRef 0 ≠ v) :
    Frame refRegs [.acq] s (s.setRef v) ∧ Switched s (s.setRef v) v ∧ ∀ x, BesideChoice x → (s.setRef v).flag x 0 = s.flag x 0 := by
  obtain ⟨fp, href, hsel, hhold, hbeside⟩ := showRef_shows (s := s) hv
  set p := s.showRef v with hp
  set q := if v = 2 then p.bump F.timRefHoldCntCount 0 1 else p with hq
  have fpq : Frame [.timRefHoldCnt] [] p q :=
    Frame.ite (fun _ => (Frame.refl _ _ p).bump (by decide)) (fun _ => Frame.refl _ _ p)
  have fq : Frame [.fmkSts, .timRefSts, .timRefHoldCnt] [] s q :=
    (fp.mono (by decide) (by decide)).trans fpq (by decide) (by decide)
  set l := q.logFault 0x0B (b2n (decide (v ≠ 2))) 0x0A (if s.fld F.fmkStsRef 0 = 2 then v else s.fld F.fmkStsRef 0)
    (if v = 2 then 0xFFFF else v) with hl
  have fl : Frame logRegisters [.acq] q l := (Frame.refl _ _ q).logFaultAt_quiet (fq.quiet hs)
  have fend : Frame [.sysEvtSts] [.acq] l (s.setRef v) := by
    have hlq := fl.quiet (fq.quiet hs)
    rw [setRef_eq hne]
    exact ((Frame.refl _ _ l).change_quiet hlq).post_unrouted hlq.1
  have fqt : Frame logRegisters [.acq] q (s.setRef v) := fl.trans fend (by decide) (by decide)
  have fpt : Frame (logRegisters ++ [.timRefHoldCnt]) [.acq] p (s.setRef v) :=
    (fpq.mono (by decide) (by decide)).trans fqt (by decide) (by decide)
  have htime : q.dev.time = s.dev.time := fq.part .time (by decide)
  refine ⟨(fq.mono (by decide) (by decide)).trans fqt (by decide) (by decide), ⟨?_, ?_, ?_, ?_, ?_⟩, fun x hx => ?_⟩
  · rw [fpt.fld _ _ (by decide), href]
  · rw [fpt.flag _ _ (by decide), hsel]
  · rw [fpt.flag _ _ (by decide), hhold]
  · refine logs_of_logFault (fq.quiet hs) ?_ (fq.fld _ _ (by decide)) fend
    unfold State.tag State.timeFix
    rw [htime]
  · have hlt : s.fld F.timRefHoldCntCount 0 < 2 ^ 32 := fld_lt _ _ _
    rw [fqt.fld _ _ (by decide), hq]
    split
    next h2 =>
      rw [fld_bump_same _ _ _ (by decide), fp.fld _ _ (by decide), decide_eq_true h2]
      rfl
    next h2 =>
      rw [fp.fld _ _ (by decide), decide_eq_false h2]
      exact (Nat.min_eq_left (Nat.le_of_lt_succ hlt)).symm
  · rw [fpt.flag _ _ (by rw [hx.1]; decide), hbeside x hx]

/-! A reference lost. -/

theorem besideChoice_refField (b : Bool) : BesideChoice (refField b) := by cases b <;> decide

/-- An event flag that is raised stands, and the fields beside it stay (R435). -/
theorem raise_unrouted {i e n : Nat} (hs : s.unrouted) (hx : x.lo = x.hi ∧ x.hi < 32)
    (hreg : x.reg ≠ .sysEvtSts ∧ x.reg ≠ .sysEvtRoute) : Frame [x.reg, .sysEvtSts] [] s (s.raise x i e n)
      ∧ (s.raise x i e n).flag x i = true ∧ ∀ y : RegField, y.reg = x.reg → y.lo ≤ y.hi → x.hi < y.lo ∨ y.hi < x.lo →
        (s.raise x i e n).flag y i = s.flag y i := by
  unfold State.raise
  split
  next hset => exact ⟨Frame.refl _ _ s, hset, fun _ _ _ _ => rfl⟩
  next =>
    have fset : Frame [x.reg] [] s (s.setFlag x i true) := (Frame.refl _ _ s).setFlag (List.mem_singleton.mpr rfl)
    have hu : (s.setFlag x i true).unrouted := fset.unrouted hs (by simpa using hreg.2.symm)
    have posted : Frame [.sysEvtSts] [] (s.setFlag x i true) ((s.setFlag x i true).post e n) := (Frame.refl _ _ _).post_unrouted hu
    refine ⟨(fset.mono (by simp) (by simp)).trans posted (by simp) (by simp), ?_, fun y hy hle hside => ?_⟩
    · rw [posted.flag _ _ (by simpa using hreg.1), flag_setFlag_same _ _ hx]
    · rw [posted.flag _ _ (by simpa [hy] using hreg.1),
        flag_setFlag_ne ⟨hx.1.le, hx.2⟩ hle (Or.inr (Or.inr hside))]

/-- The presence flag falls, and LOST_EVT is set (R326). -/
def State.refMarked (s : State) (b : Bool) : State :=
  (s.setFlag (refField b) 0 false).raise F.timRefStsLostEvt 0 2 (s.fld F.fmkStsRef 0)

theorem setFlag_refField (s : State) (b c : Bool) : Frame [.timRefSts] [] s (s.setFlag (refField b) 0 c)
    ∧ (s.setFlag (refField b) 0 c).flag (refField b) 0 = c
    ∧ (s.setFlag (refField b) 0 c).flag (refField !b) 0 = s.flag (refField !b) 0
    ∧ (s.setFlag (refField b) 0 c).flag F.timRefStsBEn 0 = s.flag F.timRefStsBEn 0 := by
  refine ⟨(Frame.refl _ _ s).setFlag (by cases b <;> decide), flag_setFlag_same _ _ (by cases b <;> decide) _, ?_, ?_⟩
  · exact flag_setFlag_ne (by cases b <;> decide) (by cases b <;> decide) (by cases b <;> decide)
  · exact flag_setFlag_ne (by cases b <;> decide) (by decide) (by cases b <;> decide)

theorem refMarked_shows (hs : s.unrouted) (b : Bool) : Frame [.timRefSts, .sysEvtSts] [] s (s.refMarked b)
    ∧ (s.refMarked b).flag (refField b) 0 = false ∧ (s.refMarked b).flag F.timRefStsLostEvt 0 = true
    ∧ (s.refMarked b).flag (refField !b) 0 = s.flag (refField !b) 0
    ∧ (s.refMarked b).flag F.timRefStsBEn 0 = s.flag F.timRefStsBEn 0 := by
  obtain ⟨fp, hfell, hother, hben⟩ := setFlag_refField s b false
  obtain ⟨fraise, hevt, hkept⟩ := raise_unrouted (x := F.timRefStsLostEvt) (i := 0) (e := 2) (n := s.fld F.fmkStsRef 0)
    (fp.unrouted hs) (by decide) (by decide)
  have presence : ∀ c, ((s.setFlag (refField b) 0 false).raise F.timRefStsLostEvt 0 2 (s.fld F.fmkStsRef 0)).flag (refField c) 0
      = (s.setFlag (refField b) 0 false).flag (refField c) 0 := fun c =>
    hkept _ (by cases c <;> decide) (by cases c <;> decide) (by cases c <;> decide)
  exact ⟨(fp.mono (by decide) (by decide)).trans fraise (by decide) (by decide), (presence b).trans hfell, hevt,
    (presence !b).trans hother, (hkept F.timRefStsBEn rfl (by decide) (by decide)).trans hben⟩

/-- The reference that is left when one is lost: the other one where it may be used, or none. -/
def State.otherRef (s : State) (b : Bool) : Nat :=
  if b then (if s.flag F.timRefStsAOk 0 then 0 else 2)
  else if s.flag F.timRefStsBOk 0 && s.flag F.timRefStsBEn 0 then 1 else 2

theorem otherRef_ne (s : State) (b : Bool) : s.otherRef b ≤ 2 ∧ b2n b ≠ s.otherRef b := by
  unfold State.otherRef
  cases b
  · rw [if_neg Bool.false_ne_true]
    split <;> decide
  · rw [if_pos rfl]
    split <;> decide

theorem usableRef_refMarked (hs : s.unrouted) (b : Bool) : (s.refMarked b).usableRef = s.otherRef b := by
  obtain ⟨-, hfell, -, hother, hben⟩ := refMarked_shows hs b
  unfold State.usableRef State.otherRef
  cases b
  case false =>
    change (s.refMarked false).flag F.timRefStsAOk 0 = false at hfell
    change (s.refMarked false).flag F.timRefStsBOk 0 = s.flag F.timRefStsBOk 0 at hother
    simp [hfell, hother, hben]
  case true =>
    change (s.refMarked true).flag F.timRefStsBOk 0 = false at hfell
    change (s.refMarked true).flag F.timRefStsAOk 0 = s.flag F.timRefStsAOk 0 at hother
    simp [hfell, hother]

theorem exec_referenceLost (hl : s.refLost b = t) (hc : keepsCore s t) : exec (.referenceLost b) s = .next t :=
  congrArg Host.Outcome.next (inDev_eq hl hc)

/-- A device that is off, or a reference neither present nor taken: nothing is lost. -/
theorem referenceLost_stays (h : s.sys.op = .off ∨ s.flag (refField b) 0 = false ∧ s.fld F.fmkStsRef 0 ≠ b2n b) :
    exec (.referenceLost b) s = .next s := by
  refine exec_referenceLost ?_ ⟨rfl, rfl, rfl, rfl⟩
  unfold State.refLost
  rcases h with hoff | ⟨habsent, hother⟩
  · exact if_pos hoff
  · rw [habsent]
    simp [hother]

/-- A reference that the PLL does not use is marked lost. -/
theorem referenceLost_marks (hs : s.unrouted) (hop : s.sys.op ≠ .off) (href : s.fld F.fmkStsRef 0 ≠ b2n b)
    (hp : s.flag (refField b) 0 = true) : exec (.referenceLost b) s = .next (s.refMarked b) := by
  refine exec_referenceLost ?_ (refMarked_shows hs b).1.core
  unfold State.refLost
  rw [if_neg hop, if_pos (Or.inl hp)]
  exact if_neg href

/-- The PLL leaves the one it used. -/
theorem referenceLost_switches (hs : s.quiet) (hop : s.sys.op ≠ .off) (href : s.fld F.fmkStsRef 0 = b2n b) :
    ∃ t, exec (.referenceLost b) s = .next t ∧ Frame refRegs [.acq] s t ∧ t.flag (refField b) 0 = false
      ∧ t.flag F.timRefStsLostEvt 0 = true ∧ Switched s t (s.otherRef b) := by
  obtain ⟨fm, hfell, hevt, -, -⟩ := refMarked_shows hs.1 b
  obtain ⟨hle, hne⟩ := otherRef_ne s b
  have hmref : (s.refMarked b).fld F.fmkStsRef 0 ≠ s.otherRef b := by
    rw [fm.fld _ _ (by decide), href]
    exact hne
  obtain ⟨fsw, hsw, hbeside⟩ := setRef_shows (fm.quiet hs) hle hmref
  have whole : Frame refRegs [.acq] s ((s.refMarked b).setRef (s.otherRef b)) :=
    (fm.mono (by decide) (by decide)).trans fsw (by decide) (by decide)
  refine ⟨_, exec_referenceLost ?_ whole.core, whole, (hbeside _ (besideChoice_refField b)).trans hfell,
    (hbeside _ (by decide)).trans hevt, hsw.of_frame fm⟩
  unfold State.refLost
  rw [if_neg hop, if_pos (Or.inr href), ← usableRef_refMarked hs.1]
  exact if_pos href

/-! A reference present. -/

theorem exec_referencePresent (hl : s.refPresent b = t) (hc : keepsCore s t) : exec (.referencePresent b) s = .next t :=
  congrArg Host.Outcome.next (inDev_eq hl hc)

theorem referencePresent_off (hop : s.sys.op = .off) : exec (.referencePresent b) s = .next s :=
  exec_referencePresent (if_pos hop) ⟨rfl, rfl, rfl, rfl⟩

/-- A PLL that has a reference shows the other one present. -/
theorem referencePresent_shows (hop : s.sys.op ≠ .off) (href : s.fld F.fmkStsRef 0 ≠ 2) :
    exec (.referencePresent b) s = .next (s.setFlag (refField b) 0 true) :=
  exec_referencePresent ((if_neg hop).trans (if_neg href)) (setFlag_refField s b true).1.core

/-- A PLL without one takes it. -/
theorem referencePresent_switches (hs : s.quiet) (hop : s.sys.op ≠ .off) (href : s.fld F.fmkStsRef 0 = 2)
    (hmay : b = false ∨ s.flag F.timRefStsBEn 0 = true) (ha : s.flag F.timRefStsAOk 0 = false) :
    ∃ t, exec (.referencePresent b) s = .next t ∧ Frame refRegs [.acq] s t ∧ t.flag (refField b) 0 = true
      ∧ Switched s t (b2n b) := by
  obtain ⟨fp, hset, hother, hben⟩ := setFlag_refField s b true
  set p := s.setFlag (refField b) 0 true with hp
  have husable : p.usableRef = b2n b := by
    unfold State.usableRef
    cases b
    case false => exact if_pos hset
    case true =>
      change p.flag F.timRefStsBOk 0 = true at hset
      change p.flag F.timRefStsAOk 0 = s.flag F.timRefStsAOk 0 at hother
      rw [hother, ha, hset, hben, hmay.resolve_left (by decide)]
      rfl
  have hpref : p.fld F.fmkStsRef 0 ≠ b2n b := by
    rw [fp.fld _ _ (by decide), href]
    cases b <;> decide
  obtain ⟨fsw, hsw, hbeside⟩ := setRef_shows (fp.quiet hs) (by cases b <;> decide) hpref
  have whole : Frame refRegs [.acq] s (p.setRef (b2n b)) := (fp.mono (by decide) (by decide)).trans fsw (by decide) (by decide)
  refine ⟨_, exec_referencePresent ?_ whole.core, whole, (hbeside _ (besideChoice_refField b)).trans hset,
    hsw.of_frame (fp.mono (by decide) (by decide))⟩
  rw [← husable]
  exact (if_neg hop).trans (if_pos href)

/-! The return to A. -/

theorem returnToA_stays (h : s.sys.op = .off ∨ s.fld F.fmkStsRef 0 ≠ 1 ∨ s.flag F.timRefStsAOk 0 = false) :
    exec .returnToA s = .next s := by
  refine congrArg Host.Outcome.next (inDev_eq (if_neg ?_) ⟨rfl, rfl, rfl, rfl⟩)
  rintro ⟨hop, href, ha⟩
  rcases h with h | h | h
  · exact hop h
  · exact h href
  · exact Bool.false_ne_true (h.symm.trans ha)

theorem returnToA_switches (hs : s.quiet) (hop : s.sys.op ≠ .off) (href : s.fld F.fmkStsRef 0 = 1)
    (ha : s.flag F.timRefStsAOk 0 = true) :
    ∃ t, exec .returnToA s = .next t ∧ Frame refRegs [.acq] s t ∧ Switched s t 0 := by
  obtain ⟨frame, hsw, -⟩ := setRef_shows (v := 0) hs (by decide) (by rw [href]; decide)
  exact ⟨_, congrArg Host.Outcome.next (inDev_eq (if_pos ⟨hop, href, ha⟩) frame.core), frame, hsw⟩

end Sys2Proof.Machine
end

section
/-! The statement of the references (R321 to R331, R366), assembled from its clauses. -/
namespace Sys2Proof.Machine

/-- Settles O52: a measurement comes to the time base through its two halves, and a switch of the reference is one step whatever leads
to it. -/
theorem referencesFollow : Obligations.ReferencesFollow := by
  intro m lo hi b s hs t0 st e only ref aOk other switched refs
  have hu := hs.1
  refine ⟨fun hr => ⟨fun hno => ?_, fun hsrc hop hst => ?_, fun hsrc hmeas hst => ?_, fun hsrc hmeas hst => ?_⟩, holdover_stays,
    fun hst hop => ?_, referenceLost_stays, fun hop href hp => ?_, fun hop href => ?_, referencePresent_off,
    fun hop href => ?_, fun hop href hmay ha => ?_, returnToA_stays, fun hop href ha => ?_⟩
  · obtain ⟨t, hexec, frame, hcount, htime⟩ := timMeasWrite_refused hu hr hno
    exact ⟨t, hexec, frame.keepsTime (by decide) (congrArg TimeSt.c htime), hcount, htime⟩
  · obtain ⟨t, hexec, frame, hc, shown⟩ := timMeasWrite_loads hu hr hsrc hop hst rfl
    exact ⟨t, hexec, frame.keepsTime (by decide) hc, shown⟩
  · obtain ⟨t, hexec, frame, hc, ho, hlast, he⟩ := timMeasWrite_follows hu hr hsrc hmeas hst rfl
    exact ⟨t, hexec, frame.keepsTime (by decide) hc, he, hlast, ho⟩
  · obtain ⟨t, hexec, frame, hc, shown⟩ := timMeasWrite_returns hu hr hsrc hmeas hst rfl
    exact ⟨t, hexec, (frame.mono (by decide) (fun _ h => h)).keepsTime (by decide) hc, shown⟩
  · obtain ⟨frame, hc, ho, hstate, hslew, hcount, hrate, hlog⟩ := holdoverNow_shows hs
    exact ⟨_, holdover_enters hs hst hop, frame.keepsTime (by decide) hc, hstate, hslew, hcount, ho, hrate, hlog⟩
  · obtain ⟨frame, hfell, hevt, -, -⟩ := refMarked_shows hu b
    exact ⟨_, referenceLost_marks hu hop href hp, frame.keepsClock, hfell, hevt⟩
  · obtain ⟨t, hexec, frame, hfell, hevt, hsw⟩ := referenceLost_switches hs hop href
    exact ⟨t, hexec, frame.keepsClock, hfell, hevt, hsw⟩
  · obtain ⟨frame, hset, -, -⟩ := setFlag_refField s b true
    exact ⟨_, referencePresent_shows hop href, frame.keepsClock, hset⟩
  · obtain ⟨t, hexec, frame, hset, hsw⟩ := referencePresent_switches hs hop href hmay ha
    exact ⟨t, hexec, frame.keepsClock, hset, hsw⟩
  · obtain ⟨t, hexec, frame, hsw⟩ := returnToA_switches hs hop href ha
    exact ⟨t, hexec, frame.keepsClock, hsw⟩

end Sys2Proof.Machine
end

section
/-! SUPPORT. A register image whose PERMIT_A stands while safety channel A gives no permit: a start-sense edge brings the permits up to
date with the channels and blocks the shot that has been sampled, so that the port changes beyond the shot in flight (R116, R128). -/
namespace Sys2Proof.Machine

/-- Port 0 with a shot in flight that awaits its edge, and its next shot sampled for the permits and not blocked. -/
def sampledPort : PortSt :=
  { cur := some { k := 0, tNom := 0, offset := 0, phase := 0, sampled := true, fired := true }
    drawn := some { k := 1, tNom := 100, offset := 0, phase := 0, sampled := true } }

/-- PERMIT_A reads 1 while channel A, in START, gives no permit; the emitter PLL is off its safe clock. -/
def stalePermit : State :=
  ((State.reset.setFlag F.emtPllStsSafeClk 0 false).setFlag F.emtStsPermitA 0 true).setPort 0 sampledPort

/-- The edge at the start of the window finds the domain on and a free engine. -/
theorem stalePermit_senses : stalePermit.domainOn 139 = true ∧ stalePermit.senseInWindow 0 0 = true
    ∧ (stalePermit.engineFree (senseUnit 0) && !stalePermit.flag F.emtPllStsSafeClk 0) = true := by decide +kernel

/-- After the edge the sampled shot is blocked: the permits of the channels have reached the emitters (R128). -/
theorem stalePermit_blocks : ∃ t, exec (.startSenseEdge 0 0#24) stalePermit = .next t
    ∧ (t.port (0 : Fin 32)).drawn = sampledPort.drawn.map fun x => { x with blocked := true } :=
  ⟨_, rfl, by decide +kernel⟩

/-- Refutes O22: the statement has the first edge inside its window change nothing of the port but the shot in flight, and puts no
hypothesis on the PERMIT bits. Where PERMIT_A still stands though channel A gives no permit (`stalePermit`), the same command brings the
bits up to date and blocks the sampled shot. -/
theorem not_startSenseAndGates : ¬ Obligations.StartSenseAndGates := by
  unfold Obligations.StartSenseAndGates
  intro h
  obtain ⟨-, hfirst, -⟩ := h 0 0#24 0 false stalePermit
  obtain ⟨hon, hwin, hfree⟩ := stalePermit_senses
  obtain ⟨t, x, hexec, -, hport, -⟩ := hfirst hon hwin hfree
  obtain ⟨u, hexec', hblocked⟩ := stalePermit_blocks
  obtain rfl : u = t := by injection hexec'.symm.trans hexec
  rw [congrArg PortSt.drawn hport] at hblocked
  exact absurd (show (stalePermit.port 0).drawn = _ from hblocked) (by decide +kernel)

end Sys2Proof.Machine
end

section
/-! SUPPORT. The two safety channels: reading a channel, a drive or a discrete pair after it was put, and what the tap words bring to a
channel's frames (R26, R340). -/
namespace Sys2Proof.Machine

variable {f : Saf} {x y : SafChan} {s t : State} {b k : Bool} {m n : Nat}

/-! Reading what was put. -/

@[simp] theorem chan_setChan_same (f : Saf) (b : Bool) (x : SafChan) : (f.setChan b x).chan b = x := by cases b <;> rfl

@[simp] theorem chan_setChan_other (f : Saf) (b : Bool) (x : SafChan) : (f.setChan b x).chan (!b) = f.chan (!b) := by cases b <;> rfl

@[simp] theorem setChan_chan (f : Saf) (b : Bool) : f.setChan b (f.chan b) = f := by cases b <;> rfl

@[simp] theorem drv_setDrv_same (x : SafChan) (n : Nat) (d : SafDrv) : (x.setDrv n d).drv n = d := smGet_put_same _ _ _ _

theorem drv_setDrv_ne (x : SafChan) {m n : Nat} (d : SafDrv) (h : m ≠ n) : (x.setDrv n d).drv m = x.drv m :=
  smGet_put_ne _ _ _ _ h.symm

theorem on_self {g : SafChan → SafChan} (h : g (f.chan b) = f.chan b) : f.on b g = f := by
  unfold Saf.on
  rw [h, setChan_chan]

/-- A command of the safety channels alone that leaves them leaves the state. -/
theorem inSaf_self {g : State → State} (h : (g s).saf = s.saf) : inSaf g s = s := by
  unfold inSaf
  rw [h]

/-- A command of the device and the channels that does nothing leaves the state. -/
theorem inDevSaf_self {g : State → State} (h : g s = s) : inDevSaf g s = s := by
  unfold inDevSaf
  rw [h]

/-! A tap word in the frames of a channel. -/

/-- What one zone of the set in force makes of a tap word: the step of `SafChan.tapWord` for that zone. -/
def SafChan.zoneTap (x : SafChan) (w : TapWord) (second : Bool) (y : SafChan) (p : SafZoneSet × Nat) : SafChan :=
  match p.1.taps.find? fun t => decide (t.ch = w.ch) with
  | some t =>
    if t.zgOpen ≤ w.code ∧ w.code < t.zgClose then
      if w.dropped then y.spoilShot p.2 w
      else y.onFrame p.2 w.ch (addStep (x.step second) (b2n (decide (w.code < t.floorNear)))
        (b2n (decide (t.floorNear ≤ w.code))) 0)
    else y
  | none => y

theorem tapWord_good (w : TapWord) (second : Bool) (hp : x.powered = true) (hs : x.set.isSome = true) :
    x.tapWord w true second = x.zoneSets.zipIdx.foldl (x.zoneTap w second) x := by
  unfold SafChan.tapWord
  rw [if_neg (by simp [hp, Option.isSome_iff_ne_none.mp hs])]
  rfl

theorem tapWord_badParity (w : TapWord) (second : Bool) (hp : x.powered = true) (hs : x.set.isSome = true) :
    x.tapWord w false second = { x with tapBad := true } := by
  unfold SafChan.tapWord
  rw [if_neg (by simp [hp, Option.isSome_iff_ne_none.mp hs])]
  rfl

theorem tapWord_dead (w : TapWord) (parity second : Bool) (h : x.powered = false ∨ x.set = none) :
    x.tapWord w parity second = x := by
  unfold SafChan.tapWord
  rw [if_pos (by rcases h with h | h <;> simp [h])]

/-- What a tap word makes of the frame of its channel in a zone, where the last shot spoilt there was `sp` (R340). -/
def SafChan.frameAfter (x : SafChan) (w : TapWord) (second : Bool) (c : SafZoneSet) (sp : Nat) (l : List (Nat × Nat × Nat × Nat)) :
    List (Nat × Nat × Nat × Nat) :=
  match c.taps.find? fun t => decide (t.ch = w.ch) with
  | some t =>
    if t.zgOpen ≤ w.code ∧ w.code < t.zgClose then
      if w.dropped then if sp = w.shotId + 1 then l else dropShot l
      else addStep (x.step second) (b2n (decide (w.code < t.floorNear))) (b2n (decide (t.floorNear ≤ w.code))) 0 l
    else l
  | none => l

/-- From `y` to `z` at most the frames and the spoilt shots of a channel may differ, the latter by a dropped hit alone. -/
structure SafChan.Counts (w : TapWord) (y z : SafChan) : Prop where
  shape : z = { y with hits := z.hits, spoilt := z.spoilt }
  spoilt : w.dropped = false → z.spoilt = y.spoilt

theorem SafChan.Counts.refl (w : TapWord) (y : SafChan) : y.Counts w y := ⟨rfl, fun _ => rfl⟩

theorem SafChan.Counts.trans {w : TapWord} {x y z : SafChan} (h : x.Counts w y) (k : y.Counts w z) : x.Counts w z := by
  refine ⟨?_, fun hd => (k.spoilt hd).trans (h.spoilt hd)⟩
  rw [k.shape, h.shape]

theorem SafChan.Counts.hits_alone {w : TapWord} {y z : SafChan} (h : y.Counts w z) (hd : w.dropped = false) :
    z = { y with hits := z.hits } := by
  have hz := h.shape
  rwa [h.spoilt hd] at hz

/-- One zone's step counts, in its own frame alone. -/
theorem zoneTap_counts (x y : SafChan) (w : TapWord) (second : Bool) (p : SafZoneSet × Nat) :
    y.Counts w (x.zoneTap w second y p)
      ∧ (∀ z, z ≠ p.2 → smGet [] (x.zoneTap w second y p).hits (128 * z + w.ch) = smGet [] y.hits (128 * z + w.ch)
        ∧ smGet 0 (x.zoneTap w second y p).spoilt (128 * z + w.ch) = smGet 0 y.spoilt (128 * z + w.ch))
      ∧ smGet [] (x.zoneTap w second y p).hits (128 * p.2 + w.ch)
        = x.frameAfter w second p.1 (smGet 0 y.spoilt (128 * p.2 + w.ch)) (smGet [] y.hits (128 * p.2 + w.ch)) := by
  have key : ∀ z, z ≠ p.2 → 128 * p.2 + w.ch ≠ 128 * z + w.ch := fun z hz => by omega
  unfold SafChan.zoneTap SafChan.frameAfter
  split
  case h_2 => exact ⟨.refl w y, fun _ _ => ⟨rfl, rfl⟩, rfl⟩
  case h_1 t _ =>
    by_cases hin : t.zgOpen ≤ w.code ∧ w.code < t.zgClose
    case neg =>
      rw [if_neg hin, if_neg hin]
      exact ⟨.refl w y, fun _ _ => ⟨rfl, rfl⟩, rfl⟩
    case pos =>
      simp only [if_pos hin]
      by_cases hd : w.dropped = true
      case neg =>
        simp only [if_neg hd]
        exact ⟨⟨rfl, fun _ => rfl⟩, fun z hz => ⟨smGet_put_ne _ _ _ _ (key z hz), rfl⟩, smGet_put_same _ _ _ _⟩
      case pos =>
        simp only [if_pos hd]
        unfold SafChan.spoilShot
        by_cases hsp : smGet 0 y.spoilt (128 * p.2 + w.ch) = w.shotId + 1
        · rw [if_pos hsp, if_pos hsp]
          exact ⟨.refl w y, fun _ _ => ⟨rfl, rfl⟩, rfl⟩
        · simp only [if_neg hsp]
          exact ⟨⟨rfl, fun hf => absurd hd (by simp [hf])⟩,
            fun z hz => ⟨smGet_put_ne _ _ _ _ (key z hz), smGet_put_ne _ _ _ _ (key z hz)⟩, smGet_put_same _ _ _ _⟩

/-- The zones of a set from number `n` on, each once: those before stay, and each has its frame counted. -/
theorem foldl_zoneTap_counts (x : SafChan) (w : TapWord) (second : Bool) (l : List SafZoneSet) (n : Nat) (y : SafChan) :
    y.Counts w ((l.zipIdx n).foldl (x.zoneTap w second) y)
      ∧ (∀ z, z < n → smGet [] ((l.zipIdx n).foldl (x.zoneTap w second) y).hits (128 * z + w.ch) = smGet [] y.hits (128 * z + w.ch))
      ∧ ∀ i c, l[i]? = some c → smGet [] ((l.zipIdx n).foldl (x.zoneTap w second) y).hits (128 * (n + i) + w.ch)
        = x.frameAfter w second c (smGet 0 y.spoilt (128 * (n + i) + w.ch)) (smGet [] y.hits (128 * (n + i) + w.ch)) := by
  induction l generalizing n y with
  | nil => exact ⟨.refl w y, fun _ _ => rfl, fun i c hc => absurd hc (by simp)⟩
  | cons c l ih =>
    obtain ⟨hcounts, hothers, hown⟩ := zoneTap_counts x y w second (c, n)
    obtain ⟨ihcounts, ihbefore, ihat⟩ := ih (n + 1) (x.zoneTap w second y (c, n))
    rw [List.zipIdx_cons, List.foldl_cons]
    refine ⟨hcounts.trans ihcounts, fun z hz => ?_, fun i c' hc => ?_⟩
    · exact (ihbefore z (by omega)).trans (hothers z (Nat.ne_of_lt hz)).1
    · cases i with
      | zero =>
        obtain rfl : c = c' := by simpa using hc
        exact (ihbefore n (Nat.lt_succ_self n)).trans hown
      | succ i =>
        obtain ⟨hhits, hspoilt⟩ := hothers (n + (i + 1)) (by simp)
        have := ihat i c' (by simpa using hc)
        rwa [show n + 1 + i = n + (i + 1) by omega, hspoilt, hhits] at this

/-- A word with good parity in a channel with a set: it counts, and every zone's frame is as the zone's tap makes it. -/
theorem tapWord_counts (w : TapWord) (second : Bool) (hp : x.powered = true) (hs : x.set.isSome = true) :
    x.Counts w (x.tapWord w true second) ∧ ∀ (z : Nat) (c : SafZoneSet), x.zoneSets[z]? = some c →
      smGet [] (x.tapWord w true second).hits (128 * z + w.ch)
        = x.frameAfter w second c (smGet 0 x.spoilt (128 * z + w.ch)) (smGet [] x.hits (128 * z + w.ch)) := by
  rw [tapWord_good w second hp hs]
  obtain ⟨hcounts, -, hat⟩ := foldl_zoneTap_counts x w second x.zoneSets 0 x
  exact ⟨hcounts, fun z c hc => by simpa using hat z c hc⟩

/-- A tapped channel's frame after a word that counts (R340). -/
theorem frameAfter_counted {w : TapWord} {second : Bool} {c : SafZoneSet} {t : SafTap} {sp : Nat} {l : List (Nat × Nat × Nat × Nat)}
    (ht : c.taps.find? (fun t => decide (t.ch = w.ch)) = some t) (hd : w.dropped = false) :
    x.frameAfter w second c sp l = if t.zgOpen ≤ w.code ∧ w.code < t.zgClose then
      addStep (x.ms + b2n second) (b2n (decide (w.code < t.floorNear))) (b2n (decide (t.floorNear ≤ w.code))) 0 l else l := by
  simp [SafChan.frameAfter, ht, hd, SafChan.step]

/-- A tapped channel's frame after a word with a dropped hit: its shot no longer counts, once (R340). -/
theorem frameAfter_dropped {w : TapWord} {second : Bool} {c : SafZoneSet} {t : SafTap} {sp : Nat} {l : List (Nat × Nat × Nat × Nat)}
    (ht : c.taps.find? (fun t => decide (t.ch = w.ch)) = some t) (hd : w.dropped = true) :
    x.frameAfter w second c sp l
      = if t.zgOpen ≤ w.code ∧ w.code < t.zgClose ∧ sp ≠ w.shotId + 1 then dropShot l else l := by
  by_cases hin : t.zgOpen ≤ w.code ∧ w.code < t.zgClose <;> by_cases hsp : sp = w.shotId + 1 <;>
    simp [SafChan.frameAfter, ht, hd, hin, hsp]

/-! The tap FIFO. -/

/-- The words that wait in the tap FIFO of a channel. -/
def State.tapFifo (s : State) (b : Bool) : List TapWord := if b then s.dev.rng.tapB else s.dev.rng.tapA

/-- What a command that takes the oldest word of the FIFO of channel `b` keeps. -/
structure TakesTap (b : Bool) (s t : State) : Prop where
  sys : t.sys = s.sys
  fuse : t.fuse = s.fuse
  pending : t.pending = s.pending
  regs : keepsRegs [] s t
  bytes : keepsBytes s t
  fifo : t.tapFifo b = (s.tapFifo b).tail
  other : (if b then t.dev.rng.tapA else t.dev.rng.tapB) = if b then s.dev.rng.tapA else s.dev.rng.tapB

theorem TakesTap.and {P : Prop} (h : TakesTap b s t) (hp : P) : t.sys = s.sys ∧ t.fuse = s.fuse ∧ t.pending = s.pending
    ∧ keepsRegs [] s t ∧ keepsBytes s t ∧ t.tapFifo b = (s.tapFifo b).tail
    ∧ (if b then t.dev.rng.tapA else t.dev.rng.tapB) = (if b then s.dev.rng.tapA else s.dev.rng.tapB) ∧ P :=
  ⟨h.sys, h.fuse, h.pending, h.regs, h.bytes, h.fifo, h.other, hp⟩

variable {ch : Fin 768} {code : BitVec 23} {dropped parity second o : Bool}

theorem tapWord_waits (h : s.tapFifo (decide (ch.val % 2 = 1)) = []) :
    exec (.tapWord ch code dropped parity second o) s = .next s := by
  refine congrArg Host.Outcome.next (inDevSaf_self ?_)
  unfold State.takeTap
  unfold State.tapFifo at h
  dsimp only
  rw [h]

/-- Nothing arrives with good parity that was not sent (R25). -/
theorem tapWord_unsent {w : TapWord} {l : List TapWord} (h : s.tapFifo (decide (ch.val % 2 = 1)) = w :: l)
    (hn : ¬(w.ch = ch.val ∧ w.code = code.toNat ∧ w.dropped = dropped)) :
    exec (.tapWord ch code dropped true second false) s = .next s := by
  refine congrArg Host.Outcome.next (inDevSaf_self ?_)
  unfold State.takeTap
  unfold State.tapFifo at h
  dsimp only
  rw [h]
  exact if_pos (by simp only [Bool.not_false, Bool.and_true, Bool.true_and, decide_eq_true_eq]; tauto)

/-- The FIFO of a channel with the words `l` left in it. -/
def State.leaveTaps (s : State) (b : Bool) (l : List TapWord) : State :=
  s.onDev fun d => { d with rng := if b then { d.rng with tapB := l } else { d.rng with tapA := l } }

/-- A word that has overflowed, has lost its parity or arrives as it was sent leaves the FIFO for its channel. -/
theorem takeTap_takes {w : TapWord} {l : List TapWord} (h : s.tapFifo (decide (ch.val % 2 = 1)) = w :: l)
    (hw : o = true ∨ parity = false ∨ w.ch = ch.val ∧ w.code = code.toNat ∧ w.dropped = dropped) :
    s.takeTap ch code.toNat dropped parity second o = { s.leaveTaps (decide (ch.val % 2 = 1)) l with
      saf := s.saf.on (decide (ch.val % 2 = 1)) fun x => if o then x.tapOverflow else x.tapWord w parity second } := by
  have taken : ¬(parity && !o && decide (w.ch ≠ ch.val ∨ w.code ≠ code.toNat ∨ w.dropped ≠ dropped)) = true := by
    rcases hw with rfl | rfl | ⟨h1, h2, h3⟩ <;> simp [*]
  unfold State.tapFifo at h
  unfold State.takeTap
  dsimp only
  rw [h]
  exact if_neg taken

theorem tapWord_taken {w : TapWord} {l : List TapWord} (h : s.tapFifo (decide (ch.val % 2 = 1)) = w :: l)
    (hw : o = true ∨ parity = false ∨ w.ch = ch.val ∧ w.code = code.toNat ∧ w.dropped = dropped) :
    ∃ t, exec (.tapWord ch code dropped parity second o) s = .next t ∧ TakesTap (decide (ch.val % 2 = 1)) s t
      ∧ t.saf = s.saf.on (decide (ch.val % 2 = 1)) fun x => if o then x.tapOverflow else x.tapWord w parity second := by
  refine ⟨{ s.leaveTaps (decide (ch.val % 2 = 1)) l with
    saf := s.saf.on (decide (ch.val % 2 = 1)) fun x => if o then x.tapOverflow else x.tapWord w parity second },
    congrArg Host.Outcome.next ?_, ?_, rfl⟩
  · unfold inDevSaf
    dsimp only
    rw [takeTap_takes h hw]
    rfl
  refine ⟨rfl, rfl, rfl, fun _ _ _ => rfl, fun _ => rfl, ?_, ?_⟩
  · rw [h]
    unfold State.tapFifo State.leaveTaps
    cases decide (ch.val % 2 = 1) <;> rfl
  · unfold State.leaveTaps
    cases decide (ch.val % 2 = 1) <;> rfl

end Sys2Proof.Machine
end

section
/-! SUPPORT. Guards, drives and discretes of the safety channels (R344 to R350), each through the channels alone. -/
namespace Sys2Proof.Machine

variable {f : Saf} {s : State} {b k closed locked : Bool} {n m : Nat}

/-! The start-up test (R349). -/

/-- A channel has read the switches of a drive (R349). -/
def SafChan.readSwitches (x : SafChan) (n : Nat) (closed locked : Bool) : SafChan :=
  x.setDrv n ((x.drv n).switches (x.driveSet n) x.now closed locked)

/-- What the switches themselves change of a drive's record: the readings, and the course of the test. -/
theorem switches_shape (d : SafDrv) (c : SafDriveSet) (now : Nat) (closed locked : Bool) :
    ∃ p v a, d.switches c now closed locked = { d with closed := closed, locked := locked, phase := p, travel := v, doneAt := a } := by
  unfold SafDrv.switches
  dsimp only
  split
  · exact ⟨d.phase, d.travel, d.doneAt, rfl⟩
  · split
    · exact ⟨1, 0, d.doneAt, rfl⟩
    · split
      · exact ⟨2, d.travel, some now, rfl⟩
      · exact ⟨d.phase, d.travel, d.doneAt, rfl⟩

/-- A guard that opens starts the test (R349). -/
theorem switches_opens {d : SafDrv} {c : SafDriveSet} (now : Nat) (locked : Bool) (hs : c.supervised = true) (ht : d.testDone = false)
    (hc : d.closed = true) (hp : d.phase ≠ 2) :
    d.switches c now false locked = { d with closed := false, locked := locked, phase := 1, travel := 0 } := by
  simp [SafDrv.switches, hs, ht, hc, hp]

/-- A guard that closes and locks after enough travel ends the channel's half (R349). -/
theorem switches_ends {d : SafDrv} {c : SafDriveSet} (now : Nat) (hs : c.supervised = true) (ht : d.testDone = false)
    (hp : d.phase = 1) (hv : c.testCnt ≤ d.travel) :
    d.switches c now true true = { d with closed := true, locked := true, phase := 2, doneAt := some now } := by
  simp [SafDrv.switches, hs, ht, hp, hv]

/-- The two halves of a drive's test stand together. -/
def Saf.joins (f : Saf) (n : Nat) : Bool := f.a.halfDone n && f.b.halfDone n

theorem joins_eq (f : Saf) (b : Bool) (n : Nat) : f.joins n = ((f.chan b).halfDone n && (f.chan (!b)).halfDone n) := by
  cases b
  · rfl
  · exact Bool.and_comm _ _

/-- The halves join in the records of that drive alone. -/
theorem drv_joinTest (f : Saf) (n : Nat) (k : Bool) (m : Nat) : ((f.joinTest n).chan k).drv m
    = if m = n ∧ f.joins n = true then { (f.chan k).drv n with testDone := true, phase := 0 } else (f.chan k).drv m := by
  unfold Saf.joinTest Saf.joins
  by_cases hj : (f.a.halfDone n && f.b.halfDone n) = true
  · rw [if_pos hj]
    by_cases hm : m = n
    · subst hm; cases k <;> simp [hj, Saf.chan]
    · cases k <;> simp [hm, Saf.chan, drv_setDrv_ne]
  · simp [hj]

/-- Both channels read the same switches of a drive. -/
def Saf.agrees (f : Saf) (n : Nat) : Bool :=
  decide ((f.a.drv n).closed = (f.b.drv n).closed ∧ (f.a.drv n).locked = (f.b.drv n).locked)

theorem agrees_eq (f : Saf) (b : Bool) (n : Nat) : f.agrees n = decide (((f.chan b).drv n).closed = ((f.chan (!b)).drv n).closed
    ∧ ((f.chan b).drv n).locked = ((f.chan (!b)).drv n).locked) := by
  cases b
  · rfl
  · exact decide_eq_decide.mpr (and_congr eq_comm eq_comm)

/-- A disagreement of the switches ends where both channels read the same (R345). -/
def Saf.endDisagree (f : Saf) (n : Nat) : Saf :=
  if f.agrees n then ⟨f.a.setDrv n { f.a.drv n with disagree := false }, f.b.setDrv n { f.b.drv n with disagree := false }⟩ else f

theorem drv_endDisagree (f : Saf) (n : Nat) (k : Bool) (m : Nat) : ((f.endDisagree n).chan k).drv m
    = if m = n ∧ f.agrees n = true then { (f.chan k).drv n with disagree := false } else (f.chan k).drv m := by
  unfold Saf.endDisagree
  by_cases ha : f.agrees n = true
  · rw [if_pos ha]
    by_cases hm : m = n
    · subst hm; cases k <;> simp [ha, Saf.chan]
    · cases k <;> simp [hm, Saf.chan, drv_setDrv_ne]
  · simp [ha]

theorem guardInput_eq (hp : (f.chan b).powered = true) : f.guardInput b n closed locked
    = ((f.setChan b ((f.chan b).readSwitches n closed locked)).joinTest n).endDisagree n := by
  unfold Saf.guardInput Saf.endDisagree Saf.agrees
  rw [if_pos hp]
  simp only [decide_eq_true_eq]
  rfl

/-- A drive's record once the halves of its test may have joined (`j`) and its switches may agree (`g`). -/
def SafDrv.judged (d : SafDrv) (j g : Bool) : SafDrv :=
  { d with testDone := j || d.testDone, phase := if j then 0 else d.phase, disagree := !g && d.disagree }

/-- The records of the drive, in either channel, are judged by the two channels as they then read. -/
theorem drv_judged (f : Saf) (n : Nat) (k : Bool) (m : Nat) : (((f.joinTest n).endDisagree n).chan k).drv m
    = if m = n then ((f.chan k).drv n).judged (f.joins n) (f.agrees n) else (f.chan k).drv m := by
  have hagrees : (f.joinTest n).agrees n = f.agrees n := by
    unfold Saf.joinTest
    split
    · simp [Saf.agrees]
    · rfl
  rw [drv_endDisagree, hagrees, drv_joinTest, drv_joinTest]
  by_cases hm : m = n
  · subst hm
    cases f.joins m <;> cases f.agrees m <;> simp [SafDrv.judged]
  · simp [hm]

/-! A guard's switches at a channel with power (R345, R349). -/

/-- What a guard switch input leaves of the drive's two records, and of the others. -/
theorem guardInput_shows (hp : (f.chan b).powered = true) :
    ∃ j, j = (((f.chan b).readSwitches n closed locked).halfDone n && (f.chan (!b)).halfDone n)
      ∧ ((f.guardInput b n closed locked).chan b).drv n = (((f.chan b).drv n).switches ((f.chan b).driveSet n) (f.chan b).now
        closed locked).judged j (decide (closed = ((f.chan (!b)).drv n).closed ∧ locked = ((f.chan (!b)).drv n).locked))
      ∧ ((f.guardInput b n closed locked).chan (!b)).drv n = ((f.chan (!b)).drv n).judged j
        (decide (closed = ((f.chan (!b)).drv n).closed ∧ locked = ((f.chan (!b)).drv n).locked))
      ∧ ∀ k, k ≠ n → ((f.guardInput b n closed locked).chan b).drv k = (f.chan b).drv k
        ∧ ((f.guardInput b n closed locked).chan (!b)).drv k = (f.chan (!b)).drv k := by
  obtain ⟨p, v, a, hshape⟩ := switches_shape ((f.chan b).drv n) ((f.chan b).driveSet n) (f.chan b).now closed locked
  have hown : ((f.chan b).readSwitches n closed locked).drv n = _ := (drv_setDrv_same _ _ _).trans hshape
  rw [guardInput_eq hp]
  refine ⟨_, rfl, ?_, ?_, fun k hk => ⟨?_, ?_⟩⟩
  · rw [drv_judged, if_pos rfl, joins_eq _ b, agrees_eq _ b, chan_setChan_same, chan_setChan_other, hown, hshape]
  · rw [drv_judged, if_pos rfl, joins_eq _ b, agrees_eq _ b, chan_setChan_same, chan_setChan_other, hown]
  · rw [drv_judged, if_neg hk, chan_setChan_same]
    exact drv_setDrv_ne _ _ hk
  · rw [drv_judged, if_neg hk, chan_setChan_other]

/-- A half that has just ended stands (R349). -/
theorem halfDone_readSwitches {x : SafChan} (hd : (x.readSwitches n closed locked).drv n
    = { x.drv n with closed := closed, locked := locked, phase := 2, doneAt := some x.now }) :
    (x.readSwitches n closed locked).halfDone n = true := by
  simp [SafChan.halfDone, hd, show (x.readSwitches n closed locked).now = x.now from rfl]

/-- A half under way does not stand. -/
theorem halfDone_of_phase {x : SafChan} (h : (x.drv n).phase ≠ 2) : x.halfDone n = false := by simp [SafChan.halfDone, h]

/-- What a guard switch input brings to its drive in both channels, clause by clause (R345, R349). -/
theorem guardInput_tests (hp : (f.chan b).powered = true) :
    let e := ((f.guardInput b n closed locked).chan b).drv n
    let o := ((f.guardInput b n closed locked).chan (!b)).drv n
    let d := (f.chan b).drv n
    let y := f.chan (!b)
    let tested := ((f.chan b).driveSet n).supervised = true ∧ d.testDone = false
    e.closed = closed ∧ e.locked = locked ∧ e.torque = d.torque ∧ e.state = d.state ∧ o.torque = (y.drv n).torque
      ∧ (∀ k, k ≠ n → ((f.guardInput b n closed locked).chan b).drv k = (f.chan b).drv k
        ∧ ((f.guardInput b n closed locked).chan (!b)).drv k = y.drv k)
      ∧ (closed = (y.drv n).closed → locked = (y.drv n).locked → e.disagree = false ∧ o.disagree = false)
      ∧ (tested → d.closed = true → closed = false → d.phase ≠ 2 → e.phase = 1 ∧ e.travel = 0)
      ∧ (tested → d.phase = 1 → closed = true → locked = true → ((f.chan b).driveSet n).testCnt ≤ d.travel →
        (y.halfDone n = true → e.testDone = true ∧ o.testDone = true ∧ e.phase = 0 ∧ o.phase = 0)
        ∧ (y.halfDone n = false → e.phase = 2 ∧ e.doneAt = some (f.chan b).now ∧ e.testDone = false))
      ∧ (d.testDone = true → e.testDone = true) := by
  intro e o d y tested
  obtain ⟨j, hj, hown, hpartner, hrest⟩ := guardInput_shows (n := n) (closed := closed) (locked := locked) hp
  obtain ⟨p, v, a, hshape⟩ := switches_shape d ((f.chan b).driveSet n) (f.chan b).now closed locked
  have he : e = _ := hown.trans (by rw [hshape])
  have ho : o = _ := hpartner
  refine ⟨by rw [he]; rfl, by rw [he]; rfl, by rw [he]; rfl, by rw [he]; rfl, by rw [ho]; rfl, hrest, fun hc hl => ?_,
    fun ht hc hopen hph => ?_, fun ht hph hc hl hv => ?_, fun ht => ?_⟩
  · rw [he, ho]
    simp [SafDrv.judged, hc, hl, y]
  · subst hopen
    have hs := switches_opens (f.chan b).now locked ht.1 ht.2 hc hph
    have hno : j = false := by
      rw [hj, halfDone_of_phase (by rw [SafChan.readSwitches, drv_setDrv_same, hs]; simp), Bool.false_and]
    rw [show e = _ from hown.trans (by rw [hs]), hno]
    exact ⟨rfl, rfl⟩
  · subst hc hl
    have hs := switches_ends (f.chan b).now ht.1 ht.2 hph hv
    have hjoin : j = y.halfDone n := by
      rw [hj, halfDone_readSwitches (by simp only [SafChan.readSwitches, drv_setDrv_same]; exact hs), Bool.true_and]
    rw [show e = _ from hown.trans (by rw [hs]), ho, hjoin]
    refine ⟨fun h => ?_, fun h => ?_⟩ <;> simp [SafDrv.judged, h, ht.2, d]
  · rw [he]
    simp [SafDrv.judged, ht]

/-! The pulse test (R344). -/

/-- The pulse test takes the outputs that are high: drives by their number, discretes from 8 on. -/
theorem pulseTest_shows {x : SafChan} (hp : x.powered = true) :
    x.pulseTest = { x with tests := x.tests + 1, pulsed := x.pulseTest.pulsed } ∧ ∀ k, k < 8 →
      (k ∈ x.pulseTest.pulsed ↔ (x.drv k).torque = true) ∧ (8 + k ∈ x.pulseTest.pulsed ↔ bitOf x.dout k = true) := by
  unfold SafChan.pulseTest
  rw [if_pos hp]
  refine ⟨rfl, fun k hk => ⟨?_, ?_⟩⟩
  · simp only [List.mem_append, List.mem_filter, List.mem_map, List.mem_range]
    exact ⟨fun h => h.elim (·.2) fun ⟨j, _, hj⟩ => by omega, fun h => .inl ⟨hk, h⟩⟩
  · simp only [List.mem_append, List.mem_filter, List.mem_map, List.mem_range]
    refine ⟨fun h => h.elim (fun ⟨hlt, _⟩ => by omega) fun ⟨j, hj, he⟩ => ?_, fun h => .inr ⟨k, ⟨hk, h⟩, rfl⟩⟩
    obtain rfl : j = k := by omega
    exact hj.2

end Sys2Proof.Machine
end

section
/-! The statement of what taps, guards, encoders and discretes bring to a safety channel (R25 to R28, R340 to R350), clause by clause. -/
namespace Sys2Proof.Machine

/-- Settles O53: a tap word leaves its FIFO through `tapWord_taken`, and the other inputs are operations of the channels alone. -/
theorem safetyInputs : Obligations.SafetyInputs := by
  intro ch code dropped parity second o n m closed locked level back s b x y d fifo other taken leads off differ wrong tapOf i sent
  have live : ¬off → x.powered = true := by simp [off]
  refine ⟨tapWord_waits, fun w l h hpar ho hn => ?_, fun w l h hdead ho hw => ?_, fun h ho => ?_, fun h hoff hset hpar => ?_,
    fun w l h hoff hset hpar ho hw hd => ?_, fun w l h hoff hset hpar ho hw hd => ?_, fun hoff => ?_, fun hoff => ?_, fun hoff => ?_,
    fun ha hb hdiff => ?_, fun hnot => ?_, fun hoff => ?_, fun hw => ?_, fun hw => ?_, fun hoff => ?_⟩
  · subst hpar ho
    exact tapWord_unsent h hn
  · obtain ⟨t, hexec, htakes, hsaf⟩ := tapWord_taken (second := second) (o := o) h (.inr hw.symm)
    refine ⟨t, hexec, htakes.and (hsaf.trans (on_self ?_))⟩
    rw [ho]
    exact tapWord_dead w parity second hdead
  · obtain ⟨w, l, h⟩ := List.exists_cons_of_ne_nil h
    obtain ⟨t, hexec, htakes, hsaf⟩ := tapWord_taken (code := code) (dropped := dropped) (parity := parity) (second := second) h (.inl ho)
    refine ⟨t, hexec, htakes.and (hsaf.trans ?_)⟩
    rw [ho]
    rfl
  · obtain ⟨w, l, h⟩ := List.exists_cons_of_ne_nil h
    obtain ⟨t, hexec, htakes, hsaf⟩ := tapWord_taken (code := code) (dropped := dropped) (second := second) (o := o) h (.inr (.inl hpar))
    refine ⟨t, hexec, htakes.and (hsaf.trans (congrArg (s.saf.setChan b) ?_))⟩
    rw [hpar]
    cases o
    · exact tapWord_badParity w second (live hoff) hset
    · rfl
  · subst hpar ho
    obtain ⟨t, hexec, htakes, hsaf⟩ := tapWord_taken (parity := true) (second := second) (o := false) h (.inr (.inr hw))
    obtain ⟨hcounts, hframes⟩ := tapWord_counts w second (live hoff) hset
    have hchan : t.saf.chan b = x.tapWord w true second := by rw [hsaf]; exact chan_setChan_same _ _ _
    refine ⟨t, hexec, htakes.and ⟨?_, fun z tap ⟨c, hc, htap⟩ => ?_⟩⟩
    · rw [hchan, ← hcounts.hits_alone (hw.2.2.trans hd), hsaf]
      rfl
    · rw [hchan, hframes z c hc]
      exact frameAfter_counted htap (hw.2.2.trans hd)
  · subst hpar ho
    obtain ⟨t, hexec, htakes, hsaf⟩ := tapWord_taken (parity := true) (second := second) (o := false) h (.inr (.inr hw))
    obtain ⟨hcounts, hframes⟩ := tapWord_counts w second (live hoff) hset
    have hchan : t.saf.chan b = x.tapWord w true second := by rw [hsaf]; exact chan_setChan_same _ _ _
    refine ⟨t, hexec, htakes.and ⟨?_, fun z tap ⟨c, hc, htap⟩ => ?_⟩⟩
    · rw [hchan, ← hcounts.shape, hsaf]
      rfl
    · rw [hchan, hframes z c hc]
      exact frameAfter_dropped htap (hw.2.2.trans hd)
  · have hdead : ¬x.powered = true := by simp [show x.powered = false from hoff]
    refine ⟨congrArg Host.Outcome.next (inSaf_self ?_), congrArg Host.Outcome.next (inSaf_self ?_),
      congrArg Host.Outcome.next (inSaf_self ?_), congrArg Host.Outcome.next (inSaf_self ?_)⟩
    · exact on_self (if_neg hdead)
    · exact if_neg hdead
    · exact on_self (if_neg hdead)
    · exact on_self (if_neg hdead)
  · obtain ⟨hshape, hpulsed⟩ := pulseTest_shows (live hoff)
    refine ⟨s.saf.setChan b x.pulseTest, rfl, ?_, ?_⟩
    · rw [chan_setChan_same, ← hshape]
    · rw [chan_setChan_same]
      exact hpulsed
  · exact ⟨_, rfl, guardInput_tests (live hoff)⟩
  · exact ⟨_, rfl, if_pos ⟨ha, hb, hdiff⟩⟩
  · refine congrArg Host.Outcome.next (inSaf_self (if_neg ?_))
    rintro ⟨ha, hb, hdiff⟩
    rcases hnot with h | h | h
    · simp [h] at ha
    · simp [h] at hb
    · exact h hdiff
  · refine ⟨_, rfl, ?_⟩
    exact congrArg (s.saf.setChan b) (if_pos (live hoff))
  · exact ⟨_, rfl, if_pos hw⟩
  · exact congrArg Host.Outcome.next (inSaf_self (if_neg hw))
  · exact ⟨_, rfl, congrArg (s.saf.setChan b) (if_pos (live hoff))⟩

end Sys2Proof.Machine
end

section
/-! SUPPORT. Frames that leave the lines under way: what trackers, hoods, gap records and the record path of a line can touch (R218 to
R227). -/
namespace Sys2Proof.Machine

variable {R R' : List Reg} {P P' : List Part} {s t u : State} {x : RegField} {i n v : Nat}

theorem Frame.onLin {f : LinSt → LinSt} (h : Frame R P s t) (hP : Part.lin ∈ P := by decide) : Frame R P s (t.onLin f) :=
  h.onDev (fun _ => rfl) fun d p n => by cases p <;> first | rfl | exact absurd hP n

/-- A bank's record stands in the record of line imaging. -/
theorem Frame.setBank {b : Nat} {y : BankSt} (h : Frame R P s t) (hP : Part.lin ∈ P := by decide) : Frame R P s (t.setBank b y) :=
  Frame.onLin (f := fun x => { x with banks := smPut {} x.banks b y }) h hP

theorem Frame.onOdo {f : OdoSt → OdoSt} (h : Frame R P s t) (hP : Part.odo ∈ P := by decide) : Frame R P s (t.onOdo f) :=
  h.onDev (fun _ => rfl) fun d p n => by cases p <;> first | rfl | exact absurd hP n

theorem Frame.draw (h : Frame R P s t) (hP : Part.freeCtr ∈ P := by decide) : Frame R P s t.draw.2 :=
  h.onDev (g := fun d => { d with freeCtr := d.freeCtr + 1 }) (fun _ => rfl)
    fun d p n => by cases p <;> first | rfl | exact absurd hP n

/-- A frame in which the lines under way are the same. -/
structure LineFrame (R : List Reg) (P : List Part) (s t : State) : Prop extends Frame R P s t where
  lines : t.dev.lin.lines = s.dev.lin.lines

namespace LineFrame

theorem refl (R : List Reg) (P : List Part) (s : State) : LineFrame R P s s := ⟨Frame.refl R P s, rfl⟩

theorem trans (h : LineFrame R P s t) (k : LineFrame R' P' t u) (hR : R' ⊆ R := by decide) (hP : P' ⊆ P := by decide) :
    LineFrame R P s u := ⟨h.toFrame.trans k.toFrame hR hP, k.lines.trans h.lines⟩

/-- What leaves the record of line imaging leaves its lines. -/
theorem thenFrame (h : LineFrame R P s t) (k : Frame R' P' t u) (hR : R' ⊆ R := by decide) (hP : P' ⊆ P := by decide)
    (hl : Part.lin ∉ P' := by decide) : LineFrame R P s u :=
  h.trans ⟨k, congrArg LinSt.lines (k.part .lin hl)⟩ hR hP

theorem ite {c : Prop} [Decidable c] {y z : State} (hy : c → LineFrame R P s y) (hz : ¬c → LineFrame R P s z) :
    LineFrame R P s (if c then y else z) := by
  split
  · exact hy ‹_›
  · exact hz ‹_›

theorem foldl {α : Type} {f : State → α → State} (l : List α) (h : LineFrame R P s t)
    (hf : ∀ u b, LineFrame R P s u → LineFrame R P s (f u b)) : LineFrame R P s (l.foldl f t) := by
  induction l generalizing t with
  | nil => exact h
  | cons b l ih => exact ih (hf t b h)

/-- A fold that carries what is written before the state. -/
theorem foldl_snd {α β : Type} {f : β × State → α → β × State} (l : List α) {b : β} (h : LineFrame R P s t)
    (hf : ∀ p x, LineFrame R P s p.2 → LineFrame R P s (f p x).2) : LineFrame R P s (l.foldl f (b, t)).2 := by
  suffices ∀ p : β × State, LineFrame R P s p.2 → LineFrame R P s (l.foldl f p).2 from this _ h
  intro p hp
  induction l generalizing p with
  | nil => exact hp
  | cons x l ih => exact ih _ (hf p x hp)

theorem onLin {f : LinSt → LinSt} (h : LineFrame R P s t) (hf : ∀ x, (f x).lines = x.lines := by intro; rfl)
    (hP : Part.lin ∈ P := by decide) : LineFrame R P s (t.onLin f) :=
  ⟨h.toFrame.onLin hP, (hf _).trans h.lines⟩

theorem setReg {r : Reg} (h : LineFrame R P s t) (hr : r ∈ R := by decide) : LineFrame R P s (t.setReg r i v) :=
  ⟨h.toFrame.setReg hr, h.lines⟩

theorem setFld (h : LineFrame R P s t) (hr : x.reg ∈ R := by decide) : LineFrame R P s (t.setFld x i v) := h.setReg hr

theorem setFlag {b : Bool} (h : LineFrame R P s t) (hr : x.reg ∈ R := by decide) : LineFrame R P s (t.setFlag x i b) := h.setReg hr

theorem bump (h : LineFrame R P s t) (hr : x.reg ∈ R := by decide) : LineFrame R P s (t.bump x i n) := h.setReg hr

theorem setTrk {w : Tracker} (h : LineFrame R P s t) (hP : Part.lin ∈ P := by decide) : LineFrame R P s (t.setTrk n w) :=
  h.onLin (fun _ => rfl) hP

end LineFrame

/-! Trackers (R224 to R226). -/

theorem Frame.recordChange {src tm : Nat} {w : SrcVal} (h : Frame R P s t) (hR : changeRegs ⊆ R := by decide)
    (hP : ringParts ⊆ P := by decide) : Frame R P s (t.recordChange src w tm) := by
  unfold State.recordChange
  refine Frame.ite (fun _ => Frame.foldl _ h fun u b hu => ?_) (fun _ => h)
  exact Frame.ite (fun _ => hu.offerChange hR hP) (fun _ => hu)

theorem Frame.changeForced {src k tm : Nat} {b : Bool} (h : Frame R P s t) (hR : changeRegs ⊆ R := by decide)
    (hP : ringParts ⊆ P := by decide) : Frame R P s (t.changeForced src k v b tm) := by
  unfold State.changeForced
  refine Frame.recordChange (h.onDev (fun _ => rfl) fun d p n => ?_) hR hP
  cases p <;> first | rfl | exact absurd (hP (by decide)) n

/-- What a tracker's work on a line can touch. -/
abbrev trackRegs : List Reg := [.linTrkSts, .linTrkPos, .linTrkAng] ++ changeRegs
abbrev trackParts : List Part := .lin :: ringParts

theorem LineFrame.changeForced {src k tm : Nat} {b : Bool} (h : LineFrame trackRegs trackParts s t) :
    LineFrame trackRegs trackParts s (t.changeForced src k v b tm) :=
  h.thenFrame ((Frame.refl changeRegs ringParts t).changeForced)

theorem LineFrame.track {y : Array Int} {l : Line} (h : LineFrame trackRegs trackParts s t) :
    LineFrame trackRegs trackParts s (t.track n y l) := by
  unfold State.track
  extract_lets w win span miss w1 wide
  split
  · exact LineFrame.ite (fun _ => (h.setTrk.setFlag.setReg.setReg).changeForced.changeForced) (fun _ => h.setTrk)
  · rename_i e _
    extract_lets s1 lo follow recPos theta recAng s2 s3 s4
    have h2 : LineFrame trackRegs trackParts s s2 := h.setFlag.setReg.setTrk
    clear_value s2 recAng theta
    have h3 : LineFrame trackRegs trackParts s s3 := by
      unfold s3
      split
      · exact h2.setReg
      · exact h2
    have h4 : LineFrame trackRegs trackParts s s4 := LineFrame.ite (fun _ => h3.changeForced) (fun _ => h3)
    clear_value s4
    split
    · exact h4.changeForced
    · exact h4

theorem LineFrame.trackAll (s : State) (rows : List (List Nat)) (l : Line) : LineFrame trackRegs trackParts s (s.trackAll rows l) := by
  unfold State.trackAll
  exact LineFrame.foldl _ (LineFrame.refl _ _ s) fun u n hu => LineFrame.ite (fun _ => hu.track) (fun _ => hu)

/-! Hoods and gap records (R221, R227, R243). -/

/-- What the hoods and the gap records before a line can touch. -/
abbrev gapRegs : List Reg := [.linGapLines, .linAsmCtl, .linHoodNum]
abbrev gapParts : List Part := [.lin, .freeCtr]

theorem LineFrame.openHood {start : Int} {tm closed : Nat} (h : LineFrame gapRegs gapParts s t) :
    LineFrame gapRegs gapParts s (t.openHood start tm closed).2 := by
  have h1 : LineFrame gapRegs gapParts s ((t.applyReg .linAsmCtl 0).bump F.linHoodNumCount 0 1) := h.setReg.bump
  unfold State.openHood
  dsimp only
  exact h1.onLin

theorem LineFrame.reachHood {g : Int} {tm fuel : Nat} {p : List (List Byte) × State} (h : LineFrame gapRegs gapParts s p.2) :
    LineFrame gapRegs gapParts s (reachHood g tm fuel p).2 := by
  induction fuel generalizing p with
  | zero => exact h
  | succ fuel ih =>
    obtain ⟨l, u⟩ := p
    unfold Machine.reachHood
    dsimp only
    split
    · exact h.openHood
    · split
      · split
        · exact ih h.openHood
        · split
          · exact ih h.openHood
          · exact h
      · split
        · exact ih h.openHood
        · exact h

theorem LineFrame.draw (h : LineFrame gapRegs gapParts s t) : LineFrame gapRegs gapParts s t.draw.2 :=
  ⟨h.toFrame.draw, h.lines⟩

theorem LineFrame.lineGaps {g v : Int} (h : LineFrame gapRegs gapParts s t) : LineFrame gapRegs gapParts s (t.lineGaps g v).2 := by
  unfold State.lineGaps
  extract_lets due gs free dists s0 r
  split
  · exact h
  · have h0 : LineFrame gapRegs gapParts s s0 := LineFrame.ite (fun _ => h.draw) (fun _ => h)
    dsimp only
    refine LineFrame.onLin (LineFrame.foldl_snd _ h0 fun p q hp => ?_)
    refine LineFrame.bump ?_
    split
    · exact hp
    · exact hp.reachHood

theorem LineFrame.deltaLimit {l : Line} (h : LineFrame gapRegs gapParts s t) : LineFrame gapRegs gapParts s (t.deltaLimit l) := by
  unfold State.deltaLimit
  split
  · exact LineFrame.ite (fun _ => h.onLin) (fun _ => h)
  · exact h

theorem LineFrame.lineRecords (s : State) (o : OutLine) : LineFrame gapRegs gapParts s (s.lineRecords o).2 := by
  unfold State.lineRecords
  extract_lets l v first gaps s1 hoods u seam base rec'
  have h := LineFrame.refl gapRegs gapParts s
  have hfirst : LineFrame gapRegs gapParts s first.2 := by
    unfold first
    split
    · exact h.reachHood
    · exact h
  exact LineFrame.reachHood hfirst.lineGaps.deltaLimit

/-! STALL, the carriage and a line that has been recorded (R215, R218 to R220). -/

theorem LineFrame.onOdo {f : OdoSt → OdoSt} (h : LineFrame R P s t) (hP : Part.odo ∈ P := by decide) : LineFrame R P s (t.onOdo f) :=
  ⟨h.toFrame.onOdo hP, h.lines⟩

/-- What STALL, the carriage's target and a seam can touch. -/
abbrev seamRegs : List Reg := [.odoSeamCnt, .odoSts, .loopSp]

/-- From `s` to `t` STALL, the carriage or a seam has moved: H stays. -/
structure SeamFrame (s t : State) : Prop extends LineFrame seamRegs [.odo] s t where
  high : t.dev.odo.high = s.dev.odo.high

namespace SeamFrame

theorem refl (s : State) : SeamFrame s s := ⟨LineFrame.refl _ _ s, rfl⟩

theorem setFlag {b : Bool} (h : SeamFrame s t) (hr : x.reg ∈ seamRegs := by decide) : SeamFrame s (t.setFlag x i b) :=
  ⟨h.toLineFrame.setFlag hr, h.high⟩

theorem bump (h : SeamFrame s t) (hr : x.reg ∈ seamRegs := by decide) : SeamFrame s (t.bump x i n) := ⟨h.toLineFrame.bump hr, h.high⟩

theorem turned {b : Bool} (h : SeamFrame s t) : SeamFrame s (t.onOdo fun o => { o with turned := b }) := ⟨h.toLineFrame.onOdo, h.high⟩

theorem driveCarriage (h : SeamFrame s t) : SeamFrame s t.driveCarriage := by
  unfold State.driveCarriage
  split
  · exact ⟨h.toLineFrame.setFld, h.high⟩
  · exact h

theorem followStall (h : SeamFrame s t) : SeamFrame s t.followStall := by
  unfold State.followStall
  split
  · exact h
  · extract_lets full
    split
    · split
      · exact h
      · split
        · exact h.setFlag.setFlag.turned.driveCarriage
        · split
          · exact h.setFlag.driveCarriage
          · exact h
    · exact h.setFlag

end SeamFrame

/-- What a recorded line can touch once its records are written. -/
abbrev doneRegs : List Reg := [.linLineCnt, .odoHighLo, .odoHighHi] ++ seamRegs

/-- A line that has been recorded is counted, and H moves to it (R215). -/
theorem lineDone_shows (s : State) (o : OutLine) : LineFrame doneRegs [.lin, .odo] s (s.lineDone o)
    ∧ (s.lineDone o).fld F.linLineCntCount 0 = min (s.fld F.linLineCntCount 0 + 1) 0xFFFFFFFF
    ∧ (s.lineDone o).dev.odo.high = some (match o.mate with | some b => b.grid | none => o.line.grid) := by
  unfold State.lineDone
  extract_lets l high s1 s2 seam s3 s4
  have h1 : LineFrame doneRegs [.lin, .odo] s s1 := ⟨((Frame.refl _ _ s).bump (by decide)).setPair (by decide) (by decide), rfl⟩
  have h3 : LineFrame doneRegs [.lin, .odo] s s3 := (LineFrame.onLin h1).onOdo
  have hcount : s3.fld F.linLineCntCount 0 = min (s.fld F.linLineCntCount 0 + 1) 0xFFFFFFFF := by
    have hpair : Frame [.odoHighLo, .odoHighHi] [.lin, .odo] (s.bump F.linLineCntCount 0 1) s3 :=
      ((LineFrame.mk ((Frame.refl _ _ _).setPair (by decide) (by decide)) rfl).onLin.onOdo).toFrame
    rw [hpair.fld _ _ (by decide), fld_bump_same _ _ _ (by decide)]
    rfl
  have hseam : SeamFrame s3 (if seam = true then if s4.flag F.odoStsRestart 0 = true
      then ((s4.setFlag F.odoStsRestart 0 false).followStall).driveCarriage else s4 else s3) := by
    have h4 : SeamFrame s3 s4 := (SeamFrame.refl s3).bump
    split
    · split
      · exact h4.setFlag.followStall.driveCarriage
      · exact h4
    · exact SeamFrame.refl s3
  exact ⟨h3.trans hseam.toLineFrame, (hseam.fld _ _ (by decide)).trans hcount, hseam.high⟩

/-! The record path of a line (R218, R221, R231). -/

/-- What a line that the core side takes can touch. -/
abbrev takeRegs : List Reg := trackRegs ++ gapRegs ++ doneRegs ++ ringRegs
abbrev takeParts : List Part := gapParts ++ [.odo] ++ ringParts

theorem LineFrame.loseLine {g : Int} {why tm : Nat} (h : LineFrame R P s t) (hP : Part.lin ∈ P := by decide) :
    LineFrame R P s (t.loseLine why g tm) := by
  unfold State.loseLine
  exact LineFrame.ite (fun _ => h) (fun _ => h.onLin (fun _ => rfl) hP)

theorem LineFrame.dropPair (h : LineFrame R P s t) (hP : Part.lin ∈ P := by decide) : LineFrame R P s t.dropPair := by
  unfold State.dropPair
  extract_lets s1
  have h1 : LineFrame R P s s1 := h.onLin (fun _ => rfl) hP
  split
  · exact h1.loseLine hP
  · exact h1

theorem LineFrame.markLine {rec' : List Byte} {l : Line} (h : LineFrame R P s t) (hP : Part.lin ∈ P := by decide) :
    LineFrame R P s (t.markLine n rec' l) := by
  unfold State.markLine
  split
  · exact h.onLin (fun _ => rfl) hP
  · exact h

theorem LineFrame.recordLine {o : OutLine} (h : LineFrame takeRegs takeParts s t) : LineFrame takeRegs takeParts s (t.recordLine o) := by
  unfold State.recordLine
  extract_lets r
  have hr : LineFrame takeRegs takeParts s r.2 := h.trans (LineFrame.lineRecords t o)
  split
  · exact hr.trans (lineDone_shows _ _).1
  · rename_i m _
    split
    · exact ((hr.thenFrame ((Frame.refl ringRegs ringParts _).putUnit)).markLine).trans (lineDone_shows _ _).1
    · extract_lets s1
      have h1 : LineFrame takeRegs takeParts s s1 := LineFrame.loseLine h.setFlag
      split
      · exact h1.loseLine
      · exact h1

theorem LineFrame.hoodSettings {l : Line} (h : LineFrame R P s t) (hr : Reg.linAsmCtl ∈ R := by decide) :
    LineFrame R P s (t.hoodSettings l) := by
  unfold State.hoodSettings State.applyReg
  exact LineFrame.ite (fun _ => h.setReg hr) (fun _ => h)

theorem LineFrame.showAlong (h : LineFrame R P s t) (hr : Reg.odoSts ∈ R := by decide) : LineFrame R P s t.showAlong := h.setFlag hr

theorem LineFrame.offerLine {l : Line} {rows : List (List Nat)} (h : LineFrame takeRegs takeParts s t) :
    LineFrame takeRegs takeParts s (t.offerLine l rows) := by
  unfold State.offerLine
  extract_lets a samples stall alone start s1
  have ha : LineFrame takeRegs takeParts s a := h.hoodSettings
  have h1 : LineFrame takeRegs takeParts s s1 := LineFrame.ite (fun _ => ha.onLin.showAlong) (fun _ => ha)
  refine LineFrame.ite (fun _ => ha.loseLine) fun _ => LineFrame.ite (fun _ => ha.recordLine) fun _ => ?_
  refine LineFrame.ite (fun _ => h1.recordLine) fun _ => LineFrame.ite (fun _ => h1.dropPair.onLin) fun _ => ?_
  split
  · extract_lets both s2
    have h2 : LineFrame takeRegs takeParts s s2 := h1.onLin.recordLine
    refine LineFrame.ite (fun _ => ?_) (fun _ => h1.dropPair.loseLine)
    exact LineFrame.ite (fun _ => h2) (fun _ => h2.onLin.showAlong)
  · exact h1.loseLine

theorem LineFrame.takeLine {l : Line} {rows : List (List Nat)} (h : LineFrame takeRegs takeParts s t) :
    LineFrame takeRegs takeParts s (t.takeLine l rows) := by
  unfold State.takeLine
  refine LineFrame.ite (fun _ => ?_) (fun _ => h)
  exact (h.trans (LineFrame.trackAll t rows l)).offerLine.trans (SeamFrame.refl _).followStall.toLineFrame

theorem LineFrame.enqueueLine {l : Line} {rows : List (List Nat)} {lag : Bool} (h : LineFrame takeRegs takeParts s t) :
    LineFrame takeRegs takeParts s (t.enqueueLine l rows lag) := by
  unfold State.enqueueLine State.drainFifo
  refine LineFrame.ite (fun _ => LineFrame.ite (fun _ => h.loseLine) (fun _ => h.onLin)) (fun _ => LineFrame.takeLine ?_)
  exact LineFrame.foldl _ h.onLin fun u p hu => hu.takeLine

end Sys2Proof.Machine
end
section
/-! SUPPORT. A line that the core side takes alone (R215, R218, R221), and the line that leaves the stitcher (R24, R202). -/
namespace Sys2Proof.Machine

variable {R : List Reg} {P : List Part} {s t : State} {l : Line} {rows : List (List Nat)}

/-! A line taken alone. -/

theorem Frame.lineStream (h : Frame R P s t) (hR : Reg.acqStrCtl ∉ R := by decide) : t.lineStream = s.lineStream := by
  unfold State.lineStream State.streamsOf State.streamOn
  simp only [h.flag F.acqStrCtlOn _ hR, h.fld F.acqStrCtlClass _ hR]

/-- A field whose written and whose effective value read alike reads so after the settings held for a hood have come into force. -/
theorem inForceFlag_hoodSettings {x : RegField} (hx : x.reg = .linAsmCtl) (hforce : s.inForceFlag x 0 = false) (hwritten : s.flag x 0 = false) :
    (s.hoodSettings l).inForceFlag x 0 = false := by
  unfold State.hoodSettings State.applyReg
  split
  · unfold State.inForceFlag State.inForce State.fld
    rw [hx, reg_setReg_same, Nat.mod_eq_of_lt (reg_lt _ _ _), ← hx]
    exact hwritten
  · exact hforce

/-- With no line stream on a line makes its records for nobody, and is done. -/
theorem recordLine_unstreamed {o : OutLine} (h : s.lineStream = none) : s.recordLine o = (s.lineRecords o).2.lineDone o := by
  unfold State.recordLine
  rw [h]

/-- A line beyond H that no policy and no stream holds is counted, and H moves to it (R215). -/
theorem takeLine_counts (hhigh : ∀ h, s.dev.odo.high = some h → h < l.grid) (hforce : s.inForceFlag F.linAsmCtlPolicy 0 = false)
    (hwritten : s.flag F.linAsmCtlPolicy 0 = false) (hstall : s.flag F.odoStsStall 0 = false) (hstream : s.lineStream = none) :
    (s.takeLine l rows).fld F.linLineCntCount 0 = min (s.fld F.linLineCntCount 0 + 1) 0xFFFFFFFF
      ∧ (s.takeLine l rows).dev.odo.high = some l.grid := by
  have htake : s.takeLine l rows = ((s.trackAll rows l).offerLine l rows).followStall := by
    unfold State.takeLine
    refine if_pos ?_
    split
    · exact decide_eq_true (hhigh _ ‹_›)
    · rfl
  have htrack : Frame trackRegs trackParts s (s.trackAll rows l) := (LineFrame.trackAll s rows l).toFrame
  set a := (s.trackAll rows l).hoodSettings l with ha
  have hset : Frame (.linAsmCtl :: trackRegs) trackParts s a :=
    (LineFrame.hoodSettings ((LineFrame.refl _ _ s).trans (LineFrame.trackAll s rows l))).toFrame
  have hpolicy : a.inForceFlag F.linAsmCtlPolicy 0 = false := by
    refine inForceFlag_hoodSettings rfl ?_ ?_
    · unfold State.inForceFlag State.inForce
      rw [htrack.fld _ _ (by decide)]
      exact hforce
    · rw [htrack.flag _ _ (by decide), hwritten]
  have hrun : a.flag F.odoStsStall 0 = false := by rw [hset.flag _ _ (by decide), hstall]
  obtain ⟨o, hline, hmate, hoffer⟩ : ∃ o : OutLine, o.line = l ∧ o.mate = none ∧ (s.trackAll rows l).offerLine l rows = a.recordLine o := by
    refine ⟨{ line := l, pos := l.micro, along2 := decide (l.pitch ≠ a.fld F.odoPitchPitch 0), samples := a.binLine rows }, rfl, rfl, ?_⟩
    unfold State.offerLine
    dsimp only
    rw [← ha, hpolicy, hrun, if_neg (by simp), if_pos (by simp)]
  rw [htake, hoffer, recordLine_unstreamed (by rw [hset.lineStream, hstream])]
  obtain ⟨-, hcount, hto⟩ := lineDone_shows (a.lineRecords o).2 o
  have hstay : SeamFrame ((a.lineRecords o).2.lineDone o) ((a.lineRecords o).2.lineDone o).followStall := (SeamFrame.refl _).followStall
  refine ⟨?_, ?_⟩
  · rw [hstay.fld _ _ (by decide), hcount, (LineFrame.lineRecords a o).fld _ _ (by decide), hset.fld _ _ (by decide)]
  · rw [hstay.high, hto, hmate, hline]

/-! The line that leaves the stitcher. -/

/-- A line takes its position and time tag where its exposure centre has passed (R191, R212). -/
def State.settle (s : State) (l : Line) : Line :=
  if l.pos.isNone && decide (l.centre ≤ s.dev.time.c) then { l with pos := some (s.est l.centre), time := s.tagOf l.centre } else l

/-- The position and the time tag are all that a line takes. -/
theorem settle_keeps (s : State) (l : Line) : (s.settle l).id = l.id ∧ (s.settle l).grid = l.grid ∧ (s.settle l).prime = l.prime
    ∧ (s.settle l).dropped = l.dropped ∧ (s.settle l).record = l.record := by
  unfold State.settle
  split <;> exact ⟨rfl, rfl, rfl, rfl, rfl⟩

theorem settleLines_eq (s : State) : s.settleLines = s.onLin fun x => { x with lines := x.lines.map s.settle } := rfl

/-- A line has left the stitcher. -/
def State.unstitch (s : State) (l : Line) : State :=
  s.settleLines.onLin fun x => { x with
    lines := x.lines.filter fun k => decide (k.id ≠ l.id)
    fresh := if l.fresh && x.fresh.isNone then some (l.grid, 1) else x.fresh }

/-- Is a line whole: of the track, begun and read in every segment (R202)? -/
def Line.whole (l : Line) : Bool := decide (l.kind = 0) && l.waits.isEmpty && l.reads.isEmpty

/-- The line that leaves the stitcher next: the first that is whole, and no other has its number. -/
structure State.Stitched (s : State) (l : Line) : Prop where
  first : s.dev.lin.lines.find? Line.whole = some l
  only : ∀ k ∈ s.dev.lin.lines, k.id = l.id → k = l

/-- A line makes a record: in RUN, on track, not priming and not lost (R215, R218). -/
structure State.Records (s : State) (l : Line) : Prop where
  op : s.sys.op = .run
  prime : l.prime = false
  dropped : l.dropped = false
  record : l.record = true

theorem find_settled (h : s.Stitched l) :
    s.settleLines.dev.lin.lines.find? (fun k => decide (k.id = l.id)) = some (s.settle l) := by
  have hkeeps : ∀ k, (s.settle k).id = k.id := fun k => (settle_keeps s k).1
  rw [settleLines_eq]
  change (s.dev.lin.lines.map s.settle).find? _ = _
  rw [List.find?_map, show (fun k : Line => decide (k.id = l.id)) ∘ s.settle = fun k => decide (k.id = l.id) from
    funext fun k => by simp [hkeeps]]
  cases hf : s.dev.lin.lines.find? fun k => decide (k.id = l.id) with
  | none => exact absurd (List.find?_eq_none.mp hf l (List.mem_of_find?_eq_some h.first)) (by simp)
  | some k =>
    obtain rfl : k = l := h.only k (List.mem_of_find?_eq_some hf) (by simpa using List.find?_some hf)
    rfl

theorem stitchedLine_waits {lag bad : Bool} (h : s.dev.lin.lines.find? Line.whole = none) : s.stitchedLine lag bad = s := by
  unfold State.stitchedLine
  rw [show s.dev.lin.lines.find? (fun k => decide (k.kind = 0) && k.waits.isEmpty && k.reads.isEmpty) = _ from h]

/-- What the stitcher makes of a whole line, once the line is known with its position. -/
theorem stitchedLine_eq {lag bad : Bool} (h : s.Stitched l) : s.stitchedLine lag bad =
      let l' := s.settle l
      let s1 := s.unstitch l'
      let s2 := if bad then s1.sramUe 1 else s1
      if s2.sys.op ≠ .run then s2
      else if l'.prime then if s2.dev.lin.primeReason = 0 then s2 else s2.loseLine s2.dev.lin.primeReason l'.grid l'.time
      else if bad || l'.dropped then s2.loseLine 0x43 l'.grid l'.time
      else if l'.record then s2.enqueueLine l' (s2.stitch l') lag
      else s2 := by
  unfold State.stitchedLine
  rw [show s.dev.lin.lines.find? (fun k => decide (k.kind = 0) && k.waits.isEmpty && k.reads.isEmpty) = _ from h.first]
  dsimp only
  rw [find_settled h]
  rfl

end Sys2Proof.Machine
end
section
/-! SUPPORT. STITCHED_LINE (R24, R202, R215, R273): what becomes of a whole line. -/
namespace Sys2Proof.Machine

variable {s : State} {l : Line} {lag bad : Bool}

/-- What an uncorrectable word of on-die SRAM can touch (R273). -/
abbrev ueRegs : List Reg := [.memSramUeCnt, .memSramSts] ++ logRegs

theorem frame_sramUe (s : State) (region : Nat) : Frame ueRegs logParts s (s.sramUe region) :=
  (((Frame.refl _ _ s).bump (by decide)).raise (by decide)).logFault

theorem frame_unstitch (s : State) (l : Line) : Frame [] [.lin] s (s.unstitch l) := by
  unfold State.unstitch
  rw [settleLines_eq]
  exact (Frame.refl _ _ s).onLin.onLin

theorem fifo_unstitch (s : State) (l : Line) : (s.unstitch l).dev.lin.fifo = s.dev.lin.fifo := rfl

/-- The state in which a whole line has left the stitcher, and its words have been read. -/
def State.readOut (s : State) (l : Line) (bad : Bool) : State := if bad then (s.unstitch l).sramUe 1 else s.unstitch l

theorem lineFrame_readOut (s : State) (l : Line) (bad : Bool) : LineFrame ueRegs logParts (s.unstitch l) (s.readOut l bad) := by
  unfold State.readOut
  exact LineFrame.ite (fun _ => (LineFrame.refl _ _ _).thenFrame (frame_sramUe _ _)) (fun _ => LineFrame.refl _ _ _)

theorem frame_readOut (s : State) (l : Line) (bad : Bool) : Frame ueRegs (.lin :: logParts) s (s.readOut l bad) :=
  (frame_unstitch s l |>.mono (by decide) (by decide)).trans (lineFrame_readOut s l bad).toFrame (by decide) (by decide)

/-- Only the record of line imaging, the registers of the record path and the log move, and no other line under way. -/
theorem lineFrame_stitchedLine (h : s.Stitched l) :
    LineFrame (takeRegs ++ ueRegs) (takeParts ++ logParts) (s.unstitch (s.settle l)) (s.stitchedLine lag bad) := by
  have h2 : LineFrame (takeRegs ++ ueRegs) (takeParts ++ logParts) (s.unstitch (s.settle l)) (s.readOut (s.settle l) bad) :=
    (LineFrame.refl _ _ _).trans (lineFrame_readOut s _ bad)
  rw [stitchedLine_eq h]
  refine LineFrame.ite (fun _ => h2) fun _ => LineFrame.ite (fun _ => ?_) fun _ => ?_
  · exact LineFrame.ite (fun _ => h2) (fun _ => h2.loseLine)
  · refine LineFrame.ite (fun _ => h2.loseLine) fun _ => LineFrame.ite (fun _ => ?_) (fun _ => h2)
    exact h2.trans (LineFrame.enqueueLine (LineFrame.refl _ _ _))

/-- The line is no longer among those under way. -/
theorem stitchedLine_leaves (h : s.Stitched l) :
    ∀ k ∈ (s.stitchedLine lag bad).dev.lin.lines, k.id ≠ l.id := by
  intro k hk
  rw [(lineFrame_stitchedLine h).lines] at hk
  have hne : k.id ≠ (s.settle l).id := by simpa using (List.mem_filter.mp hk).2
  rwa [(settle_keeps s l).1] at hne

/-- Outside RUN the line makes no record. -/
theorem stitchedLine_idle (h : s.Stitched l)
    (hop : s.sys.op ≠ .run) : s.stitchedLine lag bad = s.readOut (s.settle l) bad := by
  rw [stitchedLine_eq h]
  have hkept : (s.readOut (s.settle l) bad).sys = s.sys := (frame_readOut s _ bad).sys
  exact if_pos (by rw [← hkept] at hop; exact hop)

/-- A sound line in RUN goes to the FIFO, with the position it has taken. -/
theorem stitchedLine_sound (h : s.Stitched l) (hl : s.Records l) :
    s.stitchedLine lag false = (s.unstitch (s.settle l)).enqueueLine (s.settle l) ((s.unstitch (s.settle l)).stitch (s.settle l)) lag := by
  obtain ⟨hop, hprime, hdrop, hrec⟩ := hl
  obtain ⟨-, -, hp, hd, hr⟩ := settle_keeps s l
  rw [stitchedLine_eq h]
  have hkept : (s.unstitch (s.settle l)).sys = s.sys := (frame_unstitch s _).sys
  simp [hkept, hop, hp, hd, hr, hprime, hdrop, hrec]

/-! The line FIFO (R24). -/

variable {rows : List (List Nat)}

/-- With the core side behind, the line waits; nothing is recorded. -/
theorem enqueueLine_waits (h : s.dev.lin.fifo.length < 8) :
    s.enqueueLine l rows true = s.onLin fun x => { x with fifo := x.fifo ++ [(l, rows)] } := by
  unfold State.enqueueLine
  rw [if_pos rfl, if_neg (by omega)]

theorem enqueueLine_full (h : 8 ≤ s.dev.lin.fifo.length) : s.enqueueLine l rows true = s.loseLine 0x43 l.grid l.time := by
  unfold State.enqueueLine
  rw [if_pos rfl, if_pos h]

theorem enqueueLine_alone (h : s.dev.lin.fifo = []) : s.enqueueLine l rows false = (s.onLin fun x => { x with fifo := [] }).takeLine l rows := by
  unfold State.enqueueLine State.drainFifo
  rw [if_neg (by decide), h]
  rfl

theorem fifo_loseLine (s : State) (why : Nat) (g : Int) (tm : Nat) : (s.loseLine why g tm).dev.lin.fifo = s.dev.lin.fifo := by
  unfold State.loseLine
  rw [apply_ite (fun u : State => u.dev.lin.fifo)]
  exact ite_self _

end Sys2Proof.Machine
end
section
/-! SUPPORT. READOUT_COMPLETE (R195, R199, R204, R205): samples counted, the cover judged, and the rows given to the line. -/
namespace Sys2Proof.Machine

variable {R : List Reg} {P : List Part} {s t : State} {l : Line} {n : Nat} {x : List (List Nat)}

theorem LineFrame.setSeg {y : SegmentSt} (h : LineFrame R P s t) (hP : Part.lin ∈ P := by decide) : LineFrame R P s (t.setSeg n y) :=
  h.onLin (fun _ => rfl) hP

theorem LineFrame.setBank {y : BankSt} (h : LineFrame R P s t) (hP : Part.lin ∈ P := by decide) : LineFrame R P s (t.setBank n y) :=
  ⟨h.toFrame.setBank hP, h.lines⟩

/-! What is common to the readouts of the track and of a capture. -/

/-- The samples of a readout that OVR counts (R195). -/
def State.overranges (s : State) (n : Nat) (x : List (List Nat)) : Nat := x.foldl (fun a r => a + s.overrange n r) 0

/-- The samples of a readout are counted, and its dark references judge the cover (R195, R205). -/
def State.countSamples (s : State) (n : Nat) (x : List (List Nat)) : State :=
  (if s.overranges n x = 0 then s else (s.bump F.linSegOvrCntCount n (s.overranges n x)).setFlag F.linSegStsOvr n true).judgeCover n
    ((x.mapIdx fun r v => s.rowStep1 n r v).map (·.1))

/-- Cover detection moves its run and the status of its segment, with its event. -/
theorem LineFrame.judgeCover {refs : List (List Nat)} (h : LineFrame R P s t)
    (hraise : ∀ u, LineFrame R P s u → LineFrame R P s (u.raise F.linSegStsCoverEvt n 12 n)) (hR : Reg.linSegSts ∈ R := by decide)
    (hP : Part.lin ∈ P := by decide) : LineFrame R P s (t.judgeCover n refs) := by
  unfold State.judgeCover
  dsimp only
  refine LineFrame.ite (fun _ => h) fun _ => LineFrame.ite (fun _ => hraise _ ?_) (fun _ => h.setSeg hP)
  exact (h.setSeg hP).setFlag hR

/-- What counting the samples of a readout can touch. -/
abbrev sampleRegs : List Reg := [.linSegOvrCnt, .linSegSts] ++ postRegs
abbrev sampleParts : List Part := .lin :: postParts

theorem countSamples_shows (s : State) (n : Nat) (x : List (List Nat)) : LineFrame sampleRegs sampleParts s (s.countSamples n x)
    ∧ (s.countSamples n x).fld F.linSegOvrCntCount n = min (s.fld F.linSegOvrCntCount n + s.overranges n x) 0xFFFFFFFF
    ∧ (s.unrouted → LineFrame [.linSegOvrCnt, .linSegSts, .sysEvtSts] [.lin] s (s.countSamples n x)) := by
  unfold State.countSamples
  have hcount : ∀ {R P}, Reg.linSegOvrCnt ∈ R → Reg.linSegSts ∈ R → LineFrame R P s (if s.overranges n x = 0 then s
      else (s.bump F.linSegOvrCntCount n (s.overranges n x)).setFlag F.linSegStsOvr n true) := fun h1 h2 =>
    LineFrame.ite (fun _ => LineFrame.refl _ _ s) (fun _ => ((LineFrame.refl _ _ s).bump h1).setFlag h2)
  have hfld : (if s.overranges n x = 0 then s else (s.bump F.linSegOvrCntCount n (s.overranges n x)).setFlag F.linSegStsOvr n true).fld
      F.linSegOvrCntCount n = min (s.fld F.linSegOvrCntCount n + s.overranges n x) 0xFFFFFFFF := by
    split
    · rename_i h0
      have := fld_lt (s := s) (x := F.linSegOvrCntCount) (i := n)
      rw [h0]
      change _ < 2 ^ 32 at this
      omega
    · rw [((Frame.refl [.linSegSts] [] _).setFlag (by decide)).fld _ _ (by decide), fld_bump_same _ _ _ (by decide)]
      rfl
  refine ⟨?_, ?_, fun hs => ?_⟩
  · exact LineFrame.judgeCover (hcount (by decide) (by decide)) fun u hu =>
      hu.thenFrame ((Frame.refl (.linSegSts :: postRegs) postParts u).raise (by decide))
  · rw [← hfld]
    generalize (if s.overranges n x = 0 then s else _) = u
    exact (LineFrame.judgeCover (LineFrame.refl (.linSegSts :: postRegs) sampleParts u) fun v hv =>
      hv.thenFrame ((Frame.refl (.linSegSts :: postRegs) postParts v).raise (by decide))).fld _ _ (by decide)
  · refine LineFrame.judgeCover (hcount (by decide) (by decide)) fun u hu => ?_
    unfold State.raise
    refine LineFrame.ite (fun _ => hu) fun _ => ?_
    rw [post_unrouted ((hu.setFlag (x := F.linSegStsCoverEvt)).unrouted hs)]
    exact hu.setFlag.setReg

/-- The mean of a strip is kept in its bank's record (R204). -/
theorem LineFrame.warmStrip {green : List Nat} (h : LineFrame R P s t) (hP : Part.lin ∈ P := by decide) :
    LineFrame R P s (t.warmStrip n green) := by
  unfold State.warmStrip
  exact LineFrame.foldl _ h fun u b hu => LineFrame.ite (fun _ => hu.setBank hP) (fun _ => hu)

/-! A line of the track. -/

/-- The first line that satisfies a test is changed in place. -/
theorem exists_mem_mapFirst {p : Line → Bool} {f : Line → Line} {ls : List Line} {k : Line} (hk : k ∈ ls) (hp : p k = true) :
    ∃ j, p j = true ∧ f j ∈ mapFirst p f ls := by
  induction ls with
  | nil => exact absurd hk List.not_mem_nil
  | cons a ls ih =>
    by_cases ha : p a = true
    · exact ⟨a, ha, by simp [mapFirst, ha]⟩
    · obtain ⟨j, hj, hin⟩ := ih ((List.mem_cons.mp hk).resolve_left fun h => ha (h ▸ hp))
      exact ⟨j, hj, by simp [mapFirst, ha, hin]⟩

theorem lineFrame_alignSegment (s : State) (n : Nat) (rows : List (List Nat)) :
    LineFrame [.linSegSts] [.lin] s (s.alignSegment n rows).2 := by
  unfold State.alignSegment
  exact (LineFrame.refl _ _ s).setSeg.setFlag

/-- The aligned rows of a segment go to its line, which waits for it no longer. -/
theorem trackReadout_shows {rows : List (List Nat)} {ovr : Bool} (hl : l ∈ t.dev.lin.lines) :
    Frame [.linSegSts] [.lin] t (t.trackReadout l n rows ovr false)
      ∧ ∃ k ∈ (t.trackReadout l n rows ovr false).dev.lin.lines, k.id = l.id ∧ n ∉ k.reads ∧ n ∈ k.done.map (·.1) := by
  have halign := lineFrame_alignSegment t n rows
  unfold State.trackReadout
  dsimp only
  rw [if_neg Bool.false_ne_true]
  refine ⟨halign.toFrame.onLin, ?_⟩
  rw [← halign.lines] at hl
  obtain ⟨j, hj, hin⟩ := exists_mem_mapFirst (p := fun k => decide (k.id = l.id)) hl (decide_eq_true rfl)
  exact ⟨_, hin, of_decide_eq_true hj, by simp, by simp⟩

/-- Corrected words of a readout are counted (R272). -/
def State.countFixed (s : State) (fixed : Nat) : State := if fixed = 0 then s else s.bump F.memSramCeCntCount 0 fixed

theorem countFixed_shows (s : State) (fixed : Nat) : LineFrame [.memSramCeCnt] [] s (s.countFixed fixed)
    ∧ (s.countFixed fixed).fld F.memSramCeCntCount 0 = min (s.fld F.memSramCeCntCount 0 + fixed) 0xFFFFFFFF := by
  unfold State.countFixed
  refine ⟨LineFrame.ite (fun _ => LineFrame.refl _ _ s) (fun _ => (LineFrame.refl _ _ s).bump), ?_⟩
  split
  · rename_i h0
    have := fld_lt (s := s) (x := F.memSramCeCntCount) (i := 0)
    change _ < 2 ^ 32 at this
    omega
  · exact fld_bump_same _ _ _ (by decide)

theorem readoutComplete_nothing {fixed : Nat} (h : s.dev.lin.lines.find? (·.reads.contains n) = none) :
    s.readoutComplete n x [] false fixed = s := by
  unfold State.readoutComplete
  rw [h]

/-- The readout for a line of the track, its shading read without error. -/
theorem readoutComplete_track {fixed : Nat} (h : s.dev.lin.lines.find? (·.reads.contains n) = some l) (hkind : l.kind = 0) :
    ∃ green rows ovr, s.readoutComplete n x [] false fixed =
      (((s.countSamples n x).countFixed fixed).warmStrip n green).trackReadout l n rows ovr false := by
  unfold State.readoutComplete
  rw [h]
  dsimp only
  rw [if_neg (by omega), if_pos hkind]
  exact ⟨_, _, _, rfl⟩

theorem readoutComplete_monitor {fixed : Nat} (h : s.dev.lin.lines.find? (·.reads.contains n) = some l) (hkind : l.kind = 1) :
    ∃ green act refs, s.readoutComplete n x [] false fixed = (s.warmStrip n green).bankReadout l n act refs := by
  unfold State.readoutComplete
  rw [h]
  dsimp only
  rw [if_pos hkind]
  exact ⟨_, _, _, rfl⟩

theorem readoutComplete_capture {fixed : Nat} (h : s.dev.lin.lines.find? (·.reads.contains n) = some l) (hkind : 2 ≤ l.kind) :
    ∃ act refs, s.readoutComplete n x [] false fixed = (s.countSamples n x).bankReadout l n act refs := by
  unfold State.readoutComplete
  rw [h]
  dsimp only
  rw [if_neg (by omega), if_neg (by omega)]
  exact ⟨_, _, rfl⟩

/-! A line of a bank: of its monitor or of its capture (R199, R204). -/

/-- What the results of a capture can touch. -/
abbrev captureRegs : List Reg := [.linShade, .linSegWeak, .linSegRefdark, .linBankSts, .linBankCap] ++ postRegs
abbrev captureParts : List Part := [.lin, .freeCtr] ++ postParts

theorem Frame.captureEntry {b i sum lines : Nat} {white : Bool} (h : Frame R P s t) (hR : Reg.linShade ∈ R := by decide)
    (hP : Part.freeCtr ∈ P := by decide) : Frame R P s (t.captureEntry b white i sum lines) := by
  unfold State.captureEntry State.whiteCoef
  refine Frame.ite (fun _ => Frame.setReg ?_ hR) (fun _ => h.setReg hR)
  split
  · exact h
  · split
    · exact h.draw hP
    · exact h

theorem Frame.nextGen (h : Frame R P s t) (hP : Part.lin ∈ P := by decide) : Frame R P s (t.nextGen n) := by
  unfold State.nextGen State.setSeg
  exact h.onLin hP

theorem Frame.countWeak (h : Frame R P s t) (hR : Reg.linSegWeak ∈ R := by decide) : Frame R P s (t.countWeak n) := h.setFld hR

theorem Frame.finishCapture {b : Nat} {c : Capture} (h : Frame captureRegs captureParts s t) :
    Frame captureRegs captureParts s (t.finishCapture b c) := by
  unfold State.finishCapture
  extract_lets s1 s2
  have h1 : Frame captureRegs captureParts s s1 := Frame.foldl _ h fun u p hu => by
    refine Frame.countWeak (Frame.nextGen ?_)
    exact Frame.foldl _ hu fun v q hv => Frame.foldl _ hv fun w e hw => hw.captureEntry
  have h2 : Frame captureRegs captureParts s s2 := Frame.ite (fun _ => h1) fun _ => Frame.foldl _ h1 fun u p hu =>
    Frame.foldl _ hu fun v q hv => Frame.ite (fun _ => hv) (fun _ => hv.setFld (by decide))
  exact ((h2.setBank.setFlag (by decide)).setFlag (by decide)).raise (by decide)

theorem Frame.settleCapture {b : Nat} (h : Frame captureRegs captureParts s t) : Frame captureRegs captureParts s (t.settleCapture b) := by
  unfold State.settleCapture
  split
  · exact Frame.ite (fun _ => h.finishCapture) (fun _ => h)
  · exact h

theorem Frame.bankReadout {act refs : List (List Nat)} (h : Frame captureRegs captureParts s t) :
    Frame captureRegs captureParts s (t.bankReadout l n act refs) := by
  unfold State.bankReadout
  dsimp only
  split
  · exact h.onLin.setBank.settleCapture
  · exact h.onLin

/-- The readout of a monitor line moves no capture. -/
theorem Frame.bankReadout_monitor {act refs : List (List Nat)} (h : Frame [] [.lin] s t) (hkind : l.kind = 1) :
    Frame [] [.lin] s (t.bankReadout l n act refs) := by
  unfold State.bankReadout
  rw [hkind]
  exact h.onLin

end Sys2Proof.Machine
end
section
/-! O37 (R24, R195, R202, R204, R215). Readouts of a segment and stitched lines: what each kind of line is given, and the FIFO a whole
line of the track goes to. -/
namespace Sys2Proof.Machine

variable {s : State} {l : Line} {n fixed : Nat} {x : List (List Nat)} {lag bad : Bool}

/-! The readout of a segment. -/

/-- A line of the track is given its rows; samples and corrected words are counted. -/
theorem readoutComplete_track_shows (h : s.dev.lin.lines.find? (·.reads.contains n) = some l) (hkind : l.kind = 0) :
    let t := s.readoutComplete n x [] false fixed
    t.fld F.linSegOvrCntCount n = min (s.fld F.linSegOvrCntCount n + s.overranges n x) 0xFFFFFFFF
      ∧ t.fld F.memSramCeCntCount 0 = min (s.fld F.memSramCeCntCount 0 + fixed) 0xFFFFFFFF
      ∧ (∃ k ∈ t.dev.lin.lines, k.id = l.id ∧ n ∉ k.reads ∧ n ∈ k.done.map (·.1))
      ∧ (s.unrouted → keepsRegs [.linSegOvrCnt, .linSegSts, .memSramCeCnt, .sysEvtSts] s t ∧ keepsBytes s t) := by
  intro t
  obtain ⟨green, rows, ovr, hread⟩ := readoutComplete_track (x := x) (fixed := fixed) h hkind
  obtain ⟨hsamples, hover, hquiet⟩ := countSamples_shows s n x
  obtain ⟨hfix, hfixed⟩ := countFixed_shows (s.countSamples n x) fixed
  have hstrip : LineFrame [] [.lin] _ (((s.countSamples n x).countFixed fixed).warmStrip n green) := (LineFrame.refl _ _ _).warmStrip
  have hl : l ∈ (((s.countSamples n x).countFixed fixed).warmStrip n green).dev.lin.lines := by
    rw [hstrip.lines, hfix.lines, hsamples.lines]
    exact List.mem_of_find?_eq_some h
  obtain ⟨hgive, hline⟩ := trackReadout_shows (n := n) (rows := rows) (ovr := ovr) hl
  rw [← hread] at hgive hline
  have hlast : Frame [.linSegSts] [.lin] ((s.countSamples n x).countFixed fixed) t :=
    (hstrip.toFrame.mono (by decide) (by decide)).trans hgive (by decide) (by decide)
  have hafter : Frame [.memSramCeCnt, .linSegSts] [.lin] (s.countSamples n x) t :=
    (hfix.toFrame.mono (by decide) (by decide)).trans hlast (by decide) (by decide)
  refine ⟨?_, ?_, hline, fun hs => ?_⟩
  · rw [hafter.fld _ _ (by decide), hover]
  · rw [hlast.fld _ _ (by decide), hfixed, hsamples.fld _ _ (by decide)]
  · have hall : Frame [.linSegOvrCnt, .linSegSts, .memSramCeCnt, .sysEvtSts] [.lin] s t :=
      ((hquiet hs).toFrame.mono (by decide) (by decide)).trans hafter (by decide) (by decide)
    exact (hall.keeps (by decide)).2

/-- A monitor line only feeds the mean of its strip. -/
theorem frame_readoutComplete_monitor (h : s.dev.lin.lines.find? (·.reads.contains n) = some l) (hkind : l.kind = 1) :
    Frame [] [.lin] s (s.readoutComplete n x [] false fixed) := by
  obtain ⟨green, act, refs, hread⟩ := readoutComplete_monitor (x := x) (fixed := fixed) h hkind
  rw [hread]
  exact Frame.bankReadout_monitor (LineFrame.refl _ _ s).warmStrip.toFrame hkind

/-- The samples of a capture line are counted like those of the track. -/
theorem readoutComplete_capture_counts (h : s.dev.lin.lines.find? (·.reads.contains n) = some l) (hkind : 2 ≤ l.kind) :
    (s.readoutComplete n x [] false fixed).fld F.linSegOvrCntCount n
      = min (s.fld F.linSegOvrCntCount n + s.overranges n x) 0xFFFFFFFF := by
  obtain ⟨act, refs, hread⟩ := readoutComplete_capture (x := x) (fixed := fixed) h hkind
  obtain ⟨-, hover, -⟩ := countSamples_shows s n x
  rw [hread, (Frame.bankReadout (Frame.refl _ _ _)).fld _ _ (by decide), hover]

theorem find_wants_none (h : ∀ l ∈ s.dev.lin.lines, n ∉ l.reads) : s.dev.lin.lines.find? (·.reads.contains n) = none :=
  List.find?_eq_none.mpr fun l hl => by simpa using h l hl

/-! The stitched line. -/

/-- The core side is behind, and the line waits for it: no record is made. -/
theorem stitchedLine_lagging_waits (h : s.Stitched l) (hl : s.Records l)
    (hroom : s.dev.lin.fifo.length < 8) :
    let t := s.stitchedLine true false
    t.fld F.linLineCntCount 0 = s.fld F.linLineCntCount 0 ∧ t.dev.odo.high = s.dev.odo.high
      ∧ t.dev.lin.fifo.length = s.dev.lin.fifo.length + 1 ∧ t.dev.lin.gaps = s.dev.lin.gaps := by
  rw [stitchedLine_sound h hl, enqueueLine_waits (by rwa [fifo_unstitch])]
  exact ⟨rfl, rfl, List.length_append, rfl⟩

/-- Where 8 lines wait the line is lost. -/
theorem stitchedLine_lagging_full (h : s.Stitched l) (hl : s.Records l)
    (hfull : 8 ≤ s.dev.lin.fifo.length) :
    let t := s.stitchedLine true false
    t.fld F.linLineCntCount 0 = s.fld F.linLineCntCount 0 ∧ t.dev.odo.high = s.dev.odo.high
      ∧ t.dev.lin.fifo.length = s.dev.lin.fifo.length := by
  rw [stitchedLine_sound h hl, enqueueLine_full (by rwa [fifo_unstitch])]
  have hlose : Frame [] [.lin] s ((s.unstitch (s.settle l)).loseLine 0x43 (s.settle l).grid (s.settle l).time) :=
    (frame_unstitch s _).trans (LineFrame.loseLine (LineFrame.refl [] [.lin] _)).toFrame (by decide) (by decide)
  refine ⟨hlose.fld _ _ (by decide), congrArg OdoSt.high (hlose.part .odo (by decide)), ?_⟩
  rw [fifo_loseLine, fifo_unstitch]

/-- A line that is taken alone is counted, and H moves to it. -/
theorem stitchedLine_alone (h : s.Stitched l) (hl : s.Records l)
    (hempty : s.dev.lin.fifo = []) (hhigh : ∀ h, s.dev.odo.high = some h → h < l.grid)
    (hforce : s.inForceFlag F.linAsmCtlPolicy 0 = false) (hwritten : s.flag F.linAsmCtlPolicy 0 = false)
    (hstall : s.flag F.odoStsStall 0 = false) (hstream : s.lineStream = none) :
    let t := s.stitchedLine false false
    t.fld F.linLineCntCount 0 = min (s.fld F.linLineCntCount 0 + 1) 0xFFFFFFFF ∧ t.dev.odo.high = some l.grid := by
  rw [stitchedLine_sound h hl, enqueueLine_alone (by rwa [fifo_unstitch])]
  have hto : (s.settle l).grid = l.grid := (settle_keeps s l).2.1
  rw [← hto] at hhigh ⊢
  have hsame : Frame [] [.lin] s ((s.unstitch (s.settle l)).onLin fun x => { x with fifo := [] }) := (frame_unstitch s _).onLin
  exact takeLine_counts hhigh hforce hwritten hstall (hsame.lineStream.trans hstream)

/-- Outside RUN nothing is counted, and H stays. -/
theorem stitchedLine_idle_keeps (h : s.Stitched l)
    (hop : s.sys.op ≠ .run) :
    let t := s.stitchedLine lag bad
    t.fld F.linLineCntCount 0 = s.fld F.linLineCntCount 0 ∧ t.dev.odo.high = s.dev.odo.high := by
  rw [stitchedLine_idle h hop]
  have hread := frame_readOut s (s.settle l) bad
  exact ⟨hread.fld _ _ (by decide), congrArg OdoSt.high (hread.part .odo (by decide))⟩

/-- Settles O37: a readout goes to the first line that waits for its segment, by the line's kind, and a whole line goes to the FIFO or to
the core side with only the record of line imaging moved before. -/
theorem linesRead : Obligations.LinesRead := by
  unfold Obligations.LinesRead
  intro seg r g b fixed lag bad s x read n out whole sound
  refine ⟨fun hnone => congrArg Host.Outcome.next (inDev_eq (readoutComplete_nothing (find_wants_none hnone)) ⟨rfl, rfl, rfl, rfl⟩),
    fun l hl hkind => ⟨_, rfl, ⟨rfl, rfl, rfl, rfl⟩, readoutComplete_track_shows hl hkind⟩, fun l hl hkind => ?_,
    fun l hl hkind => ⟨_, rfl, ⟨rfl, rfl, rfl, rfl⟩, readoutComplete_capture_counts hl hkind⟩,
    fun hnone => congrArg Host.Outcome.next (inDev_eq (stitchedLine_waits hnone) ⟨rfl, rfl, rfl, rfl⟩), fun l hfirst honly => ?_⟩
  · exact ⟨_, rfl, (frame_readoutComplete_monitor hl hkind).inDev.keeps (by decide)⟩
  · have h : s.Stitched l := ⟨hfirst, honly⟩
    refine ⟨_, rfl, ⟨rfl, rfl, rfl, rfl⟩, stitchedLine_leaves h, ?_, ?_, ?_, stitchedLine_idle_keeps h⟩
    · rintro ⟨hop, rfl, hprime, hdrop, hrec⟩ rfl hroom
      exact stitchedLine_lagging_waits h ⟨hop, hprime, hdrop, hrec⟩ hroom
    · rintro ⟨hop, rfl, hprime, hdrop, hrec⟩ rfl hfull
      exact stitchedLine_lagging_full h ⟨hop, hprime, hdrop, hrec⟩ hfull
    · rintro ⟨hop, rfl, hprime, hdrop, hrec⟩ rfl hempty hhigh hforce hwritten hstall hstream
      exact stitchedLine_alone h ⟨hop, hprime, hdrop, hrec⟩ hempty hhigh hforce hwritten hstall hstream

end Sys2Proof.Machine
end

section
/-! SUPPORT. Steps of the operating state (R41, R42): one relation between what SYS_STATE says before and after, that every operation
meets but the end of the SRAM overwrite, which alone leaves RESET. -/
namespace Sys2Proof.Machine

/-- From `y` to `z` the transition named stays one of R41, HOLD bits stand only in SAFE_HOLD and FAULT, FAULT leads to RESET alone, and
RESET is not left. -/
structure Sys.Steady (y z : Sys) : Prop where
  legal : y.legal → z.legal
  holds : y.holdsInHold → z.holdsInHold
  fault : y.op = .fault → z.op = .fault ∨ z.op = .reset
  reset : y.op = .reset → z.op = .reset

namespace Sys.Steady

variable {w y z : Sys}

theorem refl (y : Sys) : y.Steady y := ⟨id, id, Or.inl, id⟩

theorem of_eq (h : z = y) : y.Steady z := h ▸ refl y

theorem trans (h : w.Steady y) (k : y.Steady z) : w.Steady z where
  legal := k.legal ∘ h.legal
  holds := k.holds ∘ h.holds
  fault hw := (h.fault hw).elim k.fault fun hy => Or.inr (k.reset hy)
  reset := k.reset ∘ h.reset

theorem ite {c : Prop} [Decidable c] {a b : State} (ha : c → y.Steady a.sys) (hb : ¬c → y.Steady b.sys) :
    y.Steady (if c then a else b).sys := by
  split
  · exact ha ‹_›
  · exact hb ‹_›

/-- Where the operating state stays, a HOLD bit may only be added in SAFE_HOLD. -/
theorem of_op (hop : z.op = y.op) (hprev : z.prev = y.prev)
    (hbits : y.op ≠ .safeHold → (y.holdCmd = false → z.holdCmd = false) ∧ (y.holdThermal = false → z.holdThermal = false)
      ∧ (y.holdDram = false → z.holdDram = false)) : y.Steady z where
  legal h := by unfold Sys.legal; rw [hop, hprev]; exact h
  holds h h1 h2 := by
    rw [hop] at h1 h2
    obtain ⟨hcmd, hthermal, hdram⟩ := h h1 h2
    obtain ⟨kcmd, kthermal, kdram⟩ := hbits h1
    exact ⟨kcmd hcmd, kthermal hthermal, kdram hdram⟩
  fault h := Or.inl (hop.trans h)
  reset h := hop.trans h

/-- A transition of R41 that is not out of RESET or FAULT; one out of SAFE_HOLD elsewhere than to FAULT leaves no HOLD bit behind. -/
theorem of_enter {n : OpState} {cause : Nat} {found : Bool} (hf : y.op.follows n = true) (hreset : y.op ≠ .reset)
    (hfault : y.op ≠ .fault)
    (hbits : y.op = .safeHold → n ≠ .fault → y.holdCmd = false ∧ y.holdThermal = false ∧ y.holdDram = false) :
    y.Steady { y with op := n, prev := y.op, cause := cause, found23 := found } where
  legal _ := hf
  holds h _ h2 := by
    by_cases hs : y.op = .safeHold
    · exact hbits hs h2
    · exact h hs hfault
  fault h := absurd h hfault
  reset h := absurd h hreset

/-- A reset (R41, R433). -/
theorem of_reset (y : Sys) (cause : Nat) :
    y.Steady ⟨.reset, if y.op = .off then .reset else y.op, cause, false, false, false, false⟩ where
  legal _ := by
    unfold Sys.legal
    split
    · rfl
    next h =>
      simp only [OpState.follows]
      exact decide_eq_true h
  holds _ _ _ := ⟨rfl, rfl, rfl⟩
  fault _ := Or.inr rfl
  reset _ := rfl

end Sys.Steady

/-! The operations that move the operating state. -/

open Sys (Steady)

variable {s t : State} {n : OpState} {c : Option Nat} {cause : Nat}

theorem enter_steady (hf : s.sys.op.follows n = true) (hreset : s.sys.op ≠ .reset) (hfault : s.sys.op ≠ .fault)
    (hbits : s.sys.op = .safeHold → n ≠ .fault →
      s.sys.holdCmd = false ∧ s.sys.holdThermal = false ∧ s.sys.holdDram = false) : Steady s.sys (s.enter n c).sys := by
  rw [enter_sys]
  exact Steady.of_enter hf hreset hfault hbits

/-- A transition out of a state named, which is none of RESET, FAULT and SAFE_HOLD. -/
theorem enter_steady_from {y : Sys} {o : OpState} (hy : s.sys = y) (h : y.op = o) (hf : o.follows n = true := by decide)
    (hreset : o ≠ .reset := by decide) (hfault : o ≠ .fault := by decide) (hsafe : o ≠ .safeHold := by decide) :
    y.Steady (s.enter n c).sys := by
  subst hy
  exact enter_steady (h ▸ hf) (h ▸ hreset) (h ▸ hfault) fun hs => absurd (h.symm.trans hs) hsafe

theorem faults_follows {o : OpState} (h : o.faults cause = true) : o.follows .fault = true ∧ o ≠ .reset ∧ o ≠ .fault := by
  revert h
  cases o <;> simp [OpState.faults, OpState.follows]

theorem toFault_steady (s : State) (cause : Nat) : Steady s.sys (s.toFault cause).sys := by
  obtain h | ⟨-, h⟩ | ⟨hf, h⟩ := toFault_sys s cause <;> rw [h]
  · exact Steady.refl _
  · exact Steady.of_op rfl rfl fun _ => ⟨id, id, id⟩
  · obtain ⟨hfollows, hreset, hfault⟩ := faults_follows hf
    exact Steady.of_enter hfollows hreset hfault fun _ hn => absurd rfl hn

theorem setHold_prev (y : Sys) (cause : Nat) (b : Bool) : (y.setHold cause b).prev = y.prev := by unfold Sys.setHold; split <;> rfl

theorem setHold_true_steady {y : Sys} (h : y.op = .safeHold) : y.Steady (y.setHold cause true) :=
  Steady.of_op (setHold_op _ _ _) (setHold_prev _ _ _) fun hn => absurd h hn

theorem setHold_false_steady (y : Sys) : y.Steady (y.setHold cause false) := by
  refine Steady.of_op (setHold_op _ _ _) (setHold_prev _ _ _) fun _ => ?_
  unfold Sys.setHold
  split <;> exact ⟨by simp, by simp, by simp⟩

theorem hold_steady (s : State) (cause : Nat) : Steady s.sys (s.hold cause).sys := by
  rw [hold_sys]
  split
  next h =>
    rw [setHold_op]
    refine ⟨fun _ => ?_, fun _ h1 _ => absurd rfl h1, fun hf => ?_, fun hr => ?_⟩
    · obtain h | h := h <;> (unfold Sys.legal; rw [h]; rfl)
    · rw [hf] at h; simp at h
    · rw [hr] at h; simp at h
  next =>
    split
    next h => exact setHold_true_steady h
    next => exact Steady.refl _

theorem unhold_steady (s : State) (cause : Nat) : Steady s.sys (s.unhold cause).sys := by
  rw [unhold_sys]
  exact setHold_false_steady _

theorem resetNow_steady (s : State) (cold : Bool) (source cause : Nat) : Steady s.sys (s.resetNow cold source cause).sys := by
  rw [resetNow_sys]
  exact Steady.of_reset _ _

theorem endCmd_steady {y : Sys} {q : MbxCmd} {st r : Nat} (h : y.Steady s.sys) : y.Steady (s.endCmd q st r).sys := by
  rw [endCmd_sys]
  exact h

end Sys2Proof.Machine
end

section
/-! SUPPORT. The mailbox commands and the operating state (R45 to R50): each command moves it as R41 and R42 allow. -/
namespace Sys2Proof.Machine

open Sys (Steady)

variable {s t : State} {y : Sys}

theorem commit_steady (q : MbxCmd) (st : Nat) (h : s.sys.op = .awaitFw) : Steady s.sys (s.commit q st).sys := by
  unfold State.commit
  refine enter_steady_from ?_ h
  rw [State.onCmd, onDev_sys, setFld_sys, State.onBoot, onDev_sys]

theorem start_steady (h : s.sys.op = .ready) : Steady s.sys s.start.sys := by
  unfold State.start
  dsimp only
  rw [takeDev_sys]
  exact enter_steady_from rfl h

theorem stable_steady (h : s.sys.op = .ready) : Steady s.sys s.stable.sys := by
  unfold State.stable
  dsimp only
  rw [takeDev_sys]
  exact enter_steady_from rfl h

theorem beginWake_steady (s : State) (q : MbxCmd) : Steady s.sys (s.beginWake q).sys := by
  unfold State.beginWake State.onCmd
  exact Steady.of_eq ((inDev_sys _ _).trans (onDev_sys _ _))

/-- RELEASE leaves SAFE_HOLD with the last HOLD bit (R42). -/
theorem release_steady (h : s.sys.op = .safeHold) : Steady s.sys s.release.2.sys := by
  unfold State.release
  split
  · exact Steady.refl _
  next hbits =>
    obtain ⟨hthermal, hdram⟩ := not_or.1 hbits
    set u := inDev State.shutDownEnds { s with sys := { s.sys with holdCmd := false } } with hu
    have hsys : u.sys = { s.sys with holdCmd := false } := inDev_sys _ _
    have kept : Steady s.sys u.sys := hsys ▸ Steady.of_op rfl rfl fun hn => absurd h hn
    have hop : u.sys.op = .safeHold := by rw [hsys]; exact h
    refine kept.trans (enter_steady (by rw [hop]; rfl) (by simp [hop]) (by simp [hop]) fun _ _ => ?_)
    rw [hsys]
    exact ⟨rfl, Bool.eq_false_iff.2 hthermal, Bool.eq_false_iff.2 hdram⟩

theorem protChange_steady (s : State) (q : MbxCmd) (st : Nat) : Steady s.sys (s.protChange q st).sys := by
  unfold State.protChange
  dsimp only
  set s1 := (if q.args.headD 0 < 4 then inDev (·.dcClear (q.args.headD 0)) s else s) with h1
  have clear : s1.sys = s.sys := by
    rw [h1]
    split
    · exact inDev_sys _ _
    · rfl
  refine Steady.ite (fun _ => ?_) fun _ => endCmd_steady (Steady.of_eq clear)
  set s2 : State := { s1 with fuse := s1.fuse.change (s.protReq (q.args.headD 0)) } with h2
  have changed : s2.sys = s.sys := clear
  clear_value s2
  have opened : ∀ v, (if (s.protReq (q.args.headD 0)).op = 5 then s2.setFld F.protDebugLevel 0 v else s2).sys = s.sys := by
    intro v
    split
    · rw [setFld_sys, changed]
    · exact changed
  have ended := fun v => endCmd_steady (q := q) (st := st) (r := 0) (Steady.of_eq (opened v))
  exact Steady.ite (fun _ => (ended _).trans (resetNow_steady _ _ _ _)) fun _ => ended _

/-- A command executed moves the operating state along R41 (R46 to R50). -/
theorem execute_steady (s : State) (q : MbxCmd) : Steady s.sys (s.execute q).sys := by
  have ends : ∀ r, Steady s.sys (s.endCmd q s.sys.op.code r).sys := fun r => endCmd_steady (Steady.refl _)
  have taken : ∀ (u : State) r, Steady s.sys ((s.takeDev u).endCmd q s.sys.op.code r).sys := fun u r =>
    endCmd_steady (Steady.refl _)
  unfold State.execute
  dsimp only
  refine Steady.ite (fun _ => ends 2) fun _ => ?_
  split
  · exact ends 1
  next hlegal =>
    have legal : legalIn q.opcode s.sys.op = true := by
      cases hl : legalIn q.opcode s.sys.op <;> simp [hl] at hlegal ⊢
    split
    case h_1 h => exact Steady.ite (fun _ => commit_steady _ _ (by simpa [h, legalIn] using legal)) fun _ => ends _
    case h_2 h => exact endCmd_steady (start_steady (by simpa [h, legalIn] using legal))
    case h_3 h => exact endCmd_steady (enter_steady_from rfl (o := .run) (by simpa [h, legalIn] using legal))
    case h_4 h => exact endCmd_steady (stable_steady (by simpa [h, legalIn] using legal))
    case h_5 h => exact beginWake_steady s q
    case h_6 h => exact endCmd_steady (hold_steady s 1)
    case h_7 h => exact endCmd_steady (release_steady (by simpa [h, legalIn] using legal))
    case h_8 h => exact taken _ _
    case h_9 h => exact taken _ _
    case h_10 h =>
      split
      · exact taken _ _
      · exact ends 3
    case h_11 h => exact taken _ _
    case h_12 h => exact taken _ _
    case h_13 h => exact Steady.of_eq (takeDev_sys _ _)
    case h_14 h => exact protChange_steady _ _ _
    case h_15 h => exact Steady.ite (fun _ => ends 5) fun _ => (ends 0).trans (resetNow_steady _ _ _ _)
    case h_16 h => exact Steady.ite (fun _ => ends 5) fun _ => (ends 0).trans (resetNow_steady _ _ _ _)
    case h_17 h => exact ends 0

theorem runQueue_steady (n : Nat) (s : State) : Steady s.sys (runQueue n s).sys := by
  induction n generalizing s with
  | zero => exact Steady.refl _
  | succ n ih =>
    unfold runQueue
    refine Steady.ite (fun _ => Steady.refl _) fun _ => ?_
    split
    · exact Steady.refl _
    · refine Steady.trans (Steady.trans (Steady.of_eq ?_) (execute_steady _ _)) (ih _)
      rw [setFlag_sys, State.onCmd, onDev_sys]

theorem pump_steady (h : y.Steady s.sys) : y.Steady s.pump.sys := h.trans (runQueue_steady _ _)

theorem mbxRing_steady (s : State) (m tag opcode : Nat) (go : Bool) (reply : Option (Nat × Nat)) :
    Steady s.sys (s.mbxRing m tag opcode go reply).sys := by
  unfold State.mbxRing
  dsimp only
  refine Steady.ite (fun _ => Steady.of_eq (setReg_sys _ _ _ _)) fun _ => Steady.ite (fun _ => Steady.of_eq ?_) fun _ =>
    pump_steady (Steady.of_eq ?_)
  · rw [bump_sys, setReg_sys]
  · rw [State.onCmd, onDev_sys, setFlag_sys, setFlag_sys, setFlag_sys, setReg_sys]

theorem command_steady (s : State) (m : Fin 2) (tag : BitVec 8) (op : Nat) (args : List Nat) :
    Steady s.sys (s.command m tag op args).sys := by
  unfold State.command State.mbxWrite
  exact (Steady.of_eq (inDev_sys _ s)).trans (mbxRing_steady _ _ _ _ _ _)

theorem protOp_steady (s : State) (m : Fin 2) (tag : BitVec 8) (slot : BitVec 32) (op : Nat) :
    Steady s.sys (s.protOp m tag slot op).sys := Steady.ite (fun _ => command_steady _ _ _ _ _) fun _ => Steady.refl _

/-! A register write may ring a mailbox. -/

theorem busWrite_steady (s : State) (m : Master) (a size v : Nat) : Steady s.sys (s.busWrite m a size v).sys := by
  have refused : ∀ f : State → State, Steady s.sys (inDev f s).sys := fun f => Steady.of_eq (inDev_sys f s)
  unfold State.busWrite
  refine Steady.ite (fun _ => Steady.ite (fun _ => refused _) fun _ => Steady.refl _) fun _ => ?_
  split
  · exact Steady.refl _
  · exact Steady.ite (fun _ => refused _) fun _ => Steady.ite (fun _ => refused _) fun _ =>
      Steady.ite (fun _ => refused _) fun _ => Steady.ite (fun _ => mbxRing_steady _ _ _ _ _ _) fun _ => refused _

theorem Sys.Steady.foldl {α : Type} {f : State → α → State} (l : List α) (h : y.Steady s.sys)
    (hf : ∀ u b, Steady u.sys (f u b).sys) : y.Steady (l.foldl f s).sys := by
  induction l generalizing s with
  | nil => exact h
  | cons b l ih => exact ih (h.trans (hf s b))

theorem commitPair_steady (s : State) (b : Bool) : Steady s.sys (s.commitPair b).sys := by
  unfold State.commitPair
  dsimp only
  exact Steady.ite (fun _ => Steady.refl _) fun _ => Steady.foldl _ (Steady.refl _) fun _ _ => busWrite_steady _ _ _ _ _

theorem holdWrite_steady (s : State) (b : Bool) (a size v : Nat) : Steady s.sys (s.holdWrite b a size v).sys := by
  unfold State.holdWrite
  dsimp only
  have room : Steady s.sys (if 512 ≤ (s.corePair b).held.length then s.commitPair b else s).sys :=
    Steady.ite (fun _ => commitPair_steady _ _) fun _ => Steady.refl _
  exact Steady.ite (fun _ => Steady.refl _) fun _ => room.trans (Steady.of_eq (onDev_sys _ _))

theorem masterWrite_steady (s : State) (m : Master) (a size v : Nat) : Steady s.sys (s.masterWrite m a size v).sys := by
  unfold State.masterWrite
  split
  · exact holdWrite_steady _ _ _ _ _
  · exact holdWrite_steady _ _ _ _ _
  · exact busWrite_steady _ _ _ _ _

theorem writeAt_steady (s : State) (m : Master) (r : Reg) (i v : Nat) : Steady s.sys (s.writeAt m r i v).sys :=
  masterWrite_steady _ _ _ _ _

theorem writeHalves_steady (s : State) (m : Master) (l h : Reg) (i v w : Nat) :
    Steady s.sys (s.writeHalves m l h i v w).sys := (writeAt_steady _ _ _ _ _).trans (writeAt_steady _ _ _ _ _)

/-- A read by a lockstep pair may force a commit (R364). -/
theorem answerRead_steady (s : State) (m q : Master) (a size : Nat) :
    Steady s.sys (State.answerRead m (s.masterRead q a size)).sys := by
  have committed : ∀ b, Steady s.sys (if readActs a size then s.commitPair b else s).sys := fun b =>
    Steady.ite (fun _ => commitPair_steady _ _) fun _ => Steady.refl _
  have read : Steady s.sys (s.masterRead q a size).2.sys := by
    unfold State.masterRead
    dsimp only
    rw [takeDev_sys]
    split
    · exact committed false
    · exact committed true
    · exact Steady.refl _
  unfold State.answerRead
  exact Steady.ite (fun _ => read) fun _ => read

end Sys2Proof.Machine
end

section
/-! SUPPORT. The rows that move the operating state without a mailbox command (R41, R42): boot, supplies, temperatures, memory errors,
lockstep and the frames that may hold a command. -/
namespace Sys2Proof.Machine

open Sys (Steady)

variable {s t : State} {y : Sys}

/-! Boot. -/

theorem refuseCopy_steady (hs : s.sys = y) (hop : y.op = .blockLoad) (code : Nat) : y.Steady (s.refuseCopy code).sys := by
  unfold State.refuseCopy
  refine Steady.ite (fun _ => Steady.of_eq ?_) fun _ => pump_steady (enter_steady_from ?_ hop)
  · rw [State.onBoot, onDev_sys, setFld_sys, hs]
  · rw [takeDev_sys, hs]

theorem acceptCopy_steady (hs : s.sys = y) (hop : y.op = .blockLoad) (t : State) (body : BlockBody) :
    y.Steady (s.acceptCopy t body).sys := by
  unfold State.acceptCopy
  refine enter_steady_from ?_ hop
  rw [inDev_sys, inDevSaf_sys, takeDev_sys, hs]

theorem checkCopy_steady (s : State) (b : List Byte) (body : BlockBody) : Steady s.sys (s.checkCopy b body).sys := by
  unfold State.checkCopy
  refine Steady.ite (fun hop => ?_) fun _ => Steady.refl _
  dsimp only
  have hs : ((s.setReg .sysOwnConflict0 0 0xFFFFFFFF).setReg .sysOwnConflict1 0 0).sys = s.sys := by rw [setReg_sys, setReg_sys]
  refine Steady.ite (fun _ => refuseCopy_steady hs hop _) fun _ => ?_
  split
  · exact acceptCopy_steady hs hop _ _
  · exact refuseCopy_steady hs hop _
  · exact refuseCopy_steady (by rw [setReg_sys, setReg_sys, hs]) hop _

theorem awaitFirmware_steady {o : OpState} (hs : s.sys = y) (hop : y.op = o) (ho : o = .wipe ∨ o = .verify) :
    y.Steady s.awaitFirmware.sys := by
  unfold State.awaitFirmware
  obtain rfl | rfl := ho <;> exact enter_steady_from hs hop

theorem wipeDone_steady (s : State) : Steady s.sys s.wipeDone.sys := by
  unfold State.wipeDone
  refine Steady.ite (fun hop => ?_) fun _ => Steady.refl _
  dsimp only
  exact pump_steady (awaitFirmware_steady (takeDev_sys _ _) hop (Or.inl rfl))

theorem endRunning_steady (h : y.Steady s.sys) (r : Nat) : y.Steady (s.endRunning r).sys := by rw [endRunning_sys]; exact h

theorem verifyDone_steady (s : State) : Steady s.sys s.verifyDone.sys := by
  unfold State.verifyDone
  refine Steady.ite (fun hop => ?_) fun _ => Steady.refl _
  dsimp only
  refine Steady.ite (fun _ => ?_) fun _ => ?_
  · exact pump_steady (endRunning_steady (enter_steady_from (by rw [State.onBoot, onDev_sys]) hop) _)
  · exact pump_steady (endRunning_steady (awaitFirmware_steady (by rw [bump_sys, setFld_sys]) hop (Or.inr rfl)) _)

/-- The last chunk leads from AWAIT_FIRMWARE to VERIFY (R383). -/
theorem fetchGoesOn_steady (hs : s.sys = y) (hop : y.op = .awaitFw) : y.Steady s.fetchGoesOn.sys := by
  unfold State.fetchGoesOn
  dsimp only
  refine Steady.ite (fun _ => enter_steady_from ?_ hop) fun _ => Steady.of_eq ?_
  · rw [State.onBoot, onDev_sys, hs]
  · rw [inDev_sys, hs]

theorem op_of_fetches (h : s.fetches = true) : s.sys.op = .awaitFw := by
  unfold State.fetches at h
  simpa using And.left (Bool.and_eq_true_iff.1 h)

theorem hearOffer_steady (s : State) (src serial len : Nat) : Steady s.sys (s.hearOffer src serial len).sys := by
  unfold State.hearOffer
  refine Steady.ite (fun h => ?_) fun _ => Steady.refl _
  simp only [Bool.and_eq_true] at h
  obtain ⟨⟨⟨hfetch, -⟩, -⟩, -⟩ := h
  exact fetchGoesOn_steady (by rw [State.onBoot, onDev_sys]) (op_of_fetches hfetch)

theorem hearData_steady (s : State) (src serial off : Nat) (bs : List Byte) :
    Steady s.sys (s.hearData src serial off bs).sys := by
  unfold State.hearData
  dsimp only
  refine Steady.ite (fun h => ?_) fun _ => Steady.refl _
  simp only [Bool.and_eq_true] at h
  obtain ⟨⟨⟨⟨⟨⟨hfetch, -⟩, -⟩, -⟩, -⟩, -⟩, -⟩ := h
  refine fetchGoesOn_steady ?_ (op_of_fetches hfetch)
  split
  · rw [setFlag_sys, setFld_sys, State.onBoot, onDev_sys, inDev_sys]
  · rw [setFld_sys, State.onBoot, onDev_sys, inDev_sys]

theorem initDone_steady (s : State) : Steady s.sys s.initDone.sys := by
  unfold State.initDone
  refine Steady.ite (fun h => ?_) fun _ => Steady.refl _
  dsimp only
  exact enter_steady_from (takeDev_sys _ _) h.1

theorem op_of_wakeStarted (h : s.wakeStarted = true) : s.sys.op = .stabled := by
  unfold State.wakeStarted State.waking at h
  simp only [Bool.and_eq_true, decide_eq_true_eq] at h
  exact h.1.1.1

theorem wakeReady_steady (s : State) : Steady s.sys s.wakeReady.sys := by
  unfold State.wakeReady
  refine Steady.ite (fun h => ?_) fun _ => Steady.refl _
  dsimp only
  rw [inDev_sys]
  exact enter_steady_from (inDev_sys _ _) (op_of_wakeStarted h)

/-! Supplies. -/

theorem supplyFails_steady (s : State) (rail : Nat) : Steady s.sys (s.supplyFails rail).sys := by
  unfold State.supplyFails
  refine Steady.ite (fun _ => Steady.refl _) fun _ => ?_
  dsimp only
  have tripped := (Steady.of_eq (setFld_sys s F.pwrSupStsGood 0 (putBits (s.fld F.pwrSupStsGood 0) rail rail 0))).trans
    (resetNow_steady _ true 1 3)
  refine Steady.ite (fun _ => ?_) fun _ => tripped
  rw [inDev_sys]
  exact tripped

theorem suppliesGood_steady (s : State) : Steady s.sys s.suppliesGood.sys := by
  have shown := Steady.of_eq (setFld_sys s F.pwrSupStsGood 0 0x3F)
  unfold State.suppliesGood
  exact Steady.ite (fun _ => shown.trans (resetNow_steady _ _ _ _)) fun _ => shown

/-! Temperatures. -/

theorem sampleShutdown_steady (s : State) (hot : Int) : Steady s.sys (s.sampleShutdown hot).sys := by
  have held : Steady s.sys (inDev State.shutDown ((inDev State.abandonAll s).hold 0x10)).sys := by
    rw [inDev_sys]
    exact (Steady.of_eq (inDev_sys _ s)).trans (hold_steady _ _)
  unfold State.sampleShutdown
  refine Steady.ite (fun _ => Steady.refl _) fun _ => ?_
  split
  · exact held
  · exact held
  · exact held
  · exact Steady.of_eq (inDev_sys _ s)
  · exact Steady.refl _

theorem sampleTemps_steady (s : State) (raws : List Int) : Steady s.sys (s.sampleTemps raws).sys := by
  unfold State.sampleTemps
  dsimp only
  refine Steady.trans (Steady.ite (fun _ => ?_) fun _ => ?_) (sampleShutdown_steady _ _)
  · exact (Steady.of_eq (takeDev_sys s _)).trans (toFault_steady _ _)
  · exact Steady.of_eq (takeDev_sys s _)

theorem thermalClear_steady (s : State) : Steady s.sys s.thermalClear.sys := by
  unfold State.thermalClear
  refine Steady.ite (fun _ => Steady.refl _) fun _ => ?_
  dsimp only
  have cleared : Steady s.sys (if s.sys.holdThermal then s.unhold 0x10 else s).sys :=
    Steady.ite (fun _ => unhold_steady _ _) fun _ => Steady.refl _
  refine Steady.ite (fun _ => ?_) fun _ => cleared
  rw [inDev_sys]
  exact cleared

/-! Memory errors. -/

theorem loseChannel_steady (s : State) (n : Nat) : Steady s.sys (s.loseChannel n).sys := by
  unfold State.loseChannel
  dsimp only
  refine Steady.ite (fun _ => Steady.refl _) fun _ => ?_
  set u := s.takeDev _ with hu
  have kept : Steady s.sys u.sys := Steady.of_eq (hu ▸ takeDev_sys _ _)
  clear_value u
  refine Steady.ite (fun _ => kept.trans (toFault_steady _ _)) fun _ => Steady.ite (fun _ => ?_) fun _ => kept
  have held := kept.trans (hold_steady u 0x12)
  exact Steady.ite (fun _ => held.trans (unhold_steady _ _)) fun _ => held

theorem dramUe_steady (s : State) (n a : Nat) : Steady s.sys (s.dramUe n a).sys := by
  unfold State.dramUe
  dsimp only
  set u := s.takeDev _ with hu
  have kept : Steady s.sys u.sys := Steady.of_eq (hu ▸ takeDev_sys _ _)
  exact Steady.ite (fun _ => kept.trans (loseChannel_steady _ _)) fun _ => kept

theorem dramCe_steady (s : State) (n a : Nat) : Steady s.sys (s.dramCe n a).sys := Steady.of_eq (takeDev_sys _ _)

theorem readBurst_steady (s : State) (n a found : Nat) : Steady s.sys (s.readBurst n a found).sys := by
  unfold State.readBurst
  dsimp only
  exact Steady.ite (fun _ => dramUe_steady _ _ _) fun _ => Steady.ite (fun _ => dramCe_steady _ _ _) fun _ => Steady.refl _

theorem fwRead_steady (s : State) (a found mirror : Nat) : Steady s.sys (s.fwRead a found mirror).sys := by
  unfold State.fwRead
  dsimp only
  have first := readBurst_steady s 0 a found
  refine Steady.ite (fun _ => Steady.ite (fun _ => Steady.ite (fun _ => ?_) fun _ => ?_) fun _ => first) fun _ =>
    Steady.ite (fun _ => Steady.ite (fun _ => ?_) fun _ => ?_) fun _ => Steady.refl _
  · rw [onDev_sys]
    exact Steady.ite (fun _ => first.trans (dramCe_steady _ _ _)) fun _ => first
  · exact Steady.trans (Steady.ite (fun _ => first.trans (dramUe_steady _ _ _)) fun _ => first) (toFault_steady _ _)
  · exact (dramUe_steady _ _ _).trans (toFault_steady _ _)
  · exact Steady.ite (fun _ => dramCe_steady _ _ _) fun _ => Steady.refl _

theorem dramReadBurst_steady (s : State) (a found mirror : Nat) : Steady s.sys (s.dramReadBurst a found mirror).sys := by
  unfold State.dramReadBurst
  dsimp only
  exact Steady.ite (fun _ => Steady.refl _) fun _ => Steady.ite (fun _ => fwRead_steady _ _ _ _) fun _ =>
    Steady.ite (fun _ => readBurst_steady _ _ _ _) fun _ => Steady.refl _

theorem patrolBurst_steady (s : State) (n a found : Nat) : Steady s.sys (s.patrolBurst n a found).sys := by
  have mirror : Steady s.sys (if found = 2 ∨ s.dev.poison.contains (mirrorBase + a) then s.dramUe 1 a
      else if found = 1 then s.dramCe 1 a else s).sys :=
    Steady.ite (fun _ => dramUe_steady _ _ _) fun _ => Steady.ite (fun _ => dramCe_steady _ _ _) fun _ => Steady.refl _
  unfold State.patrolBurst
  exact Steady.ite (fun _ => Steady.refl _) fun _ => Steady.ite (fun _ => Steady.ite (fun _ => readBurst_steady _ _ _ _) fun _ =>
    Steady.ite (fun _ => mirror) fun _ => Steady.refl _) fun _ => Steady.ite (fun _ => readBurst_steady _ _ _ _) fun _ => Steady.refl _

theorem grainCopied_steady (s : State) (n : Nat) (bad : List Nat) : Steady s.sys (s.grainCopied n bad).sys := by
  unfold State.grainCopied
  dsimp only
  refine Steady.ite (fun _ => Steady.refl _) fun _ => ?_
  set u := bad.foldl _ s with hu
  have copied : Steady s.sys u.sys := hu ▸ Steady.foldl _ (Steady.refl _) fun v _ => Steady.ite (fun _ => dramUe_steady _ _ _) fun _ =>
    Steady.refl _
  clear_value u
  refine Steady.ite (fun _ => copied) fun _ => Steady.ite (fun _ => ?_) fun _ => ?_
  · rw [inDev_sys]
    exact copied
  · rw [setFld_sys]
    exact copied

/-! Lockstep. -/

theorem mismatch_steady (s : State) (b : Bool) : Steady s.sys (s.mismatch b).sys := by
  unfold State.mismatch
  dsimp only
  refine Steady.ite (fun _ => Steady.refl _) fun _ => Steady.ite (fun _ => ?_) fun _ => Steady.of_eq (takeDev_sys _ _)
  exact (Steady.of_eq (inDev_sys _ s)).trans (toFault_steady _ _)

/-! Frames that may hold a command. -/

theorem peerWrite_steady (s : State) (n a v : Nat) : Steady s.sys (s.peerWrite n a v).sys := by
  unfold State.peerWrite
  exact Steady.ite (fun _ => busWrite_steady _ _ _ _ _) fun _ => Steady.of_eq (bump_sys _ _ _ _)

theorem linkFrame_steady (s : State) (n : Nat) (b host : List Byte) (err : Bool) : Steady s.sys (s.linkFrame n b host err).sys := by
  unfold State.linkFrame
  dsimp only
  have taken : ∀ u, Steady s.sys (s.takeDev u).sys := fun u => Steady.of_eq (takeDev_sys _ _)
  have handled : ∀ f u, Steady s.sys (inDev f (s.takeDev u)).sys := fun f u => Steady.of_eq ((inDev_sys _ _).trans (takeDev_sys _ _))
  split
  · exact taken _
  · refine Steady.ite (fun _ => Steady.ite (fun _ => ?_) fun _ => handled _ _) fun _ => Steady.ite (fun _ => handled _ _) fun _ =>
      Steady.ite (fun _ => handled _ _) fun _ => ?_
    · exact (taken _).trans (peerWrite_steady _ _ _ _)
    · exact (taken _).trans (Steady.of_eq (bump_sys _ _ _ _))

theorem manage_steady (s : State) (p vid etype src : Nat) (l : List Byte) : Steady s.sys (s.manage p vid etype src l).sys := by
  unfold State.manage
  dsimp only
  refine Steady.ite (fun _ => Steady.of_eq (bump_sys _ _ _ _)) fun _ => Steady.ite (fun _ => Steady.of_eq (bump_sys _ _ _ _)) fun _ => ?_
  exact (Steady.of_eq (inDev_sys _ s)).trans (mbxRing_steady _ _ _ _ _ _)

theorem route_steady (s : State) (p age i : Nat) (f : RxFrame) (b : List Byte) : Steady s.sys (s.route p age i f b).sys := by
  unfold State.route
  dsimp only
  split
  · exact Steady.of_eq (emit_sys _ _)
  · exact Steady.of_eq (inDevSaf_sys _ _)
  · exact manage_steady _ _ _ _ _ _
  · exact Steady.of_eq (inDev_sys _ _)
  · exact Steady.refl _

theorem bootIn_steady (s : State) (f : RxFrame) : Steady s.sys (s.bootIn f).sys := by
  unfold State.bootIn
  dsimp only
  exact Steady.ite (fun _ => Steady.refl _) fun _ => Steady.ite (fun _ => hearOffer_steady _ _ _ _) fun _ =>
    Steady.ite (fun _ => hearData_steady _ _ _ _ _) fun _ => Steady.refl _

theorem ethIn_steady (s : State) (p age : Nat) (ok : Bool) (b : List Byte) : Steady s.sys (s.ethIn p age ok b).sys := by
  unfold State.ethIn
  dsimp only
  refine Steady.ite (fun _ => Steady.refl _) fun _ => Steady.ite (fun _ => Steady.of_eq (bump_sys _ _ _ _)) fun _ => ?_
  set u := s.takeDev _ with hu
  have taken : Steady s.sys u.sys := Steady.of_eq (hu ▸ takeDev_sys _ _)
  clear_value u
  refine Steady.ite (fun _ => taken) fun _ => Steady.ite (fun _ => taken.trans (bootIn_steady _ _)) fun _ => ?_
  split
  · exact taken.trans (Steady.of_eq (bump_sys _ _ _ _))
  · exact taken.trans (route_steady _ _ _ _ _ _)

end Sys2Proof.Machine
end

section
/-! O4 (R41, R42, R55). Every command but the end of the SRAM overwrite is steady, by its lift where it cannot touch the operating state;
that end leads out of RESET, and what waits is served behind it. -/
namespace Sys2Proof.Machine

open Sys (Steady)

variable {s t : State}

theorem steady_of_core {c : Instr} {f : State → State} {u : State} (hc : exec c s = .next (inCore f s)) (hu : Steady s.sys u.sys)
    (hf : f s = u) : ∃ t, exec c s = .next t ∧ Steady s.sys t.sys :=
  ⟨_, hc, by rw [inCore_sys, hf]; exact hu⟩

theorem steady_of_all {c : Instr} {f : State → State} {u : State} (hc : exec c s = .next (inAll f s)) (hu : Steady s.sys u.sys)
    (hf : f s = u) : ∃ t, exec c s = .next t ∧ Steady s.sys t.sys :=
  ⟨_, hc, by rw [inAll_sys, hf]; exact hu⟩

/-- A write of LNK_CTL that tests a link, and the errors it counts there (R296). -/
def State.testWrite (s : State) (m : Master) (link : Nat) (v : BitVec 32) (errs : List (BitVec 32)) : State :=
  let s1 := s.writeAt m .lnkCtl link v.toNat
  if s.fld F.lnkStsState link = 6 ∨ s1.fld F.lnkStsState link = 6 then inDev (·.countPrbs link (errs.map (·.toNat))) s1 else s1

theorem testWrite_steady (s : State) (m : Master) (link : Nat) (v : BitVec 32) (errs : List (BitVec 32)) :
    Steady s.sys (s.testWrite m link v errs).sys := by
  have h := writeAt_steady s m .lnkCtl link v.toNat
  unfold State.testWrite
  dsimp only
  split
  · rw [inDev_sys]
    exact h
  · exact h

/-- What a command does to the operating state (R41, R42). -/
theorem exec_steady (c : Instr) (s : State) (hc : c ≠ .sramOverwriteComplete) : ∃ t, exec c s = .next t ∧ Steady s.sys t.sys := by
  cases c with
  | sramOverwriteComplete => exact absurd rfl hc
  | suppliesGood => exact steady_of_core rfl (suppliesGood_steady s) rfl
  | supplyOutOfRange rail => exact steady_of_all rfl (supplyFails_steady s rail) rfl
  | resetBall => exact steady_of_core rfl (Steady.ite (fun _ => Steady.refl _) fun _ => resetNow_steady s _ _ _) rfl
  | blockCopyRead bytes body => exact steady_of_all rfl (checkCopy_steady s bytes body) rfl
  | dramWipeComplete => exact steady_of_core rfl (wipeDone_steady s) rfl
  | offer => exact steady_of_core rfl (hearOffer_steady s _ _ _) rfl
  | data => exact steady_of_core rfl (hearData_steady s _ _ _ _) rfl
  | verifyComplete => exact steady_of_core rfl (verifyDone_steady s) rfl
  | initComplete => exact steady_of_core rfl (Steady.ite (fun _ => pump_steady (initDone_steady s)) fun _ => Steady.refl _) rfl
  | wakeEvent => exact steady_of_core rfl (Steady.ite (fun _ => beginWake_steady s _) fun _ => Steady.refl _) rfl
  | wakeFirmwareReady => exact steady_of_core rfl (pump_steady (wakeReady_steady s)) rfl
  | wakeTimeout => exact steady_of_core rfl (Steady.ite (fun _ => pump_steady (toFault_steady s _)) fun _ => Steady.refl _) rfl
  | firmwareWatchdog => exact steady_of_core rfl (pump_steady (toFault_steady s _)) rfl
  | internalConsistencyCheck => exact steady_of_core rfl (pump_steady (toFault_steady s _)) rfl
  | localOscillatorFailed => exact steady_of_core rfl (pump_steady ((Steady.of_eq (inDev_sys _ s)).trans (toFault_steady _ _))) rfl
  | thermalCauseClear => exact steady_of_core rfl (thermalClear_steady s) rfl
  | nop m tag => exact steady_of_core rfl (command_steady s m tag _ _) rfl
  | fwCommit m tag => exact steady_of_core rfl (command_steady s m tag _ _) rfl
  | start m tag => exact steady_of_core rfl (command_steady s m tag _ _) rfl
  | stop m tag => exact steady_of_core rfl (command_steady s m tag _ _) rfl
  | stable m tag => exact steady_of_core rfl (command_steady s m tag _ _) rfl
  | wake m tag => exact steady_of_core rfl (command_steady s m tag _ _) rfl
  | hold m tag => exact steady_of_core rfl (command_steady s m tag _ _) rfl
  | release m tag => exact steady_of_core rfl (command_steady s m tag _ _) rfl
  | streamOn m tag => exact steady_of_core rfl (command_steady s m tag _ _) rfl
  | streamOff m tag => exact steady_of_core rfl (command_steady s m tag _ _) rfl
  | timeStep m tag => exact steady_of_core rfl (command_steady s m tag _ _) rfl
  | claim m tag => exact steady_of_core rfl (command_steady s m tag _ _) rfl
  | unclaim m tag => exact steady_of_core rfl (command_steady s m tag _ _) rfl
  | attest m tag => exact steady_of_core rfl (command_steady s m tag _ _) rfl
  | lcChange m tag slot => exact steady_of_core rfl (protOp_steady s m tag slot 1) rfl
  | slotProgram m tag slot => exact steady_of_core rfl (protOp_steady s m tag slot 2) rfl
  | slotRevoke m tag slot => exact steady_of_core rfl (protOp_steady s m tag slot 3) rfl
  | genAdvance m tag slot => exact steady_of_core rfl (protOp_steady s m tag slot 4) rfl
  | debugOpen m tag slot => exact steady_of_core rfl (protOp_steady s m tag slot 5) rfl
  | resetWarm m tag => exact steady_of_core rfl (command_steady s m tag _ _) rfl
  | resetCold m tag => exact steady_of_core rfl (command_steady s m tag _ _) rfl
  | unassignedOpcode m tag op => exact steady_of_core rfl (Steady.ite (fun _ => command_steady s m tag _ _) fun _ => Steady.refl _) rfl
  | managementFrame => exact steady_of_core rfl (manage_steady s _ _ _ _ _) rfl
  | apply m => exact steady_of_core rfl (writeAt_steady s m _ _ _) rfl
  | walkCommit m => exact steady_of_core rfl (writeAt_steady s m _ _ _) rfl
  | snapshotArm m => exact steady_of_core rfl (writeAt_steady s m _ _ _) rfl
  | notchCommit m => exact steady_of_core rfl (writeAt_steady s m _ _ _) rfl
  | loopScheduleWrite m => exact steady_of_core rfl (writeAt_steady s m _ _ _) rfl
  | capture m => exact steady_of_core rfl (writeAt_steady s m _ _ _) rfl
  | shadeWrite m => exact steady_of_core rfl (writeAt_steady s m _ _ _) rfl
  | shadeCommit m => exact steady_of_core rfl (writeAt_steady s m _ _ _) rfl
  | acqRdWrite m => exact steady_of_core rfl (writeAt_steady s m _ _ _) rfl
  | doorbell m => exact steady_of_core rfl (writeAt_steady s m _ _ _) rfl
  | chainEnWrite m => exact steady_of_core rfl (writeAt_steady s m _ _ _) rfl
  | headWrite m => exact steady_of_core rfl (writeHalves_steady s m _ _ _ _ _) rfl
  | cqRdWrite m => exact steady_of_core rfl (writeAt_steady s m _ _ _) rfl
  | cqEnWrite m => exact steady_of_core rfl (writeAt_steady s m _ _ _) rfl
  | quotaWrite m => exact steady_of_core rfl (writeAt_steady s m _ _ _) rfl
  | migrate m => exact steady_of_core rfl (writeAt_steady s m _ _ _) rfl
  | retrain m => exact steady_of_core rfl (writeAt_steady s m _ _ _) rfl
  | test m link v errs => exact steady_of_core rfl (testWrite_steady s m link v errs) rfl
  | eyeScanStart m => exact steady_of_core rfl (writeAt_steady s m _ _ _) rfl
  | timMeasWrite m => exact steady_of_core rfl (writeHalves_steady s m _ _ _ _ _) rfl
  | bar2MapWrite m => exact steady_of_core rfl (writeHalves_steady s m _ _ _ _ _) rfl
  | tsHeadRead m => exact steady_of_core rfl (answerRead_steady s m _ _ _) rfl
  | logTailWrite m => exact steady_of_core rfl (writeAt_steady s m _ _ _) rfl
  | urg m => exact steady_of_core rfl (writeAt_steady s m _ _ _) rfl
  | domainSwitch m => exact steady_of_core rfl (writeAt_steady s m _ _ _) rfl
  | eventRouteWrite m => exact steady_of_core rfl (writeAt_steady s m _ _ _) rfl
  | splitLoRead m => exact steady_of_core rfl (answerRead_steady s m _ _ _) rfl
  | splitHiWrite m => exact steady_of_core rfl (masterWrite_steady s m _ _ _) rfl
  | registerWrite m => exact steady_of_core rfl (masterWrite_steady s m _ _ _) rfl
  | dramRead => exact steady_of_core rfl (pump_steady (dramReadBurst_steady s _ _ _)) rfl
  | patrol => exact steady_of_core rfl (pump_steady (patrolBurst_steady s _ _ _)) rfl
  | dramTracking ch margin =>
    refine steady_of_core rfl (Steady.ite (fun _ => ?_) fun _ => Steady.refl _) rfl
    split
    · exact Steady.refl _
    · exact Steady.of_eq (inDev_sys _ s)
    · exact pump_steady (loseChannel_steady s _)
  | grainCopied => exact steady_of_core rfl (pump_steady (grainCopied_steady s _ _)) rfl
  | channelLost => exact steady_of_core rfl (pump_steady (loseChannel_steady s _)) rfl
  | dramNoResponse => exact steady_of_core rfl (pump_steady (loseChannel_steady s _)) rfl
  | linkFrame => exact steady_of_core rfl (pump_steady (linkFrame_steady s _ _ _ _)) rfl
  | regWr link => exact steady_of_core rfl (Steady.ite (fun _ => pump_steady (peerWrite_steady s _ _ _)) fun _ => Steady.refl _) rfl
  | ethFrameReceived => exact steady_of_all rfl (pump_steady (ethIn_steady s _ _ _ _)) rfl
  | lockstepMismatch => exact steady_of_core rfl (pump_steady (mismatch_steady s _)) rfl
  | checkpointCommit => exact steady_of_core rfl (pump_steady (commitPair_steady s _)) rfl
  | temperatureSample raws =>
    exact steady_of_core rfl (Steady.ite (fun _ => Steady.refl _) fun _ => pump_steady (sampleTemps_steady s _)) rfl
  | _ => exact ⟨_, rfl, Steady.of_eq (by simp only [inDev_sys, inDevSaf_sys, inSaf_sys])⟩

/-- The end of the SRAM overwrite: BLOCK_LOAD or FAULT is entered from RESET, and what waits is served (R41, R46). -/
theorem sramOverwriteComplete_cases (s : State) : ∃ t, exec .sramOverwriteComplete s = .next t
    ∧ (s.sys.op ≠ .reset ∧ Steady s.sys t.sys ∨ s.sys.op = .reset ∧ ∃ y : Sys, y.legal ∧ (s.sys.holdsInHold → y.holdsInHold) ∧ y.Steady t.sys) := by
  refine ⟨_, rfl, ?_⟩
  rw [inCore_sys]
  by_cases hop : s.sys.op = .reset
  · refine Or.inr ⟨hop, s.sramDone.sys, ?_, fun h => ?_, pump_steady (Steady.refl _)⟩ <;> unfold State.sramDone <;> rw [if_pos hop] <;>
      split <;> rw [enter_sys]
    · exact congrArg (·.follows .fault) hop
    · rw [onDev_sys]; exact congrArg (·.follows .blockLoad) hop
    · exact fun _ h2 => absurd rfl h2
    · rw [onDev_sys]
      exact fun _ _ => h (by simp [hop]) (by simp [hop])
  · refine Or.inl ⟨hop, pump_steady ?_⟩
    unfold State.sramDone
    rw [if_neg hop]
    exact Steady.refl _

/-- What a step can do to the operating state. -/
theorem exec_moves (c : Instr) (h : exec c s = .next t) : (s.sys.legal → t.sys.legal) ∧ (s.sys.holdsInHold → t.sys.holdsInHold)
    ∧ (s.sys.op = .fault → t.sys.op = .fault ∨ t.sys.op = .reset) := by
  have steady : ∀ u, exec c s = .next u → Steady s.sys u.sys → Steady s.sys t.sys := fun u hu hs => by
    rw [h] at hu
    cases hu
    exact hs
  by_cases hc : c = .sramOverwriteComplete
  · subst hc
    obtain ⟨u, hu, ⟨-, hs⟩ | ⟨hop, y, hlegal, hholds, hs⟩⟩ := sramOverwriteComplete_cases s
    · have := steady u hu hs
      exact ⟨this.legal, this.holds, this.fault⟩
    · rw [h] at hu
      cases hu
      exact ⟨fun _ => hs.legal hlegal, fun hh => hs.holds (hholds hh), fun hf => absurd (hf.symm.trans hop) (by decide)⟩
  · obtain ⟨u, hu, hs⟩ := exec_steady c s hc
    have := steady u hu hs
    exact ⟨this.legal, this.holds, this.fault⟩

theorem step_moves (h : step s = .next t) : (s.sys.legal → t.sys.legal) ∧ (s.sys.holdsInHold → t.sys.holdsInHold)
    ∧ (s.sys.op = .fault → t.sys.op = .fault ∨ t.sys.op = .reset) := by
  unfold step at h
  split at h
  · cases h
    exact ⟨id, id, Or.inl⟩
  next c l _ => exact exec_moves (s := s.withQueue l) c h

/-- Settles O4: a step is a command or a tick of the clock, and each moves the operating state as `step_moves` says. -/
theorem operatingStateInvariants : Obligations.OperatingStateInvariants :=
  ⟨fun _ _ hs h => (step_moves h).1 hs, fun _ _ hs h => (step_moves h).2.1 hs, fun _ _ hs h => (step_moves h).2.2 hs⟩

end Sys2Proof.Machine
end

section
/-! SUPPORT. The end of a command of a mailbox, whoever asked for it: in its mailbox, and over Ethernet as a frame (R45, R48, R313). -/
namespace Sys2Proof.Machine

variable {R : List Reg} {P : List Part} {s t : State}

theorem Frame.setEthPort {p : Nat} {x : EthPort} (h : Frame R P s t) (hP : Part.eth ∈ P) : Frame R P s (t.setEthPort p x) :=
  h.onDev (fun _ => rfl) (fun d p n => by cases p <;> first | rfl | exact absurd hP n)

theorem Frame.setEthPair {k : Nat} {x : EthPair} (h : Frame R P s t) (hP : Part.pairs ∈ P) : Frame R P s (t.setEthPair k x) :=
  h.onDev (fun _ => rfl) (fun d p n => by cases p <;> first | rfl | exact absurd hP n)

theorem Frame.enqueue {p q : Nat} {l : List Byte} (h : Frame R P s t) (hR : Reg.ethTxDropCnt ∈ R) (hP : Part.eth ∈ P) :
    Frame R P s (t.enqueue p q l) :=
  Frame.ite (fun _ => h.bump hR) fun _ => h.setEthPort hP

theorem Frame.sendFrame {p q : Nat} {f : TxFrame} (h : Frame R P s t) (hR : Reg.ethTxDropCnt ∈ R) (hP : [Part.eth, .pairs] ⊆ P) :
    Frame R P s (t.sendFrame p q f) :=
  have he : Part.eth ∈ P := hP (by decide)
  Frame.ite (fun _ => ((h.setEthPair (hP (by decide))).enqueue hR he).enqueue hR he) fun _ => h.enqueue hR he

theorem Frame.keepCmd {u : State} (h : Frame R P s u) (hP : Part.cmd ∈ P) : Frame R P s (t.keepCmd u) :=
  h.onDev (fun _ => rfl) (fun d p n => by cases p <;> first | rfl | exact absurd hP n)

theorem Frame.mgmtReply {c : MbxCmd} {st r : Nat} (h : Frame R P s t) (hR : Reg.ethTxDropCnt ∈ R)
    (hP : [Part.cmd, .eth, .pairs] ⊆ P) : Frame R P s (t.mgmtReply c st r) := by
  have hc : Part.cmd ∈ P := hP (by decide)
  have he : [Part.eth, .pairs] ⊆ P := fun _ hp => hP (List.mem_cons_of_mem _ hp)
  unfold State.mgmtReply
  split
  · exact Frame.ite (fun _ => ((h.onCmd hc).sendFrame hR he).keepCmd hc) fun _ => h
  · exact h

theorem mgmtReply_none {c : MbxCmd} (st r : Nat) (h : c.mbx = 1 → s.dev.cmd.reply = none) : s.mgmtReply c st r = s := by
  unfold State.mgmtReply
  split
  next p mac hrep =>
    split
    next hm => rw [h hm] at hrep; cases hrep
    next => rfl
  next => rfl

/-- The word a mailbox shows at the end of a command (R45). -/
def doneWord (tag st result : Nat) : Nat := packBits [(8, result), (8, 0), (8, tag), (4, st), (2, 0), (1, 1), (1, 0)]

theorem shows_of_reg {m tag st result : Nat} (h : t.reg .sysMbxSts m = doneWord tag st result) (h1 : tag < 256) (h2 : st < 16)
    (h3 : result < 256) : t.shows m tag st result := by
  simp only [State.shows, State.fld, h, doneWord, bitsOf, packBits]
  refine ⟨?_, ?_, ?_, ?_, ?_⟩ <;> omega

theorem endCmd_reg (s : State) (c : MbxCmd) (st result : Nat) (hm : c.mbx < 2) :
    (s.endCmd c st result).reg .sysMbxSts c.mbx = doneWord c.tag st result := by
  unfold State.endCmd
  rw [if_pos hm]
  dsimp only
  generalize hw : s.setReg .sysMbxSts c.mbx _ = w
  have hf : Frame [.sysCmdCnt, .ethTxDropCnt] [.cmd, .eth, .pairs] w
      ((if result = 1 then w.bump F.sysCmdCntStateRefusedCnt 0 1 else w).mgmtReply c st result) :=
    Frame.mgmtReply (Frame.ite (fun _ => (Frame.refl _ _ _).bump (by decide)) fun _ => Frame.refl _ _ _) (by decide) (by decide)
  have hv : w.reg .sysMbxSts c.mbx = doneWord c.tag st result := by
    rw [← hw, reg_setReg_same]
    apply Nat.mod_eq_of_lt
    simp only [packBits]
    omega
  exact (hf.reg _ _ (by decide)).trans hv

/-- The end of a command other than with STATE_REFUSED touches its mailbox's status, and the queue that a reply leaves through. -/
theorem endCmd_frame (s : State) (c : MbxCmd) (st : Nat) {result : Nat} (h : result ≠ 1) :
    Frame [.sysMbxSts, .ethTxDropCnt] [.cmd, .eth, .pairs] s (s.endCmd c st result) := by
  unfold State.endCmd
  refine Frame.ite (fun _ => ?_) fun _ => Frame.refl _ _ _
  dsimp only
  rw [if_neg h]
  exact Frame.inDev (f := fun s => (s.setReg .sysMbxSts c.mbx (doneWord c.tag st result)).mgmtReply c st result)
    (((Frame.refl _ _ _).setReg (by decide)).mgmtReply (by decide) (by decide))

/-- STATE_REFUSED is counted (R48). -/
theorem endCmd_refused_counts (s : State) (c : MbxCmd) (st : Nat) (hm : c.mbx < 2) (hr : c.mbx = 1 → s.dev.cmd.reply = none) :
    (s.endCmd c st 1).fld F.sysCmdCntStateRefusedCnt 0 = min (s.fld F.sysCmdCntStateRefusedCnt 0 + 1) 0xFFFF
      ∧ (s.endCmd c st 1).fld F.sysCmdCntBusyDiscards 0 = s.fld F.sysCmdCntBusyDiscards 0 := by
  unfold State.endCmd
  rw [if_pos hm]
  dsimp only
  rw [if_pos rfl, mgmtReply_none _ _ (by simpa only [State.bump, State.setFld, setReg_cmd] using hr)]
  generalize hw : s.setReg .sysMbxSts c.mbx _ = w
  have hf : Frame [.sysMbxSts] [] s w := hw ▸ (Frame.refl _ _ _).setReg (by decide)
  have hc : ∀ x : RegField, x.reg = .sysCmdCnt → w.fld x 0 = s.fld x 0 := fun x hx => hf.fld _ _ (by simp [hx])
  rw [fld_takeDev, fld_takeDev, fld_bump_same w 0 1 (by decide), hc _ (by decide), State.bump,
    fld_setFld_ne w _ (by decide) (by decide) (by decide), hc _ (by decide)]
  exact ⟨rfl, rfl⟩

end Sys2Proof.Machine
end

section
/-! SUPPORT. A GO taken at once: the mailbox it rings, and a command that ends where it is taken up (R45, R46). -/
namespace Sys2Proof.Machine

variable {s t : State}

theorem opCode_lt (o : OpState) : o.code < 16 := by cases o <;> decide

/-- The argument words stand from word `b + j` on, and no other word is written. -/
theorem argWords_reg (args : List Nat) (s : State) (b j : Nat) :
    (∀ k, (h : k < args.length) →
      ((args.zipIdx j).foldl (fun t p => t.setReg .sysMbxArg (b + p.2) p.1) s).reg .sysMbxArg (b + (j + k)) = args[k] % 2 ^ 32)
    ∧ ∀ i, i < b + j ∨ b + j + args.length ≤ i →
      ((args.zipIdx j).foldl (fun t p => t.setReg .sysMbxArg (b + p.2) p.1) s).reg .sysMbxArg i = s.reg .sysMbxArg i := by
  induction args generalizing s j with
  | nil => exact ⟨fun k h => absurd h (Nat.not_lt_zero k), fun _ _ => rfl⟩
  | cons a args ih =>
    obtain ⟨hin, hout⟩ := ih (s.setReg .sysMbxArg (b + j) a) (j + 1)
    simp only [List.zipIdx_cons, List.foldl_cons, List.length_cons]
    refine ⟨fun k h => ?_, fun i h => ?_⟩
    · cases k with
      | zero => exact (hout _ (Or.inl (by omega))).trans (reg_setReg_same _ _ _ _)
      | succ k =>
        rw [show j + (k + 1) = j + 1 + k by omega]
        exact hin k (by simpa using h)
    · rw [hout i (by omega), reg_setReg_ne _ _ (Or.inr (by omega))]

/-- A command that ends where it is taken up touches nothing but its mailbox, and for STATE_REFUSED the count (R45, R48). -/
theorem command_ends (m : Fin 2) (tag : BitVec 8) (op : Nat) (args : List Nat) {r : Nat} (hf : s.mailboxFree m)
    (hh : s.sys.op.held = false) (hr : r < 256)
    (he : ∀ (p : State) (c : MbxCmd), Prep s p m → c.mbx = m → c.opcode = op → p.execute c = p.endCmd c s.sys.op.code r) :
    ∃ t, s.command m tag op args = t ∧ t.shows m tag.toNat s.sys.op.code r
      ∧ Frame (if r = 1 then [.sysMbxArg, .sysMbxCmd, .sysMbxSts, .sysCmdCnt] else [.sysMbxArg, .sysMbxCmd, .sysMbxSts]) [.cmd] s t
      ∧ t.reg .sysMbxArg = (args.zipIdx.foldl (fun t p => t.setReg .sysMbxArg (16 * m + p.2) p.1) s).reg .sysMbxArg
      ∧ (r = 1 → t.fld F.sysCmdCntStateRefusedCnt 0 = min (s.fld F.sysCmdCntStateRefusedCnt 0 + 1) 0xFFFF
        ∧ t.fld F.sysCmdCntBusyDiscards 0 = s.fld F.sysCmdCntBusyDiscards 0) := by
  obtain ⟨p, c, hrun, hm, htag, hop, -, harg, hp⟩ := command_run s m tag op args hf hh
  rw [he p c hp hm hop] at hrun
  have hm2 : c.mbx < 2 := hm ▸ m.isLt
  have hrep : c.mbx = 1 → p.dev.cmd.reply = none := fun h => hp.reply (hm ▸ h)
  obtain ⟨hshows, hend⟩ := endCmd_shows p c s.sys.op.code r hm2 hrep (htag ▸ tag.isLt) (opCode_lt _) hr
  rw [hm, htag] at hshows
  have hmem : Reg.sysMbxArg ∉ (if r = 1 then [Reg.sysMbxSts, .sysCmdCnt] else [Reg.sysMbxSts]) := by split <;> decide
  refine ⟨_, hrun, hshows, ?_, ?_, ?_⟩
  · split
    next h => exact (hp.frame.mono (by decide) (by decide)).trans (if_pos h ▸ hend) (by decide) (by decide)
    next h => exact hp.frame.trans (if_neg h ▸ hend) (by decide) (by decide)
  · rw [← harg]
    exact funext fun i => hend.reg _ _ hmem
  · rintro rfl
    obtain ⟨hcount, hdiscards⟩ := endCmd_refused_counts p c s.sys.op.code hm2 hrep
    have hk : ∀ x : RegField, x.reg = .sysCmdCnt → p.fld x 0 = s.fld x 0 := fun x hx => hp.frame.fld _ _ (by simp [hx])
    rw [hk _ (by decide)] at hcount hdiscards
    exact ⟨hcount, hdiscards⟩

end Sys2Proof.Machine
end

section
/-! O3, O8 (R41, R48, R50, R73, R316). -/
namespace Sys2Proof.Machine

variable {s t : State}

theorem safReset_torqueOk : State.reset.saf.torqueOk :=
  ⟨⟨fun h => absurd h (by decide), fun _ h => absurd h List.not_mem_nil⟩,
    fun h => absurd h (by decide), fun _ h => absurd h List.not_mem_nil⟩

/-- Settles O3: nothing is stored yet, so that every word and byte is its default. -/
theorem resetState : Obligations.ResetState :=
  ⟨⟨rfl, fun _ _ => rfl, fun _ => rfl, rfl, rfl, rfl⟩, rfl, fun _ _ => ⟨rfl, rfl, rfl⟩, rfl, rfl, safReset_torqueOk⟩

theorem execute_refused (c : MbxCmd) (hop : c.opcode ≤ 0x10) (hl : legalIn c.opcode s.sys.op = false) :
    s.execute c = s.endCmd c s.sys.op.code 1 := by
  unfold State.execute
  rw [if_neg (by omega), if_pos (by rw [hl]; rfl)]

/-- A command that is not legal in the state it is taken up in (R48). -/
theorem command_refused (m : Fin 2) (tag : BitVec 8) (op : Nat) (args : List Nat) (hf : s.mailboxFree m) (hh : s.sys.op.held = false)
    (hop : op ≤ 0x10) (hl : legalIn op s.sys.op = false) (hargs : ∀ a ∈ args, a < 2 ^ 32) :
    ∃ t, s.command m tag op args = t ∧ t.shows m tag.toNat s.sys.op.code 1
      ∧ t.fld F.sysCmdCntStateRefusedCnt 0 = min (s.fld F.sysCmdCntStateRefusedCnt 0 + 1) 0xFFFF
      ∧ t.fld F.sysCmdCntBusyDiscards 0 = s.fld F.sysCmdCntBusyDiscards 0
      ∧ (∀ k, (h : k < args.length) → t.reg .sysMbxArg (16 * m + k) = args[k])
      ∧ (∀ k, k < 16 * m.val ∨ 16 * m.val + args.length ≤ k → t.reg .sysMbxArg k = s.reg .sysMbxArg k)
      ∧ t.dev.own = s.dev.own ∧ (∀ n, t.stream n = s.stream n)
      ∧ keepsCore s t ∧ keepsRegs [.sysMbxArg, .sysMbxCmd, .sysMbxSts, .sysCmdCnt] s t ∧ keepsBytes s t := by
  obtain ⟨t, hrun, hshows, hframe, harg, hcounts⟩ := command_ends m tag op args hf hh (r := 1) (by decide) fun p c hp _ hc => by
    have hsys : p.sys.op = s.sys.op := congrArg Sys.op hp.frame.sys
    rw [← hsys, execute_refused c (hc ▸ hop) (by rw [hc, hsys]; exact hl)]
  obtain ⟨hcount, hdiscards⟩ := hcounts rfl
  obtain ⟨hin, hout⟩ := argWords_reg args s (16 * m) 0
  have hacq : t.dev.acq = s.dev.acq := hframe.part .acq (by decide)
  refine ⟨t, hrun, hshows, hcount, hdiscards, fun k h => ?_, fun k h => ?_, hframe.part .own (by decide), fun n => ?_,
    hframe.keeps (by decide)⟩
  · rw [harg, ← Nat.mod_eq_of_lt (hargs _ (List.getElem_mem h)), ← hin k h, Nat.zero_add]
  · rw [harg]
    exact hout k h
  · unfold State.stream
    rw [hacq]

/-- The row of a PROT_CHANGE whose request names its operation is the command itself. -/
theorem protOp_eq {m : Fin 2} {tag : BitVec 8} {slot : BitVec 32} {k : Nat} (h : 4 ≤ slot.toNat ∨ (s.protReq slot.toNat).op = k) :
    s.protOp m tag slot k = s.command m tag 0x0E [slot.toNat] := if_pos h

theorem words_lt (x y : BitVec 32) : ∀ a ∈ [x.toNat, y.toNat], a < 2 ^ 32 := by
  simp only [List.mem_cons, List.not_mem_nil, or_false, forall_eq_or_imp, forall_eq]
  exact ⟨x.isLt, y.isLt⟩

theorem word_lt (x : BitVec 32) : ∀ a ∈ [x.toNat], a < 2 ^ 32 := fun a h => words_lt x x a (List.mem_cons_of_mem _ h)

theorem halves_lt (x : BitVec 64) : ∀ a ∈ [x.toNat % 2 ^ 32, x.toNat / 2 ^ 32], a < 2 ^ 32 := by
  have := x.isLt
  simp only [List.mem_cons, List.not_mem_nil, or_false, forall_eq_or_imp, forall_eq]
  omega

theorem nonceWords_lt (x : BitVec 256) : ∀ a ∈ (List.range 8).map (fun k => x.toNat / 2 ^ (32 * k) % 2 ^ 32), a < 2 ^ 32 := by
  intro a ha
  obtain ⟨k, -, rfl⟩ := List.mem_map.1 ha
  exact Nat.mod_lt _ (by decide)

/-- Settles O8: each row rings its mailbox, and the executor refuses what is not legal. -/
theorem stateRefused : Obligations.StateRefused := by
  intro m tag x y ns nonce c op args s hf hh hl change hc
  suffices hrow : ∃ f, exec c s = .next (inCore f s) ∧ f s = s.command m tag op args ∧ op ≤ 0x10 ∧ ∀ a ∈ args, a < 2 ^ 32 by
    obtain ⟨f, hrow, hf1, hop, hargs⟩ := hrow
    obtain ⟨t, hrun, h⟩ := command_refused m tag op args hf hh hop hl hargs
    obtain ⟨-, -, -, -, -, -, -, hcore, -⟩ := id h
    exact ⟨t, hrow.trans (congrArg _ (inCore_eq (hf1.trans hrun) hcore)), h⟩
  have nil : ∀ a ∈ ([] : List Nat), a < 2 ^ 32 := fun a h => absurd h List.not_mem_nil
  rcases hc with ⟨rfl, rfl, rfl⟩ | ⟨rfl, rfl, rfl⟩ | ⟨rfl, rfl, rfl⟩ | ⟨rfl, rfl, rfl⟩ | ⟨rfl, rfl, rfl⟩ | ⟨rfl, rfl, rfl⟩
    | ⟨rfl, rfl, rfl⟩ | ⟨rfl, rfl, rfl⟩ | ⟨rfl, rfl, rfl⟩ | ⟨rfl, rfl, rfl⟩ | ⟨rfl, rfl, rfl⟩ | ⟨rfl, rfl, rfl⟩ | ⟨rfl, rfl, rfl⟩
    | ⟨rfl, rfl, rfl⟩ | ⟨rfl, rfl, rfl, h⟩ | ⟨rfl, rfl, rfl, h⟩ | ⟨rfl, rfl, rfl, h⟩ | ⟨rfl, rfl, rfl, h⟩ | ⟨rfl, rfl, rfl, h⟩
    | ⟨rfl, rfl, rfl⟩ | ⟨rfl, rfl, rfl⟩
  · exact ⟨_, rfl, rfl, by decide, nil⟩
  · exact ⟨_, rfl, rfl, by decide, words_lt x y⟩
  · exact ⟨_, rfl, rfl, by decide, nil⟩
  · exact ⟨_, rfl, rfl, by decide, nil⟩
  · exact ⟨_, rfl, rfl, by decide, nil⟩
  · exact ⟨_, rfl, rfl, by decide, nil⟩
  · exact ⟨_, rfl, rfl, by decide, nil⟩
  · exact ⟨_, rfl, rfl, by decide, nil⟩
  · exact ⟨_, rfl, rfl, by decide, word_lt x⟩
  · exact ⟨_, rfl, rfl, by decide, word_lt x⟩
  · exact ⟨_, rfl, rfl, by decide, halves_lt ns⟩
  · exact ⟨_, rfl, rfl, by decide, words_lt x y⟩
  · exact ⟨_, rfl, rfl, by decide, words_lt x y⟩
  · exact ⟨_, rfl, rfl, by decide, nonceWords_lt nonce⟩
  · exact ⟨_, rfl, protOp_eq h, by decide, word_lt x⟩
  · exact ⟨_, rfl, protOp_eq h, by decide, word_lt x⟩
  · exact ⟨_, rfl, protOp_eq h, by decide, word_lt x⟩
  · exact ⟨_, rfl, protOp_eq h, by decide, word_lt x⟩
  · exact ⟨_, rfl, protOp_eq h, by decide, word_lt x⟩
  · exact ⟨_, rfl, rfl, by decide, nil⟩
  · exact ⟨_, rfl, rfl, by decide, nil⟩

end Sys2Proof.Machine
end

section
/-! O7 (R45, R48, R49, R50, R313). -/
namespace Sys2Proof.Machine

variable {s t : State}

/-- A row that touches nothing beside the device part does what its function does. -/
theorem exec_core {c : Instr} {f : State → State} {u : State} (hc : exec c s = .next (inCore f s)) (hf : f s = u) (hu : keepsCore s u) :
    exec c s = .next u := hc.trans (congrArg _ (inCore_eq hf hu))

theorem execute_nop (c : MbxCmd) (hc : c.opcode = 0) (hh : s.sys.op.held = false) : s.execute c = s.endCmd c s.sys.op.code 0 := by
  have hl : (!legalIn 0 s.sys.op || bootServes s.sys.op && !bootOps.contains 0) = false := by
    revert hh
    cases s.sys.op <;> decide
  unfold State.execute
  rw [hc, if_neg (by decide), hl]
  rfl

theorem execute_unassigned (c : MbxCmd) (hc : 0x10 < c.opcode) : s.execute c = s.endCmd c s.sys.op.code 2 := by
  unfold State.execute
  rw [if_pos hc]

/-- A command without arguments that ends where it is taken up, with another result than STATE_REFUSED, touches its mailbox alone. -/
theorem command_ends_plain (m : Fin 2) (tag : BitVec 8) (op : Nat) {r : Nat} (hf : s.mailboxFree m)
    (hh : s.sys.op.held = false) (hr : r < 256) (hr1 : r ≠ 1)
    (he : ∀ (p : State) (c : MbxCmd), Prep s p m → c.mbx = m → c.opcode = op → p.execute c = p.endCmd c s.sys.op.code r) :
    ∃ t, s.command m tag op [] = t ∧ t.shows m tag.toNat s.sys.op.code r
      ∧ keepsCore s t ∧ keepsRegs [.sysMbxCmd, .sysMbxSts] s t ∧ keepsBytes s t := by
  obtain ⟨t, hrun, hshows, hframe, harg, -⟩ := command_ends m tag op [] hf hh hr he
  rw [if_neg hr1] at hframe
  obtain ⟨hcore, hregs, hbytes⟩ := hframe.keeps (by decide)
  refine ⟨t, hrun, hshows, hcore, fun q i hq => ?_, hbytes⟩
  by_cases h : q = .sysMbxArg
  · rw [h, harg]
    rfl
  · exact hregs q i (by simpa [h] using hq)

/-- A GO in a free mailbox where it is not held is executed at once, whoever rang it (R45, R46, R313). -/
theorem mbxRing_run (m tag op : Nat) (reply : Option (Nat × Nat)) (hf : s.mailboxFree m) (hh : s.sys.op.held = false) :
    ∃ p : State, ∃ c : MbxCmd, s.mbxRing m tag op true reply = p.execute c ∧ c.mbx = m ∧ c.tag = tag ∧ c.opcode = op
      ∧ Frame [.sysMbxCmd, .sysMbxSts] [.cmd] s p := by
  obtain ⟨hq, hrun, hbusy⟩ := hf
  unfold State.mbxRing
  simp only [hbusy, Bool.not_true, Bool.false_eq_true, if_false]
  generalize hw : ((((s.setReg .sysMbxCmd m _).setFlag F.sysMbxCmdGo m true).setFlag F.sysMbxStsBusy m true).setFlag
    F.sysMbxStsDone m false) = w
  have f0 : Frame [.sysMbxCmd, .sysMbxSts] [] s w :=
    hw ▸ ((((Frame.refl _ _ s).setReg (by decide)).setFlag (by decide)).setFlag (by decide)).setFlag (by decide)
  have fw : Frame [.sysMbxCmd, .sysMbxSts] [.cmd] s w := f0.mono (by decide) (by decide)
  have cw : w.dev.cmd = s.dev.cmd := f0.part .cmd (by decide)
  rw [pump_one _ ⟨m, tag, op, _⟩ (by simp only [State.onCmd, onDev_dev, cw, hq, List.nil_append]; rfl)
    (by simp only [State.onCmd, onDev_dev, cw, hrun]) (by simp only [State.onCmd, onDev_sys, fw.sys, hh])]
  exact ⟨_, _, rfl, rfl, rfl, rfl, ((fw.onCmd (by decide)).onCmd (by decide)).setFlag (by decide)⟩

/-- A run of instances is written, each with its own word. -/
theorem rangeSetReg_reg (r : Reg) (b n : Nat) (v : Nat → Nat) (s : State) :
    (∀ k, k < n → ((List.range n).foldl (fun t k => t.setReg r (b + k) (v k)) s).reg r (b + k) = v k % 2 ^ 32)
    ∧ ∀ i, i < b ∨ b + n ≤ i → ((List.range n).foldl (fun t k => t.setReg r (b + k) (v k)) s).reg r i = s.reg r i := by
  induction n with
  | zero => exact ⟨fun k h => absurd h (Nat.not_lt_zero k), fun _ _ => rfl⟩
  | succ n ih =>
    obtain ⟨hin, hout⟩ := ih
    simp only [List.range_succ, List.foldl_append, List.foldl_cons, List.foldl_nil]
    refine ⟨fun k h => ?_, fun i h => ?_⟩
    · rcases Nat.lt_succ_iff_lt_or_eq.1 h with h | rfl
      · rw [reg_setReg_ne _ _ (Or.inr (by omega)), hin k h]
      · exact reg_setReg_same _ _ _ _
    · rw [reg_setReg_ne _ _ (Or.inr (by omega)), hout i (by omega)]

theorem leNat_lt (l : List Byte) : leNat l < 256 ^ l.length := by
  induction l with
  | nil => decide
  | cons b l ih =>
    have := b.isLt
    simp only [leNat, List.length_cons, Nat.pow_succ]
    omega

theorem leAt_lt (l : List Byte) (o n : Nat) : leAt l o n < 256 ^ n := by
  have hlen : (sliceB l o n).length ≤ n := by
    simp only [sliceB, List.length_append, List.length_take, List.length_replicate]
    omega
  exact (leNat_lt _).trans_le (Nat.pow_le_pow_right (by decide) hlen)

/-- The argument words of a management request stand in mailbox 1 (R313). -/
def State.mgmtArgs (s : State) (l : List Byte) : State :=
  (List.range 16).foldl (fun t k => t.setReg .sysMbxArg (16 + k) (leAt l (4 + 4 * k) 4)) s

theorem mgmtArgs_reg (l : List Byte) (s : State) (k : Nat) (hk : k < 16) :
    (s.mgmtArgs l).reg .sysMbxArg (16 + k) = leAt l (4 + 4 * k) 4 :=
  ((rangeSetReg_reg .sysMbxArg 16 16 (fun k => leAt l (4 + 4 * k) 4) s).1 k hk).trans (Nat.mod_eq_of_lt (leAt_lt l _ 4))

theorem mgmtArgs_frame (l : List Byte) (s : State) : Frame [.sysMbxArg] [] s (s.mgmtArgs l) :=
  Frame.foldl _ (Frame.refl _ _ _) fun _ _ hu => hu.setReg (by decide)

/-- A management request for NOP that the block allows (R313). -/
theorem manage_nop (p vid etype src : Nat) (l : List Byte) (s : State) (hv : vid = s.fld F.ethMgmtCfgVid 0
    ∧ etype = s.fld F.ethMgmtCfgEtype 0 ∧ s.mayManage src = true ∧ leAt l 0 1 = 1) (hf : s.mailboxFree 1)
    (hh : s.sys.op.held = false) (hop : leAt l 1 1 = 0) :
    ∃ t, s.manage p vid etype src l = t ∧ t.shows 1 (leAt l 2 1) s.sys.op.code 0
      ∧ (∀ k, k < 16 → t.reg .sysMbxArg (16 + k) = leAt l (4 + 4 * k) 4)
      ∧ Frame [.sysMbxArg, .sysMbxCmd, .sysMbxSts, .ethTxDropCnt] [.cmd, .eth, .pairs] s t := by
  have ha : Frame [.sysMbxArg] [] s (inDev (fun s => s.mgmtArgs l) s) := (mgmtArgs_frame l s).inDev
  have harg : ∀ k, k < 16 → (inDev (fun s => s.mgmtArgs l) s).reg .sysMbxArg (16 + k) = leAt l (4 + 4 * k) 4 :=
    fun k hk => by rw [reg_inDev]; exact mgmtArgs_reg l s k hk
  have hrun : s.manage p vid etype src l
      = (inDev (fun s => s.mgmtArgs l) s).mbxRing 1 (leAt l 2 1) (leAt l 1 1) true (some (p, src)) := by
    have hfree : ¬s.flag F.sysMbxStsBusy 1 = true := fun h => Bool.false_ne_true (hf.2.2.symm.trans h)
    unfold State.manage State.mgmtArgs
    exact (if_neg (not_not_intro hv)).trans (if_neg hfree)
  generalize inDev (fun s => s.mgmtArgs l) s = a at ha harg hrun
  have hcmd : a.dev.cmd = s.dev.cmd := ha.part .cmd (by decide)
  have hfa : a.mailboxFree 1 := by
    unfold State.mailboxFree
    rw [hcmd, ha.flag _ _ (by decide)]
    exact hf
  obtain ⟨q, c, hring, hm, htag, hcop, hq⟩ := mbxRing_run 1 (leAt l 2 1) (leAt l 1 1) (some (p, src)) hfa (by rw [ha.sys]; exact hh)
  have hsys : q.sys.op = s.sys.op := congrArg Sys.op (hq.sys.trans ha.sys)
  rw [hring, execute_nop c (hcop.trans hop) (by rw [hsys]; exact hh), hsys] at hrun
  have hend := endCmd_frame q c s.sys.op.code (result := 0) (by decide)
  refine ⟨_, hrun, shows_of_reg ?_ (leAt_lt l 2 1) (opCode_lt _) (by decide), fun k hk => ?_, ?_⟩
  · have hdone := endCmd_reg q c s.sys.op.code 0 (by omega)
    rwa [hm, htag] at hdone
  · rw [hend.reg _ _ (by decide), hq.reg _ _ (by decide), harg k hk]
  · exact ((ha.mono (by decide) (by decide)).trans hq (by decide) (by decide)).trans hend (by decide) (by decide)

theorem manage_busy (p vid etype src : Nat) (l : List Byte) (s : State) (hv : vid = s.fld F.ethMgmtCfgVid 0
    ∧ etype = s.fld F.ethMgmtCfgEtype 0 ∧ s.mayManage src = true ∧ leAt l 0 1 = 1) (hb : s.flag F.sysMbxStsBusy 1 = true) :
    s.manage p vid etype src l = s.bump F.sysCmdCntBusyDiscards 0 1 := by
  unfold State.manage
  rw [if_neg (not_not_intro hv), if_pos hb]

theorem manage_unknown (p vid etype src : Nat) (l : List Byte) (s : State) (hv : ¬(vid = s.fld F.ethMgmtCfgVid 0
    ∧ etype = s.fld F.ethMgmtCfgEtype 0 ∧ s.mayManage src = true ∧ leAt l 0 1 = 1)) :
    s.manage p vid etype src l = s.bump F.ethMgmtCntCount 0 1 := by
  unfold State.manage
  rw [if_pos hv]

/-- A count is all that a step does. -/
theorem bump_keeps (s : State) (x : RegField) (i n : Nat) : keepsCore s (s.bump x i n) ∧ keepsRegs [x.reg] s (s.bump x i n)
    ∧ keepsBytes s (s.bump x i n) :=
  Frame.keeps (R := [x.reg]) (P := []) ((Frame.refl _ _ _).bump (List.mem_singleton.2 rfl)) List.not_mem_nil

/-- Settles O7: the two commands end where they are taken up; a management request rings mailbox 1, or is one count. -/
theorem nopUnknownAndManagement : Obligations.NopUnknownAndManagement := by
  refine ⟨fun m tag op s hf hh => ⟨?_, fun hop => ?_⟩, ?_⟩
  · obtain ⟨t, hrun, hshows, hkeeps⟩ := command_ends_plain m tag 0 hf hh (r := 0) (by decide) (by decide) fun p c hp _ hc => by
      have hsys : p.sys.op = s.sys.op := congrArg Sys.op hp.frame.sys
      rw [← hsys, execute_nop c hc (by rw [hsys]; exact hh)]
    exact ⟨t, exec_core rfl hrun hkeeps.1, hshows, hkeeps⟩
  · obtain ⟨t, hrun, hshows, hkeeps⟩ := command_ends_plain m tag op.toNat hf hh (r := 2) (by decide) (by decide) fun p c hp _ hc => by
      have hsys : p.sys.op = s.sys.op := congrArg Sys.op hp.frame.sys
      rw [← hsys, execute_unassigned c (hc ▸ hop)]
    exact ⟨t, exec_core rfl ((if_pos hop).trans hrun) hkeeps.1, hshows, hkeeps⟩
  · intro port vid etype src l s known
    have hknown : known = true ↔ vid.toNat = s.fld F.ethMgmtCfgVid 0 ∧ etype.toNat = s.fld F.ethMgmtCfgEtype 0
        ∧ s.mayManage src.toNat = true ∧ leAt l 0 1 = 1 := by
      simp only [known, Bool.and_eq_true, decide_eq_true_eq]
      tauto
    refine ⟨fun hk hf hh hop => ?_, fun hk hb => ?_, fun hk => ?_⟩
    · obtain ⟨t, hrun, hshows, harg, hframe⟩ := manage_nop port _ _ _ l s (hknown.1 hk) hf hh hop
      obtain ⟨hcore, hregs, hbytes⟩ := hframe.keeps (by decide)
      exact ⟨t, exec_core rfl hrun hcore, hshows, harg, hcore, hbytes, hregs⟩
    · have hkeeps := bump_keeps s F.sysCmdCntBusyDiscards 0 1
      exact ⟨_, exec_core rfl (manage_busy port _ _ _ l s (hknown.1 hk) hb) hkeeps.1, fld_bump_same s 0 1 (by decide), hkeeps⟩
    · have hkeeps := bump_keeps s F.ethMgmtCntCount 0 1
      have hv := fun h => Bool.false_ne_true (hk.symm.trans (hknown.2 h))
      exact ⟨_, exec_core rfl (manage_unknown port _ _ _ l s hv) hkeeps.1, fld_bump_same s 0 1 (by decide), hkeeps⟩

end Sys2Proof.Machine
end

section
/-! SUPPORT. What a change of the operating state survives (R38, R39): the sensors and the thermal state, DRAM's channels, the fault map,
the fault log and the mailboxes' status. None of the blocks that start, stop or close their records there writes them. -/
namespace Sys2Proof.Machine

-- The proofs below are short and many: elaborated at once they ask for more threads than one compile may have.
set_option Elab.async false

variable {K : List Reg} {R : List Reg} {P : List Part} {s t u : State} {x : RegField} {r : Reg} {i n c v : Nat}

/-- Registers that no block touches when it starts or stops. -/
abbrev standingRegs : List Reg := [.thmSens, .thmSts, .thmBrokenLo, .thmBrokenHi, .memChSts, .fmkMapMisc, .fmkSts, .fmkLog, .fmkLogHead,
  .sysMbxSts]

/-- From `s` to `t` the registers named stand, of those that blocks leave when they start or stop; no command is taken up. -/
structure Spares (K : List Reg) (s t : State) : Prop where
  sub : K ⊆ standingRegs
  queue : t.dev.cmd.queue = s.dev.cmd.queue
  running : t.dev.cmd.running = s.dev.cmd.running ∨ t.dev.cmd.running = none
  reg : ∀ r i, r ∈ K → t.reg r i = s.reg r i

namespace Spares

theorem refl (s : State) (hK : K ⊆ standingRegs := by decide) : Spares K s s := ⟨hK, rfl, Or.inl rfl, fun _ _ _ => rfl⟩

theorem trans (h : Spares K s t) (k : Spares K t u) : Spares K s u where
  sub := h.sub
  queue := k.queue.trans h.queue
  running := k.running.elim (fun e => h.running.imp e.trans e.trans) Or.inr
  reg r i hr := (k.reg r i hr).trans (h.reg r i hr)

theorem fld (h : Spares K s t) (hx : x.reg ∈ K := by decide) (i : Nat) : t.fld x i = s.fld x i := by
  unfold State.fld
  rw [h.reg _ _ hx]

theorem sfld (h : Spares K s t) (hx : x.reg ∈ K := by decide) (i : Nat) : t.sfld x i = s.sfld x i := by
  unfold State.sfld
  rw [h.fld hx]

theorem flag (h : Spares K s t) (hx : x.reg ∈ K := by decide) (i : Nat) : t.flag x i = s.flag x i := by
  unfold State.flag
  rw [h.fld hx]

/-- The device part alone is compared. -/
theorem of_dev (h : Spares K s t) (hu : u.dev = t.dev) : Spares K s u where
  sub := h.sub
  queue := by rw [hu]; exact h.queue
  running := by rw [hu]; exact h.running
  reg r i hr := by unfold State.reg; rw [hu]; exact h.reg r i hr

theorem inDev {f : State → State} (h : Spares K s (f t)) : Spares K s (inDev f t) := h.of_dev (inDev_dev f t)

theorem takeDev (h : Spares K s u) : Spares K s (t.takeDev u) := h.of_dev (takeDev_dev t u)

theorem of_frame (h : Spares K s t) (f : Frame R P t u) (hR : ∀ r ∈ standingRegs, r ∉ R := by decide) (hP : Part.cmd ∉ P := by decide) :
    Spares K s u :=
  have hc : u.dev.cmd = t.dev.cmd := f.part .cmd hP
  h.trans ⟨h.sub, congrArg CmdSt.queue hc, Or.inl (congrArg CmdSt.running hc), fun r i hr => f.reg r i (hR r (h.sub hr))⟩

theorem onDev {g : Dev → Dev} (h : Spares K s t) (hg : ∀ d, (g d).regs = d.regs ∧ (g d).cmd = d.cmd := by intro; exact ⟨rfl, rfl⟩) :
    Spares K s (t.onDev g) :=
  have hc : (t.onDev g).dev.cmd = t.dev.cmd := (hg t.dev).2
  h.trans ⟨h.sub, congrArg CmdSt.queue hc, Or.inl (congrArg CmdSt.running hc),
    fun r i _ => by unfold State.reg; rw [onDev_dev, (hg _).1]⟩

theorem onLin {f : LinSt → LinSt} (h : Spares K s t) : Spares K s (t.onLin f) := h.onDev

theorem onOdo {f : OdoSt → OdoSt} (h : Spares K s t) : Spares K s (t.onOdo f) := h.onDev

theorem setReg_off (h : Spares K s t) (hr : r ∉ K) : Spares K s (t.setReg r i v) :=
  h.trans ⟨h.sub, rfl, Or.inl rfl, fun _ _ hq => reg_setReg_ne t v (Or.inl fun heq => hr (heq ▸ hq))⟩

theorem setReg (h : Spares K s t) (hr : r ∉ standingRegs := by decide) : Spares K s (t.setReg r i v) :=
  h.setReg_off fun hk => hr (h.sub hk)

theorem setFld (h : Spares K s t) (hx : x.reg ∉ standingRegs := by decide) : Spares K s (t.setFld x i v) := h.setReg hx

theorem setFlag {b : Bool} (h : Spares K s t) (hx : x.reg ∉ standingRegs := by decide) : Spares K s (t.setFlag x i b) := h.setReg hx

theorem bump (h : Spares K s t) (hx : x.reg ∉ standingRegs := by decide) : Spares K s (t.bump x i n) := h.setReg hx

theorem emit {o : Out} (h : Spares K s t) : Spares K s (t.emit o) := h.onDev

/-- The executor's own record is put back behind other blocks' work. -/
theorem keepCmd (h : Spares K s t) (k : Spares K t u) : Spares K s (t.keepCmd u) :=
  h.trans ⟨h.sub, rfl, Or.inl rfl, k.reg⟩

theorem ite {q : Prop} [Decidable q] {y z : State} (hy : Spares K s y) (hz : Spares K s z) : Spares K s (if q then y else z) := by
  split
  · exact hy
  · exact hz

theorem foldl {α : Type} {f : State → α → State} (l : List α) (h : Spares K s t) (hf : ∀ u b, Spares K s u → Spares K s (f u b)) :
    Spares K s (l.foldl f t) := by
  induction l generalizing t with
  | nil => exact h
  | cons b l ih => exact ih (hf t b h)

/-- A fold that carries what is written before the state. -/
theorem foldl_snd {α β : Type} {f : β × State → α → β × State} (l : List α) {b : β} (h : Spares K s t)
    (hf : ∀ p x, Spares K s p.2 → Spares K s (f p x).2) : Spares K s (l.foldl f (b, t)).2 := by
  suffices ∀ p : β × State, Spares K s p.2 → Spares K s (l.foldl f p).2 from this _ h
  intro p hp
  induction l generalizing p with
  | nil => exact hp
  | cons x l ih => exact ih _ (hf p x hp)

theorem post {e : Nat} (h : Spares K s t) : Spares K s (t.post e i) :=
  h.of_frame ((Frame.refl postRegs postParts t).post (by decide) (by decide))

theorem raise {k e : Nat} (h : Spares K s t) (hx : x.reg ∉ standingRegs := by decide) : Spares K s (t.raise x k e i) :=
  ite h (h.setFlag hx).post

theorem ringPut {l : List Byte} (h : Spares K s t) : Spares K s (t.ringPut n l) :=
  h.of_frame ((Frame.refl ringRegs ringParts t).ringPut)

theorem putUnit {l : List (List Byte)} (h : Spares K s t) : Spares K s (t.putUnit n l) :=
  h.of_frame ((Frame.refl ringRegs ringParts t).putUnit)

theorem flushGaps {k : Nat} (h : Spares K s t) : Spares K s (flushGaps n k t) :=
  h.of_frame ((Frame.refl ringRegs ringParts t).flushGaps)

theorem change {src k : Nat} {b : Bool} (h : Spares K s t) : Spares K s (t.change src k v b) :=
  h.of_frame ((Frame.refl changeRegs ringParts t).change)

theorem reportState {o : OpState} (h : Spares K s t) : Spares K s (t.reportState o) :=
  h.of_frame ((Frame.refl changeRegs ringParts t).reportState)

/-! The line stream closes with RUN (R227, R242). -/

theorem drainFifo (h : Spares K s t) : Spares K s t.drainFifo :=
  h.of_frame (LineFrame.foldl t.dev.lin.fifo ((LineFrame.refl takeRegs takeParts t).onLin) fun _ _ hu => hu.takeLine).toFrame

theorem endGaps (h : Spares K s t) : Spares K s t.endGaps.2 := by
  unfold State.endGaps
  extract_lets gs free last dists r
  split
  · exact h
  · have hfree : Spares K s free.2 := h.of_frame ((Frame.refl [] [.freeCtr] t).draw)
    dsimp only
    refine onLin (foldl_snd _ hfree fun p q hp => ?_)
    refine bump ?_
    split
    · exact hp
    · exact hp.of_frame (LineFrame.reachHood (LineFrame.refl gapRegs gapParts p.2)).toFrame

theorem closeWith {l : List (GapRec ⊕ List Byte)} (h : Spares K s t) : Spares K s (t.closeWith n l) := by
  induction l generalizing t with
  | nil => exact h
  | cons y l ih =>
    cases y with
    | inl g => exact ih (h.onDev.flushGaps)
    | inr b => exact ite (ih h.ringPut) (ih (ite h h.bump.raise))

theorem closeLines (h : Spares K s t) : Spares K s t.closeLines := by
  have hr : Spares K s t.drainFifo.lineEnd.2 := h.drainFifo.endGaps
  unfold State.closeLines
  dsimp only
  split
  · exact hr.closeWith
  · exact hr

/-! Blocks that stop (R38, R109, R161, R227). -/

theorem linkSend {ty dst q hops : Nat} {l : List Byte} (h : Spares K s t) : Spares K s (t.linkSend n ty dst q hops l) :=
  h.of_frame ((Frame.refl [] [.links, .out] t).linkSend)

theorem ringOut {ty dst q hops : Nat} {l : List Byte} (h : Spares K s t) : Spares K s (t.ringOut n ty dst q hops l) := ite h.linkSend h

theorem stopSchedule (h : Spares K s t) : Spares K s t.stopSchedule := h.setFlag.onDev.ringOut.ringOut

theorem onHist {b : Bool} {p : Nat} {f : ChanHist → ChanHist} (h : Spares K s t) : Spares K s (t.onHist c b p f) := by
  unfold State.onHist
  exact h.onDev

theorem felt {ch code w d : Nat} {b : Bool} {o : Option Nat} (h : Spares K s t) : Spares K s (t.felt ch b code w d o) :=
  ite h (ite h.bump (ite h.onHist.setFlag h.onHist))

theorem feltIn {y : CoincHit} {w : Nat} (h : Spares K s t) : Spares K s (t.feltIn y w) := ite h.felt h

theorem judgeHits (h : Spares K s t) : Spares K s (t.judgeHits c) := by
  unfold State.judgeHits
  exact foldl _ h.onDev fun _ _ hu => (ite hu.bump hu).feltIn

/-- Settings held for a boundary come into force. -/
theorem applyRegs {l : List Reg} (h : Spares K s t) (hl : ∀ r ∈ l, r ∉ standingRegs := by decide) :
    Spares K s (l.foldl (fun t r => t.applyReg r i) t) := by
  induction l generalizing t with
  | nil => exact h
  | cons r l ih => exact ih (h.setReg (hl r List.mem_cons_self)) fun q hq => hl q (List.mem_cons_of_mem r hq)

theorem clearChan (h : Spares K s t) : Spares K s (t.clearChan i) := by
  unfold State.clearChan
  exact foldl _ h.onDev.onDev.onHist fun _ _ hu => hu.setReg

theorem takeChan (h : Spares K s t) : Spares K s (t.takeChan i) := by
  have force : Spares K s ((heldChanRegs.foldl (fun t r => t.applyReg r i) t).setFlag F.rcvChStsPending i false) := h.applyRegs.setFlag
  unfold State.takeChan
  exact ite (ite force.setFlag force).clearChan (ite force.setFlag force)

theorem takeClus (h : Spares K s t) : Spares K s (t.takeClus c) := by
  have force : Spares K s ((heldClusRegs.foldl (fun t r => t.applyReg r c) t).setFlag F.felClStsPending c false) := h.applyRegs.setFlag
  unfold State.takeClus
  exact ite (foldl _ force fun _ _ hu => hu.clearChan).onDev force

theorem takeAll (h : Spares K s t) : Spares K s (t.takeAll c) := foldl _ h.takeClus fun _ _ hu => hu.takeChan

theorem takeWalk (h : Spares K s t) : Spares K s (t.takeWalk c) := by
  have words : Spares K s ((List.range 128).foldl
      (fun a n => a.setReg .rcvWalk (activeWalk c n) (a.reg .rcvWalk (128 * (c / 4) + n))) t) := foldl _ h fun _ _ hu => hu.setReg
  unfold State.takeWalk
  exact ite (ite words.onDev words.onDev.setFlag) h

theorem stopFelting (h : Spares K s t) : Spares K s t.stopFelting := by
  refine foldl _ h fun u b hu => takeWalk (takeAll (foldl _ ?_ fun _ _ hv => hv.onDev))
  exact hu.onDev.judgeHits.onDev

theorem sendDemand (h : Spares K s t) : Spares K s (t.sendDemand i) := ite h h.onDev.emit

theorem strobeOff (h : Spares K s t) : Spares K s (t.strobeOff i) := h.onDev.emit.sendDemand

theorem dropLines {p : Line → Bool} (h : Spares K s t) : Spares K s (t.dropLines p) := foldl _ h.onLin fun _ _ hu => hu.strobeOff

theorem endCaptures (h : Spares K s t) : Spares K s t.endCaptures :=
  foldl _ h.dropLines fun _ _ hu => ite hu.onDev.setFlag.setFlag.setFlag hu

theorem applySeg (h : Spares K s t) : Spares K s (t.applySeg n) := foldl _ h.applyRegs fun _ _ hu => hu.setReg

theorem setClock (h : Spares K s t) : Spares K s (t.setClock i v) := ite h h.onDev.emit

theorem driveClocks (h : Spares K s t) : Spares K s t.driveClocks := foldl _ h fun _ _ hu => hu.setClock

theorem refreshTiming (h : Spares K s t) : Spares K s t.refreshTiming := by
  unfold State.refreshTiming
  exact (foldl _ (foldl _ h fun _ _ hu => hu.setFlag) fun _ _ hu => hu.setFld).setFld.setFld.driveClocks

theorem driveCarriage (h : Spares K s t) : Spares K s t.driveCarriage := ite h.setFld h

theorem stopImaging (h : Spares K s t) : Spares K s t.stopImaging := by
  unfold State.stopImaging
  exact (foldl _ h.dropLines.onLin.setFlag.setFlag.setFlag.setReg fun _ _ hu => hu.applySeg).refreshTiming.driveCarriage

theorem stopRun (h : Spares K s t) : Spares K s t.stopRun := foldl _ h.stopSchedule.stopFelting.stopImaging fun _ _ hu => hu.onDev

theorem coolPort (h : Spares K s t) : Spares K s (t.coolPort i) := foldl _ h fun _ _ hu => hu.setFlag.onDev

theorem driveAux {j : Nat} (h : Spares K s t) : Spares K s (t.driveAux n j) := h.emit

theorem drivePort (h : Spares K s t) : Spares K s (t.drivePort n) := by
  unfold State.drivePort
  extract_lets y now lim s1 s2 s3
  have h3 : Spares K s s3 := (foldl _ (ite h.setFlag h) fun _ _ hu => hu.emit).onDev.emit
  exact ite (foldl _ h3 fun _ _ hu => hu.driveAux) h3

theorem setDrive {o : Option Int} (h : Spares K s t) : Spares K s (t.setDrive n o) := h.onDev.drivePort

theorem setAux {q : Nat × Nat} (h : Spares K s t) : Spares K s (t.setAux i q) := ite h.onDev.driveAux h.onDev

theorem setTarget {o : Option Int} (h : Spares K s t) : Spares K s (t.setTarget n o) := by
  unfold State.setTarget
  extract_lets j w s1 lo hi
  have h1 : Spares K s s1 := h.onDev.sendDemand
  split
  · exact h.setDrive
  · split
    · exact ite h1.setFlag (ite h1.coolPort h1)
    · exact h1.coolPort
  · split
    · exact h.setAux
    · exact h.setAux
  · exact h

theorem stopLoops (h : Spares K s t) : Spares K s t.stopLoops :=
  foldl _ h fun _ _ hu => ite hu.setTarget.onDev.setFlag.setFlag.setFlag hu

theorem showDrives (h : Spares K s t) (w : State) : Spares K s (w.showDrives t) := by
  unfold State.showDrives
  dsimp only
  refine foldl _ (foldl _ h fun _ _ hu => ite hu hu.emit) fun _ _ hu => ?_
  exact ite (ite hu hu.emit) (emit (ite hu hu.emit))

theorem stopConverters (h : Spares K s t) : Spares K s t.stopConverters := foldl _ h fun _ _ hu => hu.onDev.setFlag

theorem flushPend {k : Nat} (h : Spares K s t) : Spares K s (Machine.flushPend n k t) := by
  induction k generalizing t with
  | zero => exact h
  | succ k ih =>
    unfold Machine.flushPend
    split
    · exact h
    · exact ite (ih h.putUnit.onDev) h

theorem resumeStreams (h : Spares K s t) : Spares K s t.resumeStreams := foldl _ h fun _ _ hu => hu.flushPend

theorem leaveBlocks {o : OpState} (h : Spares K s t) : Spares K s (t.leaveBlocks o) := by
  unfold State.leaveBlocks
  extract_lets new s1 s2 s3 s4
  have h1 : Spares K s s1 := ite h.stopRun h
  have h2 : Spares K s s2 := ite h1.endCaptures h1
  have h3 : Spares K s s3 := ite (foldl _ h2.stopLoops fun _ _ hu => hu.coolPort).dropLines h2
  have h4 : Spares K s s4 := ite (h3.stopConverters.showDrives s3) h3
  exact ite h4.resumeStreams h4

/-! Blocks that start (R39, R41). -/

theorem switchAll (h : Spares K s t) : Spares K s t.switchAll := foldl _ h fun _ _ hu => hu.onDev.setFlag

theorem startConvs (h : Spares K s t) : Spares K s t.startConvs := by
  refine foldl _ h fun u k hu => ?_
  unfold State.startConv
  refine ite ?_ hu
  split
  · exact hu.onDev.setFlag.setFld
  · exact hu

theorem refreshUse (h : Spares K s t) : Spares K s (t.refreshUse n) := ite h.setFld.setFlag.setFlag.bump h.setFld.setFlag

theorem halt {q : Nat} (h : Spares K s t) : Spares K s (t.halt c q) := h.onDev.setFld.setFld.refreshUse

theorem abandonChain (h : Spares K s t) : Spares K s (t.abandonChain c) := by
  unfold State.abandonChain
  dsimp only
  refine ite h ?_
  split
  · exact h.onDev.halt.setReg.setReg
  · exact h.onDev.setFld.setReg.setReg

theorem abandonChains (h : Spares K s t) : Spares K s t.abandonChains := by
  unfold State.abandonChains State.showWaits
  refine foldl _ (foldl _ h fun _ _ hu => hu.abandonChain).onDev fun _ p hu => ?_
  split
  · exact hu.setFlag
  · exact hu

theorem setLinkState (h : Spares K s t) : Spares K s (t.setLinkState i v) :=
  ite h (post (ite h.setFld.setFlag (ite h.setFld.setFlag h.setFld)))

theorem linksService (h : Spares K s t) : Spares K s t.linksService :=
  foldl _ h fun _ _ hu => ite (ite hu hu.setLinkState) (ite hu.setLinkState (ite (ite hu.setLinkState hu) hu.setLinkState))

theorem enterBlocks (h : Spares K s t) : Spares K s t.enterBlocks := by
  unfold State.enterBlocks
  extract_lets s1 s2
  have h1 : Spares K s s1 := ite ((startConvs (ite h.switchAll h)).showDrives t) h
  have h2 : Spares K s s2 := ite h1.abandonChains h1
  exact h2.linksService.driveClocks

/-! A transition (R39). -/

/-- The command executing ends in its mailbox (R47). -/
theorem endRunning (h : Spares K s t) (hK : Reg.sysMbxSts ∉ K) : Spares K s (t.endRunning 6) := by
  obtain ⟨hqueue, hrunning⟩ := endRunning_cmd t 6
  refine h.trans ⟨h.sub, hqueue, Or.inr hrunning, fun r i hr => ?_⟩
  unfold State.endRunning
  split
  · have hf := (Frame.refl [.sysMbxSts, .ethTxDropCnt] [.cmd, .eth, .pairs] t).onCmd (f := fun x => { x with running := none }) (by decide)
    refine (hf.trans (endCmd_frame _ _ _ (by decide)) (by decide) (by decide)).reg r i ?_
    have : r ≠ .ethTxDropCnt := fun e => absurd (h.sub (e ▸ hr)) (by decide)
    simp only [List.mem_cons, List.not_mem_nil, or_false, not_or]
    exact ⟨fun e => hK (e ▸ hr), this⟩
  · rfl

theorem enter {o : OpState} {q : Option Nat} (h : Spares K s t) (hK : Reg.sysMbxSts ∉ K := by decide) : Spares K s (t.enter o q) := by
  unfold State.enter
  extract_lets old s1 y s2 s3 s4
  have h1 : Spares K s s1 := ite (h.keepCmd (inDev (refl t h.sub).closeLines)) h
  have h2 : Spares K s s2 := h1.of_dev rfl
  have h3 : Spares K s s3 := h2.post.reportState
  have h4 : Spares K s s4 := ite ((h3.of_frame ((Frame.refl ringRegs ringParts s3).stopGaps)).endRunning hK) h3
  exact takeDev (h4.keepCmd (refl s4 h.sub).leaveBlocks.enterBlocks)

/-- A transition that ends no command leaves the mailboxes too. -/
theorem enter_on {o : OpState} {q : Option Nat} (h : Spares K s t) (ho : o ≠ .safeHold ∧ o ≠ .fault) : Spares K s (t.enter o q) := by
  unfold State.enter
  extract_lets old s1 y s2 s3 s4
  have h1 : Spares K s s1 := ite (h.keepCmd (inDev (refl t h.sub).closeLines)) h
  have h2 : Spares K s s2 := h1.of_dev rfl
  have h3 : Spares K s s3 := h2.post.reportState
  have h4 : Spares K s s4 := by
    unfold s4
    rw [if_neg (by simp [ho])]
    exact h3
  exact takeDev (h4.keepCmd (refl s4 h.sub).leaveBlocks.enterBlocks)

end Spares

end Sys2Proof.Machine
end

section
/-! O9 (R41, R42, R50, R51, R55, R282). -/
namespace Sys2Proof.Machine

set_option Elab.async false

variable {K : List Reg} {s t : State} {i : Nat}

/-- A row of the core leaves the safety channels and the queue of rows, and what its function leaves. -/
theorem exec_lift {c : Instr} {f : State → State} {u : State} (hc : exec c s = .next (inCore f s)) (hf : f s = u) :
    ∃ t, exec c s = .next t ∧ t.dev = u.dev ∧ t.sys = u.sys ∧ t.saf = s.saf ∧ t.fuse = u.fuse ∧ t.pending = s.pending :=
  ⟨_, hc, by rw [inCore_dev, hf], by rw [inCore_sys, hf], inCore_saf _ _, by rw [inCore_fuse, hf], inCore_pending _ _⟩

theorem fld_of_dev {u : State} (h : t.dev = u.dev) (x : RegField) (i : Nat) : t.fld x i = u.fld x i := by
  unfold State.fld
  rw [reg_of_dev h]

theorem shows_of_dev {u : State} {m tag st r : Nat} (h : t.dev = u.dev) (hs : u.shows m tag st r) : t.shows m tag st r := by
  unfold State.shows at *
  simpa only [fld_of_dev h] using hs

/-! Commands that end where they are taken up, with what they do before. -/

/-- A legal command of a mailbox ends with a result behind what it does: `f` of the state with its GO taken. -/
theorem command_does (m : Fin 2) (tag : BitVec 8) (op : Nat) (args : List Nat) {r : Nat} {f : State → State} (hf : s.mailboxFree m)
    (hh : s.sys.op.held = false) (hr : r < 256)
    (he : ∀ (p : State) (c : MbxCmd), p.sys = s.sys → c.opcode = op → p.execute c = (f p).endCmd c s.sys.op.code r) :
    ∃ p t, s.command m tag op args = t ∧ p.sys = s.sys ∧ p.saf = s.saf ∧ p.fuse = s.fuse ∧ t.shows m tag.toNat s.sys.op.code r
      ∧ t.sys = (f p).sys ∧ t.fuse = (f p).fuse := by
  obtain ⟨p, c, hrun, hm, htag, hop, -, -, hp⟩ := command_run s m tag op args hf hh
  rw [he p c hp.frame.sys hop] at hrun
  have hdone := endCmd_reg (f p) c s.sys.op.code r (hm ▸ m.isLt)
  rw [hm, htag] at hdone
  exact ⟨p, _, hrun, hp.frame.sys, hp.frame.saf, hp.frame.fuse, shows_of_reg hdone tag.isLt (opCode_lt _) hr, endCmd_sys _ _ _ _,
    endCmd_fuse _ _ _ _⟩

theorem start_sys (s : State) : s.start.sys = { s.sys with op := .run, prev := s.sys.op, cause := 1 } := by
  unfold State.start
  dsimp only
  rw [takeDev_sys, enter_sys]
  rfl

theorem start_fuse (s : State) : s.start.fuse = s.fuse := by
  unfold State.start
  dsimp only
  rw [takeDev_fuse, enter_fuse]

theorem stable_sys (s : State) : s.stable.sys = { s.sys with op := .stabled, prev := s.sys.op, cause := 1 } := by
  unfold State.stable
  dsimp only
  rw [takeDev_sys, enter_sys]
  rfl

theorem hold_fuse (s : State) (cause : Nat) : (s.hold cause).fuse = s.fuse := by
  unfold State.hold
  split
  · exact enter_fuse _ _ _
  · split
    · exact inDev_fuse _ _
    · rfl

theorem release_last (s : State) (h : s.sys.holdThermal = false) (hd : s.sys.holdDram = false) : s.release.1 = 0
    ∧ s.release.2.sys = { s.sys with op := .ready, prev := s.sys.op, cause := 1, holdCmd := false } ∧ s.release.2.fuse = s.fuse := by
  unfold State.release
  rw [if_neg (by simp [h, hd])]
  refine ⟨rfl, ?_, ?_⟩
  · dsimp only
    rw [enter_sys, inDev_sys]
    rfl
  · dsimp only
    rw [enter_fuse, inDev_fuse]

theorem release_held (s : State) (h : s.sys.holdThermal = true ∨ s.sys.holdDram = true) : s.release = (8, s) := if_pos h

/-! What the executor does with a command in a state where it is legal (R50). -/

theorem execute_start (c : MbxCmd) (hc : c.opcode = 2) (h : s.sys.op = .ready) : s.execute c = s.start.endCmd c s.sys.op.code 0 := by
  unfold State.execute
  rw [hc, if_neg (by decide), if_neg (by rw [h]; decide)]
  rfl

theorem execute_stop (c : MbxCmd) (hc : c.opcode = 3) (h : s.sys.op = .run) :
    s.execute c = (s.enter .ready (some 1)).endCmd c s.sys.op.code 0 := by
  unfold State.execute
  rw [hc, if_neg (by decide), if_neg (by rw [h]; decide)]
  rfl

theorem execute_stable (c : MbxCmd) (hc : c.opcode = 4) (h : s.sys.op = .ready) : s.execute c = s.stable.endCmd c s.sys.op.code 0 := by
  unfold State.execute
  rw [hc, if_neg (by decide), if_neg (by rw [h]; decide)]
  rfl

theorem execute_wake (c : MbxCmd) (hc : c.opcode = 5) (h : s.sys.op = .stabled) : s.execute c = s.beginWake c := by
  unfold State.execute
  rw [hc, if_neg (by decide), if_neg (by rw [h]; decide)]
  rfl

theorem execute_hold (c : MbxCmd) (hc : c.opcode = 6) (h : s.sys.op = .ready ∨ s.sys.op = .run) :
    s.execute c = (s.hold 1).endCmd c s.sys.op.code 0 := by
  unfold State.execute
  rw [hc, if_neg (by decide), if_neg (by obtain h | h := h <;> rw [h] <;> decide)]
  rfl

theorem execute_release (c : MbxCmd) (hc : c.opcode = 7) (h : s.sys.op = .safeHold) :
    s.execute c = s.release.2.endCmd c s.sys.op.code s.release.1 := by
  unfold State.execute
  rw [hc, if_neg (by decide), if_neg (by rw [h]; decide)]
  rfl

/-! The end of a wake (R51, R282). -/

namespace Spares

theorem recomputeThr (h : Spares K s t) : Spares K s (t.recomputeThr i) := h.setFld.setFld

theorem takeAdapt (h : Spares K s t) : Spares K s (t.takeAdapt i) := ite h h.setFld.onDev.setFld.recomputeThr

theorem lockTap {p : SafTap} (h : Spares K s t) : Spares K s (t.lockTap p) :=
  h.setReg.setReg.setReg.setFlag.takeAdapt.takeChan.recomputeThr

theorem lockTaps (h : Spares K s t) : Spares K s t.lockTaps := by
  unfold State.lockTaps
  exact foldl _ (foldl _ h fun _ _ hu => foldl _ hu fun _ _ hv => ite hv.lockTap hv)
    fun _ _ hu => foldl _ hu fun _ _ hv => ite hv.lockTap hv

end Spares

/-- Waking the channels touches their state alone. -/
theorem Frame.selfRefresh {R : List Reg} {P : List Part} {b : Bool} (h : Frame R P s t) (hR : Reg.memChSts ∈ R := by decide) :
    Frame R P s (t.selfRefresh b) := by
  refine Frame.foldl _ h fun u n hu => ?_
  exact Frame.ite (fun _ => Frame.ite (fun _ => hu.setFld hR) fun _ => hu) fun _ => Frame.ite (fun _ => hu.setFld hR) fun _ => hu

theorem beginWake_shows (s : State) (c : MbxCmd) : (s.beginWake c).dev.cmd.running = some (c, 9)
    ∧ Frame [.memChSts] [.cmd] s (s.beginWake c) := by
  have h1 : Frame [.memChSts] [.cmd] s (s.onCmd fun x => { x with running := some (c, OpState.code .stabled) }) :=
    (Frame.refl _ _ _).onCmd (by decide)
  have hrun : (s.onCmd fun x => { x with running := some (c, OpState.code .stabled) }).dev.cmd.running = some (c, 9) := rfl
  unfold State.beginWake
  generalize (s.onCmd fun x => { x with running := some (c, OpState.code .stabled) }) = u at h1 hrun
  have h2 : Frame [.memChSts] [] u (inDev (·.selfRefresh false) u) := ((Frame.refl _ _ _).selfRefresh).inDev
  have hc : (inDev (·.selfRefresh false) u).dev.cmd = u.dev.cmd := h2.part .cmd (by decide)
  exact ⟨by rw [hc, hrun], h1.trans h2 (by decide) (by decide)⟩

/-- What the time base does on leaving STABLED touches it and the fault log (R318, R323). -/
theorem timeWakes_frame (s : State) : Frame (logRegs ++ [.timSts, .timSlew, .timRate, .timHoldCnt]) (logParts ++ [.time]) s s.timeWakes := by
  have state : ∀ {u : State} (v : Nat), Frame (logRegs ++ [.timSts, .timSlew, .timRate, .timHoldCnt]) (logParts ++ [.time]) s u →
      Frame (logRegs ++ [.timSts, .timSlew, .timRate, .timHoldCnt]) (logParts ++ [.time]) s (u.setTimState v) := fun v hu => by
    unfold State.setTimState
    refine Frame.ite (fun _ => hu) fun _ => Frame.post ?_ (by decide) (by decide)
    exact Frame.ite (fun _ => hu.setFld (by decide)) fun _ => (hu.setFld (by decide)).setFlag (by decide)
  unfold State.timeWakes State.holdoverNow
  refine Frame.ite (fun _ => Frame.logFault (state 4 ?_) (by decide) (by decide)) fun _ => Frame.refl _ _ _
  refine Frame.bump (Frame.onTime (Frame.setSfld ?_ (by decide))) (by decide)
  exact Frame.ite (fun _ => Frame.refl _ _ _) fun _ => (Frame.refl _ _ _).setSfld (by decide)

/-- The cause of READY at the end of a wake: a command where a mailbox asked for it (R51, R55). -/
def State.wakeCause (s : State) : Option Nat :=
  match s.dev.cmd.running with
  | some (c, _) => if c.mbx < 2 then some 1 else none
  | none => none

theorem wakeReady_eq (h : s.wakeStarted = true) :
    s.wakeReady = inDev (fun t => (t.endRunning 0).lockTaps) ((inDev State.timeWakes s).enter .ready s.wakeCause) := by
  unfold State.wakeReady
  rw [if_pos h]
  rfl

/-- Firmware reports that a wake is done: READY is entered, and the WAKE that asked for it ends with OK (R51). -/
theorem wakeReady_shows (h : s.wakeStarted = true) : s.wakeReady.sys.op = .ready ∧ s.wakeReady.sys.prev = .stabled
    ∧ s.wakeReady.fuse = s.fuse ∧ s.wakeReady.dev.cmd.queue = s.dev.cmd.queue ∧ s.wakeReady.dev.cmd.running = none
    ∧ ∀ c, s.dev.cmd.running = some (c, 9) → c.tag < 256 →
      s.wakeReady.sys.cause = (if c.mbx < 2 then 1 else s.sys.cause) ∧ (c.mbx < 2 → s.wakeReady.shows c.mbx c.tag 9 0) := by
  have hop := op_of_wakeStarted h
  have hw := (timeWakes_frame s).inDev (f := State.timeWakes)
  have hcmd : (inDev State.timeWakes s).dev.cmd = s.dev.cmd := hw.part .cmd (by decide)
  have hcause : ∀ c, s.dev.cmd.running = some (c, 9) → s.wakeCause.getD s.sys.cause = (if c.mbx < 2 then 1 else s.sys.cause) :=
    fun c hc => by
      unfold State.wakeCause
      rw [hc]
      dsimp only
      split <;> rfl
  rw [wakeReady_eq h]
  generalize s.wakeCause = q at hcause
  have hsys := enter_sys (inDev State.timeWakes s) .ready q
  have hfuse := enter_fuse (inDev State.timeWakes s) .ready q
  obtain ⟨hqueue, hrunning⟩ := enter_cmd (inDev State.timeWakes s) .ready q
  rw [hcmd] at hqueue hrunning
  rw [hw.sys] at hsys
  rw [hw.fuse] at hfuse
  rw [if_neg (by decide)] at hrunning
  generalize (inDev State.timeWakes s).enter .ready q = u at hsys hfuse hqueue hrunning
  obtain ⟨equeue, erunning⟩ := endRunning_cmd u 0
  have hl : Spares standingRegs (u.endRunning 0) (u.endRunning 0).lockTaps := (Spares.refl _).lockTaps
  rw [inDev_sys, inDev_fuse, inDev_dev, hsys, hop]
  refine ⟨rfl, rfl, hfuse, (hl.queue.trans equeue).trans hqueue, ?_, fun c hc htag => ?_⟩
  · exact hl.running.elim (·.trans erunning) id
  · refine ⟨hcause c hc, fun hm => shows_of_reg (tag := c.tag) ?_ htag (by decide) (by decide)⟩
    rw [reg_inDev, hl.reg _ _ (by decide)]
    unfold State.endRunning
    rw [hrunning, hc]
    exact endCmd_reg _ c 9 0 hm

/-! The rows. -/

/-- A command of a mailbox that ends with `r` behind a change of the operating state. -/
theorem exec_command {c : Instr} (m : Fin 2) (tag : BitVec 8) (op : Nat) {r : Nat} {f : State → State}
    (hc : exec c s = .next (inCore (fun s => s.command m tag op []) s)) (hf : s.mailboxFree m) (hh : s.sys.op.held = false) (hr : r < 256)
    (he : ∀ (p : State) (c : MbxCmd), p.sys = s.sys → c.opcode = op → p.execute c = (f p).endCmd c s.sys.op.code r) :
    ∃ p t, exec c s = .next t ∧ p.sys = s.sys ∧ t.sys = (f p).sys ∧ t.shows m tag.toNat s.sys.op.code r ∧ t.saf = s.saf
      ∧ (((f p).fuse = p.fuse) → t.fuse = s.fuse) := by
  obtain ⟨p, u, hrun, hsys, -, hfuse, hshows, husys, hufuse⟩ := command_does m tag op [] hf hh hr he
  obtain ⟨t, hexec, tdev, tsys, tsaf, tfuse, -⟩ := exec_lift hc hrun
  exact ⟨p, t, hexec, hsys, tsys.trans husys, shows_of_dev tdev hshows, tsaf, fun hp => by rw [tfuse, hufuse, hp, hfuse]⟩

/-- START and STOP (R41, R50, R55). -/
theorem startStop (m : Fin 2) (tag : BitVec 8) (s : State) (hf : s.mailboxFree m) :
    (s.sys.op = .ready → ∃ t, exec (.start m tag) s = .next t
      ∧ t.sys = { s.sys with op := .run, prev := .ready, cause := 1 } ∧ t.shows m tag.toNat 7 0 ∧ t.saf = s.saf ∧ t.fuse = s.fuse)
    ∧ (s.sys.op = .run → ∃ t, exec (.stop m tag) s = .next t
      ∧ t.sys = { s.sys with op := .ready, prev := .run, cause := 1 } ∧ t.shows m tag.toNat 8 0 ∧ t.saf = s.saf ∧ t.fuse = s.fuse) := by
  refine ⟨fun h => ?_, fun h => ?_⟩
  · obtain ⟨p, t, hexec, hsys, hsys', hshows, hsaf, hfuse⟩ := exec_command (c := .start m tag) m tag 2 (f := State.start) rfl hf
      (by rw [h]; rfl) (r := 0) (by decide) fun p c hp hc => by rw [← hp]; exact execute_start c hc (by rw [hp, h])
    rw [h] at hshows
    refine ⟨t, hexec, ?_, hshows, hsaf, hfuse (start_fuse p)⟩
    rw [hsys', start_sys, hsys, h]
  · obtain ⟨p, t, hexec, hsys, hsys', hshows, hsaf, hfuse⟩ := exec_command (c := .stop m tag) m tag 3 (f := fun s => s.enter .ready (some 1))
      rfl hf (by rw [h]; rfl) (r := 0) (by decide) fun p c hp hc => by rw [← hp]; exact execute_stop c hc (by rw [hp, h])
    rw [h] at hshows
    refine ⟨t, hexec, ?_, hshows, hsaf, hfuse (enter_fuse p _ _)⟩
    rw [hsys', enter_sys, hsys, h]
    rfl

/-- HOLD and RELEASE (R41, R42). -/
theorem holdRelease (m : Fin 2) (tag : BitVec 8) (s : State) (hf : s.mailboxFree m) :
    (s.sys.op = .ready ∨ s.sys.op = .run → ∃ t, exec (.hold m tag) s = .next t
      ∧ t.sys = { s.sys with op := .safeHold, prev := s.sys.op, cause := 1, holdCmd := true }
      ∧ t.shows m tag.toNat s.sys.op.code 0 ∧ t.saf = s.saf ∧ t.fuse = s.fuse)
    ∧ (s.sys.op = .safeHold → s.sys.holdThermal = false → s.sys.holdDram = false →
      ∃ t, exec (.release m tag) s = .next t
        ∧ t.sys = { s.sys with op := .ready, prev := .safeHold, cause := 1, holdCmd := false }
        ∧ t.shows m tag.toNat 10 0 ∧ t.saf = s.saf ∧ t.fuse = s.fuse)
    ∧ (s.sys.op = .safeHold → s.sys.holdThermal = true ∨ s.sys.holdDram = true →
      ∃ t, exec (.release m tag) s = .next t ∧ t.shows m tag.toNat 10 8
        ∧ keepsCore s t ∧ keepsRegs [.sysMbxCmd, .sysMbxSts] s t ∧ keepsBytes s t) := by
  refine ⟨fun h => ?_, fun h hth hdr => ?_, fun h hbits => ?_⟩
  · obtain ⟨p, t, hexec, hsys, hsys', hshows, hsaf, hfuse⟩ := exec_command (c := .hold m tag) m tag 6 (f := (·.hold 1)) rfl hf
      (by obtain h | h := h <;> rw [h] <;> rfl) (r := 0) (by decide)
      fun p c hp hc => by rw [← hp]; exact execute_hold c hc (by rw [hp]; exact h)
    refine ⟨t, hexec, ?_, hshows, hsaf, hfuse (hold_fuse p 1)⟩
    rw [hsys', hold_sys, hsys, if_pos h]
    rfl
  · obtain ⟨p, t, hexec, hsys, hsys', hshows, hsaf, hfuse⟩ := exec_command (c := .release m tag) m tag 7 (f := (·.release.2)) rfl hf
      (by rw [h]; rfl) (r := 0) (by decide) fun p c hp hc => by
        rw [execute_release c hc (by rw [hp, h]), (release_last p (by rw [hp, hth]) (by rw [hp, hdr])).1, hp]
    obtain ⟨-, hrel, hrelfuse⟩ := release_last p (by rw [hsys, hth]) (by rw [hsys, hdr])
    rw [h] at hshows
    refine ⟨t, hexec, ?_, hshows, hsaf, hfuse hrelfuse⟩
    rw [hsys', hrel, hsys, h]
  · obtain ⟨t, hrun, hshows, hkeeps⟩ := command_ends_plain m tag 7 hf (by rw [h]; rfl) (r := 8) (by decide) (by decide)
      fun p c hp _ hc => by
        have hsys := hp.frame.sys
        rw [execute_release c hc (by rw [hsys, h]), release_held p (by rw [hsys]; exact hbits), hsys]
    rw [h] at hshows
    exact ⟨t, exec_core rfl hrun hkeeps.1, hshows, hkeeps⟩

/-- The register words that a GO without arguments leaves. -/
theorem keepsRegs_prep {p u : State} {m : Nat} {R : List Reg} (hp : Prep s p m) (harg : p.reg .sysMbxArg = s.reg .sysMbxArg)
    (hu : Frame R [.cmd] p u) : keepsRegs ([.sysMbxCmd, .sysMbxSts] ++ R) s u := fun r i hr => by
  simp only [List.mem_append, List.mem_cons, List.not_mem_nil, or_false, not_or] at hr
  obtain ⟨⟨hcmd, hsts⟩, hrR⟩ := hr
  rw [hu.reg r i hrR]
  by_cases h : r = .sysMbxArg
  · rw [h, harg]
  · exact hp.frame.reg r i (by simp [h, hcmd, hsts])

theorem bytes_of_mem {u : State} (h : u.dev.mem = s.dev.mem) : keepsBytes s u := fun a => by
  unfold State.byte
  rw [h]

/-- STABLE, WAKE and a wake event (R41, R51). -/
theorem stableWake (m : Fin 2) (tag : BitVec 8) (s : State) :
    (s.mailboxFree m → s.sys.op = .ready → ∃ t, exec (.stable m tag) s = .next t
      ∧ t.sys = { s.sys with op := .stabled, prev := .ready, cause := 1 } ∧ t.shows m tag.toNat 7 0)
    ∧ (s.mailboxFree m → s.sys.op = .stabled → ∃ t, exec (.wake m tag) s = .next t ∧ t.sys = s.sys
      ∧ (∃ c, t.dev.cmd.running = some (c, 9) ∧ c.mbx = m ∧ c.tag = tag.toNat ∧ c.opcode = 5)
      ∧ t.fld F.sysMbxStsBusy m = 1 ∧ t.fld F.sysMbxStsDone m = 0
      ∧ keepsRegs [.sysMbxCmd, .sysMbxSts, .memChSts] s t ∧ keepsBytes s t)
    ∧ (s.dev.cmd.running = none → s.sys.op = .stabled → ∃ t, exec .wakeEvent s = .next t ∧ t.sys = s.sys
      ∧ t.dev.cmd.running = some (⟨2, 0, 5, []⟩, 9)
      ∧ keepsRegs [.memChSts] s t ∧ keepsBytes s t) := by
  refine ⟨fun hf h => ?_, fun hf h => ?_, fun hrun h => ?_⟩
  · obtain ⟨p, t, hexec, hsys, hsys', hshows, -⟩ := exec_command (c := .stable m tag) m tag 4 (f := State.stable) rfl hf
      (by rw [h]; rfl) (r := 0) (by decide) fun p c hp hc => by rw [← hp]; exact execute_stable c hc (by rw [hp, h])
    rw [h] at hshows
    refine ⟨t, hexec, ?_, hshows⟩
    rw [hsys', stable_sys, hsys, h]
  · obtain ⟨p, c, hcmd, hm, htag, hop, -, harg, hp⟩ := command_run s m tag 5 [] hf (by rw [h]; rfl)
    rw [execute_wake c hop (by rw [hp.frame.sys, h])] at hcmd
    obtain ⟨hrunning, hframe⟩ := beginWake_shows p c
    obtain ⟨t, hexec, tdev, tsys, -⟩ := exec_lift (c := .wake m tag) (f := fun s => s.command m tag 5 []) rfl hcmd
    have hmem : t.dev.mem = s.dev.mem := by
      rw [tdev]
      exact (hframe.part .mem (by decide) : _ = _).trans (hp.frame.part .mem (by decide))
    refine ⟨t, hexec, tsys.trans (hframe.sys.trans hp.frame.sys), ⟨c, by rw [tdev, hrunning], hm, htag, hop⟩, ?_, ?_, ?_, bytes_of_mem hmem⟩
    · rw [fld_of_dev tdev, hframe.fld _ _ (by decide)]
      exact (flag_iff _ _ _).1 hp.busy
    · rw [fld_of_dev tdev, hframe.fld _ _ (by decide), hp.notDone]
    · intro r i hr
      rw [reg_of_dev tdev]
      exact keepsRegs_prep hp harg hframe r i hr
  · obtain ⟨hrunning, hframe⟩ := beginWake_shows s ⟨2, 0, 5, []⟩
    obtain ⟨hcore, hregs, hbytes⟩ := hframe.keeps (by decide)
    exact ⟨_, exec_core rfl (if_pos ⟨h, hrun⟩) hcore, hcore.1, hrunning, hregs, hbytes⟩

/-- Faults of a state that R41 names for the cause, with no command waiting. -/
theorem toFault_enters (s : State) (cause : Nat) (h : s.sys.op.faults cause = true) : s.toFault cause = s.enter .fault (some cause) := by
  unfold State.toFault
  rw [if_neg (fun hn => by rw [hn.1] at h; exact absurd h (by simp [OpState.faults])), if_pos h]

/-- What entering FAULT shows (R41, R47). -/
theorem toFault_shows (s : State) (cause : Nat) (h : s.sys.op.faults cause = true) (hq : s.dev.cmd.queue = []) :
    (s.toFault cause).pump = s.toFault cause ∧ (s.toFault cause).sys = { s.sys with op := .fault, prev := s.sys.op, cause := cause }
      ∧ (s.toFault cause).dev.cmd.running = none ∧ (s.toFault cause).fuse = s.fuse := by
  rw [toFault_enters s cause h]
  obtain ⟨hqueue, hrunning⟩ := enter_cmd s .fault (some cause)
  exact ⟨pump_nil _ (hqueue.trans hq), enter_sys _ _ _, hrunning.trans (if_pos (by decide)), enter_fuse _ _ _⟩

/-- The end of a wake (R51). -/
theorem wakeEnds (s : State) (hq : s.dev.cmd.queue = []) :
    (s.wakeStarted = true →
      (∃ t, exec .wakeTimeout s = .next t ∧ t.saf = s.saf ∧ t.fuse = s.fuse
        ∧ t.sys = { s.sys with op := .fault, prev := .stabled, cause := 0x21 } ∧ t.dev.cmd.running = none)
      ∧ (∃ t, exec .wakeFirmwareReady s = .next t ∧ t.saf = s.saf ∧ t.fuse = s.fuse
        ∧ t.sys.op = .ready ∧ t.sys.prev = .stabled ∧ t.dev.cmd.running = none
        ∧ ∀ c, s.dev.cmd.running = some (c, 9) → c.tag < 256 → s.dev.cmd.reply = none →
          t.sys.cause = (if c.mbx < 2 then 1 else s.sys.cause) ∧ (c.mbx < 2 → t.shows c.mbx c.tag 9 0)))
    ∧ (s.wakeStarted = false → exec .wakeTimeout s = .next s ∧ exec .wakeFirmwareReady s = .next s) := by
  refine ⟨fun h => ⟨?_, ?_⟩, fun h => ?_⟩
  · have hop := op_of_wakeStarted h
    obtain ⟨hpump, hsys, hrunning, hfuse⟩ := toFault_shows s 0x21 (by rw [hop]; rfl) hq
    rw [hop] at hsys
    obtain ⟨t, hexec, tdev, tsys, tsaf, tfuse, -⟩ := exec_lift (c := .wakeTimeout)
      (f := fun s => if s.wakeStarted then (s.toFault 0x21).pump else s) rfl ((if_pos h).trans hpump)
    exact ⟨t, hexec, tsaf, tfuse.trans hfuse, tsys.trans hsys, by rw [tdev, hrunning]⟩
  · obtain ⟨hop, hprev, hfuse, hqueue, hrunning, hends⟩ := wakeReady_shows h
    obtain ⟨t, hexec, tdev, tsys, tsaf, tfuse, -⟩ := exec_lift (c := .wakeFirmwareReady) (f := fun s => s.wakeReady.pump) rfl
      (pump_nil _ (hqueue.trans hq))
    refine ⟨t, hexec, tsaf, tfuse.trans hfuse, by rw [tsys, hop], by rw [tsys, hprev], by rw [tdev, hrunning], fun c hc htag _ => ?_⟩
    obtain ⟨hcause, hshows⟩ := hends c hc htag
    exact ⟨by rw [tsys, hcause], fun hm => shows_of_dev tdev (hshows hm)⟩
  · have hready : s.wakeReady = s := if_neg (by rw [h]; decide)
    exact ⟨congrArg _ (inCore_self (if_neg (by rw [h]; decide))),
      congrArg _ (inCore_self (f := fun s => s.wakeReady.pump) ((congrArg State.pump hready).trans (pump_nil s hq)))⟩

/-- Settles O9. -/
theorem operatingStateCommands : Obligations.OperatingStateCommands :=
  ⟨fun m tag s hf => startStop m tag s hf, fun m tag s hf => holdRelease m tag s hf, fun m tag s => stableWake m tag s,
    fun s hq => wakeEnds s hq⟩

end Sys2Proof.Machine
end

section
/-! O11 (R41, R43, R99, R281, R425). -/
namespace Sys2Proof.Machine

set_option Elab.async false

variable {s t : State}

/-- A field below or above the one written keeps its value. -/
theorem fld_setFld_apart {x y : RegField} {i v : Nat} (hx : x.lo ≤ x.hi ∧ x.hi < 32) (hy : y.lo ≤ y.hi) (h : x.hi < y.lo ∨ y.hi < x.lo)
    (j : Nat) : (s.setFld x i v).fld y j = s.fld y j := fld_setFld_ne _ _ hx hy (Or.inr (Or.inr h))

/-! The channels take their full training (R281). -/

/-- Training of one channel at the block's rate, where it is in service. -/
def State.trainFully (t : State) (n : Nat) : State :=
  if t.fld F.memChStsState n = 2 ∨ t.fld F.memChStsState n = 1 then
    ((t.setFld F.memChStsState n 2).setFlag F.memChStsFastExit n true).setFld F.memChStsRateTrained n (t.fld F.memCfgRate 0)
  else t

/-- A channel shows its full training at a rate. -/
def State.trained (t : State) (rate n : Nat) : Prop :=
  t.fld F.memChStsState n = 2 ∧ t.fld F.memChStsFastExit n = 1 ∧ t.fld F.memChStsRateTrained n = rate % 16

theorem trainFully_frame (t : State) (n : Nat) : Frame [.memChSts] [] t (t.trainFully n) :=
  Frame.ite (fun _ => (((Frame.refl _ _ _).setFld (by decide)).setFlag (by decide)).setFld (by decide)) fun _ => Frame.refl _ _ _

theorem trainFully_other {n m : Nat} (h : n ≠ m) (t : State) : (t.trainFully n).reg .memChSts m = t.reg .memChSts m := by
  unfold State.trainFully
  split
  · exact (reg_setFld_ne _ _ (Or.inr h)).trans ((reg_setFld_ne _ _ (Or.inr h)).trans (reg_setFld_ne _ _ (Or.inr h)))
  · rfl

theorem trainFully_same {n : Nat} (t : State) (h : t.fld F.memChStsState n = 2 ∨ t.fld F.memChStsState n = 1) :
    (t.trainFully n).trained (t.fld F.memCfgRate 0) n := by
  unfold State.trainFully State.trained
  rw [if_pos h]
  refine ⟨?_, ?_, fld_setFld_same _ _ _ (by decide)⟩
  · rw [fld_setFld_apart (by decide) (by decide) (by decide), State.setFlag, fld_setFld_apart (by decide) (by decide) (by decide),
      fld_setFld_same _ _ _ (by decide)]
    rfl
  · rw [fld_setFld_apart (by decide) (by decide) (by decide), fld_setFlag_same _ _ (by decide)]
    rfl

/-- A trained channel stays so, and a channel in service is trained when its turn comes. -/
theorem foldl_trainFully (l : List Nat) (s : State) (rate : Nat) (hr : s.fld F.memCfgRate 0 = rate) (n : Nat) :
    (s.trained rate n → (l.foldl State.trainFully s).trained rate n)
    ∧ (n ∈ l → s.fld F.memChStsState n = 1 ∨ s.fld F.memChStsState n = 2 → (l.foldl State.trainFully s).trained rate n) := by
  induction l generalizing s with
  | nil => exact ⟨id, fun h => absurd h List.not_mem_nil⟩
  | cons m l ih =>
    obtain ⟨hkeep, htrain⟩ := ih (s.trainFully m) (((trainFully_frame s m).fld _ _ (by decide)).trans hr)
    by_cases hm : m = n
    · subst hm
      have hdone : s.fld F.memChStsState m = 2 ∨ s.fld F.memChStsState m = 1 → ((m :: l).foldl State.trainFully s).trained rate m :=
        fun h => hkeep (hr ▸ trainFully_same s h)
      exact ⟨fun h => hdone (Or.inl h.1), fun _ h => hdone h.symm⟩
    · have hsame : ∀ x : RegField, x.reg = .memChSts → (s.trainFully m).fld x n = s.fld x n := fun x hx => by
        unfold State.fld
        rw [hx, trainFully_other hm]
      refine ⟨fun h => hkeep ?_, fun hn h => htrain ?_ ?_⟩
      · unfold State.trained at *
        rwa [hsame _ rfl, hsame _ rfl, hsame _ rfl]
      · exact (List.mem_cons.1 hn).resolve_left fun e => hm e.symm
      · rwa [hsame _ rfl]

theorem initDone_eq (h : s.sys.op = .init ∧ s.flag F.thmStsShutdown 0 = false) :
    s.initDone = (s.takeDev (s.channels.foldl State.trainFully s)).enter .ready none := if_pos h

/-- INIT_COMPLETE in INIT once the calibration holds (R41, R281). -/
theorem initDone_shows (h : s.sys.op = .init ∧ s.flag F.thmStsShutdown 0 = false) :
    s.initDone.sys = { s.sys with op := .ready, prev := .init } ∧ s.initDone.fuse = s.fuse
      ∧ s.initDone.dev.cmd.queue = s.dev.cmd.queue
      ∧ ∀ n ∈ s.channels, s.fld F.memChStsState n = 1 ∨ s.fld F.memChStsState n = 2 → s.initDone.trained (s.fld F.memCfgRate 0) n := by
  have hf : Frame [.memChSts] [] s (s.takeDev (s.channels.foldl State.trainFully s)) :=
    (Frame.foldl _ (Frame.refl _ _ _) fun u n hu => hu.trans (trainFully_frame u n) (by decide) (by decide)).takeDev
  have htrain : ∀ n ∈ s.channels, s.fld F.memChStsState n = 1 ∨ s.fld F.memChStsState n = 2 →
      (s.takeDev (s.channels.foldl State.trainFully s)).trained (s.fld F.memCfgRate 0) n := fun n hn hs => by
    have := (foldl_trainFully s.channels s _ rfl n).2 hn hs
    unfold State.trained at *
    simpa only [fld_takeDev] using this
  rw [initDone_eq h]
  generalize s.takeDev (s.channels.foldl State.trainFully s) = u at hf htrain
  have hcmd : u.dev.cmd = s.dev.cmd := hf.part .cmd (by decide)
  have hs : Spares standingRegs u (u.enter .ready none) := (Spares.refl u).enter_on (by decide)
  refine ⟨?_, (enter_fuse _ _ _).trans hf.fuse, by rw [hs.queue, hcmd], fun n hn hst => ?_⟩
  · rw [enter_sys, hf.sys, h.1]
    rfl
  · have := htrain n hn hst
    unfold State.trained at *
    rwa [hs.fld, hs.fld, hs.fld]

/-- The end of the SRAM overwrite in RESET (R41, R43). -/
theorem sramDone_shows (h : s.sys.op = .reset) :
    s.sramDone.sys = (if s.sys.found23 then { s.sys with op := .fault, prev := .reset, cause := 0x23, found23 := false }
      else { s.sys with op := .blockLoad, prev := .reset })
    ∧ s.sramDone.fuse = s.fuse ∧ s.sramDone.dev.cmd.queue = s.dev.cmd.queue := by
  unfold State.sramDone
  rw [if_pos h]
  split
  · rw [enter_sys, enter_fuse, (enter_cmd _ _ _).1, h]
    exact ⟨rfl, rfl, rfl⟩
  · rw [enter_sys, enter_fuse, (enter_cmd _ _ _).1, onDev_sys, h]
    exact ⟨rfl, rfl, rfl⟩

/-- Settles O11: both ends are a transition; with nothing waiting the executor takes nothing up behind them. -/
theorem overwriteAndInit : Obligations.OverwriteAndInit := by
  refine fun s hq => ⟨fun h => ?_, fun h => ?_, fun h hcal hshut => ?_, fun h => ?_⟩
  · obtain ⟨hsys, hfuse, hqueue⟩ := sramDone_shows h
    obtain ⟨t, hexec, -, tsys, tsaf, tfuse, -⟩ := exec_lift (c := .sramOverwriteComplete) (f := fun s => s.sramDone.pump) rfl
      (pump_nil _ (hqueue.trans hq))
    exact ⟨t, hexec, tsaf, tfuse.trans hfuse, tsys.trans hsys⟩
  · have hid : s.sramDone = s := if_neg h
    exact congrArg _ (inCore_self (f := fun s => s.sramDone.pump) ((congrArg State.pump hid).trans (pump_nil s hq)))
  · obtain ⟨hsys, hfuse, hqueue, htrain⟩ := initDone_shows ⟨h, hshut⟩
    obtain ⟨t, hexec, tdev, tsys, tsaf, tfuse, -⟩ := exec_lift (c := .initComplete)
      (f := fun s => if s.calibrated then s.initDone.pump else s) rfl ((if_pos hcal).trans (pump_nil _ (hqueue.trans hq)))
    refine ⟨t, hexec, tsys.trans hsys, tsaf, tfuse.trans hfuse, fun n hn hst => ?_⟩
    rw [fld_of_dev tdev, fld_of_dev tdev, fld_of_dev tdev]
    exact htrain n hn hst
  · refine congrArg _ (inCore_self (f := fun s => if s.calibrated then s.initDone.pump else s) ?_)
    by_cases hcal : s.calibrated = true
    · have hn : ¬(s.sys.op = .init ∧ s.flag F.thmStsShutdown 0 = false) := fun ⟨ho, hs⟩ => by
        obtain h | h | h := h
        · exact h ho
        · exact Bool.false_ne_true (h.symm.trans hcal)
        · exact Bool.false_ne_true (hs.symm.trans h)
      have hid : s.initDone = s := if_neg hn
      exact (if_pos hcal).trans ((congrArg State.pump hid).trans (pump_nil s hq))
    · exact if_neg hcal

end Sys2Proof.Machine
end

section
/-! SUPPORT. An entry of the fault log on a device that may route events and run streams (R370), and what it leaves of a DRAM channel. -/
namespace Sys2Proof.Machine

set_option Elab.async false

variable {R : List Reg} {P : List Part} {s t u : State} {n v : Nat}

/-- A step that leaves the log, then an entry, has logged it. -/
theorem logs_behind (h : Frame R P s t) (code fl cls lo ph : Nat) (hR : Reg.fmkLogHead ∉ R := by decide)
    (hP : Part.time ∉ P := by decide) : s.logs (t.logFault code fl cls lo ph) code fl cls lo ph := by
  have htime : t.dev.time = s.dev.time := h.part .time hP
  have htag : t.tag = s.tag := by
    unfold State.tag State.timeFix
    rw [htime]
  unfold State.logFault State.logFaultAt State.logs
  rw [htag, ← h.fld F.fmkLogHeadHead 0 hR]
  extract_lets head tail s1 slot s2 next
  have last : Frame (postRegs ++ changeRegs) (postParts ++ ringParts) (s2.setFld F.fmkLogHeadHead 0 next)
      (((s2.setFld F.fmkLogHeadHead 0 next).post 5 slot).change 0x136 0x10 next false) :=
    ((Frame.refl _ _ _).post (by decide) (by decide)).change (by decide) (by decide)
  refine ⟨?_, fun k hk => ?_⟩
  · rw [last.fld _ _ (by decide), fld_setFld_same _ _ _ (by decide)]
    exact Nat.mod_eq_of_lt (Nat.mod_lt _ (by decide))
  · rw [last.reg _ _ (by decide), reg_setFld_ne _ _ (Or.inl (by decide)),
      (foldl_setReg_reg (logWords s.tag code fl cls lo ph) _ _ _).2 k hk]
    exact Nat.mod_eq_of_lt (logWords_lt _ _ _ _ _ _ k)

/-- What stands in the log stays there. -/
theorem logs_stand {code fl cls lo ph : Nat} (h : s.logs t code fl cls lo ph) (hlog : ∀ i, u.reg .fmkLog i = t.reg .fmkLog i)
    (hhead : u.fld F.fmkLogHeadHead 0 = t.fld F.fmkLogHeadHead 0) : s.logs u code fl cls lo ph :=
  ⟨hhead.trans h.1, fun k hk => (hlog _).trans (h.2 k hk)⟩

/-- An access error is counted, wherever event 22 goes (R431). -/
theorem accErr_counts (s : State) (m : Master) (k a : Nat) : s.countsError (s.accErr m k a) := by
  unfold State.countsError State.accErr
  have last : Frame (Reg.sysAccErrLast :: postRegs) postParts (s.bump F.sysAccErrCntCount 0 1)
      (((s.bump F.sysAccErrCntCount 0 1).setReg .sysAccErrLast 0 (packBits [(26, a / 4), (3, k), (3, masterCode m)])).post 22
        (masterCode m)) := ((Frame.refl _ _ _).setReg (by decide)).post (by decide) (by decide)
  rw [last.fld _ _ (by decide), fld_bump_same _ _ _ (by decide)]
  rfl

/-! Degraded channels stay so, whatever is written to memory (R284). -/

/-- Each channel stands degraded, or not, as before. -/
def KeepsDegraded (s t : State) : Prop := ∀ n, (t.dram n).degraded = (s.dram n).degraded

namespace KeepsDegraded

theorem refl (s : State) : KeepsDegraded s s := fun _ => rfl

theorem of_frame (h : KeepsDegraded s t) (f : Frame R P t u) (hP : Part.dram ∉ P := by decide) : KeepsDegraded s u := fun n => by
  have hd : u.dev.dram = t.dev.dram := f.part .dram hP
  rw [← h n]
  unfold State.dram
  rw [hd]

theorem ite {c : Prop} [Decidable c] {y z : State} (hy : c → KeepsDegraded s y) (hz : ¬c → KeepsDegraded s z) :
    KeepsDegraded s (if c then y else z) := by
  split
  · exact hy ‹_›
  · exact hz ‹_›

theorem foldl {α : Type} {f : State → α → State} (l : List α) (h : KeepsDegraded s t)
    (hf : ∀ u b, KeepsDegraded s u → KeepsDegraded s (f u b)) : KeepsDegraded s (l.foldl f t) := by
  induction l generalizing t with
  | nil => exact h
  | cons b l ih => exact ih (hf t b h)

theorem onDev {g : Dev → Dev} (h : KeepsDegraded s t) (hg : ∀ d, (g d).dram = d.dram := by intro; rfl) : KeepsDegraded s (t.onDev g) :=
  fun n => by
    rw [← h n]
    unfold State.dram
    rw [onDev_dev, hg]

theorem setReg {r : Reg} {i : Nat} (h : KeepsDegraded s t) : KeepsDegraded s (t.setReg r i v) := h.onDev

theorem setFlag {x : RegField} {i : Nat} {b : Bool} (h : KeepsDegraded s t) : KeepsDegraded s (t.setFlag x i b) := h.onDev

theorem setFld {x : RegField} {i : Nat} (h : KeepsDegraded s t) : KeepsDegraded s (t.setFld x i v) := h.onDev

theorem bump {x : RegField} {i : Nat} (h : KeepsDegraded s t) : KeepsDegraded s (t.bump x i v) := h.onDev

theorem setDram {x : DramCh} (h : KeepsDegraded s t) (hx : x.degraded = (s.dram n).degraded) : KeepsDegraded s (t.setDram n x) := fun m => by
  unfold State.setDram
  by_cases hm : n = m
  · rw [← hm, ← hx]
    exact congrArg DramCh.degraded (smGet_put_same _ _ _ _)
  · rw [← h m]
    exact congrArg DramCh.degraded (smGet_put_ne _ _ _ _ hm)

theorem store {a : Nat} {l : List Byte} (h : KeepsDegraded s t) : KeepsDegraded s (t.store a l) :=
  ite (fun _ => h) fun _ => foldl _ h fun _ c hu => ite (fun _ => hu.setDram (h c)) fun _ => hu

theorem dmaWrite {a : Nat} {l : List Byte} (h : KeepsDegraded s t) : KeepsDegraded s (t.dmaWrite a l) := by
  unfold State.dmaWrite
  split
  · exact h.store
  · exact h.store
  · exact h.of_frame ((Frame.refl [] [.pci, .out] t).hostPost)
  · exact ite (fun _ => h.of_frame ((Frame.refl [] [.links, .out] t).bridgeWrite (by decide))) fun _ => h
  · exact h

theorem cqWrite {k : Nat} {x : CqRec} {b : Bool} (h : KeepsDegraded s t) : KeepsDegraded s (t.cqWrite k x b) := by
  unfold State.cqWrite
  extract_lets wr s1 next s2 s3
  have h3 : KeepsDegraded s s3 := ite (fun _ => h.dmaWrite.setReg.setFlag) fun _ => h.dmaWrite.setReg
  refine ite (fun _ => ?_) fun _ => h3
  refine ite (fun _ => h3.of_frame (R := postRegs) (P := [.links, .out, .pci, .dma]) ?_) fun _ => h3.onDev
  exact ((Frame.refl _ _ _).setCqPending (by decide)).sendVector

theorem postToQueue {e i : Nat} (h : KeepsDegraded s t) : KeepsDegraded s (t.postToQueue e i) := by
  unfold State.postToQueue
  dsimp only
  refine ite (fun _ => h.setReg) fun _ => ?_
  split
  · exact h.onDev
  · exact ite (fun _ => h.onDev.setFlag) fun _ => h.cqWrite

theorem post {e i : Nat} (h : KeepsDegraded s t) : KeepsDegraded s (t.post e i) := by
  unfold State.post
  extract_lets w was s1 s2 s3
  have h1 : KeepsDegraded s s1 := h.setReg
  clear_value s1
  have h2 : KeepsDegraded s s2 :=
    ite (fun _ => h1.of_frame ((Frame.refl [.pciMsixPba] [.links, .out, .pci] s1).sendVector)) fun _ => h1
  have h3 : KeepsDegraded s s3 := ite (fun _ => h2.postToQueue) fun _ => h2
  exact ite (fun _ => h3.of_frame ((Frame.refl [] [.dma, .out] s3).setIrq (by decide) (by decide))) fun _ => h3

theorem ringPut {l : List Byte} (h : KeepsDegraded s t) : KeepsDegraded s (t.ringPut n l) := by
  have hs : KeepsDegraded s (((t.ringStore n (t.reg .acqStrWr n) (pad8 l)).setReg .acqStrWr n
      ((t.reg .acqStrWr n + (pad8 l).length) % t.ringSize n)).bump F.acqStrRecCntCount n 1) := h.store.store.setReg.bump
  exact ite (fun _ => ite (fun _ => hs.setFlag) fun _ => ite (fun _ => hs.setFlag) fun _ => hs) fun _ => hs

theorem ringPutAll {l : List (List Byte)} (h : KeepsDegraded s t) : KeepsDegraded s (t.ringPutAll n l) := foldl l h fun _ _ hu => hu.ringPut

theorem putUnit {l : List (List Byte)} (h : KeepsDegraded s t) : KeepsDegraded s (t.putUnit n l) := by
  have hg : KeepsDegraded s (t.putGaps n) := (h.ringPutAll).of_frame (R := []) (P := [.acq]) ((Frame.refl _ _ _).setStream (by decide))
  exact hg.ringPutAll.setFlag

theorem change {src k : Nat} {b : Bool} (h : KeepsDegraded s t) : KeepsDegraded s (t.change src k v b) := by
  unfold State.change State.changeAt State.recordChange
  dsimp only
  refine ite (fun _ => h) fun _ => ite (fun _ => foldl _ h.onDev fun u m hu => ite (fun _ => ?_) fun _ => hu) fun _ => h.onDev
  exact ite (fun _ => hu.putUnit) fun _ => ite (fun _ => hu.setFlag.onDev.bump) fun _ => hu.setFlag.onDev

theorem logFault {code fl cls lo ph : Nat} (h : KeepsDegraded s t) : KeepsDegraded s (t.logFault code fl cls lo ph) := by
  unfold State.logFault State.logFaultAt
  extract_lets head tail s1 slot s2 next
  have hs : Frame logRegs [] t (s2.setFld F.fmkLogHeadHead 0 next) := by
    refine (Frame.foldl_pair _ _ ?_ fun p x hp => hp.setReg (by decide)).setFld (by decide)
    exact Frame.ite (fun _ => ((Frame.refl _ _ _).setFld (by decide)).bump (by decide)) fun _ => Frame.refl _ _ _
  exact (h.of_frame hs).post.change

end KeepsDegraded

end Sys2Proof.Machine
end

section
/-! O44 (R278, R281, R284, R285, R368, R371). -/
namespace Sys2Proof.Machine

set_option Elab.async false

variable {s s0 t u : State} {n : Nat}

/-- A bit within a field is cut alike from the field and from the number. -/
theorem bitsOf_mod_width (u : Nat) {i k : Nat} (hi : i < k) : bitsOf (u % 2 ^ k) i i = bitsOf u i i := by
  have hd : (2 : Nat) ^ (i + 1) ∣ 2 ^ k := pow_dvd_pow 2 hi
  unfold bitsOf
  rw [Nat.sub_self, Nat.zero_add, ← Nat.mod_mul_right_div_self, ← Nat.mod_mul_right_div_self (m := u), ← pow_add,
    Nat.mod_mod_of_dvd _ hd]

theorem bitOf_putBits_self (w : Nat) {i k : Nat} (hi : i < k) : bitOf (putBits w i i 1 % 2 ^ k) i = true := by
  rw [bitOf_eq_bitsOf, bitsOf_mod_width _ hi, bitsOf_putBits_same w 1 le_rfl, Nat.sub_self]
  rfl

/-- An entry of the miscellaneous map stands, and MAP_ANY with it (R368, R371). -/
theorem mapMisc_shows (s : State) {x : RegField} (hx : x.reg = .fmkMapMisc) (hw : x.lo ≤ x.hi ∧ x.hi < 32) {i : Nat} (hi : i ≤ x.hi - x.lo) :
    bitOf ((s.mapMisc x i true).fld x 0) i = true ∧ (s.mapMisc x i true).flag F.fmkStsMapAny 0 = true
      ∧ Frame ([.fmkMapMisc, .fmkSts] ++ changeRegs) ringParts s (s.mapMisc x i true) := by
  have hR : x.reg ∈ [Reg.fmkMapMisc, .fmkSts] ++ changeRegs := by rw [hx]; decide
  have hset : Frame ([.fmkMapMisc, .fmkSts] ++ changeRegs) ringParts s (s.setFld x 0 (putBits (s.fld x 0) i i 1)) :=
    (Frame.refl _ _ _).setFld hR
  have hbit : bitOf ((s.setFld x 0 (putBits (s.fld x 0) i i 1)).fld x 0) i = true := by
    rw [fld_setFld_same _ _ _ hw]
    exact bitOf_putBits_self _ (by omega)
  unfold State.mapMisc State.miscMapChanged
  rw [show b2n true = 1 from rfl]
  generalize s.setFld x 0 (putBits (s.fld x 0) i i 1) = w at hset hbit
  extract_lets s1 spare
  have hany : s1.flag F.fmkStsMapAny 0 = true := by
    have hne : w.reg .fmkMapMisc 0 ≠ 0 := fun h => by
      rw [show w.fld x 0 = 0 from by unfold State.fld; rw [hx, h]; simp [bitsOf]] at hbit
      simp [bitOf] at hbit
    refine (flag_setFlag_same _ _ (by decide) _).trans ?_
    simp [hne]
  have h1 : Frame [.fmkSts] [] w s1 := (Frame.refl _ _ _).setFlag (by decide)
  clear_value s1
  have last := (((Frame.refl changeRegs ringParts s1).change (src := 0x131) (k := 0x13)
    (v := s1.fld F.fmkMapMiscLost 0 + 16 * s1.fld F.fmkMapMiscRetired 0) (b := false)).change (src := 0x132) (k := 0x13)
    (v := s1.fld F.fmkMapMiscLinks 0 + 16 * spare) (b := false)).change (src := 0x133) (k := 0x13)
    (v := s1.fld F.fmkMapMiscUtil 0) (b := false)
  refine ⟨?_, ?_, hset.trans ((h1.mono (R := [.fmkSts] ++ changeRegs) (P := ringParts) (by decide) (by decide)).trans last (by decide)
    (by decide)) (by decide) (by decide)⟩
  · rw [last.fld x 0 (by rw [hx]; decide), h1.fld x 0 (by rw [hx]; decide)]
    exact hbit
  · rw [last.flag _ _ (by decide)]
    exact hany

/-- The channel's word alone changes before a log entry of its own. -/
theorem retire_shows (h0 : Frame [] [.dram] s s0) (hn : n < 4) : Frame ([.memChSts, .fmkMapMisc, .fmkSts] ++ logRegs) (.dram :: logParts) s (s0.retire n)
    ∧ (s0.retire n).fld F.memChStsState n = 5 ∧ (s0.retire n).fld F.memChStsMigPct n = 100
    ∧ bitOf ((s0.retire n).fld F.fmkMapMiscRetired 0) n = true ∧ s.logs (s0.retire n) 0x0E 3 0x07 n 0xFFFF := by
  unfold State.retire
  extract_lets s1 s2
  have h2 : Frame [.memChSts] [.dram] s s2 :=
    have h1 : Frame [.memChSts] [.dram] s s1 := ((h0.mono (by decide) (by decide)).setFld (by decide)).setFld (by decide)
    Frame.ite (fun _ => h1.setFlag (by decide)) fun _ => h1
  have hstate : s2.fld F.memChStsState n = 5 := by
    have h1 : s1.fld F.memChStsState n = 5 := (fld_setFld_apart (by decide) (by decide) (by decide) n).trans (fld_setFld_same _ _ _ (by decide))
    unfold s2
    split
    · exact (fld_setFld_apart (by decide) (by decide) (by decide) n).trans h1
    · exact h1
  have hpct : s2.fld F.memChStsMigPct n = 100 := by
    have h1 : s1.fld F.memChStsMigPct n = 100 := fld_setFld_same _ _ _ (by decide)
    unfold s2
    split
    · exact (fld_setFld_apart (by decide) (by decide) (by decide) n).trans h1
    · exact h1
  clear_value s2
  obtain ⟨hbit, -, hmap⟩ := mapMisc_shows s2 (x := F.fmkMapMiscRetired) rfl (by decide) (i := n) (Nat.le_of_lt_succ hn)
  generalize s2.mapMisc F.fmkMapMiscRetired n true = w at hbit hmap
  have hw : Frame ([.memChSts, .fmkMapMisc, .fmkSts] ++ changeRegs) (.dram :: ringParts) s w :=
    (h2.mono (by decide) (by decide)).trans hmap (by decide) (by decide)
  have hlog : Frame logRegs logParts w (w.logFault 0x0E 3 0x07 n 0xFFFF) := (Frame.refl _ _ _).logFault
  refine ⟨(hw.mono (by decide) (by decide)).trans hlog (by decide) (by decide), ?_, ?_, ?_, logs_behind hw _ _ _ _ _⟩
  · rw [hlog.fld _ _ (by decide), hmap.fld _ _ (by decide), hstate]
  · rw [hlog.fld _ _ (by decide), hmap.fld _ _ (by decide), hpct]
  · rw [hlog.fld _ _ (by decide), hbit]

/-- A channel that turns degraded (R284). -/
theorem degrade_shows (h0 : Frame [.memChCtl] [] s s0) (hst : s0.fld F.memChStsState n = 2) (hd : (s0.dram n).degraded = false)
    (hr : s0.reserveFree n = true) : keepsCore s (s0.degrade n) ∧ (s0.degrade n).fld F.memChStsState n = 4
    ∧ (s0.degrade n).fld F.memChStsMigPct n = 0 ∧ ((s0.degrade n).dram n).degraded = true ∧ s.logs (s0.degrade n) 0x0D 1 0x07 n n := by
  unfold State.degrade
  rw [if_pos ⟨hst, hd, hr⟩]
  have hdram : ((s0.setDram n { s0.dram n with degraded := true }).dram n).degraded = true :=
    congrArg DramCh.degraded (smGet_put_same _ _ _ _)
  have h1 : Frame [.memChCtl, .memChSts] [.dram] s (s0.setDram n { s0.dram n with degraded := true }) :=
    (h0.mono (by decide) (by decide)).setDram (by decide)
  generalize s0.setDram n { s0.dram n with degraded := true } = v at hdram h1
  have hstate : ((v.setFld F.memChStsState n 4).setFld F.memChStsMigPct n 0).fld F.memChStsState n = 4 :=
    (fld_setFld_apart (by decide) (by decide) (by decide) n).trans (fld_setFld_same _ _ _ (by decide))
  have hpct : ((v.setFld F.memChStsState n 4).setFld F.memChStsMigPct n 0).fld F.memChStsMigPct n = 0 := fld_setFld_same _ _ _ (by decide)
  have hw : Frame [.memChCtl, .memChSts] [.dram] s ((v.setFld F.memChStsState n 4).setFld F.memChStsMigPct n 0) :=
    (h1.setFld (by decide)).setFld (by decide)
  have hkeep : KeepsDegraded v ((v.setFld F.memChStsState n 4).setFld F.memChStsMigPct n 0) :=
    (KeepsDegraded.refl v).setFld.setFld
  generalize (v.setFld F.memChStsState n 4).setFld F.memChStsMigPct n 0 = w at hstate hpct hw hkeep
  have hlog : Frame logRegs logParts w (w.logFault 0x0D 1 0x07 n n) := (Frame.refl _ _ _).logFault
  refine ⟨keepsCore_trans hw.core hlog.core, ?_, ?_, (hkeep.logFault n).trans hdram, logs_behind hw _ _ _ _ _⟩
  · rw [hlog.fld _ _ (by decide), hstate]
  · rw [hlog.fld _ _ (by decide), hpct]

/-! MIGRATE (R284). -/

theorem placed_memChCtl (ch : Fin 4) : Placed .memChCtl ch := by
  have h : ∀ n : Fin 4, Placed .memChCtl n := by
    unfold Placed
    decide +kernel
  exact h ch

theorem unguarded_memChCtl : Unguarded .memChCtl :=
  { mailbox := by decide, shade := by decide, period := by decide, held := by decide +kernel, judged := by rfl,
    command := fun _ _ _ _ _ _ => by rfl, locked := fun _ _ => by rfl, fixed := fun _ => by rfl,
    values := fun _ _ => by rfl, owner := fun _ _ _ => by rfl, before := fun _ _ _ => by rfl }

/-- The word that MIGRATE writes. -/
abbrev migrateWord : Nat := withBit 0 31 % 2 ^ 32

theorem refusedBy_migrate : refusedBy s t .memChCtl n migrateWord = if s.migrateOk n then none else some (4, s) := by
  have h : refuseQueues s t .memChCtl n migrateWord = if s.migrateOk n then none else some (4, s) := by
    unfold refuseQueues
    dsimp only
    cases s.migrateOk n <;> rfl
  change (refuseQueues s t .memChCtl n migrateWord).orElse (fun _ => none) = _
  rw [h]
  cases s.migrateOk n <;> rfl

theorem afterQueues_memChCtl {v : Nat} : afterQueues s t .memChCtl n v = if bitOf v 31 then t.degrade n else t := by rfl

theorem afterBlocks_memChCtl {v : Nat} : afterRanging s t .memChCtl n v = t ∧ afterLoop s t .memChCtl n v = t
    ∧ afterImaging s t .memChCtl n v = t ∧ afterLinks s t .memChCtl n v = t ∧ afterMea s t .memChCtl n v = t :=
  ⟨rfl, rfl, rfl, rfl, rfl⟩

theorem afterWrite_memChCtl {v : Nat} (h : bitOf v 31 = true) : s.afterWrite t .memChCtl n v = t.degrade n := by
  unfold State.afterWrite
  dsimp only
  rw [afterBlocks_memChCtl.1, afterBlocks_memChCtl.2.1, afterBlocks_memChCtl.2.2.1, afterQueues_memChCtl, if_pos h,
    afterBlocks_memChCtl.2.2.2.1, afterBlocks_memChCtl.2.2.2.2]

theorem writeReg_migrate {m : Master} {a : Nat} (h : s.migrateOk n = true) :
    s.writeReg m .memChCtl n migrateWord a
      = (s.setReg .memChCtl n (mergeWord .memChCtl n (s.reg .memChCtl n) migrateWord)).degrade n := by
  rw [unguarded_memChCtl.stored (by rfl) (by decide) (by rw [refusedBy_migrate, h]; rfl), afterWrite_memChCtl (by decide)]

theorem writeReg_migrate_refused {m : Master} {a : Nat} (h : s.migrateOk n = false) :
    s.writeReg m .memChCtl n migrateWord a = s.accErr m 4 a := by
  rw [unguarded_memChCtl.refused (x := (4, s)) (by rfl) (by decide) (by rw [refusedBy_migrate, h]; rfl)]

/-- A free reserve is read in the channels' words and records. -/
theorem reserveFree_frame (h : Frame [.memChCtl] [] s t) : t.reserveFree n = s.reserveFree n := by
  have hd : t.dev.dram = s.dev.dram := h.part .dram (by decide)
  unfold State.reserveFree State.channels State.dram
  simp only [hd, h.flag F.memCfgRemapEn 0 (by decide), h.fld F.memCfgPop 0 (by decide), h.fld F.memChStsState _ (by decide)]

theorem migrate_shows (m : Master) (ch : Fin 4) (hr : s.reaches m .memChCtl ch) (h : s.migrateOk ch = true)
    (hd : (s.dram ch).degraded = false) : ∃ t, exec (.migrate m ch) s = .next t ∧ keepsCore s t ∧ t.fld F.memChStsState ch = 4
      ∧ t.fld F.memChStsMigPct ch = 0 ∧ (t.dram ch).degraded = true ∧ s.logs t 0x0D 1 0x07 ch ch := by
  have h0 : Frame [.memChCtl] [] s (s.setReg .memChCtl ch (mergeWord .memChCtl ch (s.reg .memChCtl ch) migrateWord)) :=
    (Frame.refl _ _ _).setReg (by decide)
  have hdram : (s.setReg .memChCtl ch (mergeWord .memChCtl ch (s.reg .memChCtl ch) migrateWord)).dram ch = s.dram ch := rfl
  have hw := writeReg_migrate (m := m) (a := Reg.memChCtl.addr ch) h
  generalize s.setReg .memChCtl ch (mergeWord .memChCtl ch (s.reg .memChCtl ch) migrateWord) = s0 at h0 hdram hw
  unfold State.migrateOk at h
  simp only [Bool.and_eq_true, decide_eq_true_eq] at h
  obtain ⟨⟨⟨-, hst⟩, hfree⟩, -⟩ := h
  have shows := degrade_shows h0 ((h0.fld _ _ (by decide)).trans hst) ((congrArg DramCh.degraded hdram).trans hd)
    ((reserveFree_frame h0).trans hfree)
  exact ⟨_, congrArg Host.Outcome.next (inCore_writeAt (placed_memChCtl ch) hr (by decide) hw shows.1), shows⟩

theorem migrate_refused (m : Master) (ch : Fin 4) (hr : s.reaches m .memChCtl ch) (h : s.migrateOk ch = false) :
    ∃ t, exec (.migrate m ch) s = .next t ∧ keepsCore s t ∧ t.fld F.memChStsState ch = s.fld F.memChStsState ch ∧ s.countsError t := by
  have hf : Frame errRegs postParts s (s.accErr m 4 (Reg.memChCtl.addr ch)) := (Frame.refl _ _ _).accErr
  exact ⟨_, congrArg Host.Outcome.next (inCore_writeAt (placed_memChCtl ch) hr (by decide) (writeReg_migrate_refused h) hf.core), hf.core,
    hf.fld _ _ (by decide), accErr_counts _ _ _ _⟩

/-! A copied grain (R284). -/

theorem grainCopied_off (h : s.fld F.memChStsState n ≠ 4 ∨ s.inOp [.ready, .run, .safeHold] = false) : s.grainCopied n [] = s := if_pos h

theorem grainCopied_on (hst : s.fld F.memChStsState n = 4) (hop : s.inOp [.ready, .run, .safeHold] = true) :
    s.grainCopied n [] = (let s2 := s.setDram n { s.dram n with flipped := (s.dram n).flipped + 1 }
      if s.grains ≤ (s.dram n).flipped + 1 then inDev (·.retire n) s2
      else s2.setFld F.memChStsMigPct n (100 * ((s.dram n).flipped + 1) / s.grains)) := by
  unfold State.grainCopied
  rw [if_neg (by rw [hst, hop]; decide)]
  dsimp only [List.foldl_nil]
  rw [if_neg (by rw [hst]; decide)]

theorem dram_setFld (s : State) (x : RegField) (i v k : Nat) : (s.setFld x i v).dram k = s.dram k := by rfl

/-- A grain that is not the last flips (R284). -/
theorem grainCopied_flips (hq : s.dev.cmd.queue = []) (hst : s.fld F.memChStsState n = 4) (hop : s.inOp [.ready, .run, .safeHold] = true)
    (hk : (s.dram n).flipped + 1 < s.grains) : ∃ t, (s.grainCopied n []).pump = t ∧ keepsCore s t ∧ keepsBytes s t
      ∧ keepsRegs [.memChSts] s t ∧ t.dram n = { s.dram n with flipped := (s.dram n).flipped + 1 }
      ∧ t.fld F.memChStsMigPct n = 100 * ((s.dram n).flipped + 1) / s.grains := by
  rw [grainCopied_on hst hop]
  dsimp only
  rw [if_neg (by omega)]
  have hdram : (s.setDram n { s.dram n with flipped := (s.dram n).flipped + 1 }).dram n
      = { s.dram n with flipped := (s.dram n).flipped + 1 } := smGet_put_same _ _ _ _
  have hv : Frame [.memChSts] [.dram] s (s.setDram n { s.dram n with flipped := (s.dram n).flipped + 1 }) := (Frame.refl _ _ _).setDram (by decide)
  generalize s.setDram n { s.dram n with flipped := (s.dram n).flipped + 1 } = v at hdram hv
  have hw : Frame [.memChSts] [.dram] s (v.setFld F.memChStsMigPct n (100 * ((s.dram n).flipped + 1) / s.grains)) := hv.setFld (by decide)
  have hcmd : (v.setFld F.memChStsMigPct n (100 * ((s.dram n).flipped + 1) / s.grains)).dev.cmd = s.dev.cmd := hw.part .cmd (by decide)
  obtain ⟨hcore, hregs, hbytes⟩ := hw.keeps (by decide)
  refine ⟨_, pump_nil _ (by rw [hcmd, hq]), hcore, hbytes, hregs, (dram_setFld _ _ _ _ _).trans hdram, ?_⟩
  rw [fld_setFld_same _ _ _ (by decide)]
  refine Nat.mod_eq_of_lt (Nat.lt_of_le_of_lt (Nat.div_le_of_le_mul ?_) (by decide : 100 < 128))
  rw [Nat.mul_comm s.grains]
  exact Nat.mul_le_mul_left 100 hk.le

/-- The last grain retires the channel (R284). -/
theorem grainCopied_retires (hn : n < 4) (hq : s.dev.cmd.queue = []) (hst : s.fld F.memChStsState n = 4)
    (hop : s.inOp [.ready, .run, .safeHold] = true) (hk : s.grains ≤ (s.dram n).flipped + 1) :
    ∃ t, (s.grainCopied n []).pump = t ∧ keepsCore s t ∧ t.fld F.memChStsState n = 5 ∧ t.fld F.memChStsMigPct n = 100
      ∧ bitOf (t.fld F.fmkMapMiscRetired 0) n = true ∧ s.logs t 0x0E 3 0x07 n 0xFFFF := by
  rw [grainCopied_on hst hop]
  dsimp only
  rw [if_pos hk]
  have hv : Frame [] [.dram] s (s.setDram n { s.dram n with flipped := (s.dram n).flipped + 1 }) := (Frame.refl _ _ _).setDram (by decide)
  generalize s.setDram n { s.dram n with flipped := (s.dram n).flipped + 1 } = v at hv
  obtain ⟨hframe, hstate, hpct, hbit, hlogs⟩ := retire_shows hv hn
  have hcore := (retire_shows (Frame.refl [] [.dram] v) hn).1.core
  rw [show inDev (·.retire n) v = v.retire n from inDev_eq rfl hcore]
  have hcmd : (v.retire n).dev.cmd = s.dev.cmd := hframe.part .cmd (by decide)
  exact ⟨_, pump_nil _ (by rw [hcmd, hq]), hframe.core, hstate, hpct, hbit, hlogs⟩

/-! A lost channel (R285). -/

/-- The words and the record of a channel that is lost. -/
def State.channelGone (s : State) (n : Nat) : State :=
  let s1 := s.setFld F.memChStsState n 6
  let s2 := if s.reserveFree n then
      (s1.setDram n { s.dram n with lostFrom := some (s.dram n).flipped, flipped := s.grains }).setFld F.memChStsMigPct n 100
    else s1
  if n < 2 then s2.setFlag F.memChStsFwMirror 1 false else s2

/-- A lost channel behind its entries in the fault map and the log. -/
def State.channelLogged (s : State) (n : Nat) : State :=
  s.takeDev (((s.channelGone n).mapMisc F.fmkMapMiscLost n true).logFault 0x0F 2 0x07 n 0xFFFF)

/-- What a channel's loss leads to (R278, R285). -/
theorem loseChannel_eq (hc : n ∈ s.channels)
    (hst : s.fld F.memChStsState n ≠ 0 ∧ s.fld F.memChStsState n ≠ 5 ∧ s.fld F.memChStsState n ≠ 6) :
    s.loseChannel n = (if n < 2 ∧ (s.channelLogged n).fwCopy 0 = false ∧ (s.channelLogged n).fwCopy 1 = false then
        (s.channelLogged n).toFault 0x22
      else if n = 0 then
        if s.reserveFree n = true ∧ ((s.channelLogged n).hold 0x12).sys.holdDram then ((s.channelLogged n).hold 0x12).unhold 0x12
        else (s.channelLogged n).hold 0x12
      else s.channelLogged n) := by
  have hcont : s.channels.contains n = true := List.contains_iff_mem.2 hc
  unfold State.loseChannel
  dsimp only
  rw [if_neg (by simp only [hcont, Bool.not_true, Bool.false_or, decide_eq_true_eq]; tauto)]
  rfl

theorem fld_setDram (s : State) (y : DramCh) (x : RegField) (k : Nat) : (s.setDram n y).fld x k = s.fld x k := by rfl

theorem channelGone_shows (s : State) (n : Nat) : Frame [.memChSts] [.dram] s (s.channelGone n)
    ∧ (s.channelGone n).fld F.memChStsState n = 6 ∧ ∀ k, k ≠ n → (s.channelGone n).fld F.memChStsState k = s.fld F.memChStsState k := by
  unfold State.channelGone
  extract_lets s1 x s2
  have h1 : Frame [.memChSts] [.dram] s s1 := (Frame.refl _ _ _).setFld (by decide)
  have h2 : Frame [.memChSts] [.dram] s s2 := Frame.ite (fun _ => (h1.setDram (by decide)).setFld (by decide)) fun _ => h1
  have e2 : ∀ k, s2.fld F.memChStsState k = s1.fld F.memChStsState k := fun k => by
    unfold s2
    split
    · exact (fld_setFld_apart (by decide) (by decide) (by decide) k).trans (fld_setDram s1 _ _ k)
    · rfl
  have e3 : ∀ k, (if n < 2 then s2.setFlag F.memChStsFwMirror 1 false else s2).fld F.memChStsState k = s1.fld F.memChStsState k := fun k => by
    rw [← e2]
    split
    · exact fld_setFld_apart (by decide) (by decide) (by decide) k
    · rfl
  refine ⟨Frame.ite (fun _ => h2.setFlag (by decide)) fun _ => h2, ?_, fun k hk => ?_⟩
  · rw [e3]
    exact fld_setFld_same _ _ _ (by decide)
  · rw [e3]
    exact fld_setFld_ne _ _ (by decide) (by decide) (Or.inr (Or.inl hk.symm))

/-- A lost channel shows, in its word, in the map and in the log. -/
theorem channelLogged_shows (s : State) (hn : n < 4) : keepsCore s (s.channelLogged n) ∧ (s.channelLogged n).dev.cmd = s.dev.cmd
    ∧ (s.channelLogged n).fld F.memChStsState n = 6 ∧ bitOf ((s.channelLogged n).fld F.fmkMapMiscLost 0) n = true
    ∧ (s.channelLogged n).flag F.fmkStsMapAny 0 = true ∧ s.logs (s.channelLogged n) 0x0F 2 0x07 n 0xFFFF
    ∧ ∀ k, k ≠ n → (s.channelLogged n).fwCopy k = s.fwCopy k := by
  obtain ⟨hgone, hstate, hothers⟩ := channelGone_shows s n
  obtain ⟨hbit, hany, hmap⟩ := mapMisc_shows (s.channelGone n) (x := F.fmkMapMiscLost) rfl (by decide) (i := n) (Nat.le_of_lt_succ hn)
  unfold State.channelLogged
  generalize (s.channelGone n).mapMisc F.fmkMapMiscLost n true = w at hbit hany hmap
  generalize s.channelGone n = v at hgone hstate hothers hmap
  have hw : Frame ([.memChSts, .fmkMapMisc, .fmkSts] ++ changeRegs) (.dram :: ringParts) s w :=
    (hgone.mono (by decide) (by decide)).trans hmap (by decide) (by decide)
  have hlog : Frame logRegs logParts w (w.logFault 0x0F 2 0x07 n 0xFFFF) := (Frame.refl _ _ _).logFault
  have hlogs := logs_behind hw 0x0F 2 0x07 n 0xFFFF
  generalize w.logFault 0x0F 2 0x07 n 0xFFFF = u at hlog hlogs
  have hu : Frame ([.memChSts, .fmkMapMisc, .fmkSts] ++ logRegs) (.dram :: logParts) s u :=
    (hw.mono (by decide) (by decide)).trans hlog (by decide) (by decide)
  have hword : ∀ k, u.fld F.memChStsState k = v.fld F.memChStsState k := fun k => by
    rw [hlog.fld _ _ (by decide), hmap.fld _ _ (by decide)]
  refine ⟨hu.takeDev.core, ?_, ?_, ?_, ?_, ?_, fun k hk => ?_⟩
  · rw [takeDev_dev]
    exact hu.part .cmd (by decide)
  · rw [fld_takeDev, hword, hstate]
  · rw [fld_takeDev, hlog.fld _ _ (by decide), hbit]
  · rw [State.flag, fld_takeDev, hlog.fld _ _ (by decide)]
    exact hany
  · exact logs_stand hlogs (fun i => reg_takeDev _ _ _ _) (fld_takeDev _ _ _ _)
  · unfold State.fwCopy
    rw [fld_takeDev, fld_takeDev, hword, hothers k hk, hu.fld _ _ (by decide)]

/-- What is known of a lost channel, whatever its loss leads to. -/
def State.lostShows (s t : State) (n : Nat) : Prop :=
  t.fld F.memChStsState n = 6 ∧ bitOf (t.fld F.fmkMapMiscLost 0) n = true ∧ t.flag F.fmkStsMapAny 0 = true ∧ t.fuse = s.fuse
    ∧ t.saf = s.saf ∧ t.pending = s.pending

/-- The loss of a channel without firmware leaves the operating state (R285). -/
theorem loseChannel_alone (hq : s.dev.cmd.queue = []) (hn : n < 4) (h2 : 2 ≤ n) (hc : n ∈ s.channels)
    (hst : s.fld F.memChStsState n ≠ 0 ∧ s.fld F.memChStsState n ≠ 5 ∧ s.fld F.memChStsState n ≠ 6) :
    ∃ t, (s.loseChannel n).pump = t ∧ keepsCore s t ∧ s.lostShows t n ∧ s.logs t 0x0F 2 0x07 n 0xFFFF := by
  obtain ⟨hcore, hcmd, hstate, hbit, hany, hlogs, -⟩ := channelLogged_shows s hn
  rw [loseChannel_eq hc hst, if_neg (by omega), if_neg (by omega)]
  exact ⟨_, pump_nil _ (by rw [hcmd, hq]), hcore, ⟨hstate, hbit, hany, hcore.2.2.1, hcore.2.1, hcore.2.2.2⟩, hlogs⟩

theorem Spares.hold {K : List Reg} {cause : Nat} (h : Spares K s t) (hK : Reg.sysMbxSts ∉ K := by decide) : Spares K s (t.hold cause) := by
  unfold State.hold
  have hset : Spares K s { t with sys := t.sys.setHold cause true } := h.of_dev rfl
  exact Spares.ite (hset.enter hK) (Spares.ite (Spares.inDev hset.reportState) h)

/-- The registers that stand where SAFE_HOLD or FAULT is entered: all but the mailboxes' status. -/
abbrev heldRegs : List Reg := [.thmSens, .thmSts, .thmBrokenLo, .thmBrokenHi, .memChSts, .fmkMapMisc, .fmkSts, .fmkLog, .fmkLogHead]

/-- The loss of channel 0 with a good mirror and no reserve holds a device in READY (R42, R285). -/
theorem loseChannel_holds (hq : s.dev.cmd.queue = []) (hc : 0 ∈ s.channels)
    (hst : s.fld F.memChStsState 0 ≠ 0 ∧ s.fld F.memChStsState 0 ≠ 5 ∧ s.fld F.memChStsState 0 ≠ 6) (hcopy : s.fwCopy 1 = true)
    (hfree : s.reserveFree 0 = false) (hop : s.sys.op = .ready) :
    ∃ u, (s.loseChannel 0).pump = u ∧ u.fld F.memChStsState 0 = 6 ∧ bitOf (u.fld F.fmkMapMiscLost 0) 0 = true
      ∧ u.flag F.fmkStsMapAny 0 = true ∧ u.fuse = s.fuse ∧ u.sys.op = .safeHold ∧ u.sys.holdDram = true := by
  obtain ⟨⟨hsys, -, hfuse, -⟩, hcmd, hstate, hbit, hany, -, hcopies⟩ := channelLogged_shows s (n := 0) (by decide)
  rw [loseChannel_eq hc hst, if_neg (by rw [hcopies 1 (by decide), hcopy]; simp), if_pos rfl, if_neg (by rw [hfree]; simp)]
  generalize s.channelLogged 0 = v at hsys hfuse hcmd hstate hbit hany
  have hv : Spares heldRegs v (v.hold 0x12) := (Spares.refl v).hold
  have hsafe := hold_sys v 0x12
  rw [if_pos (Or.inl (by rw [hsys, hop]))] at hsafe
  refine ⟨_, pump_nil _ (by rw [hv.queue, hcmd, hq]), ?_, ?_, ?_, (hold_fuse v 0x12).trans hfuse, by rw [hsafe], by rw [hsafe]; rfl⟩
  · rw [hv.fld, hstate]
  · rw [hv.fld, hbit]
  · rw [hv.flag, hany]

/-- A channel already lost changes nothing (R285). -/
theorem loseChannel_again (h : s.fld F.memChStsState n = 6) : s.loseChannel n = s := by
  unfold State.loseChannel
  dsimp only
  rw [if_pos (by simp [h])]

/-! The rows. -/

/-- A row whose function does nothing and leaves nothing waiting. -/
theorem exec_pump_self {c : Instr} {f : State → State} (hc : exec c s = .next (inCore (fun s => (f s).pump) s)) (hf : f s = s)
    (hq : s.dev.cmd.queue = []) : exec c s = .next s :=
  hc.trans (congrArg _ (inCore_self (f := fun s => (f s).pump) ((congrArg State.pump hf).trans (pump_nil s hq))))

/-- Tracking finds nothing, or reads none (R281). -/
theorem tracking_idle {ch : Fin 4} {margin : Fin 3}
    (h : (s.inOp [.ready, .run, .safeHold] && s.channelUp ch) = false ∨ margin = 0) : exec (.dramTracking ch margin) s = .next s := by
  refine congrArg _ (inCore_self ?_)
  split
  next hup =>
    obtain rfl := h.resolve_left (by rw [hup]; decide)
    rfl
  next => rfl

/-- A thin margin degrades the channel, a lost one loses it (R281, R284, R285). -/
theorem exec_tracking {ch : Fin 4} (h : (s.inOp [.ready, .run, .safeHold] && s.channelUp ch) = true) :
    (∀ u, inDev (·.degrade ch) s = u → keepsCore s u → exec (.dramTracking ch 1) s = .next u)
    ∧ ∀ u, (s.loseChannel ch).pump = u → keepsCore s u → exec (.dramTracking ch 2) s = .next u :=
  ⟨fun _ hu hk => exec_core rfl ((if_pos h).trans hu) hk, fun _ hu hk => exec_core rfl ((if_pos h).trans hu) hk⟩

/-- Settles O44. -/
theorem channelsFail : Obligations.ChannelsFail := by
  intro m ch margin s st k tracked degraded gone losable
  refine ⟨fun hr h hd => migrate_shows m ch hr h hd, fun hr h => migrate_refused m ch hr h, fun h => tracking_idle h,
    fun ht hm hst hd hfree => ?_, fun hq h => exec_pump_self rfl (grainCopied_off h) hq, fun hq hst hop hk => ?_, fun hq hst hop hk => ?_,
    fun hl h2 => ?_, fun hl h0 hcopy hfree hop => ?_, fun hq hst => ?_⟩
  · subst hm
    have shows := degrade_shows (Frame.refl [.memChCtl] [] s) hst hd hfree
    exact ⟨_, (exec_tracking ht).1 _ (inDev_eq rfl shows.1) shows.1, shows⟩
  · obtain ⟨t, hrun, hcore, hrest⟩ := grainCopied_flips hq hst hop hk
    exact ⟨t, exec_core rfl hrun hcore, hcore, hrest⟩
  · obtain ⟨t, hrun, hcore, hrest⟩ := grainCopied_retires ch.isLt hq hst hop hk
    exact ⟨t, exec_core rfl hrun hcore, hcore, hrest⟩
  · obtain ⟨hq, hc, hst⟩ := hl
    obtain ⟨t, hrun, hcore, hshows, hlogs⟩ := loseChannel_alone hq ch.isLt h2 hc hst
    refine ⟨⟨t, exec_core rfl hrun hcore, hshows, hcore.1, hlogs⟩, ⟨t, exec_core rfl hrun hcore, hshows, hcore.1, hlogs⟩, fun ht hm => ?_⟩
    subst hm
    exact ⟨t, (exec_tracking ht).2 t hrun hcore, hshows, hcore.1, hlogs⟩
  · subst h0
    obtain ⟨hq, hc, hst⟩ := hl
    obtain ⟨u, hrun, hstate, hbit, hany, hfuse, hsafe, hdram⟩ := loseChannel_holds hq hc hst hcopy hfree hop
    obtain ⟨t, hexec, tdev, tsys, tsaf, tfuse, tpend⟩ := exec_lift (c := .channelLost 0) (f := fun s => (s.loseChannel 0).pump) rfl hrun
    refine ⟨t, hexec, ⟨?_, ?_, ?_, tfuse.trans hfuse, tsaf, tpend⟩, by rw [tsys, hsafe], by rw [tsys, hdram]⟩
    · exact (fld_of_dev tdev _ _).trans hstate
    · rw [fld_of_dev tdev]
      exact hbit
    · rw [State.flag, fld_of_dev tdev]
      exact hany
  · exact ⟨exec_pump_self rfl (loseChannel_again hst) hq, exec_pump_self rfl (loseChannel_again hst) hq⟩

end Sys2Proof.Machine
end

section
/-! SUPPORT. What the standing registers survive of a thermal shutdown and of a throttled line speed (R33, R215 to R217, R425). -/
namespace Sys2Proof.Machine

set_option Elab.async false

variable {K : List Reg} {s t u : State} {x : RegField} {r : Reg} {i n c v d : Nat}

/-! Registers dropped with their domain (R33). -/

theorem Reg.ctorIdx_lt_all (r : Reg) : r.ctorIdx < 404 := by cases r <;> decide

/-- The registers are listed in the order of their constructors. -/
theorem all_getD_ctorIdx (r : Reg) : Reg.all.getD r.ctorIdx .sysState = r := by
  have listed : ∀ k < 404, (Reg.all.getD k .sysState).ctorIdx = k := by decide +kernel
  exact Reg.ctorIdx_inj (listed _ (Reg.ctorIdx_lt_all r))

/-- A stored key names its register. -/
theorem keyReg_key (r : Reg) (i : Nat) : (keyReg (r.key i)).1 = r := by
  have hidx : r.key i % 512 = r.ctorIdx := by
    have := Reg.ctorIdx_lt r
    unfold Reg.key
    omega
  unfold keyReg
  rw [hidx]
  exact all_getD_ctorIdx r

/-- The standing registers lie in no domain that is switched off for work. -/
theorem domains_standing (hr : r ∈ standingRegs) (i : Nat) : Reg.domains r i = [] := by
  simp only [standingRegs, List.mem_cons, List.not_mem_nil, or_false] at hr
  rcases hr with rfl | rfl | rfl | rfl | rfl | rfl | rfl | rfl | rfl | rfl <;> rfl

namespace Spares

theorem dropRegs {p : Reg → Nat → Bool} (h : Spares K s t) (hp : ∀ r ∈ standingRegs, ∀ i, p r i = false) : Spares K s (t.dropRegs p) := by
  refine h.trans ⟨h.sub, rfl, Or.inl rfl, fun r i hr => ?_⟩
  unfold State.reg State.dropRegs
  rw [onDev_dev, smGet_filter _ _ _ fun v => ?_]
  rw [keyReg_key, hp r (h.sub hr)]
  rfl

theorem addGap {g : GapRec} (h : Spares K s t) : Spares K s (t.addGap n g) := by
  unfold State.addGap
  exact h.onDev

theorem abandon (h : Spares K s t) : Spares K s (t.abandon c) := by
  unfold State.abandon
  dsimp only
  split
  · exact h
  · have gap : ∀ g, Spares K s (t.cloudGap c g) := fun g => foldl _ h fun _ _ hu => ite hu.addGap hu
    exact (gap _).onDev.bump

theorem abandonAll (h : Spares K s t) : Spares K s t.abandonAll := foldl _ h fun _ _ hu => hu.abandon

/-- What a cluster's front end, the cluster or a segment loses with its domain. -/
theorem dropDomain (h : Spares K s t) (hd : d < 120) : Spares K s (t.dropDomain d) := by
  unfold State.dropDomain
  dsimp only
  by_cases h1 : d < 48
  · rw [if_pos h1]
    exact foldl _ h fun _ _ hu => hu.onDev
  · rw [if_neg h1]
    by_cases h2 : d < 96
    · rw [if_pos h2]
      exact foldl _ h.abandon.onDev.onDev fun _ _ hu => hu.onDev
    · rw [if_neg h2, if_pos (by omega)]
      exact (setClock (ite h.endCaptures h)).onLin

theorem setFlds {l : List Nat} (h : Spares K s t) (hx : x.reg ∉ standingRegs := by decide) : Spares K s (t.setFlds x l) :=
  foldl _ h fun _ _ hu => hu.setFld hx

theorem blockFields (h : Spares K s t) : Spares K s t.blockFields := by
  unfold State.blockFields
  refine ite ?_ h
  exact h.setFld.setFld.setFld.setFlds.setFld.setFld.setFld.setFld.setFlag.setFlds.setFlds.setFlds.setFlds.setFlds.setFlds.setFlds
    |>.setFld.setFld.setReg

theorem domainOff (h : Spares K s t) (hd : d < 120) : Spares K s (t.domainOff d) := by
  unfold State.domainOff
  refine showDrives (blockFields (dropRegs (setReg (h.dropDomain hd)) fun r hr i => ?_)).refreshTiming t
  rw [domains_standing hr i]
  rfl

theorem domainsOff {l : List Nat} (h : Spares K s t) (hl : ∀ d ∈ l, d < 120) : Spares K s (t.domainsOff l) := by
  unfold State.domainsOff
  induction l generalizing t with
  | nil => exact h
  | cons d l ih => exact ih (ite (h.domainOff (hl d List.mem_cons_self)) h) fun e he => hl e (List.mem_cons_of_mem d he)

/-! The line speed is judged (R215 to R217). -/

theorem loseLine {why tm : Nat} {g : Int} (h : Spares K s t) : Spares K s (t.loseLine why g tm) := ite h h.onLin

theorem loseHeld (h : Spares K s t) : Spares K s t.loseHeld := by
  unfold State.loseHeld
  split
  · exact h.onLin.loseLine
  · exact h

theorem dropPair (h : Spares K s t) : Spares K s t.dropPair := by
  unfold State.dropPair
  dsimp only
  split
  · exact h.onLin.loseLine
  · exact h.onLin

theorem clearAligner {why : Nat} (h : Spares K s t) : Spares K s (t.clearAligner why) := by
  unfold State.clearAligner State.cutSkew
  exact (foldl _ h fun _ _ hu => (foldl _ hu fun _ _ hv => hv.setFld).onLin.setFlag).onLin.onLin

theorem switchPitch {b : Bool} (h : Spares K s t) : Spares K s (t.switchPitch b) := by
  unfold State.switchPitch
  exact (ite h.loseHeld h).dropPair.onLin.onOdo.onOdo.clearAligner.setFlag

theorem judgeLimit (h : Spares K s t) : Spares K s t.judgeLimit :=
  ite (ite h (ite h.setFlag.clearAligner h.setFlag)) (ite h.setFlag h)

theorem judgeSpeed (h : Spares K s t) : Spares K s t.judgeSpeed :=
  ite h (ite (ite h.judgeLimit.switchPitch h.judgeLimit.switchPitch.setFlag) (ite h.judgeLimit.switchPitch.setFlag h.judgeLimit))

end Spares

end Sys2Proof.Machine
end

section
/-! SUPPORT. A sample of the temperatures (R421, R422, R425, R426): what it stores, and what of that stands behind the states it leads to. -/
namespace Sys2Proof.Machine

set_option Elab.async false

variable {K : List Reg} {s t u : State} {x : RegField} {i n : Nat}

/-! Signed fields. -/

theorem signed_unsigned (w : Nat) {v : Int} (hlo : -(2 ^ w : Int) ≤ 2 * v) (hhi : 2 * v < 2 ^ w) : signed w (unsigned w v) = v := by
  have hpos : (0 : Int) < 2 ^ w := by positivity
  have hcast : ((unsigned w v : Nat) : Int) = v % 2 ^ w := by
    unfold unsigned
    exact Int.toNat_of_nonneg (Int.emod_nonneg v hpos.ne')
  have hp : ((2 ^ w : Nat) : Int) = 2 ^ w := by push_cast; rfl
  unfold signed
  rw [Nat.mod_eq_of_lt (unsigned_lt w v)]
  dsimp only
  rcases lt_or_ge v 0 with hneg | hnn
  · have hm : v % 2 ^ w = v + 2 ^ w := by
      rw [← Int.add_emod_right]
      exact Int.emod_eq_of_lt (by omega) (by omega)
    rw [if_neg (by zify; omega), hcast, hm]
    omega
  · have hm : v % 2 ^ w = v := Int.emod_eq_of_lt hnn (by omega)
    rw [if_pos (by zify; omega), hcast, hm]

theorem sfld_setSfld_same (s : State) (i : Nat) {v : Int} (hx : x.lo ≤ x.hi ∧ x.hi < 32) (hlo : -(2 ^ (x.hi - x.lo + 1) : Int) ≤ 2 * v)
    (hhi : 2 * v < 2 ^ (x.hi - x.lo + 1)) : (s.setSfld x i v).sfld x i = v := by
  unfold State.sfld State.setSfld
  rw [fld_setFld_same _ _ _ hx, Nat.mod_eq_of_lt (unsigned_lt _ _)]
  exact signed_unsigned _ hlo hhi

theorem signed_bounds (w v : Nat) : -(2 ^ w : Int) ≤ 2 * signed w v ∧ 2 * signed w v < 2 ^ w := by
  have hlt := Nat.mod_lt v (Nat.two_pow_pos w)
  unfold signed
  zify at hlt
  dsimp only
  split <;> zify at * <;> omega

/-! The sensors. -/

/-- A sample's value of one sensor is stored; what follows from it leaves the sensors' words. -/
theorem sampleSensor_shows (old : State) (raws : List Int) (s : State) (i : Nat) :
    ∃ v, Frame ([.thmBrokenLo, .thmBrokenHi] ++ logRegs) (.thm :: logParts) ((s.setSfld F.thmSensRaw i (raws.getD i 0)).setSfld F.thmSensValue i v)
      (State.sampleSensor old raws s i) := by
  unfold State.sampleSensor
  extract_lets m raw v s1 s2 run s3
  refine ⟨v, ?_⟩
  have h2 : Frame ([.thmBrokenLo, .thmBrokenHi] ++ logRegs) (.thm :: logParts) s1 s2 :=
    Frame.ite (fun _ => (Frame.refl _ _ _).change) fun _ => Frame.refl _ _ _
  have h3 : Frame ([.thmBrokenLo, .thmBrokenHi] ++ logRegs) (.thm :: logParts) s1 s3 :=
    h2.onDev (fun _ => rfl) fun d p n => by cases p <;> first | rfl | exact absurd (by decide) n
  exact Frame.ite (fun _ => (h3.setPair (by decide) (by decide)).logFault) fun _ => h3

theorem sampleSensor_cmd (old : State) (raws : List Int) (s : State) (i : Nat) : (State.sampleSensor old raws s i).dev.cmd = s.dev.cmd := by
  obtain ⟨v, hf⟩ := sampleSensor_shows old raws s i
  have hc : (State.sampleSensor old raws s i).dev.cmd = ((s.setSfld F.thmSensRaw i (raws.getD i 0)).setSfld F.thmSensValue i v).dev.cmd :=
    hf.part .cmd (by decide)
  rw [hc]
  simp only [State.setSfld, State.setFld, setReg_cmd]

theorem sampleSensor_other (old : State) (raws : List Int) (s : State) {i j : Nat} (h : i ≠ j) :
    (State.sampleSensor old raws s i).reg .thmSens j = s.reg .thmSens j := by
  obtain ⟨v, hf⟩ := sampleSensor_shows old raws s i
  rw [hf.reg _ _ (by decide)]
  exact (reg_setFld_ne _ _ (Or.inr h)).trans (reg_setFld_ne _ _ (Or.inr h))

theorem sampleSensor_same (old : State) (raws : List Int) (s : State) (i : Nat)
    (h : -(2 ^ 16 : Int) ≤ 2 * raws.getD i 0 ∧ 2 * raws.getD i 0 < 2 ^ 16) :
    (State.sampleSensor old raws s i).sfld F.thmSensRaw i = raws.getD i 0 := by
  obtain ⟨v, hf⟩ := sampleSensor_shows old raws s i
  have hraw := sfld_setSfld_same (x := F.thmSensRaw) s i (by decide) h.1 h.2
  unfold State.sfld at *
  rw [hf.fld _ _ (by decide)]
  exact (congrArg (signed _) (fld_setFld_apart (by decide) (by decide) (by decide) i)).trans hraw

/-- A sensor that has been stored stays, and is stored when its turn comes. -/
theorem foldl_sampleSensor (old : State) (raws : List Int) (hb : ∀ i, -(2 ^ 16 : Int) ≤ 2 * raws.getD i 0 ∧ 2 * raws.getD i 0 < 2 ^ 16)
    (l : List Nat) (s : State) (i : Nat) :
    (l.foldl (State.sampleSensor old raws) s).dev.cmd = s.dev.cmd
    ∧ (s.sfld F.thmSensRaw i = raws.getD i 0 → (l.foldl (State.sampleSensor old raws) s).sfld F.thmSensRaw i = raws.getD i 0)
    ∧ (i ∈ l → (l.foldl (State.sampleSensor old raws) s).sfld F.thmSensRaw i = raws.getD i 0) := by
  induction l generalizing s with
  | nil => exact ⟨rfl, id, fun h => absurd h List.not_mem_nil⟩
  | cons j l ih =>
    obtain ⟨hcmd, hkeep, hstore⟩ := ih (State.sampleSensor old raws s j)
    by_cases hj : j = i
    · subst hj
      have hdone := hkeep (sampleSensor_same old raws s j (hb j))
      exact ⟨hcmd.trans (sampleSensor_cmd _ _ _ _), fun _ => hdone, fun _ => hdone⟩
    · have hsame : (State.sampleSensor old raws s j).sfld F.thmSensRaw i = s.sfld F.thmSensRaw i := by
        unfold State.sfld State.fld
        rw [sampleSensor_other _ _ _ hj]
      exact ⟨hcmd.trans (sampleSensor_cmd _ _ _ _), fun h => hkeep (hsame.trans h),
        fun hi => hstore ((List.mem_cons.1 hi).resolve_left fun e => hj e.symm)⟩

/-- What holds of every sensor holds of the hottest. -/
theorem hottest_of (P : Nat × Int → Prop) (l : List Int) (hl : l ≠ []) (h : ∀ i, (hi : i < l.length) → P (i, l[i])) : P (hottest l) := by
  have hpos := List.length_pos_iff.2 hl
  have hfold : ∀ (m : List (Int × Nat)) (b : Nat × Int), P b → (∀ p ∈ m, P (p.2, p.1)) →
      P (m.foldl (fun b p => if b.2 < p.1 then (p.2, p.1) else b) b) := by
    intro m
    induction m with
    | nil => exact fun _ hb _ => hb
    | cons p m ih =>
      intro b hb hm
      refine ih _ ?_ fun q hq => hm q (List.mem_cons_of_mem _ hq)
      show P (if b.2 < p.1 then (p.2, p.1) else b)
      split
      · exact hm p List.mem_cons_self
      · exact hb
  refine hfold _ _ ?_ fun p hp => ?_
  · have h0 := h 0 hpos
    rwa [← List.getD_eq_getElem l 0 hpos] at h0
  · have hmem := List.mem_of_mem_drop hp
    obtain ⟨hlt, heq⟩ := List.mem_zipIdx' hmem
    rw [heq]
    exact h p.2 hlt

/-! What stands of a sample behind the states it leads to. -/

/-- The thermal registers. -/
abbrev thmRegs : List Reg := [.thmSens, .thmSts, .thmBrokenLo, .thmBrokenHi]

/-- The sensors, the broken ones and the hottest stand; the executor takes nothing up. -/
structure Measured (s t : State) : Prop where
  spares : Spares [.thmSens, .thmBrokenLo, .thmBrokenHi] s t
  idx : t.fld F.thmStsHotIdx 0 = s.fld F.thmStsHotIdx 0
  hot : t.fld F.thmStsHot 0 = s.fld F.thmStsHot 0

namespace Measured

theorem refl (s : State) : Measured s s := ⟨Spares.refl s, rfl, rfl⟩

theorem then_spares (h : Measured s t) (k : Spares thmRegs t u) : Measured s u where
  spares := h.spares.trans ⟨h.spares.sub, k.queue, k.running, fun r i hr =>
    k.reg r i ((by decide : [Reg.thmSens, .thmBrokenLo, .thmBrokenHi] ⊆ thmRegs) hr)⟩
  idx := (k.fld (by decide) 0).trans h.idx
  hot := (k.fld (by decide) 0).trans h.hot

/-- The device part alone is compared. -/
theorem of_dev (h : Measured s t) (hu : u.dev = t.dev) : Measured s u :=
  ⟨h.spares.of_dev hu, (fld_of_dev hu _ _).trans h.idx, (fld_of_dev hu _ _).trans h.hot⟩

theorem inDev {f : State → State} (h : Measured s (f t)) : Measured s (inDev f t) := h.of_dev (inDev_dev f t)

theorem ite {q : Prop} [Decidable q] {y z : State} (hy : Measured s y) (hz : Measured s z) : Measured s (if q then y else z) := by
  split
  · exact hy
  · exact hz

/-- A field of the status beside the hottest sensor's. -/
theorem setSts {v : Nat} (h : Measured s t) (hx : x.reg = .thmSts) (hw : x.lo ≤ x.hi ∧ x.hi < 32) (hlo : 21 < x.lo) : Measured s (t.setFld x 0 v) where
  spares := h.spares.trans ((Spares.refl t).setReg_off (by rw [hx]; decide))
  idx := (fld_setFld_apart hw (by decide) (Or.inr hlo) 0).trans h.idx
  hot := (fld_setFld_apart hw (by decide) (Or.inr (Nat.lt_trans (by decide) hlo)) 0).trans h.hot

theorem onThm {f : ThmSt → ThmSt} (h : Measured s t) : Measured s (t.onThm f) := h.then_spares (Spares.refl t).onDev

theorem change {src k v : Nat} {b : Bool} (h : Measured s t) : Measured s (t.change src k v b) := h.then_spares (Spares.refl t).change

theorem sampleFast {v : Int} (h : Measured s t) : Measured s (t.sampleFast v) := by
  unfold State.sampleFast
  dsimp only
  refine change (setSts ?_ rfl (by decide) (by decide))
  exact ite h.onThm h

theorem setLevel {k : Nat} (h : Measured s t) : Measured s (t.setLevel k) := by
  unfold State.setLevel
  have h1 : Measured s (((t.setFld F.thmStsLevel 0 k).post 19 k).change 0x241 0x10 k false) :=
    (then_spares (h.setSts rfl (by decide) (by decide)) (Spares.refl _).post).change
  dsimp only
  generalize ((t.setFld F.thmStsLevel 0 k).post 19 k).change 0x241 0x10 k false = u at h1
  exact ite (h1.then_spares (Spares.refl u).judgeSpeed.driveCarriage) h1

theorem sampleLevel {v : Int} (h : Measured s t) : Measured s (t.sampleLevel v) := by
  unfold State.sampleLevel
  extract_lets now thr s1 l up
  have h1 : Measured s s1 := by
    have step : ∀ (k : Nat) (u : State), Measured s u → Measured s ((fun (t : State) (k : Nat) =>
        let since := if v < thr + 32 * ((k : Int) - 1) - 32 then some ((smGet none t.dev.thm.below k).getD now) else none
        t.onThm fun h => { h with below := smPut none h.below k since }) u k) := fun k u hu => hu.onThm
    exact step 4 _ (step 3 _ (step 2 _ (step 1 _ h)))
  clear_value s1
  refine ite h1.setLevel (ite h1 ?_)
  split
  · exact ite h1.setLevel h1
  · exact h1

theorem shutDown (h : Measured s t) : Measured s t.shutDown := by
  unfold State.shutDown
  dsimp only
  refine change (setSts (x := F.thmStsShutdown) (h.then_spares ?_) rfl (by decide) (by decide))
  exact Spares.domainsOff (Spares.foldl _ (Spares.refl t) fun _ _ hu => hu.setReg) (by decide)

theorem sfld (h : Measured s t) (hx : x.reg = .thmSens) (i : Nat) : t.sfld x i = s.sfld x i := h.spares.sfld (by rw [hx]; decide) i

theorem hotValue (h : Measured s t) : t.sfld F.thmStsHot 0 = s.sfld F.thmStsHot 0 := congrArg (signed _) h.hot

theorem broken (h : Measured s t) : t.broken = s.broken := by
  funext i
  unfold State.broken State.pair
  rw [h.spares.reg _ _ (by decide), h.spares.reg _ _ (by decide)]

end Measured

end Sys2Proof.Machine
end

section
/-! O14 (R41, R42, R47, R366, R421, R422, R425). -/
namespace Sys2Proof.Machine

set_option Elab.async false

variable {R : List Reg} {P : List Part} {s t u : State} {raws : List Int} {hot : Int} {cause : Nat}

/-! The watchdog, a consistency check and the local oscillator (R41, R366). -/

theorem toFault_stays (h : s.sys.op.faults cause = false) (hr : s.sys.op ≠ .reset ∨ cause ≠ 0x23) : s.toFault cause = s := by
  unfold State.toFault
  rw [if_neg (fun hn => hr.elim (· hn.1) (· hn.2)), if_neg (by rw [h]; decide)]

theorem toFault_noted (h : s.sys.op = .reset) : s.toFault 0x23 = { s with sys := { s.sys with found23 := true } } := if_pos ⟨h, rfl⟩

theorem toFault_fuse (s : State) (cause : Nat) : (s.toFault cause).fuse = s.fuse := by
  unfold State.toFault
  split
  · rfl
  · split
    · exact enter_fuse _ _ _
    · rfl

/-- A cause that leads to FAULT, as the end of its row. -/
theorem exec_faults {c : Instr} (hc : exec c s = .next (inCore (fun s => (s.toFault cause).pump) s)) (h : s.sys.op.faults cause = true)
    (hq : s.dev.cmd.queue = []) : ∃ t, exec c s = .next t ∧ t.sys = { s.sys with op := .fault, prev := s.sys.op, cause := cause }
      ∧ t.dev.cmd.running = none ∧ t.saf = s.saf ∧ t.fuse = s.fuse := by
  obtain ⟨hpump, hsys, hrunning, hfuse⟩ := toFault_shows s cause h hq
  obtain ⟨t, hexec, tdev, tsys, tsaf, tfuse, -⟩ := exec_lift hc hpump
  exact ⟨t, hexec, tsys.trans hsys, by rw [tdev, hrunning], tsaf, tfuse.trans hfuse⟩

theorem exec_notes (h : s.sys.op = .reset) (hq : s.dev.cmd.queue = []) :
    exec .internalConsistencyCheck s = .next { s with sys := { s.sys with found23 := true } } := by
  have hrun : (s.toFault 0x23).pump = { s with sys := { s.sys with found23 := true } } := by
    rw [toFault_noted h]
    exact pump_nil _ hq
  exact congrArg (fun u : State => Host.Outcome.next { s with sys := u.sys, dev := u.dev, fuse := u.fuse }) hrun

/-- A lost oscillator is logged, then FAULT is judged (R366). -/
theorem oscillatorFailed_shows (s : State) (hq : s.dev.cmd.queue = []) :
    ∃ v t : State, exec .localOscillatorFailed s = .next t ∧ v.sys = s.sys ∧ t.sys = (v.toFault 0x23).sys
      ∧ t.dev.cmd.running = (v.toFault 0x23).dev.cmd.running ∧ v.dev.cmd.queue = []
      ∧ t.saf = s.saf ∧ t.fuse = s.fuse ∧ s.logs t 0x19 0 0x0A 2 0xFFFF := by
  have hframe : Frame logRegs logParts s (inDev (·.logFault 0x19 0 0x0A 2 0xFFFF) s) :=
    Frame.inDev (Frame.logFault (Frame.refl _ _ s))
  have hlogs : s.logs (inDev (·.logFault 0x19 0 0x0A 2 0xFFFF) s) 0x19 0 0x0A 2 0xFFFF :=
    logs_stand (logs_behind (Frame.refl [] [] s) 0x19 0 0x0A 2 0xFFFF) (fun i => reg_of_dev (inDev_dev _ _) _ i) (fld_of_dev (inDev_dev _ _) _ _)
  have hcmd : (inDev (·.logFault 0x19 0 0x0A 2 0xFFFF) s).dev.cmd = s.dev.cmd := hframe.part .cmd (by decide)
  have hrow : exec .localOscillatorFailed s
      = .next (inCore (fun s => ((inDev (·.logFault 0x19 0 0x0A 2 0xFFFF) s).toFault 0x23).pump) s) := rfl
  have hlift := exec_lift hrow rfl
  generalize inDev (·.logFault 0x19 0 0x0A 2 0xFFFF) s = v at hframe hlogs hcmd hlift
  have hstand : Spares heldRegs v (v.toFault 0x23) :=
    Spares.ite ((Spares.refl v).of_dev rfl) (Spares.ite (Spares.refl v).enter (Spares.refl v))
  have hvq : v.dev.cmd.queue = [] := by rw [hcmd, hq]
  rw [pump_nil _ (hstand.queue.trans hvq)] at hlift
  obtain ⟨t, hexec, tdev, tsys, tsaf, tfuse, -⟩ := hlift
  refine ⟨v, t, hexec, hframe.sys, tsys, by rw [tdev], hvq, tsaf, tfuse.trans ((toFault_fuse v _).trans hframe.fuse), ?_⟩
  exact logs_stand hlogs (fun i => (reg_of_dev tdev _ _).trans (hstand.reg _ i (by decide)))
    ((fld_of_dev tdev _ _).trans (hstand.fld (by decide) 0))

theorem toFault_notes (h : s.sys.op.faults 0x23 = false) :
    (s.toFault 0x23).sys = { s.sys with found23 := s.sys.found23 || decide (s.sys.op = .reset) } := by
  by_cases hr : s.sys.op = .reset
  · rw [toFault_noted hr]
    simp [hr]
  · rw [toFault_stays h (Or.inl hr)]
    simp [hr]

theorem faultCauses (s : State) (hq : s.dev.cmd.queue = []) :
    let faulted := fun (cause : Nat) (t : State) => t.sys = { s.sys with op := .fault, prev := s.sys.op, cause := cause }
      ∧ t.dev.cmd.running = none ∧ t.saf = s.saf ∧ t.fuse = s.fuse
    (s.sys.op.faults 0x21 = true → ∃ t, exec .firmwareWatchdog s = .next t ∧ faulted 0x21 t)
    ∧ (s.sys.op.faults 0x21 = false → exec .firmwareWatchdog s = .next s)
    ∧ (s.sys.op.faults 0x23 = true → ∃ t, exec .internalConsistencyCheck s = .next t ∧ faulted 0x23 t)
    ∧ (s.sys.op = .reset → exec .internalConsistencyCheck s = .next { s with sys := { s.sys with found23 := true } })
    ∧ (s.sys.op = .fault ∨ s.sys.op = .off → exec .internalConsistencyCheck s = .next s)
    ∧ (s.sys.op.faults 0x23 = true →
      ∃ t, exec .localOscillatorFailed s = .next t ∧ faulted 0x23 t ∧ s.logs t 0x19 0 0x0A 2 0xFFFF)
    ∧ (s.sys.op.faults 0x23 = false → ∃ t, exec .localOscillatorFailed s = .next t ∧ s.logs t 0x19 0 0x0A 2 0xFFFF
      ∧ t.sys = { s.sys with found23 := s.sys.found23 || decide (s.sys.op = .reset) } ∧ t.saf = s.saf ∧ t.fuse = s.fuse) := by
  refine ⟨fun h => exec_faults rfl h hq, fun h => exec_pump_self rfl (toFault_stays h (Or.inr (by decide))) hq,
    fun h => exec_faults rfl h hq, fun h => exec_notes h hq, fun h => exec_pump_self rfl (toFault_stays ?_ (Or.inl ?_)) hq,
    fun h => ?_, fun h => ?_⟩
  · obtain h | h := h <;> rw [h] <;> rfl
  · obtain h | h := h <;> rw [h] <;> decide
  · obtain ⟨v, t, hexec, hvsys, hsys, hrunning, hvq, hsaf, hfuse, hlogs⟩ := oscillatorFailed_shows s hq
    obtain ⟨-, hfsys, hfrun, -⟩ := toFault_shows v 0x23 (by rw [hvsys, h]) hvq
    exact ⟨t, hexec, ⟨by rw [hsys, hfsys, hvsys], by rw [hrunning, hfrun], hsaf, hfuse⟩, hlogs⟩
  · obtain ⟨v, t, hexec, hvsys, hsys, -, -, hsaf, hfuse, hlogs⟩ := oscillatorFailed_shows s hq
    exact ⟨t, hexec, hlogs, by rw [hsys, toFault_notes (by rw [hvsys, h]), hvsys], hsaf, hfuse⟩

/-! A sample of the temperatures (R421, R422, R425). -/

/-- The hottest sensor and its corrected value. -/
def State.hottestSensor (s : State) : Nat × Int := hottest ((List.range 64).map fun i => s.sfld F.thmSensValue i)

/-- Each raw value stands in its sensor, and the hottest corrected one in THM_STS. -/
structure Sampled (raws : List Int) (t : State) : Prop where
  raw : ∀ i, i < 64 → t.sfld F.thmSensRaw i = raws.getD i 0
  hot : t.sfld F.thmStsHot 0 = t.hottestSensor.2
  idx : t.fld F.thmStsHotIdx 0 = t.hottestSensor.1

theorem Measured.hottestSensor (h : Measured s t) : t.hottestSensor = s.hottestSensor := by
  unfold State.hottestSensor
  rw [funext fun i => h.sfld rfl i]

theorem Sampled.measured (h : Sampled raws s) (k : Measured s t) : Sampled raws t where
  raw i hi := (k.sfld rfl i).trans (h.raw i hi)
  hot := by rw [k.hotValue, k.hottestSensor, h.hot]
  idx := by rw [k.idx, k.hottestSensor, h.idx]

/-- The index of the hottest sensor and its value fit their fields. -/
theorem hottestSensor_fits (s : State) : s.hottestSensor.1 < 64 ∧ -(2 ^ 16 : Int) ≤ 2 * s.hottestSensor.2
    ∧ 2 * s.hottestSensor.2 < 2 ^ 16 := by
  refine hottest_of (fun p => p.1 < 64 ∧ -(2 ^ 16 : Int) ≤ 2 * p.2 ∧ 2 * p.2 < 2 ^ 16) _ (by simp) fun i hi => ?_
  rw [List.length_map, List.length_range] at hi
  rw [List.getElem_map, List.getElem_range]
  exact ⟨hi, signed_bounds 16 _⟩

/-- The hottest sensor is stored in THM_STS. -/
theorem storeHottest_shows {i : Nat} {v : Int} (hi : i < 64) (hlo : -(2 ^ 16 : Int) ≤ 2 * v) (hhi : 2 * v < 2 ^ 16) (s : State) :
    let t := (s.setFld F.thmStsHotIdx 0 i).setSfld F.thmStsHot 0 v
    t.fld F.thmStsHotIdx 0 = i ∧ t.sfld F.thmStsHot 0 = v ∧ ∀ j, t.reg .thmSens j = s.reg .thmSens j := by
  refine ⟨?_, sfld_setSfld_same _ _ (by decide) hlo hhi, fun j => ?_⟩
  · exact (fld_setFld_apart (by decide) (by decide) (by decide) 0).trans
      ((fld_setFld_same _ _ _ (by decide)).trans (Nat.mod_eq_of_lt hi))
  · exact (reg_setFld_ne _ _ (Or.inl (by decide))).trans (reg_setFld_ne _ _ (Or.inl (by decide)))

theorem sampleThrottled_cmd (s : State) : s.sampleThrottled.dev.cmd = s.dev.cmd := by
  unfold State.sampleThrottled
  dsimp only
  split <;> rfl

/-- What a sample stores before it is judged. -/
theorem measureTemps_shows (s : State) (hb : ∀ i, -(2 ^ 16 : Int) ≤ 2 * raws.getD i 0 ∧ 2 * raws.getD i 0 < 2 ^ 16) :
    Sampled raws (s.measureTemps raws).2 ∧ (s.measureTemps raws).1 = (s.measureTemps raws).2.sfld F.thmStsHot 0
      ∧ (s.measureTemps raws).2.dev.cmd.queue = s.dev.cmd.queue := by
  have hfold := foldl_sampleSensor s raws hb (List.range 64) s.sampleThrottled
  have hcmd := (hfold 0).1.trans (sampleThrottled_cmd s)
  have hraw : ∀ i, i < 64 → ((List.range 64).foldl (State.sampleSensor s raws) s.sampleThrottled).sfld F.thmSensRaw i = raws.getD i 0 :=
    fun i hi => (hfold i).2.2 (List.mem_range.2 hi)
  clear hfold
  unfold State.measureTemps
  extract_lets s1 h s2 s3
  change s1.dev.cmd = _ at hcmd
  change ∀ i, i < 64 → s1.sfld F.thmSensRaw i = _ at hraw
  have hh : h = s1.hottestSensor := rfl
  obtain ⟨hlt, hlo, hhi⟩ := hottestSensor_fits s1
  rw [← hh] at hlt hlo hhi
  obtain ⟨hidx, hhot, hsens⟩ := storeHottest_shows hlt hlo hhi s1
  have h2cmd : s2.dev.cmd = s1.dev.cmd := rfl
  change s2.fld F.thmStsHotIdx 0 = _ at hidx
  change s2.sfld F.thmStsHot 0 = _ at hhot
  change ∀ j, s2.reg .thmSens j = _ at hsens
  have hm : Measured s2 ((s3.sampleFast h.2).sampleLevel h.2) :=
    (Measured.ite (Measured.refl s2).change (Measured.refl s2)).sampleFast.sampleLevel
  clear_value s1 s2 s3
  have hsens' : ∀ x : RegField, x.reg = .thmSens → ∀ i, s2.sfld x i = s1.sfld x i := fun x hx i => by
    unfold State.sfld State.fld
    rw [hx, hsens]
  have hmax : s2.hottestSensor = s1.hottestSensor := by
    unfold State.hottestSensor
    rw [funext fun i => hsens' _ rfl i]
  have hs2 : Sampled raws s2 :=
    ⟨fun i hi => (hsens' _ rfl i).trans (hraw i hi), by rw [hhot, hmax, hh], by rw [hidx, hmax, hh]⟩
  refine ⟨hs2.measured hm, ?_, ?_⟩
  · exact (hm.hotValue.trans hhot).symm
  · rw [hm.spares.queue, h2cmd, hcmd]

/-- The shutdown shows in THM_STS (R425). -/
theorem shutDown_flag (s : State) : s.shutDown.flag F.thmStsShutdown 0 = true := by
  unfold State.shutDown
  dsimp only
  generalize State.domainsOff _ _ = u
  rw [((Frame.refl changeRegs ringParts (u.setFlag F.thmStsShutdown 0 true)).change).flag _ _ (by decide)]
  exact flag_setFlag_same _ _ (by decide) true

theorem sampleShutdown_cool (h : hot < 2000) : s.sampleShutdown hot = s := if_pos h

theorem sampleShutdown_fault (h : s.sys.op = .fault) : s.sampleShutdown hot = s := by
  unfold State.sampleShutdown
  rw [h, ite_self]

theorem sampleShutdown_holds (hhot : 2000 ≤ hot) (h : s.sys.op = .ready ∨ s.sys.op = .run) :
    s.sampleShutdown hot = Machine.inDev State.shutDown ((Machine.inDev State.abandonAll s).hold 0x10) := by
  unfold State.sampleShutdown
  rw [if_neg (by omega)]
  obtain h | h := h <;> rw [h]

theorem holdThermal_sys (h : s.sys.op = .ready ∨ s.sys.op = .run) :
    (Machine.inDev State.shutDown ((Machine.inDev State.abandonAll s).hold 0x10)).sys
      = { s.sys with op := .safeHold, prev := s.sys.op, cause := 0x10, holdThermal := true } := by
  rw [inDev_sys, hold_sys, inDev_sys, if_pos h]
  rfl

/-- The shutdown of a hot junction leaves what was measured. -/
theorem Measured.sampleShutdown (h : Measured s t) : Measured s (t.sampleShutdown hot) := by
  have hold : Measured s (Machine.inDev State.shutDown ((Machine.inDev State.abandonAll t).hold 0x10)) :=
    (((h.then_spares (Spares.refl t).abandonAll).inDev).then_spares (Spares.refl _).hold).shutDown.inDev
  unfold State.sampleShutdown
  refine ite h ?_
  split
  · exact hold
  · exact hold
  · exact hold
  · exact h.shutDown.inDev
  · exact h

theorem sampleShutdown_fuse (s : State) : (s.sampleShutdown hot).fuse = s.fuse := by
  have held : (Machine.inDev State.shutDown ((Machine.inDev State.abandonAll s).hold 0x10)).fuse = s.fuse :=
    (inDev_fuse _ _).trans ((hold_fuse _ _).trans (inDev_fuse _ _))
  unfold State.sampleShutdown
  split
  · rfl
  · split
    · exact held
    · exact held
    · exact held
    · exact inDev_fuse _ _
    · rfl

/-- What a sample leads to, with the count of broken sensors it found (R421, R425). -/
theorem sampleTemps_shows (s : State) (hb : ∀ i, -(2 ^ 16 : Int) ≤ 2 * raws.getD i 0 ∧ 2 * raws.getD i 0 < 2 ^ 16) :
    let t := s.sampleTemps raws
    let lost := ((List.range 64).filter t.broken).length
    Sampled raws t ∧ t.dev.cmd.queue = s.dev.cmd.queue ∧ t.fuse = s.fuse
      ∧ (lost ≤ 16 → t.sfld F.thmStsHot 0 < 2000 → t.sys = s.sys)
      ∧ (lost ≤ 16 → 2000 ≤ t.sfld F.thmStsHot 0 → s.sys.op = .ready ∨ s.sys.op = .run →
        t.sys = { s.sys with op := .safeHold, prev := s.sys.op, cause := 0x10, holdThermal := true }
          ∧ t.flag F.thmStsShutdown 0 = true)
      ∧ (16 < lost → s.sys.op.faults 0x23 = true → t.sys = { s.sys with op := .fault, prev := s.sys.op, cause := 0x23 }) := by
  obtain ⟨hsampled, hhot, hqueue⟩ := measureTemps_shows s hb
  unfold State.sampleTemps
  extract_lets r s4 s5 t lost
  have h4 : Measured r.2 s4 := (Measured.refl r.2).of_dev (takeDev_dev s r.2)
  have h4sys : s4.sys = s.sys := takeDev_sys _ _
  have h4fuse : s4.fuse = s.fuse := takeDev_fuse _ _
  clear_value s4
  have hfault : Measured s4 (s4.toFault 0x23) := by
    refine (Measured.refl s4).then_spares ?_
    exact Spares.ite ((Spares.refl s4).of_dev rfl) (Spares.ite (Spares.refl s4).enter (Spares.refl s4))
  have ht : Measured s4 t := (Measured.ite hfault (Measured.refl s4)).sampleShutdown
  have h5fuse : s5.fuse = s4.fuse := by
    unfold s5
    split
    · exact toFault_fuse _ _
    · rfl
  have hlost : lost = ((List.range 64).filter s4.broken).length := by
    unfold lost
    rw [ht.broken]
  have hot_eq : t.sfld F.thmStsHot 0 = r.1 := ht.hotValue.trans (h4.hotValue.trans hhot.symm)
  have few : lost ≤ 16 → s5 = s4 := fun h => if_neg (by omega)
  refine ⟨(hsampled.measured h4).measured ht, ht.spares.queue.trans (h4.spares.queue.trans hqueue),
    (sampleShutdown_fuse s5).trans (h5fuse.trans h4fuse), fun h hcool => ?_, fun h hwarm hop => ?_, fun h hf => ?_⟩
  · rw [hot_eq] at hcool
    unfold t
    rw [sampleShutdown_cool hcool, few h, h4sys]
  · rw [hot_eq] at hwarm
    unfold t
    rw [few h, sampleShutdown_holds hwarm (by rw [h4sys]; exact hop)]
    refine ⟨(holdThermal_sys (by rw [h4sys]; exact hop)).trans (by rw [h4sys]), ?_⟩
    unfold State.flag
    rw [fld_of_dev (inDev_dev _ _)]
    exact shutDown_flag _
  · have h5 : s5 = s4.toFault 0x23 := if_pos (by omega)
    have h5sys : s5.sys = { s.sys with op := .fault, prev := s.sys.op, cause := 0x23 } := by
      rw [h5, toFault_enters s4 _ (by rw [h4sys]; exact hf), enter_sys, h4sys]
      rfl
    unfold t
    rw [sampleShutdown_fault (by rw [h5sys]), h5sys]

/-- Raw values of the sensors fit their fields. -/
theorem toInt_fits (raws : List (BitVec 16)) (i : Nat) :
    -(2 ^ 16 : Int) ≤ 2 * (raws.map BitVec.toInt).getD i 0 ∧ 2 * (raws.map BitVec.toInt).getD i 0 < 2 ^ 16 := by
  rw [List.getD_eq_getElem?_getD, List.getElem?_map]
  cases raws[i]? with
  | none => decide
  | some v => exact ⟨BitVec.le_two_mul_toInt, BitVec.two_mul_toInt_lt⟩

theorem temperatureSampled (raws : List (BitVec 16)) (s : State) (hlen : raws.length = 64) (hq : s.dev.cmd.queue = []) :
    (s.sys.op = .off → exec (.temperatureSample raws) s = .next s)
    ∧ (s.sys.op ≠ .off → ∃ t, exec (.temperatureSample raws) s = .next t ∧ t.saf = s.saf ∧ t.fuse = s.fuse
      ∧ (∀ i (h : i < raws.length), t.sfld F.thmSensRaw i = raws[i].toInt)
      ∧ t.sfld F.thmStsHot 0 = (hottest ((List.range 64).map fun i => t.sfld F.thmSensValue i)).2
      ∧ t.fld F.thmStsHotIdx 0 = (hottest ((List.range 64).map fun i => t.sfld F.thmSensValue i)).1
      ∧ (((List.range 64).filter t.broken).length ≤ 16 → t.sfld F.thmStsHot 0 < 2000 → t.sys = s.sys)
      ∧ (((List.range 64).filter t.broken).length ≤ 16 → 2000 ≤ t.sfld F.thmStsHot 0 → s.sys.op = .ready ∨ s.sys.op = .run →
        t.sys = { s.sys with op := .safeHold, prev := s.sys.op, cause := 0x10, holdThermal := true }
          ∧ t.flag F.thmStsShutdown 0 = true)
      ∧ (16 < ((List.range 64).filter t.broken).length → s.sys.op.faults 0x23 = true →
        t.sys = { s.sys with op := .fault, prev := s.sys.op, cause := 0x23 })) := by
  refine ⟨fun h => congrArg _ (inCore_self (f := fun s => if s.sys.op = .off then s else (s.sampleTemps (raws.map BitVec.toInt)).pump)
    (if_pos h)), fun h => ?_⟩
  obtain ⟨hs, hqueue, hfuse, hcool, hwarm, hbroken⟩ := sampleTemps_shows s (toInt_fits raws)
  have hrow : exec (.temperatureSample raws) s
      = .next (inCore (fun s => if s.sys.op = .off then s else (s.sampleTemps (raws.map BitVec.toInt)).pump) s) := rfl
  obtain ⟨t, hexec, tdev, tsys, tsaf, tfuse, -⟩ := exec_lift hrow ((if_neg h).trans (pump_nil _ (hqueue.trans hq)))
  generalize s.sampleTemps (raws.map BitVec.toInt) = u at hs hfuse hcool hwarm hbroken tdev tsys tfuse
  have ht : Measured u t := (Measured.refl u).of_dev tdev
  have hst := hs.measured ht
  dsimp only at hcool hwarm hbroken
  rw [← ht.broken, ← ht.hotValue, ← tsys] at hcool hwarm
  rw [← ht.broken, ← tsys] at hbroken
  refine ⟨t, hexec, tsaf, tfuse.trans hfuse, fun i hi => ?_, hst.hot, hst.idx, hcool, fun h1 h2 h3 => ?_, hbroken⟩
  · rw [hst.raw i (by omega), List.getD_eq_getElem _ _ (by rw [List.length_map]; exact hi), List.getElem_map]
  · obtain ⟨hsys, hflag⟩ := hwarm h1 h2 h3
    exact ⟨hsys, by unfold State.flag; rw [fld_of_dev tdev]; exact hflag⟩

/-! The end of the thermal cause (R42, R425). -/

/-- A quiet device reports its state to its own record alone. -/
theorem Frame.reportState_quiet {o : OpState} (h : Frame R P s t) (hs : t.quiet) (hP : Part.acq ∈ P := by decide) :
    Frame R P s (t.reportState o) := by
  unfold State.reportState
  dsimp only
  refine Frame.ite (fun _ => h) fun _ => ?_
  generalize t.sysWord = w
  have hsilent : (t.onDev fun d => { d with acq := { d.acq with src := smPut {} d.acq.src 0x300 ⟨w, 0x12, false⟩ } }).streamsOf 2 = [] :=
    streamsOf_quiet (s := t) hs 2
  rw [hsilent, List.foldl_nil, ite_self]
  exact h.onDev (fun _ => rfl) fun d p n => by cases p <;> first | rfl | exact absurd hP n

theorem reportState_keeps (o : OpState) (hdev : t.dev = s.dev) (hs : t.quiet) :
    keepsRegs [] s (inDev (·.reportState o) t) ∧ keepsBytes s (inDev (·.reportState o) t) := by
  obtain ⟨-, hregs, hbytes⟩ := (Frame.inDev (f := (·.reportState o)) ((Frame.refl [] [.acq] t).reportState_quiet hs)).keeps (by decide)
  exact ⟨fun r i hr => (hregs r i hr).trans (reg_of_dev hdev r i),
    fun a => (hbytes a).trans (bytes_of_mem (congrArg Dev.mem hdev) a)⟩

theorem shutDownEnds_flag (s : State) : s.shutDownEnds.flag F.thmStsShutdown 0 = false := by
  unfold State.shutDownEnds
  split
  next =>
    dsimp only
    generalize List.foldl _ _ _ = u
    rw [((Frame.refl changeRegs ringParts (u.setFlag F.thmStsShutdown 0 false)).change).flag _ _ (by decide)]
    exact flag_setFlag_same _ _ (by decide) false
  next h => exact Bool.eq_false_iff.2 h

theorem unhold_thermal (s : State) : (if s.sys.holdThermal then s.unhold 0x10 else s).sys = { s.sys with holdThermal := false }
    ∧ (if s.sys.holdThermal then s.unhold 0x10 else s).fuse = s.fuse := by
  split
  next => exact ⟨unhold_sys s 0x10, inDev_fuse _ _⟩
  next h => exact ⟨by rw [← Bool.eq_false_iff.2 h], rfl⟩

theorem unhold_quiet (hs : s.quiet) : keepsRegs [] s (if s.sys.holdThermal then s.unhold 0x10 else s)
    ∧ keepsBytes s (if s.sys.holdThermal then s.unhold 0x10 else s) := by
  split
  next =>
    have hw : ∃ w : State, { s with sys := s.sys.setHold 0x10 false } = w ∧ w.dev = s.dev ∧ w.quiet := ⟨_, rfl, rfl, hs⟩
    unfold State.unhold
    obtain ⟨w, hw, hdev, hquiet⟩ := hw
    rw [hw]
    exact reportState_keeps s.sys.op hdev hquiet
  next => exact ⟨fun _ _ _ => rfl, fun _ => rfl⟩

theorem thermalCleared (s : State) :
    (s.sfld F.thmStsHot 0 < 1760 → ∃ t, exec .thermalCauseClear s = .next t
      ∧ t.sys = { s.sys with holdThermal := false } ∧ t.saf = s.saf ∧ t.fuse = s.fuse
      ∧ (s.sys.op = .init → t.flag F.thmStsShutdown 0 = false)
      ∧ (s.quiet → s.sys.op ≠ .init → keepsRegs [] s t ∧ keepsBytes s t))
    ∧ (1760 ≤ s.sfld F.thmStsHot 0 → exec .thermalCauseClear s = .next s) := by
  refine ⟨fun h => ?_, fun h => congrArg _ (inCore_self (f := State.thermalClear) (if_pos h))⟩
  obtain ⟨hsys, hfuse⟩ := unhold_thermal s
  have hquiet := unhold_quiet (s := s)
  have hrun : s.thermalClear = (fun u : State => if s.sys.op = .init then inDev State.shutDownEnds u else u)
      (if s.sys.holdThermal then s.unhold 0x10 else s) := if_neg (by omega)
  generalize (if s.sys.holdThermal then s.unhold 0x10 else s) = u at hrun hsys hfuse hquiet
  dsimp only at hrun
  obtain ⟨t, hexec, tdev, tsys, tsaf, tfuse, -⟩ := exec_lift (c := .thermalCauseClear) (f := State.thermalClear) rfl hrun
  by_cases hop : s.sys.op = .init
  · rw [if_pos hop] at tdev tsys tfuse
    refine ⟨t, hexec, tsys.trans hsys, tsaf, tfuse.trans hfuse, fun _ => ?_, fun _ hn => absurd hop hn⟩
    unfold State.flag
    rw [fld_of_dev tdev]
    exact shutDownEnds_flag u
  · rw [if_neg hop] at tdev tsys tfuse
    refine ⟨t, hexec, tsys.trans hsys, tsaf, tfuse.trans hfuse, fun hi => absurd hi hop, fun hs _ => ?_⟩
    obtain ⟨hregs, hbytes⟩ := hquiet hs
    exact ⟨fun r i hr => (reg_of_dev tdev r i).trans (hregs r i hr), fun a => (bytes_of_mem (congrArg Dev.mem tdev) a).trans (hbytes a)⟩

/-- Settles O14. -/
theorem faultAndHoldCauses : Obligations.FaultAndHoldCauses :=
  ⟨fun s hq => faultCauses s hq, fun raws s hlen hq => temperatureSampled raws s hlen hq, fun s => thermalCleared s⟩

end Sys2Proof.Machine
end

section
/-! O10 (R41, R244, R278, R336, R414, R415, R433, R434). -/
namespace Sys2Proof.Machine

set_option Elab.async false

variable {R : List Reg} {P : List Part} {s t u : State} {cold : Bool} {source cause i : Nat} {r : Reg}

/-- The device part alone is taken from a state reached. -/
theorem Frame.of_takeDev {b w : State} (h : Frame R P w t) (hk : keepsCore b w) : Frame R P w (b.takeDev t) := by
  obtain ⟨hsys, hsaf, hfuse, hpend⟩ := hk
  exact ⟨hsys.symm, hsaf.symm, hfuse.symm, hpend.symm, h.reg, h.part⟩

/-- Keys of a map that a filter drops read as the default. -/
theorem smGet_filter_drop {α : Type} (d : α) (q : Nat × α → Bool) (m : List (Nat × α)) {k : Nat} (hk : ∀ v, q (k, v) = false) :
    smGet d (m.filter q) k = d := by
  induction m with
  | nil => rfl
  | cons p m ih =>
    obtain ⟨k', v⟩ := p
    by_cases hp : q (k', v) = true
    · have hne : k' ≠ k := fun e => by simp [e, hk] at hp
      rw [List.filter_cons_of_pos hp]
      simpa [smGet, hne] using ih
    · rw [List.filter_cons_of_neg hp]
      exact ih

/-! A reset, part by part (R41, R433, R434). -/

/-- The registers that a reset leaves with another word than their Reset value: SYS_RST, the hash seed, the permits, and the live
parts. -/
abbrev liveRegs : List Reg := [.sysRst, .timRefSts, .fmkSts, .pwrSupSts, .memHash, .emtSts, .thmSts, .thmSens]

/-- Those behind SYS_RST. -/
abbrev shownRegs : List Reg := [.timRefSts, .fmkSts, .pwrSupSts, .memHash, .emtSts, .thmSts, .thmSens]

/-- The state that a reset starts from, before SYS_RST and the live parts show. -/
def State.blank (s : State) (cold : Bool) (cause : Nat) : State :=
  { s with
    dev := { regs := if cold then [] else s.dev.regs.filter fun q => keptWarm.contains (keyReg q.1).1
             mem := smEraseRange s.dev.mem sramBase (2 ^ 23)
             poison := s.dev.poison.filter (fun p => decide (p < sramBase ∨ mirrorBase ≤ p))
             freeCtr := s.dev.freeCtr, out := s.stopLoops.stopClocks.dev.out }
    sys := ⟨.reset, if s.sys.op = .off then .reset else s.sys.op, cause, false, false, false, false⟩ }

/-- SYS_RST at a reset: its source, whether it was cold, and the count of warm resets since. -/
def State.rstWord (s : State) (cold : Bool) (source : Nat) : Nat :=
  packBits [(16, if cold then 0 else satN 16 (s.fld F.sysRstWarmCnt 0 + 1)), (3, source), (12, 0), (1, b2n cold)]

theorem resetNow_eq (s : State) (cold : Bool) (source cause : Nat) : s.resetNow cold source cause =
    (s.blank cold cause).takeDev
      ((((s.blank cold cause).setReg .sysRst 0 (s.rstWord cold source)).keepLive s).keepSources.drawSeed.syncPermits) := rfl

theorem blank_reg (h : cold = true ∨ r ∉ keptWarm) : (s.blank cold cause).reg r i = (r.resetWord i).toNat := by
  unfold State.reg State.blank
  dsimp only
  split
  next => rfl
  next hc =>
    rw [smGet_filter_drop _ _ _ fun v => ?_]
    rw [keyReg_key]
    simpa using h.resolve_left hc

theorem blank_byte (a : Nat) : (s.blank cold cause).byte a = if sramBase ≤ a ∧ a < sramBase + 2 ^ 23 then 0 else s.byte a := by
  unfold State.byte State.blank smEraseRange
  dsimp only
  split
  next h => exact smGet_filter_drop _ _ _ fun v => by simpa using h
  next h => exact smGet_filter _ _ _ fun v => by simpa [or_iff_not_imp_left] using h

theorem Frame.keepLive {o : State} (h : Frame R P s t) (hR : [Reg.timRefSts, .fmkSts, .pwrSupSts, .thmSts, .thmSens] ⊆ R := by decide)
    (hP : Part.thm ∈ P := by decide) : Frame R P s (t.keepLive o) := by
  unfold State.keepLive
  extract_lets ref s1 s2 s3 s4
  have h1 : Frame R P s s1 := (((h.setFld (hR (by decide))).setFld (hR (by decide))).setFld (hR (by decide))).setFld (hR (by decide))
  have h2 : Frame R P s s2 := (h1.setFld (hR (by decide))).setFld (hR (by decide))
  have h3 : Frame R P s s3 := (((h2.setFld (hR (by decide))).setFld (hR (by decide))).setFld (hR (by decide))).setFld (hR (by decide))
  have h4 : Frame R P s s4 := Frame.foldl _ h3 fun _ _ hu => hu.setReg (hR (by decide))
  exact h4.onDev (fun _ => rfl) fun d p n => by cases p <;> first | rfl | exact absurd hP n

/-- The supply monitors show what they showed before. -/
theorem keepLive_good (s o : State) : (s.keepLive o).fld F.pwrSupStsGood 0 = o.fld F.pwrSupStsGood 0 := by
  unfold State.keepLive
  extract_lets ref s1 s2 s3 s4
  have h3 : Frame [.thmSts] [] s2 s3 := ((((Frame.refl _ _ s2).setFld (by decide)).setFld (by decide)).setFld (by decide)).setFld (by decide)
  have h4 : Frame [.thmSens] [] s3 s4 := Frame.foldl _ (Frame.refl _ _ s3) fun _ _ hu => hu.setReg (by decide)
  have h5 : Frame [] [.thm] s4 (s4.onDev fun d => { d with thm := { lastWarm := if o.flag F.thmStsFast 0 then some 0 else none } }) :=
    (Frame.refl _ _ s4).onDev (fun _ => rfl) fun d p n => by cases p <;> first | rfl | exact absurd (by decide) n
  have h2 : s2 = (s1.setFld F.fmkStsRef 0 (o.fld F.fmkStsRef 0)).setFld F.pwrSupStsGood 0 (o.fld F.pwrSupStsGood 0) := rfl
  have hlt := fld_lt o F.pwrSupStsGood 0
  clear_value s1 s2 s3 s4
  rw [h5.fld _ _ (by decide), h4.fld _ _ (by decide), h3.fld _ _ (by decide), h2, fld_setFld_same _ _ _ (by decide)]
  exact Nat.mod_eq_of_lt hlt

theorem Frame.keepSources (h : Frame R P s t) (hP : Part.acq ∈ P := by decide) : Frame R P s t.keepSources :=
  Frame.foldl _ h fun _ _ hu => hu.onDev (fun _ => rfl) fun d p n => by cases p <;> first | rfl | exact absurd hP n

theorem Frame.drawSeed (h : Frame R P s t) (hR : Reg.memHash ∈ R := by decide) (hP : Part.freeCtr ∈ P := by decide) :
    Frame R P s t.drawSeed := (h.draw hP).setReg hR

/-- With no shot drawn a withdrawn permit blocks nothing. -/
theorem blockSampled_none (h : s.dev.rng.ports = []) : s.blockSampled = s := by
  unfold State.blockSampled
  refine List.foldl_fixed' (fun n => ?_) _
  have hport : s.port n = {} := by
    unfold State.port
    rw [h]
    rfl
  rw [hport]

/-- The permits reach the emitters of a device that has drawn no shot. -/
theorem Frame.syncPermits_none (h : Frame R P s t) (hp : t.dev.rng.ports = []) (hR : Reg.emtSts ∈ R := by decide) :
    Frame R P s t.syncPermits := by
  have h1 : ∀ a b, Frame R P s ((t.setFlag F.emtStsPermitA 0 a).setFlag F.emtStsPermitB 0 b) := fun a b => (h.setFlag hR).setFlag hR
  have hb : ∀ a b, ((t.setFlag F.emtStsPermitA 0 a).setFlag F.emtStsPermitB 0 b).blockSampled
      = (t.setFlag F.emtStsPermitA 0 a).setFlag F.emtStsPermitB 0 b := fun a b => blockSampled_none hp
  unfold State.syncPermits State.setPermits
  dsimp only
  rw [hb, ite_self]
  exact h1 _ _

/-- What a reset changes beside its blank state and SYS_RST: the hash seed, the permits and the live parts. -/
theorem resetNow_frame (s : State) (cold : Bool) (source cause : Nat) :
    Frame shownRegs [.thm, .acq, .freeCtr] ((s.blank cold cause).setReg .sysRst 0 (s.rstWord cold source)) (s.resetNow cold source cause)
      ∧ (s.resetNow cold source cause).fld F.pwrSupStsGood 0 = s.fld F.pwrSupStsGood 0 := by
  rw [resetNow_eq]
  have hrng : (s.blank cold cause).dev.rng.ports = [] := rfl
  generalize s.blank cold cause = b at hrng
  have hset : Frame [.sysRst] [] b (b.setReg .sysRst 0 (s.rstWord cold source)) := (Frame.refl _ _ b).setReg (by decide)
  generalize b.setReg .sysRst 0 (s.rstWord cold source) = w at hset
  have hlive : Frame shownRegs [.thm, .acq, .freeCtr] w (w.keepLive s) := (Frame.refl _ _ w).keepLive
  have hgood := keepLive_good w s
  generalize w.keepLive s = v at hlive hgood
  have hseed : Frame [.memHash, .emtSts] [.acq, .freeCtr] v v.keepSources.drawSeed := (Frame.refl _ _ v).keepSources.drawSeed
  have hv : v.dev.rng = w.dev.rng := hlive.part .rng (by decide)
  have hw : w.dev.rng = b.dev.rng := hset.part .rng (by decide)
  have hs : v.keepSources.drawSeed.dev.rng = v.dev.rng := hseed.part .rng (by decide)
  have hlast := hseed.syncPermits_none (by rw [hs, hv, hw, hrng])
  refine ⟨(hlive.trans hlast (by decide) (by decide)).of_takeDev ⟨hset.sys, hset.saf, hset.fuse, hset.pending⟩, ?_⟩
  exact (fld_of_dev (takeDev_dev _ _) _ _).trans ((hlast.fld _ _ (by decide)).trans hgood)

theorem resetNow_pending (s : State) (cold : Bool) (source cause : Nat) : (s.resetNow cold source cause).pending = s.pending := by
  rw [resetNow_eq]
  rfl

theorem resetNow_reg (s : State) (source cause : Nat) (h : r ∉ liveRegs) (hk : cold = true ∨ r ∉ keptWarm) :
    (s.resetNow cold source cause).reg r i = (r.resetWord i).toNat := by
  have hr : r ∉ shownRegs ∧ r ≠ .sysRst := by simp_all
  rw [(resetNow_frame s cold source cause).1.reg r i hr.1, reg_setReg_ne _ _ (Or.inl (Ne.symm hr.2)), blank_reg hk]

theorem resetNow_byte (s : State) (source cause : Nat) (a : Nat) :
    (s.resetNow cold source cause).byte a = if sramBase ≤ a ∧ a < sramBase + 2 ^ 23 then 0 else s.byte a := by
  obtain ⟨-, -, hbytes⟩ := (resetNow_frame s cold source cause).1.keeps (by decide)
  rw [hbytes, ← blank_byte (cold := cold) (cause := cause) a]
  rfl

/-- No command waits or runs behind a reset. -/
theorem resetNow_idle (s : State) (cold : Bool) (source cause : Nat) : (s.resetNow cold source cause).dev.cmd = {} :=
  (resetNow_frame s cold source cause).1.part .cmd (by decide)

theorem resetNow_ports (s : State) (cold : Bool) (source cause : Nat) : (s.resetNow cold source cause).dev.rng.ports = [] := by
  have hrng : (s.resetNow cold source cause).dev.rng = ((s.blank cold cause).setReg .sysRst 0 (s.rstWord cold source)).dev.rng :=
    (resetNow_frame s cold source cause).1.part .rng (by decide)
  rw [hrng]
  rfl

/-- SYS_RST names the reset and counts the warm ones. -/
theorem resetNow_rst (s : State) (cause : Nat) (h : source < 8) : (s.resetNow cold source cause).fld F.sysRstSource 0 = source
    ∧ (s.resetNow cold source cause).fld F.sysRstCold 0 = b2n cold
    ∧ (s.resetNow cold source cause).fld F.sysRstWarmCnt 0 = if cold then 0 else min (s.fld F.sysRstWarmCnt 0 + 1) 0xFFFF := by
  have hreg : (s.resetNow cold source cause).reg .sysRst 0 = s.rstWord cold source % 2 ^ 32 := by
    rw [(resetNow_frame s cold source cause).1.reg _ _ (by decide), reg_setReg_same]
  have hcold : b2n cold < 2 := by cases cold <;> decide
  have hcnt : (if cold then 0 else min (s.fld F.sysRstWarmCnt 0 + 1) 0xFFFF) < 2 ^ 16 := by split <;> omega
  have hsat : satN 16 (s.fld F.sysRstWarmCnt 0 + 1) = min (s.fld F.sysRstWarmCnt 0 + 1) 0xFFFF := satN_eq _ _
  unfold State.rstWord at hreg
  rw [hsat] at hreg
  generalize (if cold then 0 else min (s.fld F.sysRstWarmCnt 0 + 1) 0xFFFF) = n at hreg hcnt
  simp only [State.fld, hreg, packBits, bitsOf]
  refine ⟨?_, ?_, ?_⟩ <;> omega

/-! Warm and cold resets. -/

/-- From `s` to `t` a warm reset. -/
def State.warmReset (source : Nat) (s t : State) : Prop :=
  t.sys = ⟨.reset, s.sys.op, 2, false, false, false, false⟩ ∧ t.saf = s.saf ∧ t.fuse = s.fuse
    ∧ t.fld F.sysRstSource 0 = source ∧ t.fld F.sysRstCold 0 = 0
    ∧ t.fld F.sysRstWarmCnt 0 = min (s.fld F.sysRstWarmCnt 0 + 1) 0xFFFF
    ∧ (∀ r i, r ∉ liveRegs → r ∉ keptWarm → t.reg r i = (r.resetWord i).toNat)
    ∧ (∀ a, t.byte a = if sramBase ≤ a ∧ a < sramBase + 2 ^ 23 then 0 else s.byte a)
    ∧ t.dev.cmd.queue = [] ∧ t.dev.cmd.running = none

/-- From `s` to `t` a cold reset. -/
def State.coldReset (source cause : Nat) (s t : State) : Prop :=
  t.sys = ⟨.reset, if s.sys.op = .off then .reset else s.sys.op, cause, false, false, false, false⟩ ∧ t.fuse = s.fuse
    ∧ t.fld F.sysRstSource 0 = source ∧ t.fld F.sysRstCold 0 = 1 ∧ t.fld F.sysRstWarmCnt 0 = 0
    ∧ (∀ r i, r ∉ liveRegs → t.reg r i = (r.resetWord i).toNat)
    ∧ ∀ a, t.byte a = if sramBase ≤ a ∧ a < sramBase + 2 ^ 23 then 0 else s.byte a

section
variable (h : Frame R P s u) (hR : Reg.sysRst ∉ R) (hP : Part.mem ∉ P)
include h hP

/-- General SRAM is cleared, and nothing else in memory (R433). -/
theorem byte_resetNow (source cause a : Nat) :
    (u.resetNow cold source cause).byte a = if sramBase ≤ a ∧ a < sramBase + 2 ^ 23 then 0 else s.byte a := by
  obtain ⟨-, -, hbytes⟩ := h.keeps hP
  rw [resetNow_byte, hbytes]

/-- A cold reset behind steps that leave memory. -/
theorem resetNow_cold (cause : Nat) (hsource : source < 8) : s.coldReset source cause (u.resetNow true source cause) := by
  obtain ⟨hsrc, hcold, hcnt⟩ := resetNow_rst (cold := true) u cause hsource
  refine ⟨?_, (resetNow_fuse _ _ _ _).trans h.fuse, hsrc, hcold, hcnt,
    fun r i hl => resetNow_reg _ _ _ hl (Or.inl rfl), byte_resetNow h hP source cause⟩
  rw [resetNow_sys, h.sys]

include hR

/-- A warm reset behind steps that leave SYS_RST and memory. -/
theorem resetNow_warm (hop : s.sys.op ≠ .off) (hsource : source < 8) : s.warmReset source (u.resetNow false source 2) := by
  obtain ⟨hsrc, hcold, hcnt⟩ := resetNow_rst (cold := false) u 2 hsource
  rw [h.fld _ _ hR] at hcnt
  have hidle := resetNow_idle u false source 2
  refine ⟨?_, (resetNow_saf _ _ _ _).trans h.saf, (resetNow_fuse _ _ _ _).trans h.fuse, hsrc, hcold, hcnt,
    fun r i hl hk => resetNow_reg _ _ _ hl (Or.inr hk), byte_resetNow h hP source 2, by rw [hidle], by rw [hidle]⟩
  rw [resetNow_sys, h.sys, if_neg hop]

end

/-- The permits that the safety channels withdraw leave a cold reset one. -/
theorem coldReset_permits (h : s.coldReset source cause u) (k : Frame [.emtSts] [] u t) : s.coldReset source cause t := by
  obtain ⟨hsys, hfuse, hsrc, hcold, hcnt, hregs, hbytes⟩ := h
  obtain ⟨-, -, hmem⟩ := k.keeps (by decide)
  refine ⟨k.sys.trans hsys, k.fuse.trans hfuse, by rw [k.fld _ _ (by decide), hsrc], by rw [k.fld _ _ (by decide), hcold],
    by rw [k.fld _ _ (by decide), hcnt], fun r i hr => ?_, fun a => by rw [hmem, hbytes]⟩
  rw [k.reg r i (by simp_all), hregs r i hr]

/-! The rows. -/

/-- A row of the core whose function leaves the safety channels. -/
theorem exec_whole {c : Instr} {f : State → State} (hc : exec c s = .next (inCore f s)) (hf : f s = u) (hsaf : u.saf = s.saf)
    (hpend : u.pending = s.pending) : exec c s = .next u := by
  rw [hc]
  unfold inCore
  rw [hf, ← hsaf, ← hpend]

/-- The reset ball (R433). -/
theorem resetBall_shows (s : State) (h : s.sys.op ≠ .off) : ∃ t, exec .resetBall s = .next t ∧ s.warmReset 5 t :=
  ⟨_, exec_whole (f := fun s => if s.sys.op = .off then s else s.resetNow false 5 0x02) rfl (if_neg h) (resetNow_saf _ _ _ _)
    (resetNow_pending _ _ _ _), resetNow_warm (Frame.refl [] [] s) (by decide) (by decide) h (by decide)⟩

theorem resetBall_off (s : State) (h : s.sys.op = .off) : exec .resetBall s = .next s :=
  congrArg _ (inCore_self (f := fun s => if s.sys.op = .off then s else s.resetNow false 5 0x02) (if_pos h))

/-- RESET_WARM and RESET_COLD are legal wherever a GO is not held (R50). -/
theorem legal_reset {op : Nat} (hop : op = 0x0F ∨ op = 0x10) (hh : s.sys.op.held = false) :
    (!legalIn op s.sys.op || bootServes s.sys.op && !bootOps.contains op) = false := by
  revert hh
  obtain rfl | rfl := hop <;> cases s.sys.op <;> decide

theorem execute_resetWarm (c : MbxCmd) (hc : c.opcode = 0x0F) (hh : s.sys.op.held = false) : s.execute c =
    if c.mbx = 1 ∧ s.dev.boot.mgmtProt = true then s.endCmd c s.sys.op.code 5 else (s.endCmd c s.sys.op.code 0).resetNow false 4 2 := by
  have hl := legal_reset (op := 0x0F) (Or.inl rfl) hh
  unfold State.execute
  rw [hc, if_neg (by decide), hl]
  rfl

theorem execute_resetCold (c : MbxCmd) (hc : c.opcode = 0x10) (hh : s.sys.op.held = false) : s.execute c =
    if c.mbx = 1 ∧ s.dev.boot.mgmtProt = true then s.endCmd c s.sys.op.code 5 else (s.endCmd c s.sys.op.code 0).resetNow true 2 3 := by
  have hl := legal_reset (op := 0x10) (Or.inr rfl) hh
  unfold State.execute
  rw [hc, if_neg (by decide), hl]
  rfl

/-- A reset that a mailbox may ask for: its command ends, then the reset stands. -/
theorem command_resets (m : Fin 2) (tag : BitVec 8) (op source cause : Nat) (cold : Bool) (hf : s.mailboxFree m)
    (hh : s.sys.op.held = false) (hm : ¬(m = 1 ∧ s.dev.boot.mgmtProt = true))
    (he : ∀ (p : State) (c : MbxCmd), p.sys = s.sys → c.opcode = op → p.execute c =
      if c.mbx = 1 ∧ p.dev.boot.mgmtProt = true then p.endCmd c p.sys.op.code 5
      else (p.endCmd c p.sys.op.code 0).resetNow cold source cause) :
    ∃ q, s.command m tag op [] = q.resetNow cold source cause
      ∧ Frame [.sysMbxArg, .sysMbxCmd, .sysMbxSts, .ethTxDropCnt] [.cmd, .eth, .pairs] s q := by
  obtain ⟨p, c, hrun, hmbx, -, hop, -, -, hp⟩ := command_run s m tag op [] hf hh
  have hboot : p.dev.boot = s.dev.boot := hp.frame.part .boot (by decide)
  rw [he p c hp.frame.sys hop, if_neg (by rw [hmbx, hboot]; exact fun hn => hm ⟨Fin.ext hn.1, hn.2⟩)] at hrun
  exact ⟨_, hrun, (hp.frame.mono (by decide) (by decide)).trans (endCmd_frame p c _ (by decide)) (by decide) (by decide)⟩

theorem not_off_of_held (h : s.sys.op.held = false) : s.sys.op ≠ .off := fun e => by rw [e] at h; exact absurd h (by decide)

theorem resetWarm_shows (m : Fin 2) (tag : BitVec 8) (hf : s.mailboxFree m) (hh : s.sys.op.held = false) :
    (¬(m = 1 ∧ s.dev.boot.mgmtProt = true) → ∃ t, exec (.resetWarm m tag) s = .next t ∧ s.warmReset 4 t)
    ∧ (m = 1 ∧ s.dev.boot.mgmtProt = true → ∃ t, exec (.resetWarm m tag) s = .next t
      ∧ t.shows m tag.toNat s.sys.op.code 5 ∧ t.sys = s.sys ∧ keepsRegs [.sysMbxCmd, .sysMbxSts] s t ∧ keepsBytes s t) := by
  refine ⟨fun hm => ?_, fun hm => ?_⟩
  · obtain ⟨q, hrun, hq⟩ := command_resets m tag 0x0F 4 2 false hf hh hm fun p c hp hc => execute_resetWarm c hc (by rw [hp, hh])
    exact ⟨_, exec_whole (f := fun s => s.command m tag 0x0F []) rfl hrun ((resetNow_saf _ _ _ _).trans hq.saf)
      ((resetNow_pending _ _ _ _).trans hq.pending), resetNow_warm hq (by decide) (by decide) (not_off_of_held hh) (by decide)⟩
  · obtain ⟨t, hrun, hshows, hcore, hregs, hbytes⟩ := command_ends_plain m tag 0x0F hf hh (r := 5) (by decide) (by decide)
      fun p c hp hmbx hop => by
        have hboot : p.dev.boot = s.dev.boot := hp.frame.part .boot (by decide)
        rw [execute_resetWarm c hop (by rw [hp.frame.sys, hh]), if_pos ⟨by rw [hmbx, hm.1]; rfl, by rw [hboot, hm.2]⟩, hp.frame.sys]
    exact ⟨t, exec_core rfl hrun hcore, hshows, hcore.1, hregs, hbytes⟩

theorem resetCold_shows (m : Fin 2) (tag : BitVec 8) (hf : s.mailboxFree m) (hh : s.sys.op.held = false)
    (hm : ¬(m = 1 ∧ s.dev.boot.mgmtProt = true)) : ∃ t, exec (.resetCold m tag) s = .next t ∧ s.coldReset 2 3 t ∧ t.saf = s.saf := by
  obtain ⟨q, hrun, hq⟩ := command_resets m tag 0x10 2 3 true hf hh hm fun p c hp hc => execute_resetCold c hc (by rw [hp, hh])
  have hsaf := (resetNow_saf q true 2 3).trans hq.saf
  exact ⟨_, exec_whole (f := fun s => s.command m tag 0x10 []) rfl hrun hsaf ((resetNow_pending _ _ _ _).trans hq.pending),
    resetNow_cold hq (by decide) 3 (by decide), hsaf⟩

/-- The supplies become good (R41, R415). -/
theorem suppliesGood_shows (s : State) :
    (s.sys.op = .off → ∃ t, exec .suppliesGood s = .next t ∧ s.coldReset 0 0 t ∧ t.saf = s.saf ∧ t.fld F.pwrSupStsGood 0 = 0x3F)
    ∧ (s.sys.op ≠ .off → ∃ t, exec .suppliesGood s = .next t ∧ t.fld F.pwrSupStsGood 0 = 0x3F
      ∧ keepsCore s t ∧ keepsRegs [.pwrSupSts] s t ∧ keepsBytes s t) := by
  have hset : Frame [.pwrSupSts] [] s (s.setFld F.pwrSupStsGood 0 0x3F) := (Frame.refl _ _ s).setFld (by decide)
  have hgood : (s.setFld F.pwrSupStsGood 0 0x3F).fld F.pwrSupStsGood 0 = 0x3F := fld_setFld_same _ _ _ (by decide)
  have hrun : s.suppliesGood = (fun u : State => if s.sys.op = .off then u.resetNow true 0 0 else u) (s.setFld F.pwrSupStsGood 0 0x3F) := rfl
  generalize s.setFld F.pwrSupStsGood 0 0x3F = u at hset hgood hrun
  refine ⟨fun h => ?_, fun h => ?_⟩
  · have hsaf := (resetNow_saf u true 0 0).trans hset.saf
    exact ⟨_, exec_whole (f := State.suppliesGood) rfl (hrun.trans (if_pos h)) hsaf ((resetNow_pending _ _ _ _).trans hset.pending),
      resetNow_cold hset (by decide) 0 (by decide), hsaf, (resetNow_frame u true 0 0).2.trans hgood⟩
  · obtain ⟨hcore, hregs, hbytes⟩ := hset.keeps (by decide)
    exact ⟨u, exec_core rfl (hrun.trans (if_neg h)) hcore, hgood, hcore, hregs, hbytes⟩

theorem bitOf_putBits_clear (w : Nat) {i k : Nat} (hi : i < k) : bitOf (putBits w i i 0 % 2 ^ k) i = false := by
  rw [bitOf_eq_bitsOf, bitsOf_mod_width _ hi, bitsOf_putBits_same w 0 le_rfl, Nat.sub_self]
  rfl

/-- The supply monitors with a rail that lies outside its limits. -/
theorem railFails_shows (rail : Fin 6) (s : State) :
    ∃ u, (s.setFld F.pwrSupStsGood 0 (putBits (s.fld F.pwrSupStsGood 0) rail rail 0)).resetNow true 1 0x03 = u
      ∧ s.coldReset 1 3 u ∧ u.saf = s.saf ∧ u.pending = s.pending ∧ bitOf (u.fld F.pwrSupStsGood 0) rail = false
      ∧ u.dev.rng.ports = [] := by
  have hset : Frame [.pwrSupSts] [] s (s.setFld F.pwrSupStsGood 0 (putBits (s.fld F.pwrSupStsGood 0) rail rail 0)) :=
    (Frame.refl _ _ s).setFld (by decide)
  have hbit : bitOf ((s.setFld F.pwrSupStsGood 0 (putBits (s.fld F.pwrSupStsGood 0) rail rail 0)).fld F.pwrSupStsGood 0) rail = false := by
    rw [fld_setFld_same _ _ _ (by decide)]
    exact bitOf_putBits_clear _ rail.isLt
  generalize s.setFld F.pwrSupStsGood 0 (putBits (s.fld F.pwrSupStsGood 0) rail rail 0) = v at hset hbit
  exact ⟨_, rfl, resetNow_cold hset (by decide) 3 (by decide), (resetNow_saf _ _ _ _).trans hset.saf,
    (resetNow_pending _ _ _ _).trans hset.pending, by rw [(resetNow_frame v true 1 3).2, hbit], resetNow_ports _ _ _ _⟩

/-- The safety channels lose their power, and with it their permits (R127, R336). -/
theorem powerDown_permits (h : s.coldReset source cause u) (hp : u.dev.rng.ports = []) :
    ∃ t, inDev State.syncPermits { u with saf := Saf.powerDown } = t ∧ s.coldReset source cause t ∧ t.saf = Saf.powerDown
      ∧ t.pending = u.pending ∧ t.fld F.pwrSupStsGood 0 = u.fld F.pwrSupStsGood 0 := by
  have hw : ∃ w : State, { u with saf := Saf.powerDown } = w ∧ w.dev = u.dev ∧ w.saf = Saf.powerDown ∧ w.pending = u.pending
      ∧ s.coldReset source cause w := ⟨_, rfl, rfl, rfl, rfl, h⟩
  obtain ⟨w, hw, hdev, hsaf, hpend, hcold⟩ := hw
  rw [hw]
  have hframe : Frame [.emtSts] [] w (inDev State.syncPermits w) :=
    Frame.inDev ((Frame.refl [.emtSts] [] w).syncPermits_none (by rw [hdev, hp]))
  exact ⟨_, rfl, coldReset_permits hcold hframe, hframe.saf.trans hsaf, hframe.pending.trans hpend,
    (hframe.fld _ _ (by decide)).trans (fld_of_dev hdev _ _)⟩

/-- A supply outside its trip limits (R336, R414, R415). -/
theorem supplyOutOfRange_shows (rail : Fin 6) (s : State) :
    (s.sys.op ≠ .off → ∃ t, exec (.supplyOutOfRange rail) s = .next t ∧ s.coldReset 1 3 t
      ∧ t.saf = (if rail.val = 0 ∨ rail.val = 5 then Saf.powerDown else s.saf) ∧ bitOf (t.fld F.pwrSupStsGood 0) rail = false)
    ∧ (s.sys.op = .off → exec (.supplyOutOfRange rail) s = .next s) := by
  have hall : ∀ t, s.supplyFails rail = t → t.pending = s.pending → exec (.supplyOutOfRange rail) s = .next t := fun t ht hpend => by
    have hrow : exec (.supplyOutOfRange rail) s = (fun u : State => .next { u with pending := s.pending }) (s.supplyFails rail) := rfl
    rw [hrow, ht, ← hpend]
  refine ⟨fun h => ?_, fun h => hall s (if_pos h) rfl⟩
  obtain ⟨u, hu, hcold, hsaf, hpend, hbit, hports⟩ := railFails_shows rail s
  have hrun : s.supplyFails rail = if rail.val = 0 ∨ rail.val = 5 then inDev State.syncPermits { u with saf := Saf.powerDown } else u := by
    rw [← hu]
    exact if_neg h
  by_cases hrail : rail.val = 0 ∨ rail.val = 5
  · obtain ⟨t, ht, htcold, htsaf, htpend, htgood⟩ := powerDown_permits hcold hports
    rw [if_pos hrail]
    exact ⟨t, hall t (hrun.trans ((if_pos hrail).trans ht)) (htpend.trans hpend), htcold, htsaf, by rw [htgood, hbit]⟩
  · rw [if_neg hrail]
    exact ⟨u, hall u (hrun.trans (if_neg hrail)) hpend, hcold, hsaf, hbit⟩

/-- Settles O10. -/
theorem resets : Obligations.Resets := by
  refine ⟨⟨resetBall_shows, resetBall_off, fun m tag s hf hh => resetWarm_shows m tag hf hh⟩, ?_⟩
  exact ⟨fun s h => (suppliesGood_shows s).1 h, fun s h => (suppliesGood_shows s).2 h, fun rail s h => (supplyOutOfRange_shows rail s).1 h,
    fun rail s h => (supplyOutOfRange_shows rail s).2 h, fun m tag s hf hh hm => resetCold_shows m tag hf hh hm⟩

end Sys2Proof.Machine
end

section
/-! SUPPORT. The servo of a channel at the instant its analog domain comes on (R57): DC_CURRENT reads 0 then, clamped or not (log entry 62),
where the statement of a channel's upkeep has it read 65,535. -/
namespace Sys2Proof.Machine

variable {s : State} {ch : Nat}

theorem dcCurrent_atPowerUp (h : (s.clus (ch / 16)).onAt = some s.dev.time.c) : s.readWord .rcvChDc ch = 0 := by
  change s.dcCurrent ch = 0
  unfold State.dcCurrent
  rw [if_pos (by simp [h])]

/-- A device at the instant the power-good of the analog domain of cluster 0 rises. -/
def comingOn : State := State.reset.pgood 0

theorem comingOn_domain : comingOn.domainOn 0 = true := by decide +kernel

/-- A servo that clamps at that instant is seen to clamp, yet its current still reads 0. -/
theorem comingOn_clamps : ∃ t, exec (.dcSat (0, true)) comingOn = .next t ∧ (t.clus 0).onAt = some t.dev.time.c :=
  ⟨_, rfl, by decide +kernel⟩

/-- Refutes O26: a servo that clamps is to hold DC_CURRENT at 65,535, but where it does so at the instant its analog domain comes on,
DC_CURRENT still reads 0 (R57, log entry 62). -/
theorem not_channelUpkeep : ¬ Obligations.ChannelUpkeep := by
  intro h
  obtain ⟨-, -, -, -, -, -, hon, -⟩ := h 0 0 false true 0 0 comingOn
  obtain ⟨t, ht, -, -, -, -, -, hreads, -⟩ := hon comingOn_domain
  obtain ⟨u, hu, hat⟩ := comingOn_clamps
  obtain rfl : u = t := Host.Outcome.next.inj (hu.symm.trans ht)
  have hzero : u.readWord .rcvChDc 0 = 0 := dcCurrent_atPowerUp hat
  exact absurd (hzero.symm.trans (hreads rfl)) (by decide)

end Sys2Proof.Machine
end

section
/-! SUPPORT. The records of ranging beside the registers: what a channel, a cluster, an engine or a port reads as after one of them was
put, and what putting it leaves. -/
namespace Sys2Proof.Machine

variable {R : List Reg} {P : List Part} {s t : State} {ch c u n : Nat}

/-! Putting a record touches no register, and no other kind of record. -/

theorem Frame.onRng {f : RangingSt → RangingSt} (h : Frame R P s t) (hP : Part.rng ∈ P := by decide) :
    Frame R P s (t.onDev fun d => { d with rng := f d.rng }) :=
  h.onDev (fun _ => rfl) (fun d p n => by cases p <;> first | rfl | exact absurd hP n)

theorem Frame.setChan {x : ChanSt} (h : Frame R P s t) (hP : Part.rng ∈ P := by decide) : Frame R P s (t.setChan ch x) :=
  h.onRng (f := fun r => { r with chans := smPut {} r.chans ch x }) hP

theorem Frame.setClus {x : ClusterSt} (h : Frame R P s t) (hP : Part.rng ∈ P := by decide) : Frame R P s (t.setClus c x) :=
  h.onRng (f := fun r => { r with clusters := smPut {} r.clusters c x }) hP

theorem Frame.setEngine {e : Engine} (h : Frame R P s t) (hP : Part.rng ∈ P := by decide) : Frame R P s (t.setEngine u e) :=
  h.onRng (f := fun r => { r with engines := smPut {} r.engines u e }) hP

theorem Frame.setPort {x : PortSt} (h : Frame R P s t) (hP : Part.rng ∈ P := by decide) : Frame R P s (t.setPort n x) :=
  h.onRng (f := fun r => { r with ports := smPut {} r.ports n x }) hP

theorem Frame.freeEngine (h : Frame R P s t) (hP : Part.rng ∈ P := by decide) : Frame R P s (t.freeEngine u) :=
  (h.setEngine hP).onRng (f := fun r => { r with seq := t.dev.rng.seq + 1 }) hP

theorem Frame.onHist {b : Bool} {p : Nat} {f : ChanHist → ChanHist} (h : Frame R P s t) (hP : Part.rng ∈ P := by decide) :
    Frame R P s (t.onHist c b p f) := h.setClus hP

/-! What a record reads as after it was put, and after another one was. -/

section reads
variable (s : State) (r : Reg) (f : RegField) (x : ChanSt) (y : ClusterSt) (e : Engine) (z : PortSt) (b : Bool)
  (g : ChanHist → ChanHist) (ch c u w n i v k p : Nat)

@[simp] theorem State.chan_setChan_same : (s.setChan ch x).chan ch = x := smGet_put_same _ _ _ _
@[simp] theorem State.clus_setClus_same : (s.setClus c y).clus c = y := smGet_put_same _ _ _ _
@[simp] theorem State.engine_setEngine_same : (s.setEngine u e).engine u = e := smGet_put_same _ _ _ _
@[simp] theorem State.port_setPort_same : (s.setPort n z).port n = z := smGet_put_same _ _ _ _

theorem State.engine_setEngine_ne {u w : Nat} (h : u ≠ w) : (s.setEngine u e).engine w = s.engine w := smGet_put_ne _ _ _ _ h
theorem State.clus_setClus_ne {c k : Nat} (h : c ≠ k) : (s.setClus c y).clus k = s.clus k := smGet_put_ne _ _ _ _ h

@[simp] theorem State.chan_setReg : (s.setReg r i v).chan ch = s.chan ch := by rfl
@[simp] theorem State.chan_setFlag : (s.setFlag f i b).chan ch = s.chan ch := by rfl
@[simp] theorem State.chan_bump : (s.bump f i n).chan ch = s.chan ch := by rfl
@[simp] theorem State.chan_setClus : (s.setClus c y).chan ch = s.chan ch := by rfl
@[simp] theorem State.chan_setEngine : (s.setEngine u e).chan ch = s.chan ch := by rfl
@[simp] theorem State.chan_onHist : (s.onHist c b p g).chan ch = s.chan ch := by rfl
@[simp] theorem State.clus_setReg : (s.setReg r i v).clus c = s.clus c := by rfl
@[simp] theorem State.clus_setFlag : (s.setFlag f i b).clus c = s.clus c := by rfl
@[simp] theorem State.clus_bump : (s.bump f i n).clus c = s.clus c := by rfl
@[simp] theorem State.clus_setChan : (s.setChan ch x).clus c = s.clus c := by rfl
@[simp] theorem State.clus_setEngine : (s.setEngine u e).clus c = s.clus c := by rfl
@[simp] theorem State.engine_setReg : (s.setReg r i v).engine u = s.engine u := by rfl
@[simp] theorem State.engine_setFlag : (s.setFlag f i b).engine u = s.engine u := by rfl
@[simp] theorem State.engine_bump : (s.bump f i n).engine u = s.engine u := by rfl
@[simp] theorem State.engine_setChan : (s.setChan ch x).engine u = s.engine u := by rfl
@[simp] theorem State.engine_setClus : (s.setClus c y).engine u = s.engine u := by rfl
@[simp] theorem State.engine_onHist : (s.onHist c b p g).engine u = s.engine u := by rfl

end reads

/-! What a frame leaves of the settings in force and of the records. -/

theorem Frame.inForce (h : Frame R P s t) (x : RegField) (i : Nat) (hx : x.reg ∉ R := by decide) : t.inForce x i = s.inForce x i :=
  h.fld x _ hx

theorem Frame.inForceFlag (h : Frame R P s t) (x : RegField) (i : Nat) (hx : x.reg ∉ R := by decide) :
    t.inForceFlag x i = s.inForceFlag x i := by
  unfold State.inForceFlag
  rw [h.inForce x i hx]

theorem Frame.rng (h : Frame R P s t) (hP : Part.rng ∉ P := by decide) : t.dev.rng = s.dev.rng := h.part .rng hP

theorem Frame.chan (h : Frame R P s t) (ch : Nat) (hP : Part.rng ∉ P := by decide) : t.chan ch = s.chan ch := by
  unfold State.chan; rw [h.rng hP]

theorem Frame.clus (h : Frame R P s t) (c : Nat) (hP : Part.rng ∉ P := by decide) : t.clus c = s.clus c := by
  unfold State.clus; rw [h.rng hP]

theorem Frame.engine (h : Frame R P s t) (u : Nat) (hP : Part.rng ∉ P := by decide) : t.engine u = s.engine u := by
  unfold State.engine; rw [h.rng hP]

/-- The registers that show which unit serves (R107, R129). -/
abbrev serviceRegs : List Reg := [.tdcEngSts, .emtPortSts, .emtSseSpare, .tdcUtilSts]

theorem Frame.service (h : Frame R P s t) (u : Nat) (hR : ∀ r ∈ serviceRegs, r ∉ R := by decide) : t.service u = s.service u := by
  unfold State.service
  rw [h.fld _ _ (hR .tdcEngSts (by decide)), h.fld _ _ (hR .emtPortSts (by decide)), h.reg _ _ (hR .emtSseSpare (by decide)),
    h.flag _ _ (hR .tdcUtilSts (by decide))]

end Sys2Proof.Machine
end

section
/-! SUPPORT. A pulse at a live channel (R63, R64, R70 to R75): what it can touch, the hit it is merged with, and how the gate judges it. -/
namespace Sys2Proof.Machine

variable {R : List Reg} {P : List Part} {s t : State} {ch c u n i v : Nat} {o : Bool} {p : Pulse} {x : ShotCtx} {ref : Int} {f : RegField}

/-! What a pulse can touch. -/

/-- From `s` to `t` a pulse at a channel has touched records of ranging, the registers of `R`, and of RCV_CH_STS the channel's own, where
an input above the linear range stands marked. -/
structure Sees (R : List Reg) (ch : Nat) (o : Bool) (s t : State) : Prop where
  frame : Frame (.rcvChSts :: R) [.rng] s t
  others : keepsOthers .rcvChSts ch s t
  marked : o = true → t.flag F.rcvChStsTiaOverload ch = true

namespace Sees

/-- What keeps the registers keeps what the pulse has shown. -/
theorem records (h : Sees R ch o s t) {w : State} (hf : Frame [] [.rng] t w) : Sees R ch o s w where
  frame := h.frame.trans hf (by simp) (by simp)
  others := fun j hj => (hf.reg _ _ (by simp)).trans (h.others j hj)
  marked := fun ho => by rw [hf.flag _ _ (by simp)]; exact h.marked ho

theorem setChan {y : ChanSt} (h : Sees R ch o s t) : Sees R ch o s (t.setChan n y) := h.records (Frame.refl _ _ _).setChan
theorem setClus {y : ClusterSt} (h : Sees R ch o s t) : Sees R ch o s (t.setClus n y) := h.records (Frame.refl _ _ _).setClus
theorem setEngine {e : Engine} (h : Sees R ch o s t) : Sees R ch o s (t.setEngine n e) := h.records (Frame.refl _ _ _).setEngine
theorem onHist {b : Bool} {q : Nat} {g : ChanHist → ChanHist} (h : Sees R ch o s t) : Sees R ch o s (t.onHist n b q g) := h.setClus

/-- A counter beside RCV_CH_STS. -/
theorem bump (h : Sees R ch o s t) (hf : f.reg ∈ R := by decide) (hne : f.reg ≠ .rcvChSts := by decide) :
    Sees R ch o s (t.bump f i n) where
  frame := h.frame.bump (List.mem_cons_of_mem _ hf)
  others := fun j hj => (reg_bump_ne t n (Or.inl hne)).trans (h.others j hj)
  marked := fun ho => by
    rw [← h.marked ho]
    unfold State.flag State.fld
    rw [reg_bump_ne t n (Or.inl hne)]

/-- The causes for which the limiter drops a hit (R75). -/
def Cause (f : RegField) : Prop := f = F.rcvChStsRateDrop ∨ f = F.rcvChStsEngineBusyDrop

theorem setCause (h : Sees R ch o s t) (hf : Cause f) : Sees R ch o s (t.setFlag f ch true) := by
  have hreg : f.reg = .rcvChSts ∧ f.lo = f.hi ∧ f.hi < F.rcvChStsTiaOverload.lo := by rcases hf with rfl | rfl <;> decide
  obtain ⟨hreg, hone, hlow⟩ := hreg
  refine ⟨h.frame.setFlag (by rw [hreg]; exact List.mem_cons_self), fun j hj => ?_, fun ho => ?_⟩
  · rw [← h.others j hj]
    exact reg_setReg_ne t _ (Or.inr (Ne.symm hj))
  · rw [flag_setFlag_ne ⟨hone.le, hlow.trans (by decide)⟩ (by decide) (Or.inr (Or.inr (Or.inl hlow)))]
    exact h.marked ho

/-- What the statement says of a pulse that a live channel sees. -/
theorem shown (h : Sees R ch o s t) : keepsCore s t ∧ keepsBytes s t ∧ keepsRegs (.rcvChSts :: R) s t
    ∧ keepsOthers .rcvChSts ch s t ∧ (o = true → t.flag F.rcvChStsTiaOverload ch = true) := by
  obtain ⟨hcore, hregs, hbytes⟩ := h.frame.keeps (by decide)
  exact ⟨hcore, hbytes, hregs, h.others, h.marked⟩

end Sees

/-- The state in which an input above the linear range is marked (R60). -/
def State.overMarked (s : State) (ch : Nat) (o : Bool) : State := if o then s.setFlag F.rcvChStsTiaOverload ch true else s

theorem frame_overMarked (s : State) (ch : Nat) (o : Bool) : Frame [.rcvChSts] [] s (s.overMarked ch o) :=
  Frame.ite (fun _ => (Frame.refl _ _ _).setFlag (by decide)) (fun _ => Frame.refl _ _ _)

theorem sees_overMarked (R : List Reg) (s : State) (ch : Nat) (o : Bool) : Sees R ch o s (s.overMarked ch o) := by
  refine ⟨(frame_overMarked s ch o).mono (by simp) (by simp), fun j hj => ?_, fun ho => ?_⟩
  · cases o with
    | false => rfl
    | true => exact reg_setReg_ne s _ (Or.inr (Ne.symm hj))
  · rw [ho]
    exact flag_setFlag_same s ch (by decide) true

/-! The pulse at a channel. -/

/-- Exactly one turn of a loop over a range acts. -/
theorem foldl_range_once {α : Type} {f : α → Nat → α} {g : α → α} {n k : Nat} (hk : k < n) (hact : ∀ a, f a k = g a)
    (hidle : ∀ a j, j < n → j ≠ k → f a j = a) (a : α) : (List.range n).foldl f a = g a := by
  have idle : ∀ m, m ≤ k → (List.range m).foldl f a = a := fun m => by
    induction m with
    | zero => exact fun _ => rfl
    | succ m ih =>
      intro hm
      rw [List.range_succ, List.foldl_append, ih (by omega)]
      exact hidle a m (by omega) (by omega)
  obtain ⟨d, rfl⟩ : ∃ d, n = k + 1 + d := ⟨n - (k + 1), by omega⟩
  clear hk
  induction d with
  | zero => rw [Nat.add_zero, List.range_succ, List.foldl_append, idle k le_rfl]; exact hact a
  | succ d ih =>
    rw [← Nat.add_assoc, List.range_succ, List.foldl_append, ih fun b j hj => hidle b j (by omega)]
    exact hidle _ _ (by omega) (by omega)

/-- A pulse that comes alone is seen as if no order of priority stood (R74). -/
theorem hits_single (s : State) (c : Nat) {q : Nat} (hq : q < 16) (p : Pulse) (o : Bool) :
    s.hits c [(q, p, o)] = s.hit (16 * c + q) p o := by
  unfold State.hits
  dsimp only
  generalize (s.dev.time.edges - s.dev.rng.startedAt) % 16 = first
  have turn : ∀ j, [(q, p, o)].find? (fun e => decide (e.1 = (first + j) % 16))
      = if q = (first + j) % 16 then some (q, p, o) else none := fun j => by
    simp only [List.find?_cons, List.find?_nil]
    split <;> simp_all
  refine foldl_range_once (n := 16) (k := (q + 16 - first % 16) % 16) (g := fun t => t.hit (16 * c + q) p o) (by omega) (fun a => ?_)
    (fun a j hj hne => ?_) s
  · rw [turn, if_pos (by omega)]
  · rw [turn, if_neg (by omega)]

theorem exec_hit_single (c : Fin 48) (q : Fin 16) (lead : BitVec 23) (high : Option (BitVec 24)) (trail : BitVec 24) (o : Bool)
    (hit : s.hit (16 * c + q) ⟨lead.toNat, high.map (·.toNat), trail.toNat⟩ o = t) (hc : keepsCore s t) :
    exec (.hit c [(q, lead, high, trail, o)]) s = .next t :=
  congrArg Host.Outcome.next (inDev_eq ((hits_single s c q.isLt _ o).trans hit) hc)

/-- A masked, silent or unpowered channel sees nothing (R68, R102). -/
theorem hit_unseen (h : s.chanLive ch = false) : s.hit ch p o = s := by
  unfold State.hit
  rw [h]
  rfl

/-- The record of a channel after a pulse: its comparator sees nothing until 4 ns after the trailing edge (R64). -/
def State.blindAfter (s : State) (ch : Nat) (p : Pulse) : ChanSt :=
  { s.chan ch with lowUntil := max (s.chan ch).lowUntil (s.refInstant (ch / 16) + 512 * p.trail + 4 * 65536) }

/-- What a live channel makes of a pulse (R63, R64). -/
theorem hit_seen (h : s.chanLive ch = true) : s.hit ch p o =
    if s.refInstant (ch / 16) + 512 * p.lead < (s.chan ch).lowUntil then
      ((s.overMarked ch o).setChan ch (s.blindAfter ch p)).mergeHit ch (s.refInstant (ch / 16)) p
    else ((s.overMarked ch o).setChan ch { s.blindAfter ch p with holder := none }).judgeGate ch p := by
  unfold State.hit
  rw [h]
  cases o <;> rfl

/-! The hit before it. -/

/-- A pulse that belongs to the hit before it changes that hit's conversion alone (R63, R64). -/
theorem mergeHit_cases (s : State) (ch : Nat) (at' : Int) (p : Pulse) :
    s.mergeHit ch at' p = s ∨ ∃ u v, s.mergeHit ch at' p = s.setEngine u { s.engine u with conv := some v } := by
  unfold State.mergeHit
  split
  · split
    · exact Or.inr ⟨_, _, rfl⟩
    · exact Or.inl rfl
  · exact Or.inl rfl

theorem mergeHit_shows (h : Sees R ch o s t) (at' : Int) : Sees R ch o s (t.mergeHit ch at' p)
    ∧ (t.mergeHit ch at' p).chan ch = t.chan ch ∧ (t.mergeHit ch at' p).clus c = t.clus c
    ∧ ∀ u, ((t.mergeHit ch at' p).engine u).busy = (t.engine u).busy := by
  rcases mergeHit_cases t ch at' p with heq | ⟨w, v, heq⟩ <;> rw [heq]
  · exact ⟨h, rfl, rfl, fun _ => rfl⟩
  · refine ⟨h.setEngine, by simp, by simp, fun u => ?_⟩
    by_cases hu : w = u
    · subst hu; simp
    · rw [State.engine_setEngine_ne _ _ hu]

/-! The gate. -/

/-- A hit without a shot is not counted (log entry 70). -/
theorem judgeGate_noShot (h : (s.clus (ch / 16)).shot = none) : s.judgeGate ch p = s := by
  unfold State.judgeGate
  rw [h]

/-- Does a leading edge lie inside the open gate of a channel (R70)? -/
def State.insideGate (s : State) (ch lead : Nat) : Prop :=
  s.inForce F.rcvChGateOpen ch ≤ lead / 128 ∧ lead / 128 < s.inForce F.rcvChGateClose ch ∧ (s.chan ch).gateOpen = true

/-- The record of a channel with a hit inside its gate. -/
def State.counted (s : State) (ch : Nat) : ChanSt :=
  { s.chan ch with adaptCount := if s.adapting ch then (s.chan ch).adaptCount + 1 else (s.chan ch).adaptCount,
                   inGate := (s.chan ch).inGate + 1, anyHit := (s.chan ch).anyHit + 1 }

section gate
variable (hshot : (s.clus (ch / 16)).shot = some x) (href : x.tRef = some ref) (hvoid : x.void = false) (hvalid : s.gateValid ch = true)
include hshot href hvoid hvalid

theorem judgeGate_inside (hin : s.insideGate ch p.lead) :
    s.judgeGate ch p = (s.setChan ch (s.counted ch)).admitHit ch x ref p := by
  obtain ⟨hopen, hclose, hgate⟩ := hin
  unfold State.judgeGate
  simp only [hshot, href, hvoid, hvalid, Bool.not_true, Bool.or_false, Bool.false_eq_true, if_false]
  rw [if_pos ⟨hopen, hclose, hgate⟩]
  rfl

theorem judgeGate_outside (hdark : (s.clus (ch / 16)).dark = false) (hout : ¬s.insideGate ch p.lead) :
    s.judgeGate ch p = (s.setChan ch { s.chan ch with anyHit := (s.chan ch).anyHit + 1 }).bump F.rcvChOogCntCount ch 1 := by
  unfold State.judgeGate
  simp only [hshot, href, hvoid, hvalid, hdark, Bool.not_true, Bool.or_false, Bool.false_eq_true, if_false]
  exact if_neg hout

end gate

end Sys2Proof.Machine
end

section
/-! SUPPORT. The hit-rate limiter (R74, R75, R84): the buckets as refilled, the engine that takes the hit, and what an admitted and a
dropped hit leave. -/
namespace Sys2Proof.Machine

variable {R : List Reg} {P : List Part} {s t w : State} {ch c u n i v : Nat} {o : Bool} {p : Pulse} {x : ShotCtx} {ref : Int} {f : RegField}

/-! The buckets. -/

/-- The buckets of a channel and of its cluster, brought to now. -/
abbrev State.refilled (s : State) (ch : Nat) : State := (s.refillChan ch).refillClus (ch / 16)

theorem chan_refilled (s : State) (ch : Nat) : (s.refilled ch).chan ch = { s.chan ch with
    tokens := (refill 4 1 (s.chan ch).tokens (s.chan ch).tokensAt s.dev.time.c).1,
    tokensAt := (refill 4 1 (s.chan ch).tokens (s.chan ch).tokensAt s.dev.time.c).2 } := by
  simp [State.refillChan, State.refillClus]

theorem clus_refilled (s : State) (ch : Nat) : (s.refilled ch).clus (ch / 16) = { s.clus (ch / 16) with
    tokens := (refill 64 16 (s.clus (ch / 16)).tokens (s.clus (ch / 16)).tokensAt s.dev.time.c).1,
    tokensAt := (refill 64 16 (s.clus (ch / 16)).tokens (s.clus (ch / 16)).tokensAt s.dev.time.c).2 } := by
  simp only [State.refillClus, State.clus_setClus_same]
  rfl

theorem engine_refilled (s : State) (ch u : Nat) : (s.refilled ch).engine u = s.engine u := by rfl

theorem Frame.refilled (h : Frame R P s t) (ch : Nat) (hP : Part.rng ∈ P := by decide) : Frame R P s (t.refilled ch) :=
  (h.setChan hP).setClus hP

theorem Sees.refilled (h : Sees R ch o s t) : Sees R ch o s (t.refilled ch) := h.records ((Frame.refl _ _ _).refilled ch)

/-! The engine. -/

theorem pickEngine_congr (hs : ∀ u, t.service u = s.service u) (he : ∀ u, t.engine u = s.engine u) (ch : Nat) :
    t.pickEngine ch = s.pickEngine ch := by
  unfold State.pickEngine State.engineFree
  simp only [hs, he]

/-! A dropped hit (R75). -/

theorem dropHit_shows (h : Sees R ch o s t) (hf : Sees.Cause f) (hR : Reg.rcvChOvlCnt ∈ R := by decide) :
    Sees R ch o s (t.dropHit ch n f)
      ∧ (t.dropHit ch n f).fld F.rcvChOvlCntCount ch = min (t.fld F.rcvChOvlCntCount ch + 1) 0xFFFFFFFF
      ∧ (t.dropHit ch n f).flag f ch = true := by
  have hreg : f.reg = .rcvChSts ∧ f.lo = f.hi ∧ f.hi < 32 := by rcases hf with rfl | rfl <;> decide
  obtain ⟨hreg, hone, hlt⟩ := hreg
  unfold State.dropHit
  refine ⟨(((h.bump hR).setCause hf).setChan).onHist, ?_, ?_⟩
  · calc _ = ((t.bump F.rcvChOvlCntCount ch 1).setFlag f ch true).fld F.rcvChOvlCntCount ch := by rfl
      _ = (t.bump F.rcvChOvlCntCount ch 1).fld F.rcvChOvlCntCount ch := fld_setReg_ne _ _ (Or.inl (by rw [hreg]; decide))
      _ = _ := fld_bump_same t ch 1 (by decide)
  · calc _ = ((t.bump F.rcvChOvlCntCount ch 1).setFlag f ch true).flag f ch := by rfl
      _ = true := flag_setFlag_same _ ch ⟨hone, hlt⟩ true

/-! The three checks in their order (R74). -/

/-- A hit that one of the three checks stops is dropped with its cause; one stopped by its cluster's bucket counts there too. -/
theorem admitHit_drops (hstop : ((s.refilled ch).chan ch).tokens = 0 ∨ (s.refilled ch).pickEngine ch = none
      ∨ ((s.refilled ch).clus (ch / 16)).tokens = 0) :
    ∃ f, Sees.Cause f ∧ (((s.refilled ch).chan ch).tokens = 0 → f = F.rcvChStsRateDrop)
      ∧ (0 < ((s.refilled ch).chan ch).tokens → (s.refilled ch).pickEngine ch = none → f = F.rcvChStsEngineBusyDrop)
      ∧ (s.admitHit ch x ref p = (s.refilled ch).dropHit ch x.n f
        ∨ s.admitHit ch x ref p = ((s.refilled ch).dropHit ch x.n f).bump F.rcvClDropCntCount (ch / 16) 1) := by
  unfold State.admitHit
  dsimp only
  by_cases hzero : ((s.refilled ch).chan ch).tokens = 0
  · exact ⟨_, Or.inl rfl, fun _ => rfl, fun hpos => absurd hzero hpos.ne', Or.inl (if_pos hzero)⟩
  · rw [if_neg hzero]
    cases hpick : (s.refilled ch).pickEngine ch with
    | none => exact ⟨_, Or.inr rfl, fun hz => absurd hz hzero, fun _ _ => rfl, Or.inl rfl⟩
    | some u =>
      have hclus : ((s.refilled ch).clus (ch / 16)).tokens = 0 := by simpa [hzero, hpick] using hstop
      exact ⟨_, Or.inl rfl, fun _ => rfl, fun _ hn => by simp at hn, Or.inr (if_pos hclus)⟩

/-- The state in which a hit has taken its tokens. -/
def State.paid (s : State) (ch u : Nat) : State :=
  ((s.refilled ch).setChan ch { (s.refilled ch).chan ch with tokens := ((s.refilled ch).chan ch).tokens - 1, holder := some u }).setClus
    (ch / 16) { (s.refilled ch).clus (ch / 16) with tokens := ((s.refilled ch).clus (ch / 16)).tokens - 1 }

/-- A hit that passes the three checks takes its tokens and starts a conversion. -/
theorem admitHit_admits (htok : 0 < ((s.refilled ch).chan ch).tokens) (hpick : (s.refilled ch).pickEngine ch = some u)
    (hclus : 0 < ((s.refilled ch).clus (ch / 16)).tokens) : s.admitHit ch x ref p = (s.paid ch u).setEngine u
      { (s.paid ch u).engine u with busy := true, conv := some ((s.paid ch u).convOf u ch x ref p) } := by
  unfold State.admitHit
  dsimp only
  rw [if_neg htok.ne', hpick]
  exact if_neg hclus.ne'

theorem Sees.paid (h : Sees R ch o s t) (u : Nat) : Sees R ch o s (t.paid ch u) := h.refilled.setChan.setClus

theorem chan_paid (s : State) (ch u : Nat) : (s.paid ch u).chan ch
    = { (s.refilled ch).chan ch with tokens := ((s.refilled ch).chan ch).tokens - 1, holder := some u } := by
  unfold State.paid
  simp only [State.chan_setClus, State.chan_setChan_same]

theorem clus_paid (s : State) (ch u : Nat) : (s.paid ch u).clus (ch / 16)
    = { (s.refilled ch).clus (ch / 16) with tokens := ((s.refilled ch).clus (ch / 16)).tokens - 1 } := by
  unfold State.paid
  simp only [State.clus_setClus_same]

end Sys2Proof.Machine
end

section
/-! O24 (R60, R63, R64, R68, R70 to R75, R84, R102). A hit on a channel, clause by clause. -/
namespace Sys2Proof.Machine

variable {R : List Reg} {s : State} {ch c u : Nat} {o : Bool} {p : Pulse} {x : ShotCtx} {ref : Int}

/-- The state in which the gate judges a hit: what the input shows is marked, and the comparator is blind (R60, R64). -/
def State.looked (s : State) (ch : Nat) (p : Pulse) (o : Bool) : State :=
  (s.overMarked ch o).setChan ch { s.blindAfter ch p with holder := none }

/-- The same with the hit counted in its gate. -/
def State.entered (s : State) (ch : Nat) (p : Pulse) (o : Bool) : State :=
  (s.looked ch p o).setChan ch ((s.looked ch p o).counted ch)

theorem sees_looked (R : List Reg) (s : State) (ch : Nat) (p : Pulse) (o : Bool) : Sees R ch o s (s.looked ch p o) :=
  (sees_overMarked R s ch o).setChan

theorem sees_entered (R : List Reg) (s : State) (ch : Nat) (p : Pulse) (o : Bool) : Sees R ch o s (s.entered ch p o) :=
  (sees_looked R s ch p o).setChan

theorem chan_looked (s : State) (ch : Nat) (p : Pulse) (o : Bool) : (s.looked ch p o).chan ch = { s.blindAfter ch p with holder := none } :=
  State.chan_setChan_same _ _ _

theorem clus_looked (s : State) (ch : Nat) (p : Pulse) (o : Bool) (c : Nat) : (s.looked ch p o).clus c = s.clus c := by cases o <;> rfl

theorem insideGate_looked (lead : Nat) : (s.looked ch p o).insideGate ch lead ↔ s.insideGate ch lead := by
  have hframe := (sees_looked [] s ch p o).frame
  unfold State.insideGate
  rw [hframe.inForce F.rcvChGateOpen ch, hframe.inForce F.rcvChGateClose ch, chan_looked]
  rfl

theorem gateValid_looked : (s.looked ch p o).gateValid ch = s.gateValid ch := by
  have hframe := (sees_looked [] s ch p o).frame
  unfold State.gateValid
  rw [hframe.inForce F.rcvChGateOpen ch, hframe.inForce F.rcvChGateClose ch]

/-! The hit counted in its gate finds the buckets and the engines of before. -/

theorem inGate_entered : ((s.entered ch p o).chan ch).inGate = (s.chan ch).inGate + 1 := by
  unfold State.entered
  rw [State.chan_setChan_same]
  unfold State.counted
  rw [chan_looked]
  rfl

theorem channelTokens_entered : (((s.entered ch p o).refilled ch).chan ch).tokens = ((s.refilled ch).chan ch).tokens := by
  have htokens : ((s.entered ch p o).chan ch).tokens = (s.chan ch).tokens ∧ ((s.entered ch p o).chan ch).tokensAt = (s.chan ch).tokensAt := by
    unfold State.entered
    rw [State.chan_setChan_same]
    unfold State.counted
    rw [chan_looked]
    exact ⟨rfl, rfl⟩
  have htime : (s.entered ch p o).dev.time = s.dev.time := (sees_entered [] s ch p o).frame.part .time (by decide)
  simp only [chan_refilled, htokens, htime]

theorem clusterTokens_entered :
    (((s.entered ch p o).refilled ch).clus (ch / 16)).tokens = ((s.refilled ch).clus (ch / 16)).tokens := by
  have hclus : (s.entered ch p o).clus (ch / 16) = s.clus (ch / 16) := clus_looked s ch p o _
  have htime : (s.entered ch p o).dev.time = s.dev.time := (sees_entered [] s ch p o).frame.part .time (by decide)
  simp only [clus_refilled, hclus, htime]

theorem engine_looked (s : State) (ch : Nat) (p : Pulse) (o : Bool) (u : Nat) : (s.looked ch p o).engine u = s.engine u := by
  cases o <;> rfl

theorem pickEngine_entered : ((s.entered ch p o).refilled ch).pickEngine ch = s.pickEngine ch := by
  refine pickEngine_congr (fun u => ((sees_entered [] s ch p o).refilled).frame.service u) (fun u => ?_) ch
  rw [engine_refilled, State.entered, State.engine_setChan, engine_looked]

/-! The clauses. -/

/-- The instant of a leading edge on the timing clock. -/
abbrev State.edgeAt (s : State) (ch : Nat) (p : Pulse) : Int := s.refInstant (ch / 16) + 512 * (p.lead : Int)

/-- Inside the 4 ns after a trailing edge a pulse belongs to the hit before it (R63, R64). -/
theorem hit_late (hlive : s.chanLive ch = true) (hlate : s.edgeAt ch p < (s.chan ch).lowUntil) :
    Sees [] ch o s (s.hit ch p o) ∧ ((s.hit ch p o).chan ch).inGate = (s.chan ch).inGate
      ∧ ((s.hit ch p o).chan ch).tokens = (s.chan ch).tokens ∧ ((s.hit ch p o).clus c).tokens = (s.clus c).tokens
      ∧ ∀ u, ((s.hit ch p o).engine u).busy = (s.engine u).busy := by
  rw [hit_seen hlive, if_pos hlate]
  obtain ⟨hsees, hchan, hclus, hbusy⟩ := mergeHit_shows (c := c) (p := p)
    (sees_overMarked [] s ch o).setChan (s.refInstant (ch / 16)) (t := (s.overMarked ch o).setChan ch (s.blindAfter ch p))
  refine ⟨hsees, ?_, ?_, ?_, fun u => ?_⟩
  · rw [hchan, State.chan_setChan_same]; rfl
  · rw [hchan, State.chan_setChan_same]; rfl
  · rw [hclus]; cases o <;> rfl
  · rw [hbusy]; cases o <;> rfl

theorem hit_judged (hlive : s.chanLive ch = true) (hfresh : ¬s.edgeAt ch p < (s.chan ch).lowUntil) :
    s.hit ch p o = (s.looked ch p o).judgeGate ch p := by
  rw [hit_seen hlive, if_neg hfresh]
  rfl

section judged
variable (hlive : s.chanLive ch = true) (hfresh : ¬s.edgeAt ch p < (s.chan ch).lowUntil)
include hlive hfresh

/-- Without a shot a hit leaves nothing but what its input marks. -/
theorem hit_noShot (hshot : (s.clus (ch / 16)).shot = none) :
    Sees [] ch o s (s.hit ch p o) ∧ ((s.hit ch p o).chan ch).inGate = (s.chan ch).inGate := by
  rw [hit_judged hlive hfresh, judgeGate_noShot (by rw [clus_looked, hshot])]
  exact ⟨sees_looked _ _ _ _ _, by rw [chan_looked]; rfl⟩

section shot
variable (hshot : (s.clus (ch / 16)).shot = some x) (href : x.tRef = some ref) (hvoid : x.void = false) (hvalid : s.gateValid ch = true)
include hshot href hvoid hvalid

/-- Outside the gate a hit counts out of gate (R70). -/
theorem hit_outside (hdark : (s.clus (ch / 16)).dark = false) (hout : ¬s.insideGate ch p.lead) :
    Sees [.rcvChOogCnt] ch o s (s.hit ch p o)
      ∧ (s.hit ch p o).fld F.rcvChOogCntCount ch = min (s.fld F.rcvChOogCntCount ch + 1) 0xFFFFFFFF := by
  rw [hit_judged hlive hfresh, judgeGate_outside (by rw [clus_looked, hshot]) href hvoid (gateValid_looked.trans hvalid)
    (by rw [clus_looked, hdark]) (insideGate_looked _ |>.not.2 hout)]
  refine ⟨(sees_looked _ s ch p o).setChan.bump, (fld_bump_same _ ch 1 (by decide)).trans ?_⟩
  have hcount := ((sees_looked [] s ch p o).setChan (n := ch)
    (y := { (s.looked ch p o).chan ch with anyHit := ((s.looked ch p o).chan ch).anyHit + 1 })).frame.fld F.rcvChOogCntCount ch (by decide)
  rw [hcount]
  rfl

theorem hit_inside (hin : s.insideGate ch p.lead) : s.hit ch p o = (s.entered ch p o).admitHit ch x ref p := by
  rw [hit_judged hlive hfresh, judgeGate_inside (by rw [clus_looked, hshot]) href hvoid (gateValid_looked.trans hvalid)
    ((insideGate_looked _).2 hin)]
  rfl

/-- A hit that finds tokens and an engine starts a conversion under the settings of its shot (R74, R84). -/
theorem hit_admitted (hin : s.insideGate ch p.lead) (htok : 0 < ((s.refilled ch).chan ch).tokens) (hpick : s.pickEngine ch = some u)
    (hclus : 0 < ((s.refilled ch).clus (ch / 16)).tokens) :
    Sees [] ch o s (s.hit ch p o) ∧ ((s.hit ch p o).engine u).busy = true
      ∧ (∃ v, ((s.hit ch p o).engine u).conv = some v ∧ v.ch = ch ∧ v.tRef = ref ∧ v.shotId = x.k % 65536
        ∧ v.buf = s.accBuf (ch / 16) ∧ v.lowEff = s.fld F.rcvChThrEffLowEff ch ∧ v.highEff = s.fld F.rcvChThrEffHighEff ch)
      ∧ ((s.hit ch p o).chan ch).inGate = (s.chan ch).inGate + 1
      ∧ ((s.hit ch p o).chan ch).tokens = ((s.refilled ch).chan ch).tokens - 1
      ∧ ((s.hit ch p o).clus (ch / 16)).tokens = ((s.refilled ch).clus (ch / 16)).tokens - 1 := by
  rw [hit_inside hlive hfresh hshot href hvoid hvalid hin, admitHit_admits (by rw [channelTokens_entered]; exact htok)
    (by rw [pickEngine_entered]; exact hpick) (by rw [clusterTokens_entered]; exact hclus)]
  have hpaid := (sees_entered [] s ch p o).paid u
  refine ⟨hpaid.setEngine, ?_, ?_, ?_, ?_, ?_⟩
  · rw [State.engine_setEngine_same]
  · rw [State.engine_setEngine_same]
    exact ⟨_, rfl, rfl, rfl, rfl, hpaid.frame.flag F.felClStsBuf _ (by decide), hpaid.frame.fld F.rcvChThrEffLowEff _ (by decide),
      hpaid.frame.fld F.rcvChThrEffHighEff _ (by decide)⟩
  · rw [State.chan_setEngine, chan_paid, chan_refilled, inGate_entered]
  · rw [State.chan_setEngine, chan_paid, channelTokens_entered]
  · rw [State.clus_setEngine, clus_paid, clusterTokens_entered]

/-- A hit that a bucket or the want of an engine stops is dropped with its cause and counted (R74, R75). -/
theorem hit_dropped (hin : s.insideGate ch p.lead) (hstop : ((s.refilled ch).chan ch).tokens = 0 ∨ s.pickEngine ch = none
      ∨ ((s.refilled ch).clus (ch / 16)).tokens = 0) :
    Sees [.rcvChOvlCnt, .rcvClDropCnt] ch o s (s.hit ch p o)
      ∧ (s.hit ch p o).fld F.rcvChOvlCntCount ch = min (s.fld F.rcvChOvlCntCount ch + 1) 0xFFFFFFFF
      ∧ (((s.refilled ch).chan ch).tokens = 0 → (s.hit ch p o).flag F.rcvChStsRateDrop ch = true)
      ∧ (0 < ((s.refilled ch).chan ch).tokens → s.pickEngine ch = none → (s.hit ch p o).flag F.rcvChStsEngineBusyDrop ch = true) := by
  obtain ⟨f, hf, hrate, hbusy, hadmit⟩ := admitHit_drops (s := s.entered ch p o) (ch := ch) (x := x) (ref := ref) (p := p)
    (by rw [channelTokens_entered, pickEngine_entered, clusterTokens_entered]; exact hstop)
  rw [channelTokens_entered] at hrate hbusy
  rw [pickEngine_entered] at hbusy
  have hsees := (sees_entered [.rcvChOvlCnt, .rcvClDropCnt] s ch p o).refilled
  obtain ⟨hdrop, hcount, hflag⟩ := dropHit_shows hsees hf (n := x.n)
  have hbefore : ((s.entered ch p o).refilled ch).fld F.rcvChOvlCntCount ch = s.fld F.rcvChOvlCntCount ch :=
    ((sees_entered [] s ch p o).refilled).frame.fld _ _ (by decide)
  rw [hbefore] at hcount
  rw [hit_inside hlive hfresh hshot href hvoid hvalid hin]
  suffices ∀ t, t = (s.entered ch p o).admitHit ch x ref p → Sees [.rcvChOvlCnt, .rcvClDropCnt] ch o s t
      ∧ t.fld F.rcvChOvlCntCount ch = min (s.fld F.rcvChOvlCntCount ch + 1) 0xFFFFFFFF ∧ t.flag f ch = true by
    obtain ⟨h1, h2, h3⟩ := this _ rfl
    exact ⟨h1, h2, fun h => by rw [← hrate h]; exact h3, fun h h' => by rw [← hbusy h h']; exact h3⟩
  rintro t rfl
  rcases hadmit with hadmit | hadmit <;> rw [hadmit]
  · exact ⟨hdrop, hcount, hflag⟩
  · refine ⟨hdrop.bump, (fld_setReg_ne _ _ (Or.inl (by decide))).trans hcount, ?_⟩
    have hreg : f.reg = .rcvChSts := by rcases hf with rfl | rfl <;> rfl
    unfold State.flag
    rw [State.bump, State.setFld, fld_setReg_ne _ _ (Or.inl (by rw [hreg]; decide))]
    exact hflag

end shot
end judged

/-- Settles O24. -/
theorem hitAdmission : Obligations.HitAdmission := by
  intro c q lead high trail o s ch i k at' fresh r seen
  have hc : c.val = ch / 16 := by omega
  have hedge : s.edgeAt ch ⟨lead.toNat, high.map (·.toNat), trail.toNat⟩ = at' := by simp only [at', State.edgeAt, hc]
  have hr : r = s.refilled ch := by simp only [r, hc]
  generalize hp : (⟨lead.toNat, high.map (·.toNat), trail.toNat⟩ : Pulse) = p at hedge
  have hlead : p.lead = lead.toNat := by rw [← hp]
  have run : ∀ {R : List Reg}, Sees R ch o s (s.hit ch p o) → exec i s = .next (s.hit ch p o) := fun h =>
    exec_hit_single c q lead high trail o (by rw [hp]) h.shown.1
  have hlate : fresh = false → s.edgeAt ch p < k.lowUntil := fun h => by
    rw [hedge]; exact not_le.1 (of_decide_eq_false h)
  have hnew : fresh = true → ¬s.edgeAt ch p < k.lowUntil := fun h => by
    rw [hedge]; exact not_lt.2 (of_decide_eq_true h)
  refine ⟨fun hlive => ?_, fun hlive hf => ?_, fun hlive hf hshot => ?_, fun x ref hlive hf hshot href hvoid hvalid hdark => ?_⟩
  · exact exec_hit_single c q lead high trail o (hit_unseen hlive) ⟨rfl, rfl, rfl, rfl⟩
  · obtain ⟨hsees, hshows⟩ := hit_late (c := c.val) (o := o) hlive (hlate hf)
    exact ⟨_, run hsees, hsees.shown, hshows⟩
  · obtain ⟨hsees, hgate⟩ := hit_noShot (o := o) hlive (hnew hf) (by rw [← hc]; exact hshot)
    exact ⟨_, run hsees, hsees.shown, hgate⟩
  intro inside
  have hinside : inside = true ↔ s.insideGate ch p.lead := by
    simp only [inside, State.insideGate, hlead, Bool.and_eq_true, decide_eq_true_eq, and_assoc]
    rfl
  rw [hc] at hshot hdark
  rw [hr, hc]
  refine ⟨fun hout => ?_, fun u hin htok hpick hclus => ?_, fun hin hstop => ?_⟩
  · obtain ⟨hsees, hcount⟩ := hit_outside (o := o) hlive (hnew hf) hshot href hvoid hvalid hdark
      (hinside.not.1 (by rw [hout]; decide))
    exact ⟨_, run hsees, hsees.shown, hcount⟩
  · obtain ⟨hsees, hshows⟩ := hit_admitted (o := o) hlive (hnew hf) hshot href hvoid hvalid (hinside.1 hin) htok hpick hclus
    exact ⟨_, run hsees, hsees.shown, hshows⟩
  · obtain ⟨hsees, hshows⟩ := hit_dropped (o := o) hlive (hnew hf) hshot href hvoid hvalid (hinside.1 hin) hstop
    exact ⟨_, run hsees, hsees.shown, hshows⟩

end Sys2Proof.Machine
end

section
/-! SUPPORT. WALK_COMMIT (R79, R456): the table that a cluster takes over, and what the commit leaves of a tile whose clusters switch at
once or wait. -/
namespace Sys2Proof.Machine

variable {R : List Reg} {P : List Part} {s t : State} {c i j k m n tl : Nat}

/-! A table taken over. -/

/-- The written table of a cluster's tile copied beside it, entry by entry (irreducible: no check need run its turns). -/
@[irreducible] def State.copyWalk (s : State) (c m : Nat) : State :=
  (List.range m).foldl (fun a n => a.setReg .rcvWalk (activeWalk c n) (a.reg .rcvWalk (128 * (c / 4) + n))) s

theorem frame_copyWalk (s : State) (c m : Nat) : Frame [.rcvWalk] [] s (s.copyWalk c m) := by
  unfold State.copyWalk
  exact Frame.foldl _ (Frame.refl _ _ _) fun _ _ hu => hu.setReg (by decide)

theorem copyWalk_zero (s : State) (c : Nat) : s.copyWalk c 0 = s := by unfold State.copyWalk; rfl

theorem copyWalk_succ (s : State) (c m : Nat) : s.copyWalk c (m + 1)
    = (s.copyWalk c m).setReg .rcvWalk (activeWalk c m) ((s.copyWalk c m).reg .rcvWalk (128 * (c / 4) + m)) := by
  unfold State.copyWalk
  rw [List.range_succ, List.foldl_append]
  rfl

theorem reg_copyWalk_beside (h : ∀ n, n < m → i ≠ activeWalk c n) : (s.copyWalk c m).reg .rcvWalk i = s.reg .rcvWalk i := by
  induction m with
  | zero => rw [copyWalk_zero]
  | succ m ih =>
    rw [copyWalk_succ, reg_setReg_ne _ _ (Or.inr (h m (by omega)).symm)]
    exact ih fun n hn => h n (by omega)

theorem activeWalk_beyond (c n : Nat) (h : i < 0x100000) : i ≠ activeWalk c n := by unfold activeWalk forceAt; omega

theorem activeWalk_inj (hm : m < 128) (hn : n < 128) (h : activeWalk c m = activeWalk k n) : c = k ∧ m = n := by
  unfold activeWalk forceAt at h
  omega

/-- The active entry reads as the tile's written one. -/
theorem reg_copyWalk_active (hm : m ≤ 128) (hn : n < m) (hc : 128 * (c / 4) + n < 0x100000) :
    (s.copyWalk c m).reg .rcvWalk (activeWalk c n) = s.reg .rcvWalk (128 * (c / 4) + n) := by
  induction m with
  | zero => omega
  | succ m ih =>
    rw [copyWalk_succ]
    by_cases h : n = m
    · subst h
      rw [reg_setReg_same, reg_copyWalk_beside fun k _ => activeWalk_beyond c k hc]
      exact Nat.mod_eq_of_lt (reg_lt _ _ _)
    · rw [reg_setReg_ne _ _ (Or.inr fun e => h (activeWalk_inj (by omega) (by omega) e).2.symm)]
      exact ih (by omega) (by omega)

/-- Does a cluster of a tile still wait for its boundary? -/
def State.tileWaits (s : State) (tl : Nat) : Bool := (List.range 4).any fun j => (s.clus (4 * tl + j)).walkPend

theorem tileWaits_iff : s.tileWaits tl = true ↔ ∃ j, j < 4 ∧ (s.clus (4 * tl + j)).walkPend = true := by
  simp [State.tileWaits]

/-- The cluster with the first `m` entries of its new table, and no commit that it waits for. -/
def State.walkTaken (s : State) (c m : Nat) : State := (s.copyWalk c m).setClus c { s.clus c with walkPend := false }

theorem frame_walkTaken (s : State) (c m : Nat) : Frame [.rcvWalk] [.rng] s (s.walkTaken c m) :=
  ((frame_copyWalk s c m).mono (fun _ h => h) (by decide)).setClus

theorem reg_walkTaken (s : State) (c m i : Nat) : (s.walkTaken c m).reg .rcvWalk i = (s.copyWalk c m).reg .rcvWalk i := by rfl

theorem clus_walkTaken_same (s : State) (c m : Nat) : (s.walkTaken c m).clus c = { s.clus c with walkPend := false } :=
  State.clus_setClus_same _ _ _

theorem clus_walkTaken_ne (s : State) {c k : Nat} (m : Nat) (h : c ≠ k) : (s.walkTaken c m).clus k = s.clus k :=
  (State.clus_setClus_ne _ _ h).trans ((frame_copyWalk s c m).clus k)

theorem takeWalk_eq (h : (s.clus c).walkPend = true) : s.takeWalk c = if (s.walkTaken c 128).tileWaits (c / 4) then s.walkTaken c 128
    else (s.walkTaken c 128).setFlag F.rcvTileCtlWalkCommit (c / 4) false := by
  have hclus : (s.copyWalk c 128).clus c = s.clus c := (frame_copyWalk s c 128).clus c
  unfold State.takeWalk
  rw [if_pos h]
  unfold State.walkTaken
  rw [← hclus]
  unfold State.copyWalk
  rfl

/-! The commit, cluster by cluster. -/

/-- Does a cluster that is to switch wait for its boundary: it has a histogram in progress, its bank is on, and the device is in RUN (R79,
R456)? -/
def State.walkWaits (s : State) (c : Nat) : Bool := (s.clus c).inProgress && s.clusterOn c && decide (s.sys.op = .run)

/-- A tile whose commit has been ordered: every cluster of it is to switch. -/
def State.walkOrdered (s : State) (tl : Nat) : State :=
  (List.range 4).foldl (fun a j => a.setClus (4 * tl + j) { a.clus (4 * tl + j) with walkPend := true })
    (s.setFlag F.rcvTileCtlWalkCommit tl true)

theorem walkCommit_stands (h : s.flag F.rcvTileCtlWalkCommit tl = true) : s.walkCommit tl = s := if_pos h

theorem walkCommit_eq (h : s.flag F.rcvTileCtlWalkCommit tl = false) : s.walkCommit tl
    = (List.range 4).foldl (fun a j => if a.walkWaits (4 * tl + j) then a else a.takeWalk (4 * tl + j)) (s.walkOrdered tl) := by
  unfold State.walkCommit
  rw [if_neg (by rw [h]; decide)]
  rfl

/-- The commit of tile `tl` in `s` has come past `m` of its clusters: those that need not wait have their table, and no others. -/
structure WalkCopied (s : State) (tl m : Nat) (a : State) : Prop where
  frame : Frame [.rcvTileCtl, .rcvWalk] [.rng] s a
  pend : ∀ j, j < 4 → (a.clus (4 * tl + j)).walkPend = (decide (m ≤ j) || s.walkWaits (4 * tl + j))
  progress : ∀ c, (a.clus c).inProgress = (s.clus c).inProgress
  written : ∀ i, i < 0x100000 → a.reg .rcvWalk i = s.reg .rcvWalk i
  active : ∀ j, j < 4 → ∀ n, n < 128 → a.reg .rcvWalk (activeWalk (4 * tl + j) n)
    = if j < m ∧ s.walkWaits (4 * tl + j) = false then s.reg .rcvWalk (128 * tl + n) else s.reg .rcvWalk (activeWalk (4 * tl + j) n)

namespace WalkCopied

theorem setCommit {b : Bool} (h : WalkCopied s tl m t) : WalkCopied s tl m (t.setFlag F.rcvTileCtlWalkCommit tl b) where
  frame := h.frame.setFlag (by decide)
  pend := h.pend
  progress := h.progress
  written := fun i hi => (reg_setFlag_ne t i tl (by decide)).trans (h.written i hi)
  active := fun j hj n hn => (reg_setFlag_ne t _ tl (by decide)).trans (h.active j hj n hn)

theorem waits (h : WalkCopied s tl m t) (c : Nat) : t.walkWaits c = s.walkWaits c := by
  unfold State.walkWaits State.clusterOn
  rw [h.progress, h.frame.reg _ _ (by decide), h.frame.sys]

/-- A cluster that waits is passed over. -/
theorem pass (h : WalkCopied s tl m t) (hw : s.walkWaits (4 * tl + m) = true) : WalkCopied s tl (m + 1) t where
  frame := h.frame
  pend := fun j hj => by
    rw [h.pend j hj]
    by_cases hjm : j = m
    · subst hjm; simp [hw]
    · congr 1; exact decide_eq_decide.2 (by omega)
  progress := h.progress
  written := h.written
  active := fun j hj n hn => by
    rw [h.active j hj n hn]
    by_cases hjm : j = m
    · subst hjm; simp [hw]
    · congr 1; simp only [eq_iff_iff, and_congr_left_iff]; omega

/-- A cluster that need not wait takes its table. -/
theorem take (h : WalkCopied s tl m t) (hm : m < 4) (htl : tl < 12) (hw : s.walkWaits (4 * tl + m) = false) :
    WalkCopied s tl (m + 1) (t.walkTaken (4 * tl + m) 128) where
  frame := h.frame.trans (frame_walkTaken t _ 128) (by decide) (by decide)
  pend := fun j hj => by
    by_cases hjm : j = m
    · subst hjm
      rw [clus_walkTaken_same]
      simp [hw]
    · rw [clus_walkTaken_ne t 128 (by omega), h.pend j hj]
      congr 1; exact decide_eq_decide.2 (by omega)
  progress := fun c => by
    rw [← h.progress]
    by_cases hc : 4 * tl + m = c
    · subst hc; rw [clus_walkTaken_same]
    · rw [clus_walkTaken_ne t 128 hc]
  written := fun i hi => by
    rw [reg_walkTaken, reg_copyWalk_beside fun n _ => activeWalk_beyond _ n hi, h.written i hi]
  active := fun j hj n hn => by
    rw [reg_walkTaken]
    by_cases hjm : j = m
    · subst hjm
      have hdiv : (4 * tl + j) / 4 = tl := by omega
      rw [reg_copyWalk_active le_rfl hn (by omega), hdiv, h.written _ (by omega), if_pos ⟨Nat.lt_succ_self j, hw⟩]
    · have hbeside : ∀ k, k < 128 → activeWalk (4 * tl + j) n ≠ activeWalk (4 * tl + m) k := fun k hk e =>
        hjm (by have := (activeWalk_inj hn hk e).1; omega)
      rw [reg_copyWalk_beside hbeside, h.active j hj n hn]
      congr 1; simp only [eq_iff_iff, and_congr_left_iff]; omega

end WalkCopied

/-- The commit has come past `m` clusters, and WALK_COMMIT stands while a cluster waits. -/
structure WalkPast (s : State) (tl m : Nat) (a : State) : Prop extends WalkCopied s tl m a where
  stands : a.flag F.rcvTileCtlWalkCommit tl = a.tileWaits tl

/-- WALK_COMMIT clears with the last cluster that waits. -/
theorem WalkCopied.settles (h : WalkCopied s tl m t) (hflag : t.flag F.rcvTileCtlWalkCommit tl = true) :
    WalkPast s tl m (if t.tileWaits tl then t else t.setFlag F.rcvTileCtlWalkCommit tl false) := by
  cases hwait : t.tileWaits tl with
  | true => exact ⟨h, hflag.trans hwait.symm⟩
  | false => exact ⟨h.setCommit, (flag_setFlag_same t tl (by decide) false).trans hwait.symm⟩

theorem WalkPast.take (h : WalkPast s tl m t) (hm : m < 4) (htl : tl < 12) (hw : s.walkWaits (4 * tl + m) = false) :
    WalkPast s tl (m + 1) (t.takeWalk (4 * tl + m)) := by
  have hpend : (t.clus (4 * tl + m)).walkPend = true := by rw [h.pend m hm]; simp
  have hdiv : (4 * tl + m) / 4 = tl := by omega
  rw [takeWalk_eq hpend, hdiv]
  refine (h.toWalkCopied.take hm htl hw).settles ?_
  rw [(frame_walkTaken t _ 128).flag _ _ (by decide), h.stands]
  exact tileWaits_iff.2 ⟨m, hm, hpend⟩

theorem WalkPast.next (h : WalkPast s tl m t) (hm : m < 4) (htl : tl < 12) :
    WalkPast s tl (m + 1) (if t.walkWaits (4 * tl + m) then t else t.takeWalk (4 * tl + m)) := by
  cases hw : s.walkWaits (4 * tl + m) with
  | true => rw [if_pos ((h.waits _).trans hw)]; exact ⟨h.pass hw, h.stands⟩
  | false => rw [if_neg (by rw [h.waits, hw]; decide)]; exact h.take hm htl hw

/-- The order reaches the clusters of a tile, and them alone. -/
theorem clus_walkOrdered (s : State) (tl m c : Nat) : ((List.range m).foldl
      (fun a j => a.setClus (4 * tl + j) { a.clus (4 * tl + j) with walkPend := true }) s).clus c
    = if 4 * tl ≤ c ∧ c < 4 * tl + m then { s.clus c with walkPend := true } else s.clus c := by
  induction m with
  | zero => rw [List.range_zero, List.foldl_nil, if_neg (by omega)]
  | succ m ih =>
    rw [List.range_succ, List.foldl_append, List.foldl_cons, List.foldl_nil]
    generalize List.foldl _ s (List.range m) = a at ih ⊢
    by_cases hc : 4 * tl + m = c
    · subst hc
      rw [State.clus_setClus_same, ih, if_neg (by omega), if_pos (by omega)]
    · rw [State.clus_setClus_ne _ _ hc, ih]
      exact if_congr (by omega) rfl rfl

theorem frame_walkOrdered (s : State) (tl : Nat) :
    Frame [] [.rng] (s.setFlag F.rcvTileCtlWalkCommit tl true) (s.walkOrdered tl) :=
  Frame.foldl _ (Frame.refl _ _ _) fun _ _ hu => hu.setClus

theorem walkOrdered_past (s : State) (tl : Nat) : WalkPast s tl 0 (s.walkOrdered tl) := by
  have hrecords := frame_walkOrdered s tl
  have hframe : Frame [.rcvTileCtl] [.rng] s (s.walkOrdered tl) :=
    ((Frame.refl _ _ s).setFlag (by decide)).trans hrecords (by decide) (by decide)
  have hclus : ∀ c, (s.walkOrdered tl).clus c = if 4 * tl ≤ c ∧ c < 4 * tl + 4 then { s.clus c with walkPend := true } else s.clus c :=
    clus_walkOrdered (s.setFlag F.rcvTileCtlWalkCommit tl true) tl 4
  have hpend : ∀ j, j < 4 → ((s.walkOrdered tl).clus (4 * tl + j)).walkPend = true := fun j hj => by rw [hclus, if_pos (by omega)]
  refine ⟨⟨hframe.mono (by decide) (by decide), fun j hj => ?_, fun c => ?_, fun i _ => hframe.reg _ _ (by decide), fun j _ n _ => ?_⟩, ?_⟩
  · rw [hpend j hj]
    simp
  · rw [hclus]
    split <;> rfl
  · rw [hframe.reg _ _ (by decide), if_neg (by omega)]
  · rw [hrecords.flag _ _ (by decide), flag_setFlag_same s tl (by decide) true]
    exact (tileWaits_iff.2 ⟨0, by decide, hpend 0 (by decide)⟩).symm

/-- A commit that stood not before (R79, R456). -/
theorem walkCommit_past (h : s.flag F.rcvTileCtlWalkCommit tl = false) (htl : tl < 12) : WalkPast s tl 4 (s.walkCommit tl) := by
  rw [walkCommit_eq h]
  have all : ∀ m, m ≤ 4 → WalkPast s tl m ((List.range m).foldl
      (fun a j => if a.walkWaits (4 * tl + j) then a else a.takeWalk (4 * tl + j)) (s.walkOrdered tl)) := fun m => by
    induction m with
    | zero => rw [List.range_zero, List.foldl_nil]; exact fun _ => walkOrdered_past s tl
    | succ m ih =>
      intro hm
      rw [List.range_succ, List.foldl_append, List.foldl_cons, List.foldl_nil]
      exact (ih (by omega)).next (by omega) htl
  exact all 4 le_rfl

end Sys2Proof.Machine
end

section
/-! O29 (R78, R79, R150, R456). WALK_COMMIT and the arming of a snapshot, as writes of their registers. -/
namespace Sys2Proof.Machine

variable {R : List Reg} {P : List Part} {s t u : State} {m : Master} {r : Reg} {i a v w : Nat}

theorem placed_rcvTileCtl (tl : Fin 12) : Placed .rcvTileCtl tl := by
  have h : ∀ n : Fin 12, Placed .rcvTileCtl n := by unfold Placed; decide +kernel
  exact h tl

theorem placed_felSnap (tl : Fin 12) : Placed .felSnap tl := by
  have h : ∀ n : Fin 12, Placed .felSnap n := by unfold Placed; decide +kernel
  exact h tl

/-- A word written over itself leaves every register as it was. -/
theorem frame_setReg_self (s : State) (r : Reg) (i : Nat) : Frame [] [] s (s.setReg r i (s.reg r i)) := by
  have hset : Frame [r] [] s (s.setReg r i (s.reg r i)) := (Frame.refl _ _ _).setReg (by simp)
  refine ⟨hset.sys, hset.saf, hset.fuse, hset.pending, fun q j _ => ?_, hset.part⟩
  by_cases h : r = q ∧ i = j
  · obtain ⟨rfl, rfl⟩ := h
    rw [reg_setReg_same, Nat.mod_eq_of_lt (reg_lt s r i)]
  · exact reg_setReg_ne s _ (by tauto)

/-! WALK_COMMIT. -/

theorem unguarded_rcvTileCtl : Unguarded .rcvTileCtl :=
  { mailbox := by decide, shade := by decide, period := by decide, held := by decide +kernel, judged := by rfl,
    command := fun _ _ _ _ _ _ => by rfl, locked := fun _ _ => by rfl, fixed := fun _ => by rfl,
    values := fun _ _ => by rfl, owner := fun _ _ _ => by rfl, before := fun _ _ _ => by rfl }

/-- The write stores nothing, and orders the commit. -/
theorem writeReg_rcvTileCtl : s.writeReg m .rcvTileCtl i 1 a = (s.setReg .rcvTileCtl i (s.reg .rcvTileCtl i)).walkCommit i := by
  rw [unguarded_rcvTileCtl.stored rfl rfl rfl]
  rfl

variable {tl : Fin 12}

theorem exec_walkCommit (hr : s.reaches m .rcvTileCtl tl)
    (hw : (s.setReg .rcvTileCtl tl (s.reg .rcvTileCtl tl)).walkCommit tl = u) (hu : keepsCore s u) : exec (.walkCommit m tl) s = .next u :=
  congrArg Host.Outcome.next (inCore_writeAt (placed_rcvTileCtl tl) hr (by decide) (writeReg_rcvTileCtl.trans hw) hu)

/-- A WALK_COMMIT where none stands (R79, R456). -/
theorem walkCommit_shows (hr : s.reaches m .rcvTileCtl tl) (hflag : s.flag F.rcvTileCtlWalkCommit tl = false) :
    ∃ t, exec (.walkCommit m tl) s = .next t ∧ WalkPast s tl 4 t := by
  have hself := frame_setReg_self s .rcvTileCtl tl
  have hpast := walkCommit_past ((hself.flag _ _ (by decide)).trans hflag) tl.isLt
  have hwaits : ∀ c, (s.setReg .rcvTileCtl tl (s.reg .rcvTileCtl tl)).walkWaits c = s.walkWaits c := fun c => by
    unfold State.walkWaits State.clusterOn
    rw [hself.clus, hself.reg _ _ (by decide), hself.sys]
  have hshows : WalkPast s tl 4 ((s.setReg .rcvTileCtl tl (s.reg .rcvTileCtl tl)).walkCommit tl) :=
    { frame := hself.mono (by decide) (by decide) |>.trans hpast.frame (fun _ h => h) (fun _ h => h)
      pend := fun j hj => by rw [hpast.pend j hj, hwaits]
      progress := fun c => by rw [hpast.progress, hself.clus]
      written := fun i hi => by rw [hpast.written i hi, hself.reg _ _ (by decide)]
      active := fun j hj n hn => by rw [hpast.active j hj n hn, hwaits, hself.reg _ _ (by decide), hself.reg _ _ (by decide)]
      stands := hpast.stands }
  exact ⟨_, exec_walkCommit hr rfl hshows.frame.core, hshows⟩

/-! ARM (R150). -/

theorem unguarded_felSnap : Unguarded .felSnap :=
  { mailbox := by decide, shade := by decide, period := by decide, held := by decide +kernel, judged := by rfl,
    command := fun _ _ _ _ _ _ => by rfl, locked := fun _ _ => by rfl, fixed := fun _ => by rfl,
    values := fun _ _ => by rfl, owner := fun _ _ _ => by rfl, before := fun _ _ _ => by rfl }

theorem fields_felSnap : Reg.fields .felSnap = [⟨31, 31, .w1s, 0, 1⟩, ⟨30, 30, .ro, 0, 1⟩, ⟨29, 6, .rsv, 0, 16777215⟩, ⟨5, 0, .rw, 0, 63⟩] := by
  rfl

theorem inRanges_felSnap (v : Nat) : inRanges .felSnap v = true := by
  have hlt := bitsOf_lt v 5 0
  simp [inRanges, fields_felSnap]
  omega

/-- The state of a tile whose snapshot is armed for a position. -/
def State.armed (s : State) (tl pos : Nat) : State :=
  ((s.setFld F.felSnapChannel tl pos).setFlag F.felSnapArm tl true).setFlag F.felSnapDone tl false

theorem writeReg_felSnap_arms (hv : bitOf v 31 = true) : s.writeReg m .felSnap i v a = s.armed i (bitsOf v 5 0) := by
  rw [unguarded_felSnap.stored rfl (inRanges_felSnap v) rfl]
  have hmerge : mergeWord .felSnap i (s.reg .felSnap i) v = putBits (s.reg .felSnap i) 5 0 (bitsOf v 5 0) := by rfl
  rw [hmerge]
  exact if_pos hv

theorem withBit_position : ∀ pos : Fin 64, bitOf (withBit pos 31 % 2 ^ 32) 31 = true ∧ bitsOf (withBit pos 31 % 2 ^ 32) 5 0 = pos := by
  decide +kernel

theorem armed_shows (s : State) (tl : Nat) (pos : Fin 64) : Frame [.felSnap] [] s (s.armed tl pos)
    ∧ keepsOthers .felSnap tl s (s.armed tl pos) ∧ (s.armed tl pos).flag F.felSnapArm tl = true
    ∧ (s.armed tl pos).flag F.felSnapDone tl = false ∧ (s.armed tl pos).fld F.felSnapChannel tl = pos := by
  unfold State.armed
  refine ⟨(((Frame.refl _ _ _).setFld (by decide)).setFlag (by decide)).setFlag (by decide), fun j hj => ?_, ?_, ?_, ?_⟩
  · have hne : tl ≠ j := hj.symm
    rw [State.setFlag, reg_setFld_ne _ _ (Or.inr hne), State.setFlag, reg_setFld_ne _ _ (Or.inr hne), reg_setFld_ne _ _ (Or.inr hne)]
  · rw [flag_setFlag_ne (by decide) (by decide) (by simp), flag_setFlag_same _ tl (by decide)]
  · exact flag_setFlag_same _ tl (by decide) false
  · rw [State.setFlag, fld_setFld_ne _ _ (by decide) (by decide) (by simp), State.setFlag,
      fld_setFld_ne _ _ (by decide) (by decide) (by simp), fld_setFld_same _ _ _ (by decide)]
    exact Nat.mod_eq_of_lt pos.isLt

theorem snapshotArm_shows (pos : Fin 64) (hr : s.reaches m .felSnap tl) : exec (.snapshotArm m tl pos) s = .next (s.armed tl pos) := by
  obtain ⟨hbit, hpos⟩ := withBit_position pos
  refine congrArg Host.Outcome.next (inCore_writeAt (placed_felSnap tl) hr (by decide) ?_ (armed_shows s tl pos).1.core)
  rw [writeReg_felSnap_arms hbit, hpos]

/-- Settles O29. -/
theorem walkAndSnapshot : Obligations.WalkAndSnapshot := by
  intro m tl pos s waits
  refine ⟨fun hr hflag => ?_, fun hr hflag => ?_, fun hr => ?_⟩
  · obtain ⟨t, ht, hpast⟩ := walkCommit_shows hr hflag
    obtain ⟨hcore, hregs, hbytes⟩ := hpast.frame.keeps (by decide)
    have hpend : ∀ j, j < 4 → (t.clus (4 * tl + j)).walkPend = waits (4 * tl + j) := fun j hj => by
      rw [hpast.pend j hj, decide_eq_false (by omega), Bool.false_or]
      rfl
    refine ⟨t, ht, hcore, hbytes, hregs, hpast.written, ?_, fun j hj => ⟨fun hw => ⟨(hpend j hj).trans hw, fun n hn => ?_⟩,
      fun hw => ⟨(hpend j hj).trans hw, fun n hn => ?_⟩⟩⟩
    · rw [hpast.stands, tileWaits_iff]
      exact exists_congr fun j => and_congr_right fun hj => by rw [hpend j hj]
    · rw [hpast.active j hj n hn, if_neg]
      exact fun h => Bool.false_ne_true (h.2.symm.trans hw)
    · rw [hpast.active j hj n hn, if_pos ⟨hj, hw⟩]
  · have hself := frame_setReg_self s .rcvTileCtl tl
    obtain ⟨hcore, hregs, hbytes⟩ := hself.keeps (by decide)
    exact ⟨_, exec_walkCommit hr (walkCommit_stands ((hself.flag _ _ (by decide)).trans hflag)) hcore, hcore, hbytes, hregs⟩
  · obtain ⟨hframe, hothers, harm, hdone, hchannel⟩ := armed_shows s tl pos
    obtain ⟨hcore, hregs, hbytes⟩ := hframe.keeps (by decide)
    exact ⟨_, snapshotArm_shows pos hr, hcore, hbytes, hregs, hothers, harm, hdone, hchannel⟩

end Sys2Proof.Machine
end

section
/-! SUPPORT. The conversion of a hit (R81, R84, R89, R94, R130, R154): the engine it frees, the histogram its hit is felted in, and the
hits that wait for their neighbours. -/
namespace Sys2Proof.Machine

variable {R : List Reg} {P : List Part} {s t : State} {ch c u n i code width weight w : Nat} {b : Bool} {d : Option Nat} {v : Conv}

/-! The engine. -/

/-- A bow sample is counted in its engine's record alone (R89). -/
theorem bowSample_cases (s : State) (u n : Nat) : s.bowSample u n = s ∨ ∃ e, s.bowSample u n = s.setEngine u e := by
  unfold State.bowSample
  dsimp only
  split
  · exact Or.inr ⟨_, rfl⟩
  · exact Or.inl rfl

theorem Frame.bowSample (h : Frame R P s t) (hP : Part.rng ∈ P := by decide) : Frame R P s (t.bowSample u n) := by
  rcases bowSample_cases t u n with heq | ⟨e, heq⟩ <;> rw [heq]
  · exact h
  · exact h.setEngine hP

theorem clus_bowSample (s : State) (u n c : Nat) : (s.bowSample u n).clus c = s.clus c := by
  rcases bowSample_cases s u n with heq | ⟨e, heq⟩ <;> rw [heq]
  exact State.clus_setEngine _ _ _ _

theorem engine_freeEngine_same (s : State) (u : Nat) :
    (s.freeEngine u).engine u = { s.engine u with busy := false, conv := none, freeSince := s.dev.rng.seq + 1 } :=
  State.engine_setEngine_same _ _ _

theorem clus_freeEngine (s : State) (u c : Nat) : (s.freeEngine u).clus c = s.clus c := by rfl

/-- A word waits for the safety channel of its parity (R26). -/
def State.pushTap (s : State) (w : TapWord) : State := s.onDev fun d => { d with rng :=
  if w.ch % 2 = 0 then { d.rng with tapA := d.rng.tapA ++ [w] } else { d.rng with tapB := d.rng.tapB ++ [w] } }

theorem rng_pushTap (s : State) (w : TapWord) : (s.pushTap w).dev.rng.clusters = s.dev.rng.clusters
    ∧ (s.pushTap w).dev.rng.engines = s.dev.rng.engines := by
  unfold State.pushTap
  simp only [onDev_dev]
  split <;> exact ⟨rfl, rfl⟩

theorem tapHit_cases (s : State) (v : Conv) (code : Nat) :
    s.tapHit v code = s ∨ ∃ y w, w.ch = v.ch ∧ s.tapHit v code = (s.setChan v.ch y).pushTap w := by
  unfold State.tapHit
  dsimp only
  generalize (if (s.chan v.ch).tapped.1 = v.n then (s.chan v.ch).tapped.2 else 0) = m
  split
  · exact Or.inr ⟨_, ⟨v.ch, v.shotId, code, decide ((s.chan v.ch).overShot = some v.n)⟩, rfl, rfl⟩
  · exact Or.inl rfl

/-- A tap word touches the channel's record and the words that wait for the safety channels (R26). -/
theorem tapHit_shows (s : State) (v : Conv) (code : Nat) : Frame [] [.rng] s (s.tapHit v code)
    ∧ (∀ c, (s.tapHit v code).clus c = s.clus c) ∧ ∀ u, (s.tapHit v code).engine u = s.engine u := by
  rcases tapHit_cases s v code with heq | ⟨y, w, -, heq⟩ <;> rw [heq]
  · exact ⟨Frame.refl _ _ _, fun _ => rfl, fun _ => rfl⟩
  · obtain ⟨hclus, hengines⟩ := rng_pushTap (s.setChan v.ch y) w
    refine ⟨(Frame.refl _ _ _).setChan.onRng (f := fun r =>
      if w.ch % 2 = 0 then { r with tapA := r.tapA ++ [w] } else { r with tapB := r.tapB ++ [w] }), fun c => ?_, fun u => ?_⟩
    · unfold State.clus; rw [hclus]; rfl
    · unfold State.engine; rw [hengines]; rfl

/-! The state in which a hit's conversion has ended, and the hit waits to be felted. -/

/-- A width beyond 4,095 is marked (R63). -/
def State.widthMarked (s : State) (ch width : Nat) : State := if 4095 ≤ width then s.setFlag F.rcvChStsWidthSat ch true else s

/-- The conversion has given its bow sample, freed its engine and passed the tap (R26, R84, R89). -/
def State.measured (s : State) (u n : Nat) (v : Conv) (code width : Nat) : State :=
  let s1 := s.widthMarked v.ch width
  ((if !s1.flag F.tdcTileCtlBowSrc (v.ch / 64) || s1.outsideWindows v.ch v.buf code then s1.bowSample u n else s1).freeEngine u).tapHit
    v code

/-- What is felted of a conversion, or waits for its neighbours (R154). -/
def felted (v : Conv) (code width : Nat) (d : Option Nat) : CoincHit :=
  ⟨v.ch, v.n, code, min 4095 width, if v.lowEff < v.highEff then d else none, v.buf, v.hist, v.coinc, v.live⟩

theorem hitConverted_eq (h : s.convResult u n = some (v, code, width, d)) : s.hitConverted u n =
    if bitOf v.coinc 31 then ((s.measured u n v code width).setClus (v.ch / 16) { (s.measured u n v code width).clus (v.ch / 16) with
      hits := ((s.measured u n v code width).clus (v.ch / 16)).hits ++ [felted v code width d] }).judgeHits (v.ch / 16)
    else ((s.measured u n v code width).feltIn (felted v code width d) 1).judgeHits (v.ch / 16) := by
  unfold State.hitConverted
  rw [h]
  rfl

/-- From `s` to `t` the conversion of an engine has ended: records of ranging, RCV_CH_STS and the registers of `R` are touched, the engine is
free, and a width at its limit is marked. -/
structure ConvEnds (R : List Reg) (u ch width : Nat) (s t : State) : Prop where
  frame : Frame (.rcvChSts :: R) [.rng] s t
  conv : (t.engine u).conv = none
  busy : (t.engine u).busy = false
  marked : 4095 ≤ width → t.flag F.rcvChStsWidthSat ch = true

theorem measured_ends (R : List Reg) (s : State) (u n : Nat) (v : Conv) (code width : Nat) :
    ConvEnds R u v.ch width s (s.measured u n v code width) ∧ ∀ c, (s.measured u n v code width).clus c = s.clus c := by
  unfold State.measured
  dsimp only
  have hmark : Frame (.rcvChSts :: R) [.rng] s (s.widthMarked v.ch width) :=
    Frame.ite (fun _ => (Frame.refl _ _ _).setFlag (by simp)) (fun _ => Frame.refl _ _ _)
  have hclus1 : ∀ c, (s.widthMarked v.ch width).clus c = s.clus c := fun c => by unfold State.widthMarked; split <;> rfl
  have hflag : 4095 ≤ width → (s.widthMarked v.ch width).flag F.rcvChStsWidthSat v.ch = true := fun hw => by
    rw [State.widthMarked, if_pos hw]; exact flag_setFlag_same s v.ch (by decide) true
  generalize s.widthMarked v.ch width = s1 at hmark hclus1 hflag ⊢
  have hbow : ∃ s2, (if (!s1.flag F.tdcTileCtlBowSrc (v.ch / 64) || s1.outsideWindows v.ch v.buf code) = true then s1.bowSample u n else s1)
      = s2 ∧ Frame [] [.rng] s1 s2 ∧ ∀ c, s2.clus c = s1.clus c := by
    split
    · exact ⟨_, rfl, (Frame.refl _ _ _).bowSample, clus_bowSample s1 u n⟩
    · exact ⟨_, rfl, Frame.refl _ _ _, fun _ => rfl⟩
  obtain ⟨s2, hs2, hframe2, hclus2⟩ := hbow
  rw [hs2]
  obtain ⟨hframe3, hclus3, hengine3⟩ := tapHit_shows (s2.freeEngine u) v code
  have hrecords : Frame [] [.rng] s1 ((s2.freeEngine u).tapHit v code) := hframe2.freeEngine.trans hframe3 (by simp) (by simp)
  refine ⟨⟨hmark.trans hrecords (by simp) (by simp), ?_, ?_, fun hw => ?_⟩, fun c => ?_⟩
  · rw [hengine3, engine_freeEngine_same]
  · rw [hengine3, engine_freeEngine_same]
  · rw [hrecords.flag _ _ (by simp)]
    exact hflag hw
  · rw [hclus3, clus_freeEngine, hclus2, hclus1]

/-! What an ended conversion survives. -/

namespace ConvEnds

theorem setClus {y : ClusterSt} (h : ConvEnds R u ch width s t) : ConvEnds R u ch width s (t.setClus c y) :=
  ⟨h.frame.setClus, h.conv, h.busy, h.marked⟩

theorem onHist {p : Nat} {f : ChanHist → ChanHist} (h : ConvEnds R u ch width s t) : ConvEnds R u ch width s (t.onHist c b p f) := h.setClus

theorem setReg {r : Reg} (h : ConvEnds R u ch width s t) (hr : r ∈ R) (hne : r ≠ .rcvChSts) : ConvEnds R u ch width s (t.setReg r i n) where
  frame := h.frame.setReg (List.mem_cons_of_mem _ hr)
  conv := h.conv
  busy := h.busy
  marked := fun hw => by
    unfold State.flag
    rw [fld_setReg_ne t n (Or.inl hne)]
    exact h.marked hw

theorem bump {f : RegField} (h : ConvEnds R u ch width s t) (hr : f.reg ∈ R) (hne : f.reg ≠ .rcvChSts) :
    ConvEnds R u ch width s (t.bump f i n) := h.setReg hr hne

/-- What the statement says of a conversion that has ended. -/
theorem shown (h : ConvEnds R u ch width s t) : keepsCore s t ∧ keepsBytes s t ∧ (t.engine u).conv = none ∧ (t.engine u).busy = false
    ∧ (4095 ≤ width → t.flag F.rcvChStsWidthSat ch = true) :=
  have ⟨hcore, _, hbytes⟩ := h.frame.keeps (by decide)
  ⟨hcore, hbytes, h.conv, h.busy, h.marked⟩

end ConvEnds

/-! Judging the hits of a cluster. -/

/-- Where none of a cluster's hits can be judged, they go on waiting (R154). -/
theorem judgeHits_idle (h : ∀ y ∈ (s.clus c).hits, s.judgeable c y = false) :
    s.judgeHits c = s.setClus c { s.clus c with hits := (s.clus c).hits } := by
  have hnone : (s.clus c).hits.filter (s.judgeable c) = [] := List.filter_eq_nil_iff.2 fun y hy => by simp [h y hy]
  have hall : (s.clus c).hits.filter (fun y => !s.judgeable c y) = (s.clus c).hits := List.filter_eq_self.2 fun y hy => by simp [h y hy]
  unfold State.judgeHits
  dsimp only
  rw [hnone, hall]
  rfl

/-- A hit of the shot that the cluster is in waits for the rest of it. -/
theorem judgeable_current {y : CoincHit} {x : ShotCtx} (hshot : (s.clus c).shot = some x) (hn : x.n = y.n)
    (hhist : ((s.clus c).buf (s.accBuf c)).no = y.hist) : s.judgeable c y = false := by
  unfold State.judgeable
  dsimp only
  rw [hshot]
  simp [hn, hhist]

/-! A histogram after one of its hits was felted. -/

theorem hits_onHist (s : State) (c : Nat) (b : Bool) (p : Nat) (f : ChanHist → ChanHist) :
    ((s.onHist c b p f).clus c).hits = (s.clus c).hits := by
  unfold State.onHist
  rw [State.clus_setClus_same]
  cases b <;> rfl

theorem hist_onHist_same (s : State) (c : Nat) (b : Bool) (p : Nat) (f : ChanHist → ChanHist) :
    (s.onHist c b p f).hist c b p = f (s.hist c b p) := by
  unfold State.hist State.onHist
  rw [State.clus_setClus_same]
  cases b <;> exact smGet_put_same _ _ _ _

theorem hist_setFlag (s : State) (f : RegField) (i : Nat) (o : Bool) (c : Nat) (b : Bool) (p : Nat) :
    (s.setFlag f i o).hist c b p = s.hist c b p := by rfl

theorem hist_setHits (s : State) (c : Nat) (l : List CoincHit) (b : Bool) (p : Nat) :
    (s.setClus c { s.clus c with hits := l }).hist c b p = s.hist c b p := by
  unfold State.hist
  rw [State.clus_setClus_same]
  cases b <;> rfl

/-- A hit of some weight below bin 8,192 enters its histogram (R130). -/
theorem felt_enters (hw : weight ≠ 0) (hcode : code / 128 < 8192) :
    (s.felt ch b code weight w d).hist (ch / 16) b (ch % 16) = (s.hist (ch / 16) b (ch % 16)).add code weight w d
      ∧ ((s.felt ch b code weight w d).clus (ch / 16)).hits = (s.clus (ch / 16)).hits
      ∧ (s.felt ch b code weight w d = s.onHist (ch / 16) b (ch % 16) (fun h => h.add code weight w d)
        ∨ s.felt ch b code weight w d = (s.onHist (ch / 16) b (ch % 16) fun h => h.add code weight w d).setFlag F.felClStsSat (ch / 16) true) := by
  have hcases : s.felt ch b code weight w d = s.onHist (ch / 16) b (ch % 16) (fun h => h.add code weight w d)
      ∨ s.felt ch b code weight w d
        = (s.onHist (ch / 16) b (ch % 16) fun h => h.add code weight w d).setFlag F.felClStsSat (ch / 16) true := by
    unfold State.felt
    rw [if_neg hw, if_neg (by omega)]
    dsimp only
    split
    · exact Or.inr rfl
    · exact Or.inl rfl
  have hhist := hist_onHist_same s (ch / 16) b (ch % 16) fun h => h.add code weight w d
  have hhits := hits_onHist s (ch / 16) b (ch % 16) fun h => h.add code weight w d
  refine ⟨?_, ?_, hcases⟩ <;> rcases hcases with heq | heq <;> rw [heq]
  · exact hhist
  · rw [hist_setFlag, hhist]
  · exact hhits
  · rw [State.clus_setFlag, hhits]

/-- One at or beyond bin 8,192 counts out of gate (R130). -/
theorem felt_beyond (hw : weight ≠ 0) (hcode : 8192 ≤ code / 128) : s.felt ch b code weight w d = s.bump F.rcvChOogCntCount ch 1 := by
  unfold State.felt
  rw [if_neg hw, if_pos hcode]

end Sys2Proof.Machine
end

section
/-! SUPPORT. CONVERSION_COMPLETE of a hit (R81, R94, R130, R154): felted, out of gate, without its histogram, or waiting for its
neighbours; and a bow sample of an idle engine (R89). -/
namespace Sys2Proof.Machine

variable {R : List Reg} {P : List Part} {s t : State} {c u n i code width : Nat} {d : Option Nat} {v : Conv} {fix bad : Option Nat} {x : ShotCtx}

/-! The hit. -/

/-- Does the histogram that a conversion's gate belonged to still stand (R136)? -/
def State.histStands (s : State) (v : Conv) : Prop := ((s.clus (v.ch / 16)).buf v.buf).no = v.hist

/-- Judging a cluster without waiting hits leaves the conversion ended, and the histograms as they were. -/
theorem ConvEnds.judgeIdle {ch : Nat} (h : ConvEnds R u ch width s t) (hhits : (t.clus c).hits = []) :
    ConvEnds R u ch width s (t.judgeHits c) ∧ (∀ b p, (t.judgeHits c).hist c b p = t.hist c b p)
      ∧ ∀ f i, (t.judgeHits c).fld f i = t.fld f i := by
  rw [judgeHits_idle (by simp [hhits])]
  exact ⟨h.setClus, hist_setHits t c _, fun _ _ => rfl⟩

section converted
variable (hres : s.convResult u n = some (v, code, width, d)) (hhits : (s.clus (v.ch / 16)).hits = [])
include hres hhits

section alone
variable (hoff : bitOf v.coinc 31 = false)
include hoff

omit hhits in
theorem hitConverted_alone : s.hitConverted u n
    = ((s.measured u n v code width).feltIn (felted v code width d) 1).judgeHits (v.ch / 16) := by
  rw [hitConverted_eq hres, if_neg (by rw [hoff]; decide)]

/-- Where its histogram stands no more, a hit is not felted. -/
theorem hitConverted_gone (hgone : ¬s.histStands v) : ConvEnds [] u v.ch width s (s.hitConverted u n) := by
  obtain ⟨hends, hclus⟩ := measured_ends [] s u n v code width
  have hfelt : (s.measured u n v code width).feltIn (felted v code width d) 1 = s.measured u n v code width := by
    unfold State.feltIn
    exact if_neg (by rw [hclus]; exact hgone)
  rw [hitConverted_alone hres hoff, hfelt]
  exact (hends.judgeIdle (by rw [hclus, hhits])).1

variable (hthere : s.histStands v)
include hthere

omit hhits in
theorem hitConverted_felt : s.hitConverted u n = ((s.measured u n v code width).felt v.ch v.buf code 1 (min 4095 width)
    (if v.lowEff < v.highEff then d else none)).judgeHits (v.ch / 16) := by
  rw [hitConverted_alone hres hoff]
  unfold State.feltIn
  rw [if_pos (by rw [(measured_ends [] s u n v code width).2]; exact hthere)]
  rfl

/-- A hit at or beyond bin 8,192 counts out of gate (R130). -/
theorem hitConverted_beyond (hcode : 8192 ≤ code / 128) : ConvEnds [.rcvChOogCnt] u v.ch width s (s.hitConverted u n)
    ∧ (s.hitConverted u n).fld F.rcvChOogCntCount v.ch = min (s.fld F.rcvChOogCntCount v.ch + 1) 0xFFFFFFFF := by
  obtain ⟨hends, hclus⟩ := measured_ends [.rcvChOogCnt] s u n v code width
  have hbefore := (measured_ends [] s u n v code width).1.frame.fld F.rcvChOogCntCount v.ch (by decide)
  rw [hitConverted_felt hres hoff hthere, felt_beyond (by decide) hcode]
  obtain ⟨hjudged, -, hfld⟩ := (hends.bump (f := F.rcvChOogCntCount) (i := v.ch) (n := 1) (by simp) (by decide)).judgeIdle
    (c := v.ch / 16) (by rw [State.clus_bump, hclus, hhits])
  refine ⟨hjudged, (hfld _ _).trans ((fld_bump_same _ v.ch 1 (by decide)).trans ?_)⟩
  rw [hbefore]
  rfl

/-- A hit below it enters its histogram with weight 1 (R130). -/
theorem hitConverted_enters (hcode : code / 128 < 8192) : ConvEnds [.felClSts] u v.ch width s (s.hitConverted u n)
    ∧ (s.hitConverted u n).hist (v.ch / 16) v.buf (v.ch % 16) = (s.hist (v.ch / 16) v.buf (v.ch % 16)).add code 1 (min 4095 width)
      (if v.lowEff < v.highEff then d else none) := by
  obtain ⟨hends, hclus⟩ := measured_ends [.felClSts] s u n v code width
  have hbefore : (s.measured u n v code width).hist (v.ch / 16) v.buf (v.ch % 16) = s.hist (v.ch / 16) v.buf (v.ch % 16) := by
    unfold State.hist
    rw [hclus]
  rw [hitConverted_felt hres hoff hthere]
  obtain ⟨hhist, hkeep, hcases⟩ := felt_enters (s := s.measured u n v code width) (ch := v.ch) (b := v.buf) (weight := 1)
    (w := min 4095 width) (d := if v.lowEff < v.highEff then d else none) (by decide) hcode
  have hfelt : ConvEnds [.felClSts] u v.ch width s ((s.measured u n v code width).felt v.ch v.buf code 1 (min 4095 width)
      (if v.lowEff < v.highEff then d else none)) := by
    rcases hcases with heq | heq <;> rw [heq]
    · exact hends.onHist
    · exact hends.onHist.setReg (by simp) (by decide)
  obtain ⟨hjudged, hsame, -⟩ := hfelt.judgeIdle (by rw [hkeep, hclus, hhits])
  exact ⟨hjudged, by rw [hsame, hhist, hbefore]⟩

end alone

/-- With the coincidence stage on, a hit of the shot under way waits for the others (R154). -/
theorem hitConverted_waits (hon : bitOf v.coinc 31 = true) (hshot : (s.clus (v.ch / 16)).shot = some x) (hn : x.n = v.n)
    (hhist : ((s.clus (v.ch / 16)).buf (s.accBuf (v.ch / 16))).no = v.hist) : ConvEnds [] u v.ch width s (s.hitConverted u n)
      ∧ ((s.hitConverted u n).clus (v.ch / 16)).hits = [felted v code width d] := by
  obtain ⟨hends, hclus⟩ := measured_ends [] s u n v code width
  rw [hitConverted_eq hres, if_pos hon, hclus, hhits, List.nil_append]
  have hwait := hends.setClus (c := v.ch / 16) (y := { s.clus (v.ch / 16) with hits := [felted v code width d] })
  have hhits' : ((((s.measured u n v code width).setClus (v.ch / 16)
      { s.clus (v.ch / 16) with hits := [felted v code width d] }).clus (v.ch / 16))) =
        { s.clus (v.ch / 16) with hits := [felted v code width d] } := State.clus_setClus_same _ _ _
  generalize (s.measured u n v code width).setClus (v.ch / 16) { s.clus (v.ch / 16) with hits := [felted v code width d] } = t
    at hwait hhits' ⊢
  have hacc : t.accBuf (v.ch / 16) = s.accBuf (v.ch / 16) := hwait.frame.flag _ _ (by decide)
  have hidle : ∀ y ∈ (t.clus (v.ch / 16)).hits, t.judgeable (v.ch / 16) y = false := fun y hy => by
    rw [hhits', List.mem_singleton] at hy
    subst hy
    refine judgeable_current (by rw [hhits']; exact hshot) hn ?_
    rw [hacc, hhits']
    exact hhist
  rw [judgeHits_idle hidle, hhits']
  exact ⟨hwait.setClus, by rw [State.clus_setClus_same]⟩

end converted

/-! The command. -/

/-- What the code of the histogram words finds matters only where the hit is felted (R272, R273). -/
theorem hitFelted_eq (hres : s.convResult u n = some (v, code, width, d))
    (h : (fix = none ∧ bad = none) ∨ bitOf v.coinc 31 = true ∨ 8192 ≤ code / 128 ∨ ¬s.histStands v) :
    s.hitFelted u n fix bad = s.hitConverted u n := by
  unfold State.hitFelted
  rw [hres]
  dsimp only
  split
  next hfelt =>
    obtain ⟨hoff, hcode, hthere⟩ : bitOf v.coinc 31 = false ∧ code / 128 < 8192 ∧ s.histStands v := by
      simpa [State.histStands] using hfelt
    rcases h with ⟨rfl, rfl⟩ | hon | hbeyond | hgone
    · rfl
    · rw [hoff] at hon
      cases hon
    · omega
    · exact absurd hthere hgone
  next => rfl

theorem coincide_hit (hworks : s.unitWorks u = true) (hres : s.convResult u n = some (v, code, width, d)) :
    s.coincide u n fix bad = s.hitFelted u n fix bad := by
  have hconv : (s.engine u).conv.isSome = true := by
    unfold State.convResult at hres
    split at hres
    · cases hres
    next hsome => rw [hsome]; rfl
  unfold State.coincide
  rw [hworks, hconv]
  rfl

theorem coincide_dead (h : s.unitWorks u = false) : s.coincide u n fix bad = s := by
  unfold State.coincide
  rw [h]
  rfl

/-! Idle engines. -/

section idle
variable (hworks : s.unitWorks u = true) (hconv : (s.engine u).conv = none)
include hworks hconv

/-- A start-sense engine converts the edge of its port's shot. -/
theorem coincide_sense (hbusy : (s.engine u).busy = true) : s.coincide u n fix bad = s.senseConverted (u - 2000) n := by
  unfold State.coincide
  rw [hworks, hconv, hbusy]
  rfl

variable (hbusy : (s.engine u).busy = false)
include hbusy

theorem coincide_silent (hsamples : s.samples u = false) : s.coincide u n fix bad = s := by
  unfold State.coincide
  rw [hworks, hconv, hbusy, hsamples]
  rfl

theorem coincide_samples (hsamples : s.samples u = true) : s.coincide u n fix bad = (s.bowSample u n).freeEngine u := by
  unfold State.coincide
  rw [hworks, hconv, hbusy, hsamples]
  rfl

end idle

/-- A bow sample counts once, with the gain it was taken at (R89). -/
theorem bowSample_counts (hbow : s.bowOn u = true) (htotal : (s.engine u).total < 2 ^ 20) :
    ((s.bowSample u n).engine u).total = (s.engine u).total + 1
      ∧ ((s.bowSample u n).engine u).sumG = (s.engine u).sumG + (s.engine u).g := by
  unfold State.bowSample
  dsimp only
  rw [if_pos ⟨hbow, htotal⟩, State.engine_setEngine_same]
  split
  · exact ⟨rfl, rfl⟩
  · split <;> exact ⟨rfl, rfl⟩

end Sys2Proof.Machine
end

section
/-! SUPPORT. The reference of a shot, or its want, leaves the ports as they are and frees or occupies no engine (R70 to R72, R92, R133
to R138, R149): neither does the boundary of a histogram that it lets close. -/
namespace Sys2Proof.Machine

-- The proofs below are short and many: elaborated at once they ask for more threads than one compile may have.
set_option Elab.async false

variable {R : List Reg} {P : List Part} {s t u : State} {x : RegField} {r : Reg} {c ch i k n v w : Nat}

/-- From `s` to `t` the ports stand as they were, and every engine is busy or not as it was. -/
structure KeepsUnits (s t : State) : Prop where
  ports : t.dev.rng.ports = s.dev.rng.ports
  busy : ∀ u, (t.engine u).busy = (s.engine u).busy

namespace KeepsUnits

theorem refl (s : State) : KeepsUnits s s := ⟨rfl, fun _ => rfl⟩

theorem trans (h : KeepsUnits s t) (k : KeepsUnits t u) : KeepsUnits s u :=
  ⟨k.ports.trans h.ports, fun n => (k.busy n).trans (h.busy n)⟩

theorem port (h : KeepsUnits s t) (n : Nat) : t.port n = s.port n := by
  unfold State.port
  rw [h.ports]

theorem of_units (h : KeepsUnits s t) (hp : u.dev.rng.ports = t.dev.rng.ports) (he : u.dev.rng.engines = t.dev.rng.engines) :
    KeepsUnits s u :=
  h.trans ⟨hp, fun n => by unfold State.engine; rw [he]⟩

theorem of_frame (h : KeepsUnits s t) (f : Frame R P t u) (hP : Part.rng ∉ P := by decide) : KeepsUnits s u :=
  h.of_units (by rw [f.rng hP]) (by rw [f.rng hP])

theorem ite {q : Prop} [Decidable q] {y z : State} (hy : KeepsUnits s y) (hz : KeepsUnits s z) : KeepsUnits s (if q then y else z) := by
  split
  · exact hy
  · exact hz

theorem foldl {α : Type} {f : State → α → State} (l : List α) (h : KeepsUnits s t) (hf : ∀ u b, KeepsUnits s u → KeepsUnits s (f u b)) :
    KeepsUnits s (l.foldl f t) := by
  induction l generalizing t with
  | nil => exact h
  | cons b l ih => exact ih (hf t b h)

theorem onDev {g : Dev → Dev} (h : KeepsUnits s t)
    (hg : ∀ d, (g d).rng.ports = d.rng.ports ∧ (g d).rng.engines = d.rng.engines := by intro; exact ⟨rfl, rfl⟩) :
    KeepsUnits s (t.onDev g) :=
  h.of_units (hg t.dev).1 (hg t.dev).2

theorem setReg (h : KeepsUnits s t) : KeepsUnits s (t.setReg r i v) := h.of_units rfl rfl

theorem setFld (h : KeepsUnits s t) : KeepsUnits s (t.setFld x i v) := h.setReg

theorem setFlag {b : Bool} (h : KeepsUnits s t) : KeepsUnits s (t.setFlag x i b) := h.setReg

theorem bump (h : KeepsUnits s t) : KeepsUnits s (t.bump x i n) := h.setReg

theorem setPair {lo hi : Reg} (h : KeepsUnits s t) : KeepsUnits s (t.setPair lo hi i v) := h.setReg.setReg

theorem setChan {y : ChanSt} (h : KeepsUnits s t) : KeepsUnits s (t.setChan ch y) := h.of_units rfl rfl

theorem setClus {y : ClusterSt} (h : KeepsUnits s t) : KeepsUnits s (t.setClus c y) := h.of_units rfl rfl

theorem setTile {y : TileSt} (h : KeepsUnits s t) : KeepsUnits s (t.setTile n y) := h.of_units rfl rfl

theorem onHist {b : Bool} {p : Nat} {f : ChanHist → ChanHist} (h : KeepsUnits s t) : KeepsUnits s (t.onHist c b p f) := h.setClus

theorem onAccBuf {f : Buffer → Buffer} (h : KeepsUnits s t) : KeepsUnits s (t.onAccBuf c f) := h.setClus

/-- An engine's record may be put anew while it says the same of being busy. -/
theorem setEngine {e : Engine} (h : KeepsUnits s t) (he : e.busy = (t.engine w).busy) : KeepsUnits s (t.setEngine w e) := by
  refine h.trans ⟨rfl, fun n => ?_⟩
  by_cases hn : w = n
  · subst hn
    rw [State.engine_setEngine_same, he]
  · rw [State.engine_setEngine_ne _ _ hn]

/-! The fault log and the fault map (R367 to R370). -/

theorem logFaultAt {tm code fl cls lo ph : Nat} (h : KeepsUnits s t) : KeepsUnits s (t.logFaultAt tm code fl cls lo ph) :=
  h.of_frame (Frame.refl logRegs logParts t).logFaultAt

theorem logFault {code fl cls lo ph : Nat} (h : KeepsUnits s t) : KeepsUnits s (t.logFault code fl cls lo ph) := h.logFaultAt

theorem clusterMapChanged (h : KeepsUnits s t) : KeepsUnits s (t.clusterMapChanged c) := by
  have hany : KeepsUnits s t.updateMapAny := h.setFlag
  exact hany.of_frame (Frame.refl changeRegs ringParts _).change

theorem setMapBit {b : Bool} {p : Nat} (h : KeepsUnits s t) : KeepsUnits s (t.setMapBit x c p b) := h.setFld.clusterMapChanged

theorem mapCondition {slot : Nat} {b : Bool} (h : KeepsUnits s t) : KeepsUnits s (t.mapCondition ch slot b) := by
  unfold State.mapCondition
  extract_lets f c p key put
  have hput : ∀ n, KeepsUnits s (put t n) := fun n => h.onDev
  refine ite (ite (hput 0) ?_) (ite (hput 0).setMapBit.logFault h)
  exact ite (hput 0).setMapBit.logFault (hput _)

theorem judgeMap (h : KeepsUnits s t) : KeepsUnits s (t.judgeMap c) := by
  unfold State.judgeMap
  exact foldl _ h fun _ _ hu => hu.mapCondition.mapCondition.setChan

theorem swapBank (h : KeepsUnits s t) : KeepsUnits s (t.swapBank c) := by
  unfold State.swapBank
  split
  · exact h
  · exact ite h (ite h.setClus.setFld.logFaultAt (ite h.setClus h.setClus.setFlag.clusterMapChanged.logFaultAt))

/-! What felting does with its hits, its buffers and its settings (R78, R79, R130, R138, R148, R149, R154). -/

theorem felt {b : Bool} {code d : Nat} {o : Option Nat} (h : KeepsUnits s t) : KeepsUnits s (t.felt ch b code w d o) :=
  ite h (ite h.bump (ite h.onHist.setFlag h.onHist))

theorem feltIn {y : CoincHit} (h : KeepsUnits s t) : KeepsUnits s (t.feltIn y w) := ite h.felt h

theorem judgeHits (h : KeepsUnits s t) : KeepsUnits s (t.judgeHits c) := by
  unfold State.judgeHits
  exact foldl _ h.setClus fun _ _ hu => (ite hu.bump hu).feltIn

theorem addGap {g : GapRec} (h : KeepsUnits s t) : KeepsUnits s (t.addGap n g) := by
  unfold State.addGap
  exact h.onDev

theorem cloudGap {g : GapRec} (h : KeepsUnits s t) : KeepsUnits s (t.cloudGap c g) := foldl _ h fun _ _ hu => ite hu.addGap hu

theorem clearReg (h : KeepsUnits s t) : KeepsUnits s (t.clearReg r i n) := foldl _ h fun _ _ hu => hu.setReg

theorem clearChan (h : KeepsUnits s t) : KeepsUnits s (t.clearChan ch) := h.setChan.setClus.onHist.clearReg

theorem discardLost {b : Bool} (h : KeepsUnits s t) : KeepsUnits s (t.discardLost c b) := by
  unfold State.discardLost
  dsimp only
  split
  · exact h
  · exact foldl _ h.cloudGap.setFlag fun _ _ hu => hu.onHist.clearChan

theorem abandon (h : KeepsUnits s t) : KeepsUnits s (t.abandon c) := by
  unfold State.abandon
  dsimp only
  split
  · exact h
  · exact h.cloudGap.setTile.bump

theorem applyRegs {l : List Reg} (h : KeepsUnits s t) : KeepsUnits s (l.foldl (fun t r => t.applyReg r i) t) :=
  foldl _ h fun _ _ hu => hu.setReg

theorem takeChan (h : KeepsUnits s t) : KeepsUnits s (t.takeChan ch) := by
  have force : KeepsUnits s ((heldChanRegs.foldl (fun t r => t.applyReg r ch) t).setFlag F.rcvChStsPending ch false) := h.applyRegs.setFlag
  unfold State.takeChan
  exact ite (ite force.setFlag force).clearChan (ite force.setFlag force)

theorem takeClus (h : KeepsUnits s t) : KeepsUnits s (t.takeClus c) := by
  have force : KeepsUnits s ((heldClusRegs.foldl (fun t r => t.applyReg r c) t).setFlag F.felClStsPending c false) := h.applyRegs.setFlag
  unfold State.takeClus
  exact ite (foldl _ force fun _ _ hu => hu.clearChan).setClus force

theorem takeAll (h : KeepsUnits s t) : KeepsUnits s (t.takeAll c) := foldl _ h.takeClus fun _ _ hu => hu.takeChan

theorem takeWalk (h : KeepsUnits s t) : KeepsUnits s (t.takeWalk c) := by
  have words : KeepsUnits s ((List.range 128).foldl
      (fun a n => a.setReg .rcvWalk (activeWalk c n) (a.reg .rcvWalk (128 * (c / 4) + n))) t) := foldl _ h fun _ _ hu => hu.setReg
  unfold State.takeWalk
  exact ite (ite words.setClus words.setClus.setFlag) h

theorem applyTable {o : Option Nat} (h : KeepsUnits s t) : KeepsUnits s (t.applyTable w o) := by
  unfold State.applyTable
  extract_lets e
  split
  · exact h
  · extract_lets s1 s2
    have h1 : KeepsUnits s s1 := setFld (setPair (bump (h.setEngine rfl)))
    have h2 : KeepsUnits s s2 := h1.setFlag.setFlag
    exact ite h2.setFlag h2

theorem bowAtBoundary (h : KeepsUnits s t) : KeepsUnits s (t.bowAtBoundary c) := by
  unfold State.bowAtBoundary
  exact foldl _ h fun _ _ hu => ite hu.applyTable hu

theorem showWins {p : Nat} {l : List FineWin} (h : KeepsUnits s t) : KeepsUnits s (t.showWins c p l) := foldl _ h fun _ _ hu => hu.setReg

theorem installWins {b : Buffer} (h : KeepsUnits s t) : KeepsUnits s (t.installWins c b) := by
  unfold State.installWins
  exact foldl _ h.setClus fun _ _ hu => hu.onHist.showWins

theorem beginHist {d vo az : Nat} (h : KeepsUnits s t) : KeepsUnits s (t.beginHist c d vo az) := by
  unfold State.beginHist
  exact onAccBuf h.setClus

/-! The boundary of a histogram (R133 to R136). -/

theorem closeHistogram {b : Bool} (h : KeepsUnits s t) : KeepsUnits s (t.closeHistogram c b) := by
  unfold State.closeHistogram
  extract_lets s1 s2 a s3 left s4 s5 prev x6 s6 x7 s7 s8 s9 k
  have h2 : KeepsUnits s s2 := h.judgeMap.abandon
  clear_value s2
  have h3 : KeepsUnits s s3 := ite h2.onAccBuf.setFlag.bump h2
  clear_value s3
  have h5 : KeepsUnits s s5 := ite h3.onAccBuf h3.onAccBuf.bump
  clear_value s5
  have h6 : KeepsUnits s s6 := h5.setFlag.setClus
  clear_value s6
  have h7 : KeepsUnits s s7 := h6.setTile.judgeHits
  clear_value s7
  have h8 : KeepsUnits s s8 := h7.discardLost.swapBank.takeAll
  clear_value s8
  have h9 : KeepsUnits s s9 := h8.takeWalk.bowAtBoundary.installWins
  clear_value s9
  exact ite h9 h9.beginHist.setClus

theorem settleBoundary (h : KeepsUnits s t) : KeepsUnits s (t.settleBoundary c) := ite h.closeHistogram h

/-! References (R70 to R72, R77). -/

theorem closeGate (h : KeepsUnits s t) : KeepsUnits s (t.closeGate ch n) := ite h.setChan h

theorem endShot {z : Int} (h : KeepsUnits s t) : KeepsUnits s (t.endShot c z) := foldl _ h fun _ _ hu => hu.closeGate

theorem countVoid (h : KeepsUnits s t) : KeepsUnits s (t.countVoid c) := ite h.onAccBuf h.setClus

theorem blankShot {y : ShotCtx} (h : KeepsUnits s t) : KeepsUnits s (t.blankShot c y) := h.setClus.bump.setFlag.countVoid

theorem openGates (h : KeepsUnits s t) : KeepsUnits s (t.openGates c) := foldl _ h fun _ _ hu => hu.setChan

theorem reference {y : ShotCtx} {z : Int} (h : KeepsUnits s t) : KeepsUnits s (t.reference c y z) := by
  unfold State.reference
  extract_lets s1 y' k
  have h1 : KeepsUnits s s1 := h.endShot.settleBoundary
  clear_value s1
  exact ite h1 (ite h1.blankShot.judgeHits (openGates (onAccBuf h1.setClus)).judgeHits)

theorem darkShot {y : ShotCtx} (h : KeepsUnits s t) : KeepsUnits s (t.darkShot c y) := by
  have h1 : KeepsUnits s ((t.countVoid c).bump F.rcvClNorefCntCount c 1) := h.countVoid.bump
  exact ite h1.setClus (foldl _ h1.setClus fun _ _ hu => hu.setChan).judgeHits

theorem noReference (h : KeepsUnits s t) : KeepsUnits s (t.noReference n k) := by
  refine foldl _ h fun u b hu => ?_
  split
  · exact hu.darkShot
  · exact hu

end KeepsUnits

end Sys2Proof.Machine
end

section
/-! O25 (R66, R72, R81, R84, R89, R94, R95, R116, R117, R130, R132, R154). -/
namespace Sys2Proof.Machine

variable {s t : State} {n cnt : Nat} {p : PortShot}

/-! The edge of a start-sense engine. -/

/-- The shot of a port has its edge converted: it is resolved, the run of missing edges ends, and the engine frees (R84, R116, R117). -/
def State.senseResolved (s : State) (n : Nat) (p : PortShot) : State :=
  (s.setPort n { s.port n with cur := some { p with resolved := true }, missRun := 0 }).freeEngine (senseUnit n)

theorem frame_senseResolved (s : State) (n : Nat) (p : PortShot) : Frame [] [.rng] s (s.senseResolved n p) :=
  (Frame.refl _ _ _).setPort.freeEngine

theorem port_senseResolved (s : State) (n : Nat) (p : PortShot) :
    (s.senseResolved n p).port n = { s.port n with cur := some { p with resolved := true }, missRun := 0 } := State.port_setPort_same _ _ _

theorem busy_senseResolved (s : State) (n : Nat) (p : PortShot) : ((s.senseResolved n p).engine (senseUnit n)).busy = false := by
  unfold State.senseResolved
  rw [engine_freeEngine_same]

theorem awaiting_senseResolved (s : State) (n : Nat) (p : PortShot) (m k : Nat) :
    (s.senseResolved n p).awaiting m k = s.awaiting m k := by rfl

section sense
variable (hcur : (s.port n).cur = some p) (hedge : p.edge = true) (hres : p.resolved = false)
include hcur hedge hres

/-- What the clusters make of the reference leaves the port and its engine as they are. -/
theorem senseConverted_resolves : KeepsUnits (s.senseResolved n p) (s.senseConverted n cnt) := by
  unfold State.senseConverted
  rw [hcur]
  dsimp only
  rw [if_pos (by rw [hedge, hres]; rfl)]
  refine KeepsUnits.ite (KeepsUnits.refl _).noReference (KeepsUnits.foldl _ (KeepsUnits.refl _) fun t c ht => ?_)
  split
  · exact ht.reference
  · exact ht

/-- With no cluster that awaits it, nothing else happens. -/
theorem senseConverted_alone (hnone : s.awaiting n p.k = []) : s.senseConverted n cnt = s.senseResolved n p := by
  have hafter : (s.senseResolved n p).awaiting n p.k = [] := (awaiting_senseResolved s n p n p.k).trans hnone
  unfold State.senseConverted
  rw [hcur]
  dsimp only
  rw [if_pos (by rw [hedge, hres]; rfl)]
  unfold State.senseResolved at hafter ⊢
  unfold State.noReference
  rw [hafter, List.foldl_nil, List.foldl_nil, ite_self]

end sense

/-! The command. -/

section command
variable {w : Fin 2112} {k : Fin 160} {fix bad : Bool} {fw bw : BitVec 20}

/-- What a code found in the histogram's words, as the operation takes it. -/
def foundWord (found : Bool) (word : BitVec 20) : Option Nat := if found then some word.toNat else none

theorem exec_conversionComplete (heq : s.coincide w k (foundWord fix fw) (foundWord bad bw) = t) (hcore : keepsCore s t) :
    exec (.conversionComplete w k fix fw bad bw) s = .next t :=
  congrArg Host.Outcome.next (inDev_eq heq hcore)

end command

/-- Settles O25: the unit is dead, or converts a hit, or a start-sense edge, or is idle and samples or not. -/
theorem conversionsEnd : Obligations.ConversionsEnd := by
  intro w n k fix bad fw bw s e i
  have run : ∀ {t : State}, s.coincide w k (foundWord fix fw) (foundWord bad bw) = t → keepsCore s t → exec i s = .next t :=
    exec_conversionComplete
  refine ⟨fun hdead => run (coincide_dead hdead) ⟨rfl, rfl, rfl, rfl⟩, fun v code width d hworks hres hhits => ?_,
    fun p hu hworks hconv hbusy hcur hedge hopen => ?_, fun hworks hconv hbusy hsamples hbow htotal => ?_,
    fun hworks hconv hbusy hsilent => run (coincide_silent hworks hconv hbusy hsilent) ⟨rfl, rfl, rfl, rfl⟩⟩
  · intro cl d' ended there
    -- A conversion that felts nothing of a bad word ends as its operation says.
    have ends : ∀ {R : List Reg}, (foundWord fix fw = none ∧ foundWord bad bw = none) ∨ bitOf v.coinc 31 = true ∨ 8192 ≤ code / 128
          ∨ ¬s.histStands v → ConvEnds R w v.ch width s (s.hitConverted w k) →
        exec i s = .next (s.hitConverted w k) ∧ ended (s.hitConverted w k) ∧ keepsRegs (.rcvChSts :: R) s (s.hitConverted w k) :=
      fun hwords h => ⟨run ((coincide_hit hworks hres).trans (hitFelted_eq hres hwords)) h.shown.1, h.shown, h.frame.reg⟩
    have hthere : there = true ↔ s.histStands v := decide_eq_true_iff
    have hgone : there = false ↔ ¬s.histStands v := decide_eq_false_iff_not
    refine ⟨fun hfix hbad hoff hcode hstands => ?_, fun hoff hcode hstands => ?_, fun hoff hlost => ?_, fun x hon hshot hn hhist => ?_⟩
    · obtain ⟨hends, hadds⟩ := hitConverted_enters hres hhits hoff (hthere.1 hstands) hcode
      obtain ⟨hrun, hend, hregs⟩ := ends (Or.inl ⟨by rw [hfix]; rfl, by rw [hbad]; rfl⟩) hends
      exact ⟨_, hrun, hend, hadds, hregs⟩
    · obtain ⟨hends, hcount⟩ := hitConverted_beyond hres hhits hoff (hthere.1 hstands) hcode
      obtain ⟨hrun, hend, hregs⟩ := ends (Or.inr (Or.inr (Or.inl hcode))) hends
      exact ⟨_, hrun, hend, hcount, hregs⟩
    · obtain ⟨hrun, hend, hregs⟩ := ends (Or.inr (Or.inr (Or.inr (hgone.1 hlost)))) (hitConverted_gone hres hhits hoff (hgone.1 hlost))
      exact ⟨_, hrun, hend, hregs⟩
    · obtain ⟨hends, hwaits⟩ := hitConverted_waits hres hhits hon hshot hn hhist
      obtain ⟨hrun, hend, hregs⟩ := ends (Or.inr (Or.inl hon)) hends
      exact ⟨_, hrun, hend, hregs, hwaits⟩
  · have hsense : s.coincide w k (foundWord fix fw) (foundWord bad bw) = s.senseConverted n k := by
      rw [coincide_sense hworks hconv hbusy, hu, senseUnit, Nat.add_sub_cancel_left]
    have hkeeps := senseConverted_resolves (cnt := k) hcur hedge hopen
    rw [← hsense] at hkeeps
    refine ⟨inDev (State.coincide · w k (foundWord fix fw) (foundWord bad bw)) s, rfl, ⟨rfl, rfl, rfl, rfl⟩, ?_, ?_, fun hnone => ?_⟩
    · exact (hkeeps.busy w).trans (by rw [hu]; exact busy_senseResolved s n p)
    · exact (hkeeps.port n).trans (port_senseResolved s n p)
    · have hframe : Frame [] [.rng] s (s.coincide w k (foundWord fix fw) (foundWord bad bw)) := by
        rw [hsense, senseConverted_alone hcur hedge hopen hnone]
        exact frame_senseResolved s n p
      exact (hframe.inDev (f := (State.coincide · w k (foundWord fix fw) (foundWord bad bw))).keeps (by decide)).2
  · have hframe : Frame [] [.rng] s ((s.bowSample w k).freeEngine w) := (Frame.refl _ _ _).bowSample.freeEngine
    obtain ⟨hcore, hregs, hbytes⟩ := hframe.keeps (by decide)
    obtain ⟨htot, hsum⟩ := bowSample_counts (n := k) hbow htotal
    refine ⟨_, run (coincide_samples hworks hconv hbusy hsamples) hcore, ?_, ?_, hcore, hregs, hbytes⟩ <;> rw [engine_freeEngine_same]
    · exact htot
    · exact hsum

end Sys2Proof.Machine
end

section
/-! SUPPORT. A number that no engine bears. The operands of a command can spell 2036 to 2099 (`unitExists` is false of them), and such a
number works while the emitter block has power. When it is declared failed with no spare start-sense engine in reserve it is lost like the
start-sense engine of a port (R118): its record is cleared, the failure with it, and SERVICE, which would read 3 of a start-sense engine, is
written nowhere. So it works on, where the statements have every unit that fails stop working. -/
namespace Sys2Proof.Machine

/-- No spare start-sense engine is in reserve; number 2036 holds the samples of a table, and has had two tables rejected in succession. -/
def spareless : State := (State.reset.setReg .emtSseSpare 0 0).setEngine 2036 { total := 2 ^ 20, rejRun := 2 }

theorem spareless_works : unitExists 2036 = false ∧ spareless.unitWorks 2036 = true := by decide +kernel

/-- Its third table is due, and rejected: no bin holds a sample (R91). -/
theorem spareless_rejects : 2 ^ 20 ≤ (spareless.engine 2036).total ∧ rejectBow (spareless.engine 2036).bins = true
    ∧ 2 ≤ (spareless.engine 2036).rejRun := by decide +kernel

theorem spareless_timeout_works : ∃ t, exec (.conversionTimeout 2036) spareless = .next t ∧ t.unitWorks 2036 = true :=
  ⟨_, rfl, by decide +kernel⟩

theorem spareless_table_works : ∃ t, exec (.bowTableBuild 2036) spareless = .next t ∧ t.unitWorks 2036 = true :=
  ⟨_, rfl, by decide +kernel⟩

/-- Refutes O23: a conversion without coincidence is to leave its unit failed, but the statement also ranges over numbers that no engine
bears, and such a one works on (`spareless`). -/
theorem not_engineUpkeep : ¬ Obligations.EngineUpkeep := by
  intro h
  obtain ⟨-, -, -, -, -, -, htimeout⟩ := h 2036 0 0 spareless
  obtain ⟨t, ht, -, hfails⟩ := htimeout spareless_works.2
  obtain ⟨u, hu, hworks⟩ := spareless_timeout_works
  obtain rfl : u = t := Host.Outcome.next.inj (hu.symm.trans ht)
  obtain ⟨-, hfailed, -⟩ := hfails (by decide)
  exact Bool.false_ne_true (hfailed.symm.trans hworks)

/-- Refutes O27: the third rejected table in succession is to fail its engine, but the statement also ranges over numbers that no engine
bears, and such a one works on (`spareless`). -/
theorem not_tablesAndUtility : ¬ Obligations.TablesAndUtility := by
  intro h
  obtain ⟨htotal, hrejected, hthird⟩ := spareless_rejects
  obtain ⟨-, hrejects, -⟩ := h 2036 [] 0 0 (0, 0) (0, 0) [] false spareless
  obtain ⟨t, ht, -, -, -, -, hfails⟩ := hrejects spareless_works.2 htotal hrejected
  obtain ⟨u, hu, hworks⟩ := spareless_table_works
  obtain rfl : u = t := Host.Outcome.next.inj (hu.symm.trans ht)
  obtain ⟨hfailed, -⟩ := hfails hthird
  exact Bool.false_ne_true (hfailed.symm.trans hworks)

end Sys2Proof.Machine
end

section
/-! A loss of lock of the emitter PLL while a state stream selects the fault log's change source (R124, R244, R369). -/
namespace Sys2Proof.Machine

variable {s : State}

/-- Where no cluster has a record of its own, there is none to put back. -/
theorem setClus_idle (h : s.dev.rng.clusters = []) (c : Nat) : s.setClus c {} = s := by
  have hput : smPut {} s.dev.rng.clusters c ({} : ClusterSt) = s.dev.rng.clusters := by rw [h]; rfl
  calc s.setClus c {} = s.onDev (fun d => { d with rng := { d.rng with clusters := smPut {} s.dev.rng.clusters c {} } }) := rfl
    _ = s := by rw [hput]; rfl

/-- A device whose channels and clusters are as after reset has no gate to shut (R126). -/
theorem shutGates_idle (hclus : s.dev.rng.clusters = []) (hchan : s.dev.rng.chans = []) (c : Nat) : s.shutGates c = s := by
  have hc : s.clus c = {} := by unfold State.clus; rw [hclus]; rfl
  have hclosed (ch n : Nat) : s.closeGate ch n = s := by
    have hk : s.chan ch = {} := by unfold State.chan; rw [hchan]; rfl
    unfold State.closeGate
    rw [hk]
    rfl
  have hend (z : Int) : s.endShot c z = s := List.foldl_fixed' (fun _ => hclosed _ _) _
  have hsettle : s.settleBoundary c = s := by unfold State.settleBoundary; rw [hc]; exact if_neg (by simp)
  have hjudge : s.judgeHits c = s := by
    unfold State.judgeHits
    simp only [hc, List.filter_nil, List.foldl_nil]
    exact setClus_idle hclus c
  unfold State.shutGates
  rw [hend, hsettle]
  dsimp only
  rw [hc, setClus_idle hclus c, hjudge]

theorem startRelock_idle (hclus : s.dev.rng.clusters = []) (hchan : s.dev.rng.chans = []) :
    s.startRelock = ((s.setPll { s.dev.rng.pll with relock := true }).setFlag F.emtPllStsSafeClk 0 true).setFlag F.emtPllStsLocked 0 false :=
  List.foldl_fixed' (fun c => shutGates_idle (s := ((s.setPll { s.dev.rng.pll with relock := true }).setFlag F.emtPllStsSafeClk 0
    true).setFlag F.emtPllStsLocked 0 false) hclus hchan c) _

/-- READY with the emitter PLL locked, and a state stream on that selects group 1 of the change sources, the fault log's among them. -/
def loggedStream : State :=
  (((({ State.reset with sys := { State.reset.sys with op := .ready } } : State).setFlag F.acqStrCtlOn 0 true).setFld F.acqStrCtlClass 0 2).setReg
    .acqStrSelLo 0 2).setFlag F.emtPllStsLocked 0 true

theorem loggedStream_unrouted : loggedStream.unrouted :=
  Frame.unrouted (R := [.acqStrCtl, .acqStrSelLo, .emtPllSts]) (P := [])
    (s := { State.reset with sys := { State.reset.sys with op := .ready } })
    (((((Frame.refl _ _ _).setFlag (by decide)).setFld (by decide)).setReg (by decide)).setFlag (by decide)) reset_quiet.1

theorem loggedStream_locked : loggedStream.flag F.emtPllStsLocked 0 = true := flag_setFlag_same _ _ (by decide) true

theorem loggedStream_plain (c : Nat) : (loggedStream.clus c).due = false ∧ (loggedStream.clus c).hits = [] := ⟨rfl, rfl⟩

theorem loggedStream_records : ∃ t, exec .lossOfLock loggedStream = .next t
    ∧ t.reg .acqStrRecCnt 0 ≠ loggedStream.reg .acqStrRecCnt 0 := by
  refine ⟨inDev State.lossOfLock loggedStream, rfl, ?_⟩
  rw [reg_inDev]
  unfold State.lossOfLock
  rw [if_pos loggedStream_locked, startRelock_idle rfl rfl]
  decide +kernel

/-- Refutes O20: a loss of lock is to move no register but EMT_PLL_STS, the fault log's and the event status while no event is routed. Its
entry in the fault log moves change source 0x136, and a state stream that selects the source (`loggedStream`) records the change in its
ring (R244, R369). -/
theorem not_pllCommands : ¬ Obligations.PllCommands := by
  intro h
  obtain ⟨-, -, -, -, -, -, -, -, hloss, -⟩ := h .host loggedStream
  obtain ⟨t, ht, -, -, -, -, -, -, -, hframe⟩ := hloss loggedStream_locked
  obtain ⟨hregs, -⟩ := hframe loggedStream_unrouted fun c _ => loggedStream_plain c
  obtain ⟨u, hu, hrecorded⟩ := loggedStream_records
  rw [Host.Outcome.next.inj (hu.symm.trans ht)] at hrecorded
  exact hrecorded (hregs .acqStrRecCnt 0 (by decide))

end Sys2Proof.Machine
end

section
/-! A hit that waits in one cluster and names a channel of another: it is felted in the other's buffer (R130, R154). -/
namespace Sys2Proof.Machine

/-- The announced port of source 7, on. -/
def strayPort : AnnPort := { port := 3, en := true, phaseEn := false, codeset := 0, span := 0, period := 20000, offset := 0 }

/-- RUN off the safe clock; clusters 46 and 47 follow source 7, live. Cluster 47 is to skip the source's next shot, and among the hits that
wait in cluster 46 stands one of channel 752, which is cluster 47's. -/
def strayHit : State :=
  ((((((((({ State.reset with sys := { State.reset.sys with op := .run } } : State).setReg .pwrDomSts 2 0xFFFFFFFF).setFlag
    F.emtPllStsSafeClk 0 false).setFlag F.rejClBiBiEn (forceAt 46) true).setFld F.rejClBiBiSrc (forceAt 46) 7).setFlag
    F.rejClBiBiEn (forceAt 47) true).setFld F.rejClBiBiSrc (forceAt 47) 7).setSource 7 { ann := some strayPort }).setClus 46
    { hits := [{ ch := 752, code := 0, width := 0, d := none, buf := false, coinc := 4 }] }).setClus 47 { skip := some 0 }

theorem strayHit_listens : (strayHit.source (7 : Fin 8)).ann = some strayPort ∧ strayHit.sys.op = .run
    ∧ strayHit.flag F.emtPllStsSafeClk 0 = false ∧ (47 : Fin 48).val ∈ strayHit.biFollowers (7 : Fin 8)
    ∧ (strayHit.clus (47 : Fin 48)).skip = some (strayHit.source (7 : Fin 8)).k := by decide +kernel

theorem strayHit_felts : ∃ t, exec (.bistaticShot 7) strayHit = .next t
    ∧ (t.clus (47 : Fin 48)).buf (strayHit.accBuf (47 : Fin 48)) ≠ (strayHit.clus (47 : Fin 48)).buf (strayHit.accBuf (47 : Fin 48)) :=
  ⟨_, rfl, by decide +kernel⟩

/-- Refutes O31: a cluster that skips a predicted shot is to keep its buffer as it was, but the statement also ranges over states in which
another cluster's waiting hits name one of its channels (`strayHit`). The other cluster takes the shot, judges its hits, and the stray one
is felted in that buffer. -/
theorem not_bistaticSources : ¬ Obligations.BistaticSources := by
  intro h
  obtain ⟨-, -, -, -, -, hshot⟩ := h 0 7 47 [] strayHit
  obtain ⟨hann, hop, hclk, hfollows, hskips⟩ := strayHit_listens
  obtain ⟨t, ht, -, -, -, -, htakes⟩ := hshot strayPort hann
  obtain ⟨hskip, -⟩ := htakes hop rfl hclk hfollows
  obtain ⟨-, hbuf⟩ := hskip hskips
  obtain ⟨u, hu, hfelt⟩ := strayHit_felts
  rw [Host.Outcome.next.inj (hu.symm.trans ht)] at hfelt
  exact hfelt hbuf

end Sys2Proof.Machine
end

section
/-! SUPPORT. The shots of an emitter port (R109, R113, R126, R128): what withdrawing one leaves, the permits that reach the emitters, and
the clusters that a fired shot goes to. -/
namespace Sys2Proof.Machine

variable {R : List Reg} {P : List Part} {s t : State} {α β : Type} {n m c k cause : Nat}

/-- What a loop over a range leaves of a part that one turn alone acts on. -/
theorem foldl_range_read {f : α → Nat → α} {v : α → β} {g : β → β} (hk : k < n) (hact : ∀ a, v (f a k) = g (v a))
    (hidle : ∀ a j, j ≠ k → v (f a j) = v a) (a : α) : v ((List.range n).foldl f a) = g (v a) := by
  have idle : ∀ (l : List Nat) b, k ∉ l → v (l.foldl f b) = v b := fun l => by
    induction l with
    | nil => exact fun _ _ => rfl
    | cons j l ih =>
      intro b hj
      rw [List.mem_cons, not_or] at hj
      exact (ih _ hj.2).trans (hidle b j (Ne.symm hj.1))
  have once : ∀ (l : List Nat) b, k ∈ l → l.Nodup → v (l.foldl f b) = g (v b) := fun l => by
    induction l with
    | nil => exact fun _ h => absurd h List.not_mem_nil
    | cons j l ih =>
      intro b hj hl
      obtain ⟨hnot, hl⟩ := List.nodup_cons.mp hl
      rw [List.foldl_cons]
      by_cases h : j = k
      · subst h
        exact (idle l _ hnot).trans (hact b)
      · exact (ih _ ((List.mem_cons.mp hj).resolve_left (Ne.symm h)) hl).trans (congrArg g (hidle b j h))
  exact once _ _ (List.mem_range.mpr hk) List.nodup_range

/-! The port's record. -/

section reads
variable (s : State) (r : Reg) (f : RegField) (o : Out) (b : Bool) (i j k v n : Nat)

@[simp] theorem State.port_setReg : (s.setReg r i v).port n = s.port n := by rfl
@[simp] theorem State.port_setFld : (s.setFld f i v).port n = s.port n := by rfl
@[simp] theorem State.port_setFlag : (s.setFlag f i b).port n = s.port n := by rfl
@[simp] theorem State.port_bump : (s.bump f i v).port n = s.port n := by rfl
@[simp] theorem State.port_emit : (s.emit o).port n = s.port n := by rfl
@[simp] theorem State.port_noteShot : (s.noteShot j k b).port n = s.port n := by rfl
@[simp] theorem State.fld_noteShot : (s.noteShot j k b).fld f i = s.fld f i := by rfl
@[simp] theorem State.out_noteShot : (s.noteShot j k b).dev.out = s.dev.out := by rfl

end reads

theorem State.port_setPort_ne (s : State) (z : PortSt) (h : n ≠ m) : (s.setPort n z).port m = s.port m := smGet_put_ne _ _ _ _ h

theorem Frame.noteShot {b : Bool} (h : Frame R P s t) (hP : Part.rng ∈ P := by decide) : Frame R P s (t.noteShot n k b) :=
  h.onRng (f := fun r => { r with sched := { r.sched with shots := r.sched.shots ++ [(n, k % 65536, b)] } }) hP

/-! A shot withdrawn (R126, R128). -/

theorem withdraw_frame (s : State) (n k cause : Nat) :
    Frame [.emtPortSts, .emtPortWithdrawnCnt] [.rng] s (s.withdraw n k cause) :=
  ((((Frame.refl _ _ s).setPort).bump (by decide)).setFld (by decide)).noteShot

/-- The next shot follows; the withdrawal shows its cause and is counted. -/
theorem withdraw_shows (s : State) (n k : Nat) (hcause : cause < 4) :
    (s.withdraw n k cause).port n = nextNominal (s.port n) (s.fld F.emtPortPeriodValue n)
      ∧ (s.withdraw n k cause).fld F.emtPortStsWdCause n = cause
      ∧ (s.withdraw n k cause).fld F.emtPortWithdrawnCntCount n = min (s.fld F.emtPortWithdrawnCntCount n + 1) 0xFFFFFFFF := by
  unfold State.withdraw
  refine ⟨by simp, ?_, ?_⟩
  · rw [State.fld_noteShot, fld_setFld_same _ _ _ (by decide)]
    exact Nat.mod_eq_of_lt hcause
  · rw [State.fld_noteShot, fld_setFld_ne _ _ (by decide) (by decide) (Or.inl (by decide)), fld_bump_same _ _ _ (by decide)]
    rfl

theorem withdrawCause_lt (s : State) (n : Nat) (x : PortShot) : s.withdrawCause n x < 4 := by
  unfold State.withdrawCause
  split
  · decide
  · split
    · decide
    · split <;> decide

/-! Permits (R127, R128). -/

/-- A shot sampled at its permit sample is blocked. -/
def PortSt.block (p : PortSt) : PortSt :=
  match p.drawn with
  | some x => if x.sampled then { p with drawn := some { x with blocked := true } } else p
  | none => p

/-- The turn of one port in the blocking of sampled shots. -/
def State.blockPort (s : State) (n : Nat) : State :=
  match (s.port n).drawn with
  | some x => if x.sampled && !x.blocked then
      (s.setPort n { s.port n with drawn := some { x with blocked := true } }).setFlag F.emtPortStsInhibitLate n true
    else s
  | none => s

theorem blockSampled_eq (s : State) : s.blockSampled = (List.range 32).foldl State.blockPort s := rfl

theorem Frame.blockPort (h : Frame R P s t) (hR : Reg.emtPortSts ∈ R := by decide) (hP : Part.rng ∈ P := by decide) :
    Frame R P s (t.blockPort n) := by
  unfold State.blockPort
  split
  · exact Frame.ite (fun _ => (h.setPort hP).setFlag hR) (fun _ => h)
  · exact h

/-- A shot that is blocked stays as it is. -/
theorem block_blocked {p : PortSt} {x : PortShot} (hd : p.drawn = some x) (hb : x.blocked = true) : p.block = p := by
  obtain ⟨⟩ := p
  obtain ⟨⟩ := x
  obtain rfl := hd
  obtain rfl := hb
  simp [PortSt.block]

theorem port_blockPort_same (s : State) (n : Nat) : (s.blockPort n).port n = (s.port n).block := by
  unfold State.blockPort PortSt.block
  cases hd : (s.port n).drawn with
  | none => rfl
  | some x =>
    cases hs : x.sampled with
    | false => simp [hs]
    | true =>
      cases hb : x.blocked with
      | false => simp [hs, hb]
      | true =>
        simpa [hs, hb, PortSt.block, hd] using (block_blocked hd hb).symm

theorem port_blockPort_ne (s : State) (h : n ≠ m) : (s.blockPort n).port m = s.port m := by
  unfold State.blockPort
  split
  · split
    · exact State.port_setPort_ne s _ h
    · rfl
  · rfl

theorem port_blockSampled (s : State) (h : n < 32) : s.blockSampled.port n = (s.port n).block :=
  foldl_range_read (v := (State.port · n)) h (port_blockPort_same · n) (fun t _ hj => port_blockPort_ne t hj) s

/-- The permits of the two channels show, and where one has been withdrawn every sampled shot is blocked. -/
theorem Frame.setPermits {a b : Bool} (h : Frame R P s t) (hR : [Reg.emtSts, .emtPortSts] ⊆ R := by decide)
    (hP : Part.rng ∈ P := by decide) : Frame R P s (t.setPermits a b) := by
  have shown : Frame R P s ((t.setFlag F.emtStsPermitA 0 a).setFlag F.emtStsPermitB 0 b) :=
    (h.setFlag (hR (by decide))).setFlag (hR (by decide))
  exact Frame.ite (fun _ => Frame.foldl _ shown fun _ _ hu => hu.blockPort (hR (by decide)) hP) (fun _ => shown)

theorem setPermits_shows (s : State) (a b : Bool) :
    (s.setPermits a b).flag F.emtStsPermitA 0 = a ∧ (s.setPermits a b).flag F.emtStsPermitB 0 = b := by
  set shown := (s.setFlag F.emtStsPermitA 0 a).setFlag F.emtStsPermitB 0 b with hshown
  have hA : shown.flag F.emtStsPermitA 0 = a :=
    (flag_setFlag_ne (by decide) (by decide) (by decide)).trans (flag_setFlag_same s 0 (by decide) a)
  have hB : shown.flag F.emtStsPermitB 0 = b := flag_setFlag_same _ 0 (by decide) b
  have kept : Frame [.emtPortSts] [.rng] shown (s.setPermits a b) :=
    Frame.ite (fun _ => Frame.foldl _ (Frame.refl _ _ _) fun _ _ hu => hu.blockPort) (fun _ => Frame.refl _ _ _)
  rw [kept.flag _ _ (by decide), kept.flag _ _ (by decide)]
  exact ⟨hA, hB⟩

theorem port_setPermits {a b : Bool} (h : n < 32)
    (hw : (s.flag F.emtStsPermitA 0 && !a || s.flag F.emtStsPermitB 0 && !b) = true) : (s.setPermits a b).port n = (s.port n).block := by
  unfold State.setPermits
  dsimp only
  rw [if_pos hw, port_blockSampled _ h]
  rfl

theorem block_sampled {p : PortSt} {x : PortShot} (hd : p.drawn = some x) (hs : x.sampled = true) :
    p.block.drawn = some { x with blocked := true } := by
  simp [PortSt.block, hd, hs]

end Sys2Proof.Machine
end

section
/-! O21 (R108, R109, R111, R113, R114, R117, R118, R126 to R128, R424). A shot of a port from its draw to its edge. -/
namespace Sys2Proof.Machine

variable {R : List Reg} {P : List Part} {s t u : State} {x : PortShot} {c k : Nat} {n : Fin 32}

/-! The clusters that a fired shot goes to (R112, R133, R147). -/

theorem Frame.onAccBuf {f : Buffer → Buffer} (h : Frame R P s t) (hP : Part.rng ∈ P := by decide) : Frame R P s (t.onAccBuf c f) :=
  h.setClus hP

theorem Frame.beginHist {d v z : Nat} (h : Frame R P s t) (hP : Part.rng ∈ P := by decide) : Frame R P s (t.beginHist c d v z) := by
  unfold State.beginHist
  exact (h.setClus hP).onAccBuf hP

theorem Frame.deliver {z : Int} (h : Frame R P s t) (hP : Part.rng ∈ P := by decide) : Frame R P s (t.deliver c k z) :=
  Frame.setClus (Frame.ite (fun _ => h.setClus hP) fun _ => Frame.ite (fun _ => h.onAccBuf hP) fun _ => h.beginHist hP) hP

theorem Frame.latchAzimuth (h : Frame R P s t) (hP : Part.rng ∈ P := by decide) : Frame R P s (t.latchAzimuth c) :=
  Frame.ite (fun _ => Frame.ite (fun _ => h.onAccBuf hP) fun _ => h.setClus hP) fun _ => h

theorem KeepsUnits.deliver {z : Int} (h : KeepsUnits s t) : KeepsUnits s (t.deliver c k z) :=
  (KeepsUnits.ite h.setClus (KeepsUnits.ite h.onAccBuf h.beginHist)).setClus

theorem KeepsUnits.latchAzimuth (h : KeepsUnits s t) : KeepsUnits s (t.latchAzimuth c) :=
  KeepsUnits.ite (KeepsUnits.ite h.onAccBuf h.setClus) h

/-- A fired or blocked shot `k` goes to a cluster, or is skipped there. -/
def State.giveShot (k : Nat) (z : Int) (s : State) (c : Nat) : State :=
  if (s.clus c).skip = some k then s.setClus c { s.clus c with skip := none } else (s.deliver c k z).latchAzimuth c

theorem foldl_giveShot (s : State) (k : Nat) (z : Int) (l : List Nat) :
    Frame [] [.rng] s (l.foldl (State.giveShot k z) s) ∧ KeepsUnits s (l.foldl (State.giveShot k z) s) :=
  ⟨Frame.foldl l (Frame.refl _ _ s) fun _ _ hu => Frame.ite (fun _ => hu.setClus) fun _ => hu.deliver.latchAzimuth,
    KeepsUnits.foldl l (KeepsUnits.refl s) fun _ _ hu => KeepsUnits.ite hu.setClus hu.deliver.latchAzimuth⟩

/-! The edge of a sampled shot (R108, R115, R128). -/

/-- What a port has of a sampled shot once its edge has come. -/
def State.shotAtEdge (s : State) (x : PortShot) : PortShot := { x with fired := !x.blocked, fireFix := s.timeFix }

/-- The shot has its edge: the port's next one follows. -/
def State.endShotAt (s : State) (n : Nat) (x : PortShot) : State :=
  s.setPort n { nextNominal (s.port n) (s.fld F.emtPortPeriodValue n) with cur := some (s.shotAtEdge x) }

/-- The trigger of a shot that is not blocked: counted, shown, driven and noticed. -/
def State.trigger (s : State) (n : Nat) (x : PortShot) : State :=
  (((((s.endShotAt n x).bump F.emtPortFireCntCount n 1).setSfld F.emtPortLastOffset n x.offset).setFld
    F.emtPortLastPhase n x.phase).emit (.pin 0 n (64 * s.fld F.emtPortCtlTrigWidth n + x.phase))).noteShot n x.k false

theorem Frame.endShotAt (h : Frame R P s t) {n : Nat} (hP : Part.rng ∈ P := by decide) : Frame R P s (t.endShotAt n x) := h.setPort hP

theorem trigger_frame (s : State) (n : Nat) (x : PortShot) :
    Frame [.emtPortFireCnt, .emtPortLast] [.rng, .out] s (s.trigger n x) :=
  (((((Frame.refl _ _ s).endShotAt).bump (by decide)).setFld (by decide)).setFld (by decide) |>.emit (by decide)).noteShot

theorem trigger_shows (s : State) (n : Nat) (x : PortShot) : (s.trigger n x).port n = (s.endShotAt n x).port n
    ∧ Out.pin 0 n (64 * s.fld F.emtPortCtlTrigWidth n + x.phase) ∈ (s.trigger n x).dev.out
    ∧ (s.trigger n x).fld F.emtPortFireCntCount n = min (s.fld F.emtPortFireCntCount n + 1) 0xFFFFFFFF := by
  unfold State.trigger
  refine ⟨?_, ?_, ?_⟩
  · simp [State.setSfld]
  · rw [State.out_noteShot, emit_out]
    exact List.mem_cons_self
  · rw [State.fld_noteShot, emit_fld, fld_setFld_ne _ _ (by decide) (by decide) (Or.inl (by decide)), State.setSfld,
      fld_setFld_ne _ _ (by decide) (by decide) (Or.inl (by decide)), fld_bump_same _ _ _ (by decide)]
    rfl

/-- What the edge of a sampled shot leaves of its port: the trigger, or the notice that the shot was blocked. -/
def State.shotOver (s : State) (n : Nat) (x : PortShot) : State :=
  if (s.shotAtEdge x).fired then s.trigger n x else (s.endShotAt n x).noteShot n x.k true

theorem fireEdge_drawn {n : Nat} (hd : (s.port n).drawn = some x) :
    s.fireEdge n = if !x.sampled then s
      else if s.flag F.emtPllStsSafeClk 0 then s.withdraw n x.k 2
      else if (s.port n).noEngine then s.withdraw n x.k 3
      else ((s.shotOver n x).followers n).foldl (State.giveShot x.k s.timeFix) (s.shotOver n x) := by
  unfold State.fireEdge
  dsimp only
  rw [hd]
  rfl

theorem fireEdge_idle {n : Nat} (h : ∀ x, (s.port n).drawn = some x → x.sampled = false) : s.fireEdge n = s := by
  cases hd : (s.port n).drawn with
  | none =>
    unfold State.fireEdge
    dsimp only
    rw [hd]
  | some x => rw [fireEdge_drawn hd, h x hd]; rfl

/-! The commands of a port. -/

theorem exec_shotDraw (h : s.drawShot n (s.saf.zoneEmitter n) = t) (hc : keepsCore s t) : exec (.shotDraw n) s = .next t :=
  congrArg Host.Outcome.next (inDev_eq h hc)

theorem exec_permitSample (h : s.samplePermits n = t) (hc : keepsCore s t) : exec (.permitSample n) s = .next t :=
  congrArg Host.Outcome.next (inDev_eq h hc)

theorem exec_fireEdge (h : s.fireEdge n = t) (hc : keepsCore s t) : exec (.fireEdge n) s = .next t :=
  congrArg Host.Outcome.next (inDev_eq h hc)

theorem keepsCore_refl (s : State) : keepsCore s s := ⟨rfl, rfl, rfl, rfl⟩

/-- The shot that a draw of a port gives (R113, R424). -/
def State.nextShot (s : State) (n : Nat) (zone : Bool) : PortShot :=
  { k := (s.port n).k, tNom := (s.port n).tNom
    offset := ditherOffset (prbsWord 16 (s.port n).gen 0).1 (s.fld F.emtPortDitherSpan n)
    phase := ditherPhase (prbsWord 16 (s.port n).gen 0).1 (s.flag F.emtPortCtlPhaseEn n)
    skip := !zone && decide (8 ≤ (s.port n).k % 8 + s.fld F.thmStsLevel 0) }

theorem drawShot_draws {n : Nat} (zone : Bool) (hop : s.sys.op = .run) (hd : (s.port n).drawn = none) :
    s.drawShot n zone = s.setPort n { s.port n with gen := (prbsWord 16 (s.port n).gen 0).2, drawn := some (s.nextShot n zone) } :=
  if_pos ⟨hop, hd⟩

/-- A port's shot is over without an edge, and its next one follows. -/
def State.passShot (s : State) (n : Nat) : State := s.setPort n (nextNominal (s.port n) (s.fld F.emtPortPeriodValue n))

/-- A shot that throttling skips: over, counted, and noticed as withdrawn (R424). -/
def State.skipShot (s : State) (n k : Nat) : State := ((s.passShot n).bump F.thmSkipCntCount 0 1).noteShot n k true

/-- A shot goes ahead at its permit sample. -/
def State.markSampled (s : State) (n : Nat) (x : PortShot) : State :=
  s.setPort n { s.port n with drawn := some { x with sampled := true } }

/-- The permit sample of a drawn shot, in the order of its checks (R111, R128, R424). -/
theorem samplePermits_drawn {n : Nat} (hd : (s.port n).drawn = some x) :
    s.samplePermits n = if x.sampled then s
      else if !s.flag F.emtPortCtlEn n || decide (s.sys.op ≠ .run) || decide (x.tNom < (s.port n).joinAt) then s.passShot n
      else if x.skip then s.skipShot n x.k
      else if s.withdrawCause n x = 0 then s.markSampled n x
      else s.withdraw n x.k (s.withdrawCause n x) := by
  unfold State.samplePermits
  dsimp only
  rw [hd]
  rfl

/-- A shot of an enabled port that has joined reaches the judgement of its permits. -/
theorem samplePermits_joined {n : Nat} (hd : (s.port n).drawn = some x) (hs : x.sampled = false) (hen : s.flag F.emtPortCtlEn n = true)
    (hop : s.sys.op = .run) (hj : (s.port n).joinAt ≤ x.tNom) :
    s.samplePermits n = if x.skip then s.skipShot n x.k
      else if s.withdrawCause n x = 0 then s.markSampled n x
      else s.withdraw n x.k (s.withdrawCause n x) := by
  rw [samplePermits_drawn hd, if_neg (by simp [hs]), if_neg (by simp [hen, hop, hj])]

theorem samplePermits_idle {n : Nat} (hd : (s.port n).drawn = none) : s.samplePermits n = s := by
  unfold State.samplePermits
  dsimp only
  rw [hd]

/-- A port whose record says that a shot is over has its next one to draw (R109, R111). -/
theorem next_of_nextNominal {p q : PortSt} {per : Nat} (h : { q with cur := none } = { nextNominal p per with cur := none }) :
    q.drawn = none ∧ q.k = p.k + 1 ∧ q.tNom = p.tNom + p.period + p.slip ∧ q.period = per :=
  ⟨congrArg PortSt.drawn h, congrArg PortSt.k h, congrArg PortSt.tNom h, congrArg PortSt.period h⟩

theorem passShot_frame (s : State) (n : Nat) : Frame [] [.rng] s (s.passShot n) := (Frame.refl _ _ s).setPort

theorem skipShot_frame (s : State) (n k : Nat) : Frame [.thmSkipCnt] [.rng] s (s.skipShot n k) :=
  ((((Frame.refl _ _ s).setPort).bump (by decide))).noteShot

theorem markSampled_frame (s : State) (n : Nat) (x : PortShot) : Frame [] [.rng] s (s.markSampled n x) := (Frame.refl _ _ s).setPort

theorem port_passShot (s : State) (n : Nat) : (s.passShot n).port n = nextNominal (s.port n) (s.fld F.emtPortPeriodValue n) :=
  State.port_setPort_same _ _ _

theorem port_skipShot (s : State) (n k : Nat) : (s.skipShot n k).port n = nextNominal (s.port n) (s.fld F.emtPortPeriodValue n) := by
  rw [State.skipShot, State.port_noteShot, State.port_bump, port_passShot]

/-- What a shot's edge leaves where the shot is not withdrawn: the next one follows, and what the port keeps of this one (R108, R115). -/
theorem fireEdge_over {n : Nat} (hd : (s.port n).drawn = some x) (hs : x.sampled = true) (hclk : s.flag F.emtPllStsSafeClk 0 = false)
    (he : (s.port n).noEngine = false) :
    Frame [] [.rng] (s.shotOver n x) (s.fireEdge n) ∧ (s.fireEdge n).port n = (s.shotOver n x).port n := by
  rw [fireEdge_drawn hd, if_neg (by simp [hs]), if_neg (by simp [hclk]), if_neg (by simp [he])]
  obtain ⟨frame, units⟩ := foldl_giveShot (s.shotOver n x) x.k s.timeFix ((s.shotOver n x).followers n)
  exact ⟨frame, units.port n⟩

theorem shotOver_blocked {n : Nat} (hb : x.blocked = true) : s.shotOver n x = (s.endShotAt n x).noteShot n x.k true :=
  if_neg (by simp [State.shotAtEdge, hb])

theorem shotOver_triggers {n : Nat} (hb : x.blocked = false) : s.shotOver n x = s.trigger n x :=
  if_pos (by simp [State.shotAtEdge, hb])

theorem port_shotOver (s : State) (n : Nat) (x : PortShot) : (s.shotOver n x).port n
    = { nextNominal (s.port n) (s.fld F.emtPortPeriodValue n) with cur := some (s.shotAtEdge x) } := by
  have hend : (s.endShotAt n x).port n = _ := State.port_setPort_same _ _ _
  cases hb : x.blocked with
  | true => rw [shotOver_blocked hb, State.port_noteShot, hend]
  | false => rw [shotOver_triggers hb, (trigger_shows s n x).1, hend]

theorem shotOver_frame (s : State) (n : Nat) (x : PortShot) : Frame [.emtPortFireCnt, .emtPortLast] [.rng, .out] s (s.shotOver n x) :=
  Frame.ite (fun _ => trigger_frame s n x) fun _ => ((Frame.refl _ _ s).endShotAt).noteShot

/-- A withdrawn shot, as its command shows it. -/
theorem withdraw_keeps (s : State) (n : Nat) (k : Nat) {cause : Nat} (hcause : cause < 4) :
    let t := s.withdraw n k cause
    ((t.port n).drawn = none ∧ (t.port n).k = (s.port n).k + 1 ∧ (t.port n).tNom = (s.port n).tNom + (s.port n).period + (s.port n).slip
        ∧ (t.port n).period = s.fld F.emtPortPeriodValue n)
      ∧ t.fld F.emtPortStsWdCause n = cause
      ∧ t.fld F.emtPortWithdrawnCntCount n = min (s.fld F.emtPortWithdrawnCntCount n + 1) 0xFFFFFFFF
      ∧ keepsCore s t ∧ keepsRegs [.emtPortSts, .emtPortWithdrawnCnt] s t ∧ keepsBytes s t := by
  obtain ⟨hport, hshown, hcount⟩ := withdraw_shows s n k hcause
  exact ⟨next_of_nextNominal (by rw [hport]), hshown, hcount, (withdraw_frame s n k cause).keeps (by decide)⟩

/-- A sampled shot at its edge: it fires unless it is blocked, and either way its port's next one follows (R108, R115, R128). -/
theorem fireEdge_shows {n : Nat} (hd : (s.port n).drawn = some x) (hs : x.sampled = true) (hclk : s.flag F.emtPllStsSafeClk 0 = false)
    (he : (s.port n).noEngine = false) :
    let t := s.fireEdge n
    t.port n = { nextNominal (s.port n) (s.fld F.emtPortPeriodValue n) with cur := some (s.shotAtEdge x) } ∧ keepsCore s t
      ∧ (x.blocked = false → Out.pin 0 n (64 * s.fld F.emtPortCtlTrigWidth n + x.phase) ∈ t.dev.out
        ∧ t.fld F.emtPortFireCntCount n = min (s.fld F.emtPortFireCntCount n + 1) 0xFFFFFFFF
        ∧ (s.followers n = [] → keepsRegs [.emtPortFireCnt, .emtPortLast] s t ∧ keepsBytes s t))
      ∧ (x.blocked = true → t.dev.out = s.dev.out ∧ t.fld F.emtPortFireCntCount n = s.fld F.emtPortFireCntCount n
        ∧ (s.followers n = [] → keepsRegs [] s t ∧ keepsBytes s t)) := by
  obtain ⟨given, hport⟩ := fireEdge_over hd hs hclk he
  have frame := (shotOver_frame s n x).trans given (by decide) (by decide)
  refine ⟨hport.trans (port_shotOver s n x), frame.core, fun hb => ?_, fun hb => ?_⟩
  · obtain ⟨-, hpin, hcount⟩ := trigger_shows s n x
    rw [given.part .out (by decide), given.fld _ _ (by decide), shotOver_triggers hb]
    exact ⟨hpin, hcount, fun _ => (frame.keeps (by decide)).2⟩
  · rw [shotOver_blocked hb] at given
    have silent : Frame [] [.rng] s (s.fireEdge n) :=
      Frame.trans (((Frame.refl _ _ s).endShotAt).noteShot) given (by decide) (by decide)
    exact ⟨silent.part .out (by decide), silent.fld _ _ (by decide), fun _ => (silent.keeps (by decide)).2⟩

/-- A sampled shot that falls into a re-lock, or finds no start-sense engine, is withdrawn at its edge (R118, R126). -/
theorem fireEdge_withdraws {n : Nat} (hd : (s.port n).drawn = some x) (hs : x.sampled = true)
    (hno : s.flag F.emtPllStsSafeClk 0 = true ∨ (s.port n).noEngine = true) :
    s.fireEdge n = s.withdraw n x.k (if s.flag F.emtPllStsSafeClk 0 then 2 else 3) := by
  rw [fireEdge_drawn hd, if_neg (by simp [hs])]
  cases hclk : s.flag F.emtPllStsSafeClk 0 with
  | true => rfl
  | false => simp [hno.resolve_left (by simp [hclk])]

/-- Settles O21: each command is the operation of its name, whose branches the hypotheses choose. -/
theorem shotsFire : Obligations.ShotsFire := by
  intro n s p next withdrawn
  refine ⟨fun hop hd => ?_, fun hno => ?_, fun x hd hs hen hop hj => ⟨fun hk hw => ?_, fun hk hw => ?_, fun hk => ?_⟩, fun x hd hs hno => ?_,
    fun hd => ?_, fun x hd hs hclk he => ?_, fun x hd hs hno => ?_, fun hno => ?_, ?_⟩
  · have hdraw := drawShot_draws (s.saf.zoneEmitter n) hop hd
    have frame : Frame [] [.rng] s (s.drawShot n (s.saf.zoneEmitter n)) := by rw [hdraw]; exact (Frame.refl _ _ s).setPort
    refine ⟨_, s.nextShot n (s.saf.zoneEmitter n), exec_shotDraw rfl frame.core, ?_, rfl, rfl, rfl, rfl, rfl, rfl, rfl,
      frame.keeps (by decide)⟩
    rw [hdraw]
    exact State.port_setPort_same s _ n
  · refine exec_shotDraw (if_neg ?_) (keepsCore_refl s)
    tauto
  · obtain ⟨hcore, hregs, hbytes⟩ := (markSampled_frame s n x).keeps (by decide)
    refine ⟨_, exec_permitSample ?_ hcore, hcore, hbytes, congrArg PortSt.drawn (State.port_setPort_same s _ n), hregs⟩
    rw [samplePermits_joined hd hs hen hop hj, if_neg (by simp [hk]), if_pos hw]
  · refine ⟨_, exec_permitSample ?_ (withdraw_frame s n x.k _).core, withdraw_keeps s n x.k (withdrawCause_lt s n x)⟩
    rw [samplePermits_joined hd hs hen hop hj, if_neg (by simp [hk]), if_neg hw]
  · obtain ⟨hcore, hregs, hbytes⟩ := (skipShot_frame s n x.k).keeps (by decide)
    refine ⟨_, exec_permitSample ?_ hcore, next_of_nextNominal ?_, hcore, hregs, hbytes, fld_bump_same (s.passShot n) _ _ (by decide)⟩
    · rw [samplePermits_joined hd hs hen hop hj, if_pos hk]
    · rw [port_skipShot]
  · refine ⟨_, exec_permitSample ?_ (passShot_frame s n).core, next_of_nextNominal ?_, (passShot_frame s n).keeps (by decide)⟩
    · rw [samplePermits_drawn hd, if_neg (by simp [hs]), if_pos]
      simpa [Bool.or_eq_true, or_assoc] using hno
    · rw [port_passShot]
  · exact exec_permitSample (samplePermits_idle hd) (keepsCore_refl s)
  · obtain ⟨hport, hcore, hfires, hblocked⟩ := fireEdge_shows hd hs hclk he
    exact ⟨_, exec_fireEdge rfl hcore, next_of_nextNominal (by rw [hport]), hcore, congrArg PortSt.cur hport, hfires, hblocked⟩
  · exact ⟨_, exec_fireEdge (fireEdge_withdraws hd hs hno) (withdraw_frame s n x.k _).core, withdraw_keeps s n x.k (by split <;> decide),
      (withdraw_frame s n x.k _).part .out (by decide)⟩
  · exact exec_fireEdge (fireEdge_idle hno) (keepsCore_refl s)
  · have frame : Frame [.emtSts, .emtPortSts] [.rng] s s.syncPermits := (Frame.refl _ _ s).setPermits
    obtain ⟨hcore, hregs, hbytes⟩ := frame.keeps (by decide)
    obtain ⟨hA, hB⟩ := setPermits_shows s s.saf.a.emission s.saf.b.emission
    refine ⟨_, congrArg Host.Outcome.next (inDev_eq rfl hcore), hcore, hregs, hbytes, hA, hB, fun hw x hd hs => ?_⟩
    have hport : s.syncPermits.port n = p.block := port_setPermits n.isLt (by rcases hw with ⟨h, k⟩ | ⟨h, k⟩ <;> simp [h, k])
    rw [hport]
    exact block_sampled hd hs

end Sys2Proof.Machine
end

section
/-! SUPPORT. Torque in a safety channel (R336, R346 to R348): a drive has it in CREEP, FULL and STOPPING alone, a channel that enters
SAFE_STATE takes it from all its drives, and what the drives of a channel do at the end of its cycle. -/
namespace Sys2Proof.Machine

variable {α : Type} {f : Saf} {x y z : SafChan} {d : SafDrv} {c : SafDriveSet} {b k : Bool} {n j now cause : Nat} {causes : List Nat}
  {permit : Bool} {partner : Option Nat}

/-! Drives of a channel, read after they were put. -/

/-- What a sparse map reads after every value was changed alike, the default staying as it is. -/
theorem smGet_map {g : α → α} {e : α} (hg : g e = e) (l : List (Nat × α)) (k : Nat) :
    smGet e (l.map fun p => (p.1, g p.2)) k = g (smGet e l k) := by
  induction l with
  | nil => exact hg.symm
  | cons p l ih =>
    rw [List.map_cons, smGet, smGet]
    split
    · rfl
    · exact ih

/-- A sparse map reads its default or a value that it lists. -/
theorem smGet_listed (e : α) (l : List (Nat × α)) (k : Nat) : smGet e l k = e ∨ ∃ p ∈ l, p.2 = smGet e l k := by
  induction l with
  | nil => exact .inl rfl
  | cons p l ih =>
    rw [smGet]
    split
    · exact .inr ⟨p, List.mem_cons_self, rfl⟩
    · exact ih.imp_right fun ⟨q, hq, he⟩ => ⟨q, List.mem_cons_of_mem _ hq, he⟩

/-- A drive with torque is in CREEP, FULL or STOPPING (R346). -/
def SafDrv.sound (d : SafDrv) : Prop := d.torque = true → d.state = 2 ∨ d.state = 3 ∨ d.state = 4

/-- Every drive of a channel is sound. -/
def SafChan.sound (x : SafChan) : Prop := ∀ n, (x.drv n).sound

theorem sound_of_torqueOk (h : x.torqueOk) : x.sound := by
  intro n ht
  obtain ⟨-, hdrives⟩ := h
  obtain hdef | ⟨p, hp, he⟩ := smGet_listed ({} : SafDrv) x.drives n
  · rw [SafChan.drv, hdef] at ht
    exact absurd ht (by decide)
  · rw [SafChan.drv, ← he] at ht ⊢
    exact (hdrives p hp ht).2

theorem chan_torqueOk (h : f.torqueOk) (b : Bool) : (f.chan b).torqueOk := by
  obtain ⟨ha, hb⟩ := h
  cases b
  · exact ha
  · exact hb

theorem not_torque_of_state (h : d.sound) (hs : d.state ≠ 2 ∧ d.state ≠ 3 ∧ d.state ≠ 4) : d.torque = false := by
  obtain ⟨h2, h3, h4⟩ := hs
  exact Bool.eq_false_iff.mpr fun ht => by rcases h ht with h | h | h <;> contradiction

theorem cut_sound (d : SafDrv) (cause now : Nat) : (d.cut cause now).sound := fun h => absurd h (by simp [SafDrv.cut])

/-! SAFE_STATE (R336). -/

/-- A drive whose channel leaves NORMAL: stopped without torque where it had any (R336, R346). -/
def SafDrv.quit (d : SafDrv) (now : Nat) : SafDrv :=
  if d.state = 2 ∨ d.state = 3 ∨ d.state = 4 then { d.cut d.cause now with newStop := false } else d

theorem drv_leaveNormal (x : SafChan) (n : Nat) : x.leaveNormal.drv n = (x.drv n).quit x.now :=
  smGet_map (e := ({} : SafDrv)) (g := (SafDrv.quit · x.now)) rfl x.drives n

theorem quit_torque (h : d.sound) (now : Nat) : (d.quit now).torque = false := by
  unfold SafDrv.quit
  split
  · rfl
  next hn => exact not_torque_of_state h (by tauto)

/-- A channel that enters SAFE_STATE has the cause, no torque and no discrete output. -/
theorem toSafe_shows (hp : x.powered = true) (hn : x.state ≠ 2) (hx : x.sound) (cause : Nat) : (x.toSafe cause).state = 2
    ∧ (x.toSafe cause).cause = cause ∧ (x.toSafe cause).dout = 0 ∧ ∀ n, ((x.toSafe cause).drv n).torque = false := by
  unfold SafChan.toSafe
  rw [if_pos ⟨hp, hn⟩]
  refine ⟨rfl, rfl, rfl, fun n => ?_⟩
  have hdrv : ({ x.leaveNormal with state := 2, cause := cause } : SafChan).drv n = x.leaveNormal.drv n := rfl
  rw [hdrv, drv_leaveNormal]
  exact quit_torque (hx n) x.now

theorem chan_safeState (hp : (f.chan b).powered = true) (hn : (f.chan b).state = 1) (cause : Nat) (k : Bool) :
    (f.safeState b cause).chan k = (f.chan k).toSafe cause := by
  unfold Saf.safeState
  rw [if_pos ⟨hp, hn⟩]
  cases k <;> rfl

theorem safeState_idle (h : ¬((f.chan b).powered = true ∧ (f.chan b).state = 1)) (cause : Nat) : f.safeState b cause = f := if_neg h

/-! A drive at the end of a cycle (R346 to R348). -/

/-- Too fast in FULL: torque is lost at once (R347). -/
theorem cycle_tooFast (hs : d.state = 3) (hv : speedWithin c d.vN c.vMax = false) (normal : Bool) :
    d.cycle c normal now causes permit partner = { d with causes := causes, lastPermit := permit }.cut 6 now := by
  simp [SafDrv.cycle, hs, hv]

/-- A stop cause in FULL begins a stop (R348). -/
theorem cycle_stops (hs : d.state = 3) (hv : speedWithin c d.vN c.vMax = true) (hc : causes ≠ []) (normal : Bool) :
    d.cycle c normal now causes permit partner = { d with causes := causes, lastPermit := permit }.stop (leastCause causes) now := by
  simp [SafDrv.cycle, hs, hv, hc]

/-- A stop at standstill ends (R348). -/
theorem cycle_stands (hs : d.state = 4) (hv : speedWithin c d.vN c.vStill = true) (normal : Bool) :
    (d.cycle c normal now causes permit partner).state = 1 ∧ (d.cycle c normal now causes permit partner).torque = false
      ∧ (d.cycle c normal now causes permit partner).decel = false ∧ (d.cycle c normal now causes permit partner).ending = 0 := by
  have he : d.ends c now partner = some 0 := by simp [SafDrv.ends, hv]
  simp [SafDrv.cycle, hs, he, SafDrv.endStop]

/-- A stopped drive that stands, armed, with no stop cause, and whose permit was low and is high, starts again (R346). -/
theorem cycle_starts (hs : d.state = 1) (hv : speedWithin c d.vN c.vStill = true) (harmed : d.armed = true) (hlow : d.low = true) :
    (d.cycle c true now [] true partner).state = (if d.testDone then 3 else 2) ∧ (d.cycle c true now [] true partner).torque = true := by
  simp [SafDrv.cycle, hs, hv, harmed, hlow]

theorem SafDrv.sound.of_eq {e : SafDrv} (h : d.sound) (hs : e.state = d.state) (ht : e.torque = d.torque) : e.sound := by
  unfold SafDrv.sound
  rw [hs, ht]
  exact h

/-- A drive whose new stop causes are noted. -/
theorem noted_sound (h : d.sound) (q : Prop) [Decidable q] (cause : Nat) : (if q then d else { d with cause := cause }).sound := by
  split
  · exact h
  · exact h.of_eq rfl rfl

/-- A cycle keeps a drive sound. -/
theorem cycle_sound (h : d.sound) (normal : Bool) : (d.cycle c normal now causes permit partner).sound := by
  have kept : ({ d with causes := causes, lastPermit := permit } : SafDrv).sound := h.of_eq rfl rfl
  have stopped (e : SafDrv) (cause : Nat) : (e.stop cause now).sound := fun _ => .inr (.inr rfl)
  unfold SafDrv.cycle
  extract_lets fresh e
  split
  next hs =>
    split_ifs
    · exact cut_sound _ _ _
    · exact stopped _ _
    · exact stopped _ _
    · exact fun _ => .inr (.inl rfl)
    · exact kept
  next hs =>
    split_ifs
    · exact cut_sound _ _ _
    · exact stopped _ _
    · exact stopped _ _
    · exact kept
  next r _ hs =>
    split
    · exact fun ht => absurd ht (by simp [SafDrv.endStop])
    · exact noted_sound kept _ _
  next r _ hs =>
    have hr : r.sound := noted_sound kept _ _
    split_ifs
    · exact hr.of_eq rfl rfl
    · exact hr.of_eq rfl rfl
    · exact hr.of_eq rfl rfl
    · exact fun _ => .inr (.inl rfl)
    · exact fun _ => .inl rfl
    · exact hr
  next => exact kept

end Sys2Proof.Machine
end

section
/-! SUPPORT. The work of a safety channel at the end of its cycle (R335, R339 to R350): what the switch bank, zones and discretes change,
and each drive's record after it. -/
namespace Sys2Proof.Machine

variable {α : Type} {x y z w : SafChan} {b : Bool} {n j sw : Nat} {off : List Nat} {d : SafDrv} {q : SafSet} {i : SafImage}

/-! The switch bank (R336, R339). -/

theorem seal_shape (x : SafChan) (sw : Nat) : x.seal sw
    = { x with sw := sw, sealOk := (x.seal sw).sealOk, state := (x.seal sw).state, sw0 := (x.seal sw).sw0 } := by
  unfold SafChan.seal
  dsimp only
  split
  · split
    · split <;> rfl
    · rfl
  · rfl

/-- Outside START the switch bank moves neither the state nor the reading that NORMAL began with. -/
theorem seal_left (h : x.state ≠ 0) (sw : Nat) : (x.seal sw).state = x.state ∧ (x.seal sw).sw0 = x.sw0 := by
  unfold SafChan.seal
  dsimp only
  rw [if_neg (by simp [h])]
  exact ⟨rfl, rfl⟩

/-- START to NORMAL (R336, R339). -/
theorem seal_starts (h0 : x.state = 0) (hok : x.selfOk = true) (hset : x.set = some q) (hm : sealMatches q sw = true)
    (himg : x.img = some i) (hi : i.state ≠ 2) (hq : i.set = some (q.number, q.crc)) :
    (x.seal sw).state = 1 ∧ (x.seal sw).sw0 = sw := by
  simp [SafChan.seal, h0, hok, hset, hm, himg, hi, hq]

/-! Zones and discretes (R340, R341, R350). -/

/-- From `y` to `z` at most what zones and discretes hold may differ. -/
def SafChan.Senses (y z : SafChan) : Prop :=
  z = { y with zones := z.zones, unverified := z.unverified, hits := z.hits, tapBad := z.tapBad, sense := z.sense, discs := z.discs }

theorem SafChan.Senses.refl (y : SafChan) : y.Senses y := rfl

theorem SafChan.Senses.trans (h : x.Senses y) (k : y.Senses z) : x.Senses z := by
  unfold SafChan.Senses at *
  rw [k, h]

theorem SafChan.Senses.foldl {f : SafChan → α → SafChan} (l : List α) (h : x.Senses y) (hf : ∀ u a, SafChan.Senses u (f u a)) :
    x.Senses (l.foldl f y) := by
  induction l generalizing y with
  | nil => exact h
  | cons a l ih => exact ih (h.trans (hf y a))

theorem evalZones_senses (x : SafChan) (b : Bool) (off : List Nat) : x.Senses (x.evalZones b off) := by
  have zones : x.Senses (x.zoneSets.zipIdx.foldl (fun y p => y.evalZone b off p.2 p.1) x) := .foldl _ (.refl x) fun _ _ => rfl
  unfold SafChan.evalZones
  exact zones.trans rfl

theorem evalDiscs_senses (x : SafChan) (b : Bool) : x.Senses (x.evalDiscs b) := by
  refine .foldl _ (.refl x) fun u m => ?_
  unfold SafChan.evalDisc
  extract_lets p d anti zero agree
  split_ifs <;> rfl

/-- A channel once its switch bank, zones and discretes have been read: the drives come next. -/
def SafChan.sensed (x : SafChan) (b : Bool) (sw : Nat) (off : List Nat) : SafChan :=
  ((x.seal sw).evalZones b off).evalDiscs b

theorem sensed_senses (x : SafChan) (b : Bool) (sw : Nat) (off : List Nat) : (x.seal sw).Senses (x.sensed b sw off) :=
  (evalZones_senses _ _ _).trans (evalDiscs_senses _ _)

/-! Drives (R345 to R349). -/

/-- A drive's record after its turn at the end of a cycle. -/
def SafChan.drive (x : SafChan) (n : Nat) : SafDrv :=
  let c := x.driveSet n
  let d := (x.drv n).sample c
  if c.supervised then d.cycle c (decide (x.state = 1)) x.now (x.stopCauses n) (x.permit n) (x.partnerEnd n d) else d

/-- A drive's turn regards of the drives its own record alone. -/
theorem drive_congr {l : List (Nat × SafDrv)} (h : smGet {} l n = x.drv n) : ({ x with drives := l } : SafChan).drive n = x.drive n := by
  unfold SafChan.drive SafChan.stopCauses SafChan.drv
  rw [show smGet {} l n = smGet {} x.drives n from h]
  rfl

/-- The turn of one drive. -/
def SafChan.turn (x : SafChan) (n : Nat) : SafChan := x.setDrv n (x.drive n)

theorem evalDrives_eq (x : SafChan) : x.evalDrives = (List.range 8).foldl SafChan.turn x := by
  unfold SafChan.evalDrives
  congr 1
  funext y n
  unfold SafChan.turn SafChan.drive
  dsimp only
  split <;> rfl

theorem foldl_turn (l : List Nat) (x : SafChan) (hl : l.Nodup) :
    l.foldl SafChan.turn x = { x with drives := (l.foldl SafChan.turn x).drives }
      ∧ ∀ n, (l.foldl SafChan.turn x).drv n = if n ∈ l then x.drive n else x.drv n := by
  induction l generalizing x with
  | nil => exact ⟨rfl, fun n => rfl⟩
  | cons m l ih =>
    obtain ⟨hnot, hl⟩ := List.nodup_cons.mp hl
    obtain ⟨hshape, hdrv⟩ := ih (x.turn m) hl
    refine ⟨hshape, fun n => ?_⟩
    rw [List.foldl_cons, hdrv n]
    by_cases hn : n = m
    · subst hn
      simp [hnot, SafChan.turn]
    · have hother : (x.turn m).drv n = x.drv n := drv_setDrv_ne x _ hn
      have hturn : (x.turn m).drive n = x.drive n := drive_congr hother
      simp [hn, hother, hturn]

/-- The drives of a channel after their turns; the rest of the channel stays. -/
theorem evalDrives_shows (x : SafChan) : x.evalDrives = { x with drives := x.evalDrives.drives }
    ∧ ∀ n, x.evalDrives.drv n = if n < 8 then x.drive n else x.drv n := by
  rw [evalDrives_eq]
  simpa using foldl_turn (List.range 8) x List.nodup_range

/-- A half of the start-up test that is discarded moves the phase of its drive alone (R349). -/
theorem dropTests_shows (x : SafChan) : x.dropTests = { x with drives := x.dropTests.drives, testDisc := x.dropTests.testDisc }
    ∧ ∀ n, ∃ p, x.dropTests.drv n = { x.drv n with phase := p } := by
  unfold SafChan.dropTests
  generalize List.range 8 = l
  induction l generalizing x with
  | nil => exact ⟨rfl, fun n => ⟨_, rfl⟩⟩
  | cons m l ih =>
    rw [List.foldl_cons]
    split
    · obtain ⟨hshape, hdrv⟩ := ih { x.setDrv m { x.drv m with phase := 0 } with testDisc := satN 8 (x.testDisc + 1) }
      refine ⟨hshape, fun n => ?_⟩
      obtain ⟨p, hp⟩ := hdrv n
      rw [hp]
      by_cases hn : n = m
      · subst hn
        exact ⟨p, congrArg (fun d : SafDrv => { d with phase := p }) (drv_setDrv_same x n _)⟩
      · exact ⟨p, congrArg (fun d : SafDrv => { d with phase := p }) (drv_setDrv_ne x _ hn)⟩
    · exact ih x

/-! The whole of it. -/

/-- The channel as its cycle's end finds it: the cycle counted, and whether its partner's image came. -/
def SafChan.next (x : SafChan) : SafChan := { x with now := x.now + 1, missing := if x.got then 0 else x.missing + 1, got := false }

/-- From `y` to `z` at most what zones, discretes, drives, tests and outputs hold may differ. -/
def SafChan.Works (y z : SafChan) : Prop :=
  z = { y with
    zones := z.zones, unverified := z.unverified, hits := z.hits, tapBad := z.tapBad, sense := z.sense, discs := z.discs
    drives := z.drives, testDisc := z.testDisc, dout := z.dout }

theorem SafChan.Works.trans (h : x.Works y) (k : y.Works z) : x.Works z := by
  unfold SafChan.Works at *
  rw [k, h]

theorem SafChan.Senses.works (h : x.Senses y) : x.Works y := by
  unfold SafChan.Senses SafChan.Works at *
  rw [h]

theorem evalDrives_works (x : SafChan) : x.Works x.evalDrives := by
  unfold SafChan.Works
  rw [(evalDrives_shows x).1]

theorem dropTests_works (x : SafChan) : x.Works x.dropTests := by
  unfold SafChan.Works
  rw [(dropTests_shows x).1]

/-- A channel whose discrete outputs follow its drives and zones (R350). -/
def SafChan.withOutputs (y : SafChan) : SafChan := { y with dout := y.outputs }

theorem work_eq (x : SafChan) (b : Bool) (sw : Nat) (off : List Nat) :
    x.work b sw off = (x.next.sensed b sw off).evalDrives.dropTests.withOutputs := by
  unfold SafChan.work
  extract_lets x1 y
  have hy : (x.next.sensed b sw off).evalDrives.dropTests = y := rfl
  rw [hy]
  clear_value y
  rfl

theorem withOutputs_works (y : SafChan) : y.Works y.withOutputs := rfl

theorem drv_withOutputs (y : SafChan) (n : Nat) : y.withOutputs.drv n = y.drv n := rfl

/-- The work of a cycle leaves a channel beside its drives, zones, discretes and outputs as the switch bank left it. -/
theorem work_works (x : SafChan) (b : Bool) (sw : Nat) (off : List Nat) : (x.next.seal sw).Works (x.work b sw off) :=
  have tested := ((sensed_senses x.next b sw off).works.trans (evalDrives_works _)).trans (dropTests_works _)
  work_eq x b sw off ▸ tested.trans (withOutputs_works _)

theorem SafChan.Senses.drives (h : y.Senses z) : z.drives = y.drives := by
  unfold SafChan.Senses at h
  rw [h]

theorem seal_drives (x : SafChan) (sw : Nat) : (x.seal sw).drives = x.drives := by rw [seal_shape]

theorem drv_sensed (x : SafChan) (b : Bool) (sw : Nat) (off : List Nat) (n : Nat) : (x.sensed b sw off).drv n = x.drv n := by
  unfold SafChan.drv
  rw [(sensed_senses x b sw off).drives, seal_drives]

theorem drv_next (x : SafChan) (n : Nat) : x.next.drv n = x.drv n := rfl

/-- A drive's record after the work of a cycle: its turn, but for the phase of its start-up test. -/
theorem drv_work (x : SafChan) (b : Bool) (sw : Nat) (off : List Nat) (n : Nat) : ∃ p, (x.work b sw off).drv n
    = { (if n < 8 then (x.next.sensed b sw off).drive n else x.drv n) with phase := p } := by
  obtain ⟨p, hp⟩ := (dropTests_shows (x.next.sensed b sw off).evalDrives).2 n
  rw [(evalDrives_shows _).2 n, drv_sensed, drv_next] at hp
  refine ⟨p, ?_⟩
  rw [work_eq, drv_withOutputs, hp]

theorem phase_sound (h : d.sound) (p : Nat) : ({ d with phase := p } : SafDrv).sound := h.of_eq rfl rfl

theorem sample_sound (h : d.sound) (c : SafDriveSet) : (d.sample c).sound := h.of_eq rfl rfl

/-- The work of a cycle keeps every drive sound. -/
theorem work_sound (h : x.sound) (b : Bool) (sw : Nat) (off : List Nat) : (x.work b sw off).sound := by
  intro n
  have turned : ((x.next.sensed b sw off).drive n).sound := by
    unfold SafChan.drive
    rw [drv_sensed]
    dsimp only
    have hsample : ((x.next.drv n).sample ((x.next.sensed b sw off).driveSet n)).sound := sample_sound (h n) _
    split
    · exact cycle_sound hsample _
    · exact hsample
  obtain ⟨p, hp⟩ := drv_work x b sw off n
  rw [hp]
  split
  · exact phase_sound turned p
  · exact phase_sound (h n) p

end Sys2Proof.Machine
end

section
/-! SUPPORT. The end of a safety channel's cycle after its work (R335, R336, R348): the comparison, a torque lost at once in both
channels, what leads to SAFE_STATE, and the image handed over. -/
namespace Sys2Proof.Machine

variable {f : Saf} {v x y z : SafChan} {b k : Bool} {n sw c : Nat} {off : List Nat} {q : SafSet} {i : SafImage}

/-! The stages. -/

/-- A channel is the one of the cycle or its partner. -/
theorem chan_cases (b k : Bool) : k = b ∨ k = !b := by cases k <;> cases b <;> simp

/-- Does the partner's latest image agree with what the channel has worked out? -/
def SafChan.agreeing (v : SafChan) : Bool :=
  match v.img with
  | some i => v.agrees v.image i
  | none => false

/-- A channel after its comparison. -/
def SafChan.compared (v : SafChan) : SafChan := { v.compare v.agreeing with own := some v.image }

/-- The cause of SAFE_STATE that a channel's cycle finds; 0 stands for none. -/
def SafChan.found (v : SafChan) : Nat := if v.state = 1 then v.finds v.agreeing else 0

/-- A channel's cycle leads to SAFE_STATE where it found a cause. -/
def Saf.judge (f : Saf) (b : Bool) (c : Nat) : Saf := if c ≠ 0 then f.safeState b c else f

/-- A channel hands its partner its image. -/
def Saf.hand (f : Saf) (b : Bool) : Saf := f.on (!b) fun y => if y.powered then y.receive (f.chan b).image else y

theorem judged_eq (f : Saf) (b : Bool) (v : SafChan) :
    (if v.state = 1 ∧ v.finds v.agreeing ≠ 0 then f.safeState b (v.finds v.agreeing) else f) = f.judge b v.found := by
  unfold Saf.judge SafChan.found
  by_cases h : v.state = 1 <;> simp [h]

theorem cycleEnd_eq (hp : (f.chan b).powered = true) (sw : Nat) (off : List Nat) : f.cycleEnd b sw off
    = (((f.setChan b ((f.chan b).work b sw off).compared).cutBoth b).judge b ((f.chan b).work b sw off).found).hand b := by
  unfold Saf.cycleEnd
  rw [if_pos hp]
  generalize (f.chan b).work b sw off = v
  rw [← judged_eq]
  rfl

/-! The comparison (R335). -/

theorem compared_shape (v : SafChan) : v.compared = { v with own := some v.image, run := v.compared.run, xcmp := v.compared.xcmp } := by
  unfold SafChan.compared SafChan.compare
  split_ifs <;> rfl

theorem drv_compared (v : SafChan) (n : Nat) : v.compared.drv n = v.drv n := by
  rw [compared_shape]
  rfl

/-! Torque lost at once in one channel is lost in the other (R348). -/

/-- Has a drive lost its torque at once in this cycle? -/
def SafDrv.lost (d : SafDrv) : Prop := d.newStop = true ∧ d.state = 1 ∧ d.ending = 3

/-- What the partner's record of a drive becomes. -/
def SafDrv.follow (d e : SafDrv) (now : Nat) : SafDrv :=
  if d.newStop ∧ d.state = 1 ∧ d.ending = 3 ∧ (e.state = 2 ∨ e.state = 3 ∨ e.state = 4) then e.cut d.cause now else e

theorem follow_sound {d e : SafDrv} (h : e.sound) (now : Nat) : (d.follow e now).sound := by
  unfold SafDrv.follow
  split
  · exact cut_sound _ _ _
  · exact h

theorem follow_torque {d e : SafDrv} (hd : d.lost) (h : e.sound) (now : Nat) : (d.follow e now).torque = false := by
  obtain ⟨hnew, hs, he⟩ := hd
  unfold SafDrv.follow
  split
  · rfl
  next hn => exact not_torque_of_state h (by simp [hnew, hs, he] at hn; tauto)

/-- The turn of one drive of `y` in `Saf.cutBoth`, its partner being `x`. -/
def SafChan.cutBy (x y : SafChan) (n : Nat) : SafChan :=
  if (x.drv n).newStop ∧ (x.drv n).state = 1 ∧ (x.drv n).ending = 3 ∧ ((y.drv n).state = 2 ∨ (y.drv n).state = 3 ∨ (y.drv n).state = 4)
  then y.setDrv n ((y.drv n).cut (x.drv n).cause y.now) else y

theorem cutBy_shape (x y : SafChan) (n : Nat) : x.cutBy y n = { y with drives := (x.cutBy y n).drives } := by
  unfold SafChan.cutBy
  split <;> rfl

theorem drv_cutBy (x y : SafChan) (n m : Nat) :
    (x.cutBy y n).drv m = if m = n then (x.drv n).follow (y.drv n) y.now else y.drv m := by
  unfold SafChan.cutBy SafDrv.follow
  by_cases hm : m = n
  · subst hm
    rw [if_pos rfl]
    split_ifs
    · exact drv_setDrv_same y m _
    · rfl
  · rw [if_neg hm]
    split_ifs
    · exact drv_setDrv_ne y _ hm
    · rfl

/-- The partner of `x` after the turns of the listed drives. -/
theorem foldl_cutBy (x y : SafChan) (l : List Nat) (hl : l.Nodup) :
    l.foldl x.cutBy y = { y with drives := (l.foldl x.cutBy y).drives }
      ∧ ∀ m, (l.foldl x.cutBy y).drv m = if m ∈ l then (x.drv m).follow (y.drv m) y.now else y.drv m := by
  induction l generalizing y with
  | nil => exact ⟨rfl, fun m => rfl⟩
  | cons n l ih =>
    obtain ⟨hnot, hl⟩ := List.nodup_cons.mp hl
    obtain ⟨hshape, hdrv⟩ := ih (x.cutBy y n) hl
    have hnow : (x.cutBy y n).now = y.now := by rw [cutBy_shape]
    rw [List.foldl_cons]
    refine ⟨?_, fun m => ?_⟩
    · rw [hshape, cutBy_shape x y n]
    · rw [hdrv m, drv_cutBy, hnow]
      by_cases hm : m = n
      · subst hm
        simp [hnot]
      · simp [hm]

theorem cutBoth_eq (f : Saf) (b : Bool) : f.cutBoth b = f.setChan (!b) ((List.range 8).foldl (f.chan b).cutBy (f.chan (!b))) := by
  have turn (g : Saf) (n : Nat) : (if ((g.chan b).drv n).newStop ∧ ((g.chan b).drv n).state = 1 ∧ ((g.chan b).drv n).ending = 3
        ∧ (((g.chan (!b)).drv n).state = 2 ∨ ((g.chan (!b)).drv n).state = 3 ∨ ((g.chan (!b)).drv n).state = 4) then
      g.on (!b) fun y => y.setDrv n (((g.chan (!b)).drv n).cut ((g.chan b).drv n).cause y.now) else g)
      = g.setChan (!b) ((g.chan b).cutBy (g.chan (!b)) n) := by
    unfold SafChan.cutBy
    split
    · rfl
    · exact (setChan_chan g (!b)).symm
  unfold Saf.cutBoth
  dsimp only
  simp only [turn]
  generalize List.range 8 = l
  induction l generalizing f with
  | nil => exact (setChan_chan f (!b)).symm
  | cons n l ih =>
    rw [List.foldl_cons, ih, List.foldl_cons]
    cases b <;> rfl

theorem chan_cutBoth_same (f : Saf) (b : Bool) : (f.cutBoth b).chan b = f.chan b := by
  rw [cutBoth_eq]
  cases b <;> rfl

/-- The partner's drives follow; the rest of it stays. -/
theorem chan_cutBoth_other (f : Saf) (b : Bool) :
    (f.cutBoth b).chan (!b) = { f.chan (!b) with drives := ((f.cutBoth b).chan (!b)).drives }
      ∧ ∀ m, ((f.cutBoth b).chan (!b)).drv m
        = if m < 8 then ((f.chan b).drv m).follow ((f.chan (!b)).drv m) (f.chan (!b)).now else (f.chan (!b)).drv m := by
  rw [cutBoth_eq, chan_setChan_same]
  simpa using foldl_cutBy (f.chan b) (f.chan (!b)) (List.range 8) List.nodup_range

/-! SAFE_STATE or not (R335, R336). -/

theorem judge_zero (f : Saf) (b : Bool) : f.judge b 0 = f := rfl

/-- What a change of a channel's operating state leaves. -/
theorem toSafe_keeps (x : SafChan) (c : Nat) :
    (x.toSafe c).now = x.now ∧ (x.toSafe c).sw = x.sw ∧ (x.toSafe c).got = x.got ∧ (x.toSafe c).powered = x.powered := by
  unfold SafChan.toSafe
  split <;> exact ⟨rfl, rfl, rfl, rfl⟩

theorem judge_keeps (f : Saf) (b : Bool) (c : Nat) (k : Bool) : ((f.judge b c).chan k).now = (f.chan k).now
    ∧ ((f.judge b c).chan k).sw = (f.chan k).sw ∧ ((f.judge b c).chan k).got = (f.chan k).got
    ∧ ((f.judge b c).chan k).powered = (f.chan k).powered := by
  unfold Saf.judge Saf.safeState
  split_ifs
  · cases k
    · exact toSafe_keeps f.a c
    · exact toSafe_keeps f.b c
  all_goals exact ⟨rfl, rfl, rfl, rfl⟩

/-- A channel as SAFE_STATE finds it: the cause, no torque, no discrete output (R336). -/
def SafChan.safe (x : SafChan) (c : Nat) : Prop := x.state = 2 ∧ x.cause = c ∧ x.dout = 0 ∧ ∀ n, (x.drv n).torque = false

/-- A cause found by a channel in NORMAL leads to SAFE_STATE a channel with power that is not in it already. -/
theorem safeState_safe (hp : (f.chan b).powered = true) (hs : (f.chan b).state = 1) (hk : (f.chan k).powered = true)
    (hn : (f.chan k).state ≠ 2) (h : (f.chan k).sound) (c : Nat) : ((f.safeState b c).chan k).safe c := by
  rw [chan_safeState hp hs]
  exact toSafe_shows hk hn h c

/-! The image handed over, and the marks of new stops taken back. -/

/-- A channel of the same operating state and outputs, but for the drives' marks. -/
def SafChan.Same (x y : SafChan) : Prop :=
  y.state = x.state ∧ y.cause = x.cause ∧ y.dout = x.dout ∧ ∀ n, ∃ m, y.drv n = { x.drv n with newStop := m }

theorem SafChan.Same.torque (h : x.Same y) (n : Nat) : (y.drv n).torque = (x.drv n).torque := by
  obtain ⟨-, -, -, hdrv⟩ := h
  obtain ⟨m, hm⟩ := hdrv n
  rw [hm]

theorem SafChan.Same.safe (h : x.Same y) (hx : x.safe c) : y.safe c := by
  obtain ⟨hs, hc, hd, ht⟩ := hx
  obtain ⟨ks, kc, kd, -⟩ := id h
  exact ⟨ks.trans hs, kc.trans hc, kd.trans hd, fun n => (h.torque n).trans (ht n)⟩

/-- A drive whose new stop has been recorded. -/
def SafDrv.seen (d : SafDrv) : SafDrv := { d with newStop := false }

theorem drv_recorded (x : SafChan) (n : Nat) : x.recorded.drv n = (x.drv n).seen :=
  smGet_map (e := ({} : SafDrv)) (g := SafDrv.seen) rfl x.drives n

theorem recorded_same (x : SafChan) : x.Same x.recorded := ⟨rfl, rfl, rfl, fun n => ⟨false, drv_recorded x n⟩⟩

theorem chan_hand_same (f : Saf) (b : Bool) : (f.hand b).chan b = f.chan b := by
  cases b <;> rfl

theorem chan_hand_other (f : Saf) (b : Bool) : (f.hand b).chan (!b)
    = if (f.chan (!b)).powered then (f.chan (!b)).receive (f.chan b).image else f.chan (!b) := by
  cases b <;> rfl

theorem receive_same (x : SafChan) (i : SafImage) : x.Same (x.receive i) := ⟨rfl, rfl, rfl, fun _ => ⟨_, rfl⟩⟩

/-- The channels after a cycle of `b`, its records taken. -/
def Saf.close (f : Saf) (b : Bool) : Saf := (f.hand b).on b SafChan.recorded

theorem chan_close_same (f : Saf) (b : Bool) : (f.close b).chan b = (f.chan b).recorded := by
  unfold Saf.close Saf.on
  rw [chan_setChan_same, chan_hand_same]

theorem chan_close_other (f : Saf) (b : Bool) : (f.close b).chan (!b)
    = if (f.chan (!b)).powered then (f.chan (!b)).receive (f.chan b).image else f.chan (!b) := by
  unfold Saf.close Saf.on
  rw [chan_setChan_other, chan_hand_other]

theorem close_same (f : Saf) (b k : Bool) : (f.chan k).Same ((f.close b).chan k) := by
  obtain rfl | rfl := chan_cases b k
  · rw [chan_close_same]
    exact recorded_same _
  · rw [chan_close_other]
    split
    · exact receive_same _ _
    · exact ⟨rfl, rfl, rfl, fun _ => ⟨_, rfl⟩⟩

end Sys2Proof.Machine
end

section
/-! SUPPORT. The two safety channels after the end of a cycle of one of them (R335, R336, R339, R346 to R348): what O55 states of them. -/
namespace Sys2Proof.Machine

variable {f : Saf} {v x y z : SafChan} {b k : Bool} {n sw c : Nat} {off : List Nat} {q : SafSet} {i : SafImage}

/-- The work of channel `b` in its cycle. -/
def Saf.worked (f : Saf) (b : Bool) (sw : Nat) (off : List Nat) : SafChan := (f.chan b).work b sw off

/-- The channels once a torque lost by `b` has been lost by its partner too. -/
def Saf.cutAll (f : Saf) (b : Bool) (sw : Nat) (off : List Nat) : Saf := (f.setChan b (f.worked b sw off).compared).cutBoth b

/-- The channels after the cycle's end and its records. -/
def Saf.cycled (f : Saf) (b : Bool) (sw : Nat) (off : List Nat) : Saf := (f.cycleEnd b sw off).on b SafChan.recorded

theorem cycled_eq (hp : (f.chan b).powered = true) (sw : Nat) (off : List Nat) :
    f.cycled b sw off = ((f.cutAll b sw off).judge b (f.worked b sw off).found).close b := by
  unfold Saf.cycled Saf.close Saf.cutAll
  rw [cycleEnd_eq hp]
  rfl

/-! What the work of a cycle leaves in place. -/

theorem SafChan.Works.keeps (h : y.Works z) : z.state = y.state ∧ z.sw0 = y.sw0 ∧ z.sw = y.sw ∧ z.now = y.now ∧ z.got = y.got
    ∧ z.powered = y.powered ∧ z.missing = y.missing ∧ z.run = y.run := by
  unfold SafChan.Works at h
  rw [h]
  exact ⟨rfl, rfl, rfl, rfl, rfl, rfl, rfl, rfl⟩

theorem seal_keeps (x : SafChan) (sw : Nat) : (x.seal sw).sw = sw ∧ (x.seal sw).now = x.now ∧ (x.seal sw).got = x.got
    ∧ (x.seal sw).powered = x.powered ∧ (x.seal sw).missing = x.missing ∧ (x.seal sw).run = x.run := by
  rw [seal_shape]
  exact ⟨rfl, rfl, rfl, rfl, rfl, rfl⟩

/-- Beside the switch bank's answer, the work of a cycle counts the cycle and whether the partner's image came. -/
theorem worked_keeps (f : Saf) (b : Bool) (sw : Nat) (off : List Nat) :
    (f.worked b sw off).state = ((f.chan b).next.seal sw).state ∧ (f.worked b sw off).sw0 = ((f.chan b).next.seal sw).sw0
      ∧ (f.worked b sw off).sw = sw ∧ (f.worked b sw off).now = (f.chan b).now + 1 ∧ (f.worked b sw off).got = false
      ∧ (f.worked b sw off).powered = (f.chan b).powered
      ∧ (f.worked b sw off).missing = (if (f.chan b).got then 0 else (f.chan b).missing + 1)
      ∧ (f.worked b sw off).run = (f.chan b).run := by
  obtain ⟨hs, hs0, hsw, hnow, hgot, hpow, hmissing, hrun⟩ := (work_works (f.chan b) b sw off).keeps
  obtain ⟨ksw, know, kgot, kpow, kmissing, krun⟩ := seal_keeps (f.chan b).next sw
  exact ⟨hs, hs0, hsw.trans ksw, hnow.trans know, hgot.trans kgot, hpow.trans kpow, hmissing.trans kmissing, hrun.trans krun⟩

theorem chan_cutAll (f : Saf) (b : Bool) (sw : Nat) (off : List Nat) : (f.cutAll b sw off).chan b = (f.worked b sw off).compared := by
  unfold Saf.cutAll
  rw [chan_cutBoth_same, chan_setChan_same]

/-- The partner after the cut: its drives follow, the rest stays. -/
theorem chan_cutAll_other (f : Saf) (b : Bool) (sw : Nat) (off : List Nat) :
    (f.cutAll b sw off).chan (!b) = { f.chan (!b) with drives := ((f.cutAll b sw off).chan (!b)).drives }
      ∧ ∀ m, ((f.cutAll b sw off).chan (!b)).drv m
        = if m < 8 then ((f.worked b sw off).drv m).follow ((f.chan (!b)).drv m) (f.chan (!b)).now else (f.chan (!b)).drv m := by
  have h := chan_cutBoth_other (f.setChan b (f.worked b sw off).compared) b
  simp only [chan_setChan_same, chan_setChan_other, drv_compared] at h
  exact h

theorem cutAll_sound (hf : f.torqueOk) (b : Bool) (sw : Nat) (off : List Nat) (k : Bool) : ((f.cutAll b sw off).chan k).sound := by
  have hsound (j : Bool) : (f.chan j).sound := sound_of_torqueOk (chan_torqueOk hf j)
  obtain rfl | rfl := chan_cases b k
  · rw [chan_cutAll]
    intro n
    rw [drv_compared]
    exact work_sound (hsound k) k sw off n
  · intro n
    rw [(chan_cutAll_other f b sw off).2 n]
    split
    · exact follow_sound (hsound _ n) _
    · exact hsound _ n

theorem compared_keeps (v : SafChan) : v.compared.state = v.state ∧ v.compared.now = v.now ∧ v.compared.sw = v.sw
    ∧ v.compared.got = v.got ∧ v.compared.powered = v.powered := by
  rw [compared_shape]
  exact ⟨rfl, rfl, rfl, rfl, rfl⟩

/-! The channel of the cycle. -/

/-- The cycle is counted, the switches are read, and the partner's next image is awaited. -/
theorem cycled_chan (hp : (f.chan b).powered = true) (sw : Nat) (off : List Nat) : ((f.cycled b sw off).chan b).now = (f.chan b).now + 1
    ∧ ((f.cycled b sw off).chan b).sw = sw ∧ ((f.cycled b sw off).chan b).got = false := by
  obtain ⟨-, -, hsw, hnow, hgot, -⟩ := worked_keeps f b sw off
  obtain ⟨jnow, jsw, jgot, -⟩ := judge_keeps (f.cutAll b sw off) b (f.worked b sw off).found b
  obtain ⟨-, cnow, csw, cgot, -⟩ := compared_keeps (f.worked b sw off)
  rw [chan_cutAll] at jnow jsw jgot
  rw [cycled_eq hp, chan_close_same]
  exact ⟨(jnow.trans cnow).trans hnow, (jsw.trans csw).trans hsw, (jgot.trans cgot).trans hgot⟩

/-- The partner has the channel's image. -/
theorem cycled_image (hp : (f.chan b).powered = true) (hy : (f.chan (!b)).powered = true) (sw : Nat) (off : List Nat) :
    ((f.cycled b sw off).chan (!b)).got = true ∧ ∃ i, ((f.cycled b sw off).chan (!b)).img = some i
      ∧ i.state = ((f.cycled b sw off).chan b).state ∧ i.sw = sw := by
  obtain ⟨-, hsw, -⟩ := cycled_chan hp sw off
  rw [cycled_eq hp, chan_close_same] at *
  obtain ⟨-, -, -, jpow⟩ := judge_keeps (f.cutAll b sw off) b (f.worked b sw off).found (!b)
  rw [(chan_cutAll_other f b sw off).1] at jpow
  rw [chan_close_other, if_pos (jpow.trans hy)]
  exact ⟨rfl, _, rfl, rfl, hsw⟩

/-! SAFE_STATE at a cycle's end (R336). -/

/-- What a cycle finds in NORMAL takes every channel with power to SAFE_STATE. -/
theorem cycled_safe (hf : f.torqueOk) (hp : (f.chan b).powered = true) (hs : (f.chan b).state = 1)
    (hc : (f.worked b sw off).finds (f.worked b sw off).agreeing = c) (h0 : c ≠ 0) (hk : (f.chan k).powered = true)
    (hn : (f.chan k).state ≠ 2) : ((f.cycled b sw off).chan k).safe c := by
  obtain ⟨wstate, -, -, -, -, wpow, -⟩ := worked_keeps f b sw off
  have hstate : (f.worked b sw off).state = 1 := wstate.trans ((seal_left (x := (f.chan b).next) (by simp [SafChan.next, hs]) sw).1.trans hs)
  obtain ⟨cstate, -, -, -, cpow⟩ := compared_keeps (f.worked b sw off)
  have hfound : (f.worked b sw off).found = c := by rw [SafChan.found, if_pos hstate, hc]
  have bpow : ((f.cutAll b sw off).chan b).powered = true := by rw [chan_cutAll, cpow, wpow, hp]
  have bstate : ((f.cutAll b sw off).chan b).state = 1 := by rw [chan_cutAll, cstate, hstate]
  have other := (chan_cutAll_other f b sw off).1
  rw [cycled_eq hp, hfound, Saf.judge, if_pos h0]
  refine (close_same _ b k).safe (safeState_safe bpow bstate ?_ ?_ (cutAll_sound hf b sw off k) c)
  · obtain rfl | rfl := chan_cases b k
    · exact bpow
    · rw [other]
      exact hk
  · obtain rfl | rfl := chan_cases b k
    · rw [bstate]
      decide
    · rw [other]
      exact hn

/-- A switch bank that has changed leads to SAFE_STATE with cause 3. -/
theorem finds_switches {agree : Bool} (h : v.sw ≠ v.sw0) : v.finds agree = 3 := if_pos h

/-- A partner silent for the second cycle leads to SAFE_STATE with cause 4. -/
theorem finds_silent {agree : Bool} (h : v.sw = v.sw0) (hm : 2 ≤ v.missing) : v.finds agree = 4 := by
  rw [SafChan.finds, if_neg (not_not.mpr h), if_pos hm]

/-- Nothing leads to SAFE_STATE. -/
theorem finds_nothing {agree : Bool} (h : v.sw = v.sw0) (hm : v.missing < 2) (hr : v.run < 2) : v.finds agree = 0 := by
  rw [SafChan.finds, if_neg (not_not.mpr h), if_neg (by omega), if_neg (by omega)]

/-! A cycle that finds nothing. -/

theorem found_nothing (h : v.finds v.agreeing = 0) : v.found = 0 := by
  simp [SafChan.found, h]

/-- The channels after a cycle that finds no cause of SAFE_STATE: the channel as it was compared, its stops recorded. -/
theorem cycled_idle (hp : (f.chan b).powered = true) (hfound : (f.worked b sw off).found = 0) :
    (f.cycled b sw off).chan b = (f.worked b sw off).compared.recorded
      ∧ ((f.cutAll b sw off).chan (!b)).Same ((f.cycled b sw off).chan (!b)) := by
  rw [cycled_eq hp, hfound, judge_zero, chan_close_same, chan_cutAll]
  exact ⟨rfl, close_same _ b (!b)⟩

/-- In NORMAL nothing is found while the switches stay, the partner answers and its images agree often enough. -/
theorem found_normal (hs : (f.chan b).state = 1) (hsw : sw = (f.chan b).sw0) (hgot : (f.chan b).got = true) (hrun : (f.chan b).run < 2) :
    (f.worked b sw off).found = 0 := by
  obtain ⟨-, wsw0, wsw, -, -, -, wmissing, wrun⟩ := worked_keeps f b sw off
  have hsw0 := (seal_left (x := (f.chan b).next) (by simp [SafChan.next, hs]) sw).2
  rw [if_pos hgot] at wmissing
  exact found_nothing (finds_nothing (wsw.trans (hsw.trans (wsw0.trans hsw0).symm)) (by omega) (by omega))

/-- START to NORMAL (R336, R339). -/
theorem cycled_starts (hp : (f.chan b).powered = true) (h0 : (f.chan b).state = 0) (hok : (f.chan b).selfOk = true)
    (hset : (f.chan b).set = some q) (hm : sealMatches q sw = true) (hgot : (f.chan b).got = true) (hrun : (f.chan b).run < 2)
    (himg : (f.chan b).img = some i) (hi : i.state ≠ 2) (hq : i.set = some (q.number, q.crc)) :
    ((f.cycled b sw off).chan b).state = 1 := by
  obtain ⟨wstate, wsw0, wsw, -, -, -, wmissing, wrun⟩ := worked_keeps f b sw off
  obtain ⟨hstate, hsw0⟩ := seal_starts (x := (f.chan b).next) h0 hok hset hm himg hi hq
  rw [if_pos hgot] at wmissing
  obtain ⟨hchan, -⟩ := cycled_idle hp (found_nothing (finds_nothing (wsw.trans (wsw0.trans hsw0).symm) (by omega) (by omega)))
  obtain ⟨cstate, -⟩ := compared_keeps (f.worked b sw off)
  rw [hchan]
  exact (recorded_same _).1.trans (cstate.trans (wstate.trans hstate))

/-! The drives of a cycle in NORMAL that finds nothing (R346 to R348). -/

theorem SafChan.Senses.keeps (h : y.Senses z) : z.state = y.state ∧ z.set = y.set := by
  unfold SafChan.Senses at h
  rw [h]
  exact ⟨rfl, rfl⟩

theorem seal_set (x : SafChan) (sw : Nat) : (x.seal sw).set = x.set := by
  rw [seal_shape]

theorem driveSet_of_set (h : y.set = x.set) (n : Nat) : y.driveSet n = x.driveSet n := by
  unfold SafChan.driveSet
  rw [h]

theorem driveSet_sensed (x : SafChan) (b : Bool) (sw : Nat) (off : List Nat) (n : Nat) :
    (x.next.sensed b sw off).driveSet n = x.driveSet n :=
  driveSet_of_set ((sensed_senses x.next b sw off).keeps.2.trans (seal_set x.next sw)) n

/-- The record of drive `n` as its cycle finds it. -/
def SafChan.sampled (x : SafChan) (n : Nat) : SafDrv := (x.drv n).sample (x.driveSet n)

/-- What a cycle in NORMAL makes of the record of a supervised drive; `w` is the channel once zones and discretes are read. -/
def SafChan.turned (x w : SafChan) (n : Nat) : SafDrv :=
  (x.sampled n).cycle (x.driveSet n) true w.now (w.stopCauses n) (w.permit n) (w.partnerEnd n (x.sampled n))

theorem drive_normal {w : SafChan} (hdrv : w.drv n = x.drv n) (hset : w.driveSet n = x.driveSet n) (hw : w.state = 1)
    (hsup : (x.driveSet n).supervised = true) : w.drive n = x.turned w n := by
  unfold SafChan.drive SafChan.turned SafChan.sampled
  rw [hdrv, hset]
  simp only [hw, hsup, if_true, decide_true]

/-- The record of a supervised drive after the work of a cycle in NORMAL. -/
theorem drv_worked (hs : (f.chan b).state = 1) (hn : n < 8) (hsup : ((f.chan b).driveSet n).supervised = true) (sw : Nat)
    (off : List Nat) : ∃ p, (f.worked b sw off).drv n
      = { (f.chan b).turned ((f.chan b).next.sensed b sw off) n with phase := p } := by
  obtain ⟨p, hp⟩ := drv_work (f.chan b) b sw off n
  have hstate : ((f.chan b).next.sensed b sw off).state = 1 :=
    ((sensed_senses _ b sw off).keeps.1.trans (seal_left (x := (f.chan b).next) (by simp [SafChan.next, hs]) sw).1).trans hs
  have hdrv : ((f.chan b).next.sensed b sw off).drv n = (f.chan b).drv n := by rw [drv_sensed, drv_next]
  rw [if_pos hn, drive_normal hdrv (driveSet_sensed _ b sw off n) hstate hsup] at hp
  exact ⟨p, hp⟩

/-- The record of a supervised drive after a cycle in NORMAL. -/
theorem drv_cycled (hp : (f.chan b).powered = true) (hfound : (f.worked b sw off).found = 0) (hs : (f.chan b).state = 1) (hn : n < 8)
    (hsup : ((f.chan b).driveSet n).supervised = true) :
    let e := (f.chan b).turned ((f.chan b).next.sensed b sw off) n
    ((f.cycled b sw off).chan b).drv n = { e with phase := (((f.cycled b sw off).chan b).drv n).phase, newStop := false } := by
  obtain ⟨p, hdrv⟩ := drv_worked hs hn hsup sw off
  rw [(cycled_idle hp hfound).1, drv_recorded, drv_compared, hdrv]
  rfl

/-- A drive too fast loses torque at once in both channels (R347, R348). -/
theorem cycled_tooFast (hf : f.torqueOk) (hp : (f.chan b).powered = true) (hfound : (f.worked b sw off).found = 0)
    (hs : (f.chan b).state = 1) (hn : n < 8) (hsup : ((f.chan b).driveSet n).supervised = true) (hfull : ((f.chan b).sampled n).state = 3)
    (hv : speedWithin ((f.chan b).driveSet n) ((f.chan b).sampled n).vN ((f.chan b).driveSet n).vMax = false) :
    (∀ k, (((f.cycled b sw off).chan k).drv n).torque = false) ∧ (((f.cycled b sw off).chan b).drv n).state = 1
      ∧ (((f.cycled b sw off).chan b).drv n).cause = 6 := by
  have hcut : (f.chan b).turned ((f.chan b).next.sensed b sw off) n = _ := cycle_tooFast hfull hv true
  have hdrv := drv_cycled hp hfound hs hn hsup
  have lost : ((f.worked b sw off).drv n).lost := by
    obtain ⟨p, hw⟩ := drv_worked hs hn hsup sw off
    rw [hw, hcut]
    exact ⟨rfl, rfl, rfl⟩
  rw [hcut] at hdrv
  have own : (((f.cycled b sw off).chan b).drv n).torque = false := by rw [hdrv]; rfl
  refine ⟨fun k => ?_, by rw [hdrv]; rfl, by rw [hdrv]; rfl⟩
  obtain rfl | rfl := chan_cases b k
  · exact own
  · rw [(cycled_idle hp hfound).2.torque, (chan_cutAll_other f b sw off).2 n, if_pos hn]
    exact follow_torque lost (sound_of_torqueOk (chan_torqueOk hf _) n) _

theorem turned_stops {w : SafChan} (hs : (x.sampled n).state = 3)
    (hv : speedWithin (x.driveSet n) (x.sampled n).vN (x.driveSet n).vMax = true) (hc : w.stopCauses n ≠ []) :
    (x.turned w n).state = 4 ∧ (x.turned w n).decel = true ∧ (x.turned w n).torque = (x.sampled n).torque
      ∧ (x.turned w n).cause = leastCause (w.stopCauses n) := by
  unfold SafChan.turned
  rw [cycle_stops hs hv hc]
  exact ⟨rfl, rfl, rfl, rfl⟩

/-- A drive with a stop cause begins to stop (R348). -/
theorem cycled_stops (hp : (f.chan b).powered = true) (hfound : (f.worked b sw off).found = 0) (hs : (f.chan b).state = 1) (hn : n < 8)
    (hsup : ((f.chan b).driveSet n).supervised = true) (hfull : ((f.chan b).sampled n).state = 3)
    (hv : speedWithin ((f.chan b).driveSet n) ((f.chan b).sampled n).vN ((f.chan b).driveSet n).vMax = true)
    (hc : ((f.chan b).next.sensed b sw off).stopCauses n ≠ []) :
    (((f.cycled b sw off).chan b).drv n).state = 4 ∧ (((f.cycled b sw off).chan b).drv n).decel = true
      ∧ (((f.cycled b sw off).chan b).drv n).torque = ((f.chan b).sampled n).torque
      ∧ (((f.cycled b sw off).chan b).drv n).cause = leastCause (((f.chan b).next.sensed b sw off).stopCauses n) := by
  have h := turned_stops hfull hv hc
  rw [drv_cycled hp hfound hs hn hsup]
  exact h

theorem turned_stands {w : SafChan} (hs : (x.sampled n).state = 4)
    (hv : speedWithin (x.driveSet n) (x.sampled n).vN (x.driveSet n).vStill = true) :
    (x.turned w n).state = 1 ∧ (x.turned w n).torque = false ∧ (x.turned w n).decel = false ∧ (x.turned w n).ending = 0 :=
  cycle_stands hs hv true

theorem turned_restarts {w : SafChan} (hs : (x.sampled n).state = 1) (hc : w.stopCauses n = [])
    (hv : speedWithin (x.driveSet n) (x.sampled n).vN (x.driveSet n).vStill = true) (harmed : (x.sampled n).armed = true)
    (hlow : (x.sampled n).low = true) (hpermit : w.permit n = true) :
    (x.turned w n).state = (if (x.sampled n).testDone then 3 else 2) ∧ (x.turned w n).torque = true := by
  unfold SafChan.turned
  rw [hc, hpermit]
  exact cycle_starts hs hv harmed hlow

/-- A stop ends at standstill (R348). -/
theorem cycled_stands (hp : (f.chan b).powered = true) (hfound : (f.worked b sw off).found = 0) (hs : (f.chan b).state = 1) (hn : n < 8)
    (hsup : ((f.chan b).driveSet n).supervised = true) (hstop : ((f.chan b).sampled n).state = 4)
    (hv : speedWithin ((f.chan b).driveSet n) ((f.chan b).sampled n).vN ((f.chan b).driveSet n).vStill = true) :
    (((f.cycled b sw off).chan b).drv n).state = 1 ∧ (((f.cycled b sw off).chan b).drv n).torque = false
      ∧ (((f.cycled b sw off).chan b).drv n).decel = false ∧ (((f.cycled b sw off).chan b).drv n).ending = 0 := by
  have h := turned_stands hstop hv (w := (f.chan b).next.sensed b sw off)
  rw [drv_cycled hp hfound hs hn hsup]
  exact h

/-- A drive whose restart conditions hold starts again (R346). -/
theorem cycled_restarts (hp : (f.chan b).powered = true) (hfound : (f.worked b sw off).found = 0) (hs : (f.chan b).state = 1) (hn : n < 8)
    (hsup : ((f.chan b).driveSet n).supervised = true) (hstopped : ((f.chan b).sampled n).state = 1)
    (hc : ((f.chan b).next.sensed b sw off).stopCauses n = [])
    (hv : speedWithin ((f.chan b).driveSet n) ((f.chan b).sampled n).vN ((f.chan b).driveSet n).vStill = true)
    (harmed : ((f.chan b).sampled n).armed = true) (hlow : ((f.chan b).sampled n).low = true)
    (hpermit : ((f.chan b).next.sensed b sw off).permit n = true) :
    (((f.cycled b sw off).chan b).drv n).state = (if ((f.chan b).sampled n).testDone then 3 else 2)
      ∧ (((f.cycled b sw off).chan b).drv n).torque = true := by
  have h := turned_restarts hstopped hc hv harmed hlow hpermit
  rw [drv_cycled hp hfound hs hn hsup]
  exact h

end Sys2Proof.Machine
end

section
/-! SUPPORT. The device around the safety channels (R29, R127, R359, R360): the permits follow a change of the channels, the mirror takes
the state of a channel, and its sources are reported. No event is routed and no stream is on. -/
namespace Sys2Proof.Machine

variable {R : List Reg} {P : List Part} {f g : Saf → Saf} {h : State → State} {i : Instr} {p : State → Prop} {s t u : State} {b : Bool}

/-! A change of the channels. -/

/-- The same device with its safety channels changed. -/
abbrev State.withSaf (s : State) (x : Saf) : State := { s with saf := x }

/-- The registers that a change of the channels moves where no event is routed. -/
abbrev safRegs : List Reg := [.emtSts, .emtPortSts, .sysEvtSts]

theorem Frame.onSaf (hs : s.unrouted) (g : Saf → Saf) : Frame safRegs [.rng] (s.withSaf (g s.saf)) (s.onSaf g) := by
  have hu : (s.withSaf (g s.saf)).unrouted := hs
  unfold State.onSaf
  extract_lets t t1 t2
  have k1 : Frame safRegs [.rng] t t1 := Frame.ite (fun _ => (Frame.refl _ _ t).post_unrouted hu) (fun _ => .refl _ _ t)
  have k2 : Frame safRegs [.rng] t t2 := Frame.ite (fun _ => k1.post_unrouted hu) (fun _ => k1)
  exact k2.setPermits

theorem onSaf_permits (hs : s.unrouted) (g : Saf → Saf) : (s.onSaf g).flag F.emtStsPermitA 0 = (g s.saf).a.emission
    ∧ (s.onSaf g).flag F.emtStsPermitB 0 = (g s.saf).b.emission := by
  have hu : (s.withSaf (g s.saf)).unrouted := hs
  unfold State.onSaf
  extract_lets t t1 t2
  have k1 : Frame safRegs [.rng] t t1 := Frame.ite (fun _ => (Frame.refl _ _ t).post_unrouted hu) (fun _ => .refl _ _ t)
  have k2 : Frame safRegs [.rng] t t2 := Frame.ite (fun _ => k1.post_unrouted hu) (fun _ => k1)
  rw [← show t2.saf = g s.saf from k2.saf]
  exact setPermits_shows t2 _ _

/-- The operating state, the fuses, the queue and memory stay, and the emitters have the permits of the channels. -/
def safRest (s t : State) : Prop := t.sys = s.sys ∧ t.fuse = s.fuse ∧ t.pending = s.pending ∧ keepsBytes s t
  ∧ t.flag F.emtStsPermitA 0 = t.saf.a.emission ∧ t.flag F.emtStsPermitB 0 = t.saf.b.emission

theorem inDevSaf_eq (hsys : (h s).sys = s.sys) (hfuse : (h s).fuse = s.fuse) (hpend : (h s).pending = s.pending) : inDevSaf h s = h s := by
  unfold inDevSaf
  rw [← hsys, ← hfuse, ← hpend]

/-- A command that changes the channels alone. -/
theorem leads_onSaf (hs : s.unrouted) (he : exec i s = .next (inDevSaf (fun s => s.onSaf g) s)) (hp : ∀ t, t.saf = g s.saf → p t) :
    ∃ t, exec i s = .next t ∧ safRest s t ∧ keepsRegs safRegs s t ∧ p t := by
  have kept := Frame.onSaf hs g
  obtain ⟨-, hregs, hbytes⟩ := kept.keeps (by decide)
  obtain ⟨hA, hB⟩ := onSaf_permits hs g
  rw [inDevSaf_eq kept.sys kept.fuse kept.pending] at he
  rw [← show (s.onSaf g).saf = g s.saf from kept.saf] at hA hB
  exact ⟨s.onSaf g, he, ⟨kept.sys, kept.fuse, kept.pending, hbytes, hA, hB⟩, hregs, hp _ kept.saf⟩

/-! The mirror (R29, R360). -/

/-- The registers of the mirror. -/
abbrev mirrorRegs : List Reg :=
  [.safSts, .safCycle, .safSeal, .safDisc, .safZone, .safDrv, .safDrvStop, .safBand, .safBandSts, .safTxCtl, .safTxData, .safCnt]

/-- The mirror takes a channel's state, cause and cycle. -/
structure State.Mirrored (s : State) (b : Bool) (t : State) : Prop where
  frame : Frame mirrorRegs [] s t
  state : t.fld F.safStsState (b2n b) = (s.saf.chan b).state % 16
  cause : t.fld F.safStsCause (b2n b) = (s.saf.chan b).cause % 256
  cycle : t.reg .safCycle (b2n b) = min (s.saf.chan b).now 0xFFFFFFFF

theorem satN_word (v : Nat) : satN 32 v % 2 ^ 32 = min v 0xFFFFFFFF := by
  unfold satN
  split <;> omega

/-- The fields of the status word of a channel. -/
theorem safSts_fields (cause link emits mismatch sealed number state : Nat) :
    let w := packBits [(8, 0), (8, cause), (4, 0), (1, link), (1, emits), (1, mismatch), (1, sealed), (4, number), (4, state)] % 2 ^ 32
    bitsOf w 31 28 = state % 16 ∧ bitsOf w 15 8 = cause % 256 := by
  simp only [packBits, bitsOf]
  omega

theorem mirror_shows (s : State) (b : Bool) : s.Mirrored b (s.mirror b) := by
  unfold State.mirror
  extract_lets x i crc bits s1 s2 s3 s4 s5
  have f1 : Frame mirrorRegs [] s s1 := (((Frame.refl _ _ s).setReg (by decide)).setReg (by decide)).setReg (by decide)
  have later : Frame (mirrorRegs.drop 2) [] s1 (s5.setReg .safCnt i (packBits [(8, x.xcmp), (8, x.testDisc), (16, x.unverified)])) := by
    have k2 : Frame (mirrorRegs.drop 2) [] s1 s2 := (Frame.refl _ _ _).setReg (by decide)
    have k3 : Frame (mirrorRegs.drop 2) [] s1 s3 := Frame.foldl _ k2 fun _ _ hu => hu.setReg (by decide)
    have k4 : Frame (mirrorRegs.drop 2) [] s1 s4 := Frame.foldl _ k3 fun _ _ hu => (hu.setReg (by decide)).setReg (by decide)
    have k5 : Frame (mirrorRegs.drop 2) [] s1 s5 := Frame.foldl _ k4 fun _ _ hu =>
      Frame.foldl _ (((hu.setReg (by decide)).setReg (by decide)).setReg (by decide)) fun _ _ hv => hv.setReg (by decide)
    exact k5.setReg (by decide)
  have all := f1.trans later (List.drop_subset _ _) (List.Subset.refl _)
  have status (y : RegField) (hy : y.reg = .safSts) : (s5.setReg .safCnt i (packBits [(8, x.xcmp), (8, x.testDisc),
      (16, x.unverified)])).fld y i = bitsOf (packBits [(8, 0), (8, x.cause), (4, 0), (1, b2n (x.img.isSome && decide (x.missing < 2))),
      (1, b2n x.emission), (1, b2n x.mismatch), (1, b2n x.sealOk), (4, (x.set.map (·.number)).getD 0), (4, x.state)] % 2 ^ 32) y.hi y.lo := by
    rw [later.fld _ _ (by rw [hy]; decide), State.fld, hy, reg_setReg_ne _ _ (Or.inl (by decide)), reg_setReg_ne _ _ (Or.inl (by decide)),
      reg_setReg_same]
  obtain ⟨hstate, hcause⟩ := safSts_fields x.cause (b2n (x.img.isSome && decide (x.missing < 2))) (b2n x.emission) (b2n x.mismatch)
    (b2n x.sealOk) ((x.set.map (·.number)).getD 0) x.state
  refine ⟨all, (status F.safStsState rfl).trans hstate, (status F.safStsCause rfl).trans hcause, ?_⟩
  rw [later.reg _ _ (by decide), reg_setReg_ne _ _ (Or.inl (by decide)), reg_setReg_same]
  exact satN_word x.now

/-! The sources of a cycle (R359). -/

theorem Frame.safSource {src kind v : Nat} (k : Frame [] [.acq] s t) (hs : s.quiet) : Frame [] [.acq] s (t.safSource src kind v) :=
  Frame.ite (fun _ => k) (fun _ => k.change_quiet hs)

theorem Frame.writeSource {src kind v : Nat} (k : Frame [] [.acq] s t) (hs : s.quiet) : Frame [] [.acq] s (t.writeSource src kind v) := by
  unfold State.writeSource
  dsimp only
  have kept : Frame [] [.acq] s (t.onDev fun d => { d with acq := { d.acq with src := smPut {} d.acq.src src ⟨v, kind, false⟩ } }) :=
    k.onDev (fun _ => rfl) (fun d p n => by cases p <;> first | rfl | exact absurd (by decide) n)
  rw [recordChange_quiet (kept.quiet hs)]
  exact kept

theorem Frame.safSources (hs : s.quiet) (b : Bool) : Frame [] [.acq] s (s.safSources b) := by
  have k : Frame [] [.acq] s s := .refl _ _ s
  unfold State.safSources
  refine Frame.ite (fun _ => k.safSource hs) (fun _ => ?_)
  extract_lets x s1 s2 s3 s4
  have k1 : Frame [] [.acq] s s1 := Frame.foldl _ k fun _ _ hu => hu.safSource hs
  have k2 : Frame [] [.acq] s s2 := Frame.foldl _ k1 fun _ _ hu => hu.safSource hs
  have k3 : Frame [] [.acq] s s3 := Frame.foldl _ k2 fun _ _ hu => Frame.ite (fun _ => hu.writeSource hs) (fun _ => hu)
  exact Frame.foldl _ ((k3.safSource hs).safSource hs) fun _ _ hu => hu.safSource hs

/-! The end of a cycle. -/

/-- The device after the end of a cycle of a channel with power: its channels, and what the mirror took of it. -/
structure State.Cycled (s : State) (b : Bool) (sw : Nat) (t : State) : Prop where
  rest : safRest s t
  regs : keepsRegs (mirrorRegs ++ safRegs) s t
  saf : t.saf = s.saf.cycled b sw s.silentClusters
  state : t.fld F.safStsState (b2n b) = (t.saf.chan b).state % 16
  cause : t.fld F.safStsCause (b2n b) = (t.saf.chan b).cause % 256
  cycle : t.reg .safCycle (b2n b) = min (t.saf.chan b).now 0xFFFFFFFF

theorem safCycle_cycled (hs : s.quiet) (hp : (s.saf.chan b).powered = true) (sw : Nat) : s.Cycled b sw (s.safCycle b sw) := by
  have first := Frame.onSaf hs.1 fun f => f.cycleEnd b sw s.silentClusters
  unfold State.safCycle
  rw [if_pos hp]
  dsimp only
  generalize s.onSaf (fun f => f.cycleEnd b sw s.silentClusters) = s1 at first ⊢
  have q1 : s1.quiet := first.quiet (s := s.withSaf (s.saf.cycleEnd b sw s.silentClusters)) hs
  obtain ⟨f2, hstate, hcause, hcycle⟩ := mirror_shows s1 b
  generalize s1.mirror b = s2 at f2 hstate hcause hcycle ⊢
  have f3 := Frame.safSources (f2.quiet q1) b
  generalize s2.safSources b = s3 at f3 ⊢
  have middle : Frame mirrorRegs [.acq] s1 s3 := (f2.mono (by decide) (by decide)).trans f3 (by decide) (by decide)
  have q3 : s3.quiet := middle.quiet q1
  have last := Frame.onSaf q3.1 fun f => f.on b SafChan.recorded
  have hsaf : s3.saf = s.saf.cycleEnd b sw s.silentClusters := middle.saf.trans first.saf
  obtain ⟨hA, hB⟩ := onSaf_permits q3.1 fun f => f.on b SafChan.recorded
  obtain ⟨-, regs1, bytes1⟩ := first.keeps (by decide)
  obtain ⟨-, regs2, bytes2⟩ := middle.keeps (by decide)
  obtain ⟨-, regs3, bytes3⟩ := last.keeps (by decide)
  generalize s3.onSaf (fun f => f.on b SafChan.recorded) = s4 at *
  have hclosed : s4.saf = s3.saf.on b SafChan.recorded := last.saf
  have hchan : s4.saf.chan b = (s1.saf.chan b).recorded := by
    rw [hclosed, Saf.on, chan_setChan_same, middle.saf]
  have shown (y : RegField) (hy : y.reg = .safSts) : s4.fld y (b2n b) = s2.fld y (b2n b) :=
    (last.fld y _ (by rw [hy]; decide)).trans (f3.fld y _ (by rw [hy]; decide))
  refine ⟨⟨?_, ?_, ?_, fun a => (bytes3 a).trans ((bytes2 a).trans (bytes1 a)), ?_, ?_⟩, fun r i hr => ?_, ?_, ?_, ?_, ?_⟩
  · exact last.sys.trans (middle.sys.trans first.sys)
  · exact last.fuse.trans (middle.fuse.trans first.fuse)
  · exact last.pending.trans (middle.pending.trans first.pending)
  · rw [hA, hclosed]
  · rw [hB, hclosed]
  · obtain ⟨hmirror, hsafe⟩ := not_or.mp (mt List.mem_append.mpr hr)
    exact (regs3 r i hsafe).trans ((regs2 r i hmirror).trans (regs1 r i hsafe))
  · rw [hclosed, hsaf]
    rfl
  · rw [shown F.safStsState rfl, hstate, hchan]
    rfl
  · rw [shown F.safStsCause rfl, hcause, hchan]
    rfl
  · have kept : s4.reg .safCycle (b2n b) = s2.reg .safCycle (b2n b) :=
      (last.reg _ _ (by decide)).trans (f3.reg _ _ (by decide))
    rw [kept, hcycle, hchan]
    rfl

/-- The end of a cycle of a channel with power, as a command. -/
theorem exec_safetyCycleEnd (hs : s.quiet) (hp : (s.saf.chan b).powered = true) (sw : BitVec 12) :
    exec (.safetyCycleEnd b sw) s = .next (s.safCycle b sw.toNat) := by
  obtain ⟨⟨hsys, hfuse, hpend, -⟩, -⟩ := safCycle_cycled hs hp sw.toNat
  have lifted : inDevSaf (fun s => s.safCycle b sw.toNat) s = s.safCycle b sw.toNat := inDevSaf_eq hsys hfuse hpend
  exact congrArg _ lifted

/-! Commands that change the channels alone, and SAFE_STATE by them. -/

/-- Every channel with power that is not in SAFE_STATE enters it with the cause given, without torque and discrete outputs. -/
def Saf.AllSafe (f g : Saf) (c : Nat) : Prop :=
  ∀ k, (f.chan k).powered = true → (f.chan k).state ≠ 2 → (g.chan k).safe c

theorem safeState_allSafe {f : Saf} (hf : f.torqueOk) (hp : (f.chan b).powered = true) (hs : (f.chan b).state = 1) (c : Nat) :
    f.AllSafe (f.safeState b c) c :=
  fun k hk hn => safeState_safe hp hs hk hn (sound_of_torqueOk (chan_torqueOk hf k)) c

/-- A failed self-test in NORMAL. -/
theorem selfTest_allSafe {f : Saf} (hf : f.torqueOk) (hp : (f.chan b).powered = true) (hs : (f.chan b).state = 1) :
    f.AllSafe (f.selfTest b false) 2 := by
  intro k hk hn
  have hfailed (j : Bool) : ∃ ok, (f.on b fun x => if x.powered then { x with selfOk := false } else x).chan j
      = { f.chan j with selfOk := ok } := by
    obtain rfl | rfl := chan_cases b j
    · rw [Saf.on, chan_setChan_same, if_pos hp]
      exact ⟨false, rfl⟩
    · rw [Saf.on, chan_setChan_other]
      exact ⟨_, rfl⟩
  obtain ⟨ok, hb⟩ := hfailed b
  obtain ⟨ok', hk'⟩ := hfailed k
  refine safeState_safe ?_ ?_ ?_ ?_ ?_ 2
  · rw [hb]; exact hp
  · rw [hb]; exact hs
  · rw [hk']; exact hk
  · rw [hk']; exact hn
  · rw [hk']; exact sound_of_torqueOk (chan_torqueOk hf k)

/-- An input that a channel with power takes. -/
theorem on_powered {f : Saf} (g : SafChan → SafChan) : (f.on b fun x => if x.powered then g x else x)
    = if (f.chan b).powered then f.setChan b (g (f.chan b)) else f := by
  split
  next hp => rw [Saf.on, if_pos hp]
  next hp => exact on_self (if_neg hp)

/-- A self-test that passes, or fails outside NORMAL, is noted by a channel with power. -/
theorem selfTest_notes {f : Saf} {ok : Bool} (h : ok = false → ¬(f.chan b).powered = true ∨ (f.chan b).state ≠ 1) :
    f.selfTest b ok = if (f.chan b).powered then f.setChan b { f.chan b with selfOk := ok } else f := by
  unfold Saf.selfTest
  rw [on_powered fun x => { x with selfOk := ok }]
  cases ok
  · refine safeState_idle ?_ 2
    split
    · rw [chan_setChan_same]
      exact not_and_or.mpr (h rfl)
    · exact not_and_or.mpr (h rfl)
  · rfl

end Sys2Proof.Machine
end

section
/-! O55: the safety cycle, its drives, the causes of SAFE_STATE and the laser interlock. -/
namespace Sys2Proof.Machine

/-- Settles O55: each command changes the channels alone or runs one cycle, and `State.Cycled` says what the device keeps and shows. -/
theorem safetyCycle : Obligations.SafetyCycle := by
  unfold Obligations.SafetyCycle
  intro b ok sw swB n s hs hf
  extract_lets x y on rest leads safe cycle x1 w c d normal
  have led {i : Instr} {g : Saf → Saf} {p : State → Prop} (he : exec i s = .next (inDevSaf (fun s => s.onSaf g) s))
      (hp : ∀ t, t.saf = g s.saf → p t) : leads i p := leads_onSaf hs.1 he hp
  have safely {g : Saf} {c : Nat} (h : s.saf.AllSafe g c) (t : State) (ht : t.saf = g) : safe c t := by
    intro k hk hn
    rw [ht]
    exact h k hk hn
  refine ⟨led rfl fun t ht => ht, led rfl fun t ht => ?_, fun h => led rfl fun t ht => ?_, fun hp h1 => led rfl ?_, led rfl fun t ht => ht,
    fun hp h1 => ⟨led rfl ?_, led rfl ?_⟩, fun h => ⟨led rfl fun t ht => ?_, led rfl fun t ht => ?_⟩, led rfl fun t ht => ?_,
    led rfl fun t ht => ht, led rfl fun t ht => ?_, fun hp => ?_, fun hp => ?_⟩
  · exact ht.trans (selfTest_notes fun h => by cases h)
  · exact ht.trans (selfTest_notes fun _ => h)
  · exact safely (selfTest_allSafe hf hp h1)
  · exact safely (safeState_allSafe hf hp h1 6)
  · exact safely (safeState_allSafe hf hp h1 5)
  · exact ht.trans (safeState_idle (not_and_or.mpr h) 6)
  · exact ht.trans (safeState_idle (not_and_or.mpr h) 5)
  · exact ht.trans (on_powered fun x => { x with cover := ok })
  · exact ht.trans (on_powered fun x => { x with scanOk := true })
  · have idle : s.safCycle b sw.toNat = s := if_neg hp
    exact congrArg _ (inDevSaf_self idle)
  · obtain ⟨hrest, hregs, hsaf, hstate, hcause, hcycle⟩ := safCycle_cycled hs hp sw.toNat
    obtain ⟨hnow, hsw, hgot⟩ := cycled_chan hp sw.toNat s.silentClusters
    obtain ⟨-, wsw0, wsw, -, -, -, wmissing, -⟩ := worked_keeps s.saf b sw.toNat s.silentClusters
    have sw0 (h1 : x.state = 1) : ((s.saf.chan b).next.seal sw.toNat).sw0 = x.sw0 :=
      (seal_left (x := (s.saf.chan b).next) (show x.state ≠ 0 by omega) sw.toNat).2
    have found (h : normal) : (s.saf.worked b sw.toNat s.silentClusters).found = 0 := by
      obtain ⟨-, h1, hsw, hgot, hrun, -⟩ := h
      exact found_normal h1 hsw hgot hrun
    refine ⟨s.safCycle b sw.toNat, exec_safetyCycleEnd hs hp sw, hrest, hregs, ?_⟩
    generalize s.safCycle b sw.toNat = t at hsaf hstate hcause hcycle ⊢
    rw [hsaf] at hstate hcause hcycle ⊢
    rw [hnow] at hcycle
    refine ⟨hnow, hsw, hgot, fun hy => cycled_image hp hy _ _, hstate, hcause, hcycle, fun h1 h => safely ?_ t hsaf,
      fun h1 h0 hg hm => safely ?_ t hsaf, fun q i h0 hok hset hmatch hg hrun himg hi hq => ?_, fun h hfull hv => ?_,
      fun h hfull hv hc => ?_, fun h hstop hv => ?_, fun h hstopped hc hv harmed hlow hpermit => ?_⟩
    · exact fun k hk hn => cycled_safe hf hp h1 (finds_switches (by rw [wsw, wsw0, sw0 h1]; exact h)) (by decide) hk hn
    · have missed : 2 ≤ (s.saf.worked b sw.toNat s.silentClusters).missing := by
        rw [wmissing, if_neg (by rw [hg]; decide)]
        exact Nat.succ_le_succ hm
      exact fun k hk hn => cycled_safe hf hp h1 (finds_silent (by rw [wsw, wsw0, sw0 h1]; exact h0) missed) (by decide) hk hn
    · exact cycled_starts hp h0 hok hset hmatch hg hrun himg hi hq
    · obtain ⟨-, h1, -, -, -, hsup⟩ := id h
      exact cycled_tooFast hf hp (found h) h1 n.isLt hsup hfull hv
    · obtain ⟨-, h1, -, -, -, hsup⟩ := id h
      exact cycled_stops hp (found h) h1 n.isLt hsup hfull hv hc
    · obtain ⟨-, h1, -, -, -, hsup⟩ := id h
      exact cycled_stands hp (found h) h1 n.isLt hsup hstop hv
    · obtain ⟨-, h1, -, -, -, hsup⟩ := id h
      exact cycled_restarts hp (found h) h1 n.isLt hsup hstopped hc hv harmed hlow hpermit

end Sys2Proof.Machine
end

section
/-! O28: a boundary that brings a new source into force. The shots delivered while it waited were the old source's, and the new histogram
holds none of them (R112, R133). -/
namespace Sys2Proof.Machine

/-- RUN, where cluster 47 has been moved from port 0 to port 1 by a write that waits for its boundary. Its histogram has its 100 shots and
waits for the open gate of channel 767, and one more shot of port 0 was delivered meanwhile. -/
def movedWaiting : State :=
  ((({ State.reset with sys := { State.reset.sys with op := .run } } : State).setFld F.emtClSrcEmitter 47 1).setClus 47
    { buf0 := { delivered := 100 }, inProgress := true, due := true, early := 1 }).setChan 767 { gateOpen := true }

theorem movedWaiting_gathers : movedWaiting.sys.op = .run
    ∧ 0 < ((movedWaiting.clus (47 : Fin 48)).buf (movedWaiting.accBuf (47 : Fin 48))).delivered := by decide +kernel

/-- Silence closes the histogram, and the next one begins without the shot that was delivered meanwhile. -/
theorem movedWaiting_drops : ∃ t, exec (.histogramSilence 47) movedWaiting = .next t
    ∧ ((t.clus (47 : Fin 48)).buf (t.accBuf (47 : Fin 48))).delivered ≠ (movedWaiting.clus (47 : Fin 48)).early :=
  ⟨_, rfl, by decide +kernel⟩

/-- Refutes O28: the new buffer is to hold the shots delivered while the boundary waited, but where the boundary also moves the cluster to
another source (`movedWaiting`), `State.takeClus` drops them: they were the old source's (R112). -/
theorem not_histogramsClose : ¬ Obligations.HistogramsClose := by
  intro h
  obtain ⟨-, -, -, hsilence, -⟩ := h 47 0 [] movedWaiting
  obtain ⟨hrun, hshots⟩ := movedWaiting_gathers
  obtain ⟨t, ht, ⟨-, -, hnew, -⟩, -⟩ := hsilence hrun hshots
  obtain ⟨u, hu, hdropped⟩ := movedWaiting_drops
  rw [Host.Outcome.next.inj (hu.symm.trans ht)] at hdropped
  exact hdropped hnew

end Sys2Proof.Machine
end

section
/-! SUPPORT. Frames handed to a link and to the ring (R290, R292, R298): the frames that a link holds, sent or waiting, which of them a
pump or a send changes, and what a frame of this device leaves on the two ring links. -/
namespace Sys2Proof.Machine

variable {R R' : List Reg} {P P' : List Part} {s t u v : State} {n m k type dst hdr rseq hops : Nat} {b : Bool} {l : List Byte}

/-- The frames a link holds, sent or waiting, in order: type and payload. -/
def LinkSt.frames (x : LinkSt) : List (Nat × List Byte) := (x.replay ++ x.waiting).map fun f => (f.type, f.payload)

@[simp] theorem State.link_setLink_same (s : State) (n : Nat) (x : LinkSt) : (s.setLink n x).link n = x := smGet_put_same _ _ _ _

theorem State.link_setLink_ne (s : State) (x : LinkSt) (h : n ≠ m) : (s.setLink n x).link m = s.link m := smGet_put_ne _ _ _ _ h

@[simp] theorem State.link_emit (s : State) (o : Out) (n : Nat) : (s.emit o).link n = s.link n := by rfl

theorem Frame.link (h : Frame R P s t) (n : Nat) (hP : Part.links ∉ P := by decide) : t.link n = s.link n := by
  unfold State.link; rw [h.part .links hP]

/-- A frame that moves from the waiting ones to the replay buffer keeps its place. -/
theorem frames_pumpFrames (n k : Nat) (s : State) : ((pumpFrames n k s).link n).frames = (s.link n).frames := by
  induction k generalizing s with
  | zero => rfl
  | succ k ih =>
    unfold pumpFrames
    dsimp only
    split
    next => rfl
    next f rest hwaiting =>
      split
      next =>
        rw [ih, State.link_emit, State.link_setLink_same]
        simp [LinkSt.frames, hwaiting]
      next => rfl

theorem link_pumpFrames_ne (h : n ≠ m) (k : Nat) (s : State) : (pumpFrames n k s).link m = s.link m := by
  induction k generalizing s with
  | zero => rfl
  | succ k ih =>
    unfold pumpFrames
    dsimp only
    split
    next => rfl
    next =>
      split
      next => rw [ih, State.link_emit, State.link_setLink_ne s _ h]
      next => rfl

theorem frames_linkPump (s : State) (n : Nat) : ((s.linkPump n).link n).frames = (s.link n).frames := by
  unfold State.linkPump
  split
  · exact frames_pumpFrames _ _ _
  · rfl

theorem link_linkPump_ne (s : State) (h : n ≠ m) : (s.linkPump n).link m = s.link m := by
  unfold State.linkPump
  split
  · exact link_pumpFrames_ne h _ _
  · rfl

/-- A frame handed to a link stands after all that the link held. -/
theorem frames_linkSend (s : State) (n type dst rseq hops : Nat) (l : List Byte) :
    ((s.linkSend n type dst rseq hops l).link n).frames = (s.link n).frames ++ [(type, l)] := by
  unfold State.linkSend
  rw [frames_linkPump, State.link_setLink_same]
  simp [LinkSt.frames]

theorem link_linkSend_ne (s : State) (h : n ≠ m) : (s.linkSend n type dst rseq hops l).link m = s.link m :=
  (link_linkPump_ne _ h).trans (State.link_setLink_ne s _ h)

/-! A ring link in service (log entry 12). -/

/-- A link that is a ring link by its role and is UP or in RECOVER. -/
abbrev State.ringServes (s : State) (n : Nat) : Prop :=
  s.fld F.lnkCtlRole n = n + 1 ∧ (s.fld F.lnkStsState n = 4 ∨ s.fld F.lnkStsState n = 5)

theorem Frame.ringServes (h : Frame R P s t) (n : Nat) (hR : Reg.lnkCtl ∉ R ∧ Reg.lnkSts ∉ R := by decide) :
    t.ringServes n ↔ s.ringServes n := by
  unfold State.ringServes
  rw [h.fld F.lnkCtlRole n hR.1, h.fld F.lnkStsState n hR.2]

theorem frames_ringOut (h : s.ringServes n) :
    ((s.ringOut n type hdr rseq hops l).link n).frames = (s.link n).frames ++ [(type, l)] := by
  unfold State.ringOut
  rw [if_pos h]
  exact frames_linkSend _ _ _ _ _ _ _

theorem link_ringOut_unserved (h : ¬s.ringServes n) (m : Nat) : (s.ringOut n type hdr rseq hops l).link m = s.link m := by
  unfold State.ringOut
  rw [if_neg h]

theorem link_ringOut_ne (s : State) (h : n ≠ m) : (s.ringOut n type hdr rseq hops l).link m = s.link m := by
  unfold State.ringOut
  split
  · exact link_linkSend_ne s h
  · rfl

theorem Frame.ringOut (h : Frame R P s t) (hP : [Part.links, .out] ⊆ P := by decide) :
    Frame R P s (t.ringOut n type hdr rseq hops l) := Frame.ite (fun _ => h.linkSend hP) (fun _ => h)

/-! A frame of this device on the ring. -/

/-- The next RSEQ of the device. -/
def State.advanceRseq (s : State) : State :=
  s.onDev fun d => { d with ring := { d.ring with rseq := (s.dev.ring.rseq + 1) % 65536 } }

theorem Frame.advanceRseq (h : Frame R P s t) (hP : Part.ring ∈ P := by decide) : Frame R P s t.advanceRseq :=
  h.onDev (fun _ => rfl) (fun d p n => by cases p <;> first | rfl | exact absurd hP n)

theorem ringSend_eq (s : State) (type dst : Nat) (b : Bool) (l : List Byte) : s.ringSend type dst b l =
    (s.advanceRseq.ringOut 0 type (s.ringHeader dst b) s.dev.ring.rseq 0 l).ringOut 1 type (s.ringHeader dst b)
      s.dev.ring.rseq 0 l := rfl

theorem Frame.ringSend (h : Frame R P s t) (hP : [Part.links, .out, .ring] ⊆ P := by decide) :
    Frame R P s (t.ringSend type dst b l) := by
  have hlinks : [Part.links, .out] ⊆ P := List.Subset.trans (by decide) hP
  exact ((h.advanceRseq (hP (by decide))).ringOut hlinks).ringOut hlinks

/-- A frame that this device sends advances RSEQ and stands on each ring link in service; the other links are as before. -/
theorem ringSend_hands (s : State) (type dst : Nat) (b : Bool) (l : List Byte) : s.handsRing (s.ringSend type dst b l) type l := by
  rw [ringSend_eq]
  generalize s.ringHeader dst b = hdr
  generalize s.dev.ring.rseq = q
  set first := s.advanceRseq.ringOut 0 type hdr q 0 l with hfirst
  set second := first.ringOut 1 type hdr q 0 l with hsecond
  have f0 : Frame [] [.ring] s s.advanceRseq := (Frame.refl _ _ s).advanceRseq
  have f1 : Frame [] [.links, .out] s.advanceRseq first := (Frame.refl _ _ _).ringOut
  have f2 : Frame [] [.links, .out] first second := (Frame.refl _ _ _).ringOut
  have serves0 : s.advanceRseq.ringServes 0 ↔ s.ringServes 0 := f0.ringServes 0
  have serves1 : first.ringServes 1 ↔ s.ringServes 1 := (f1.ringServes 1).trans (f0.ringServes 1)
  have link0 : second.link 0 = first.link 0 := link_ringOut_ne _ (by decide)
  have link1 : first.link 1 = s.link 1 := link_ringOut_ne s.advanceRseq (by decide)
  refine ⟨?_, fun n hn hserved => ?_, fun n hnot => ?_⟩
  · exact congrArg RingSt.rseq ((f2.part .ring (by decide)).trans (f1.part .ring (by decide)))
  · change (second.link n).frames = (s.link n).frames ++ [(type, l)]
    obtain rfl | rfl : n = 0 ∨ n = 1 := by omega
    · rw [link0]
      exact frames_ringOut (serves0.mpr hserved)
    · rw [← link1]
      exact frames_ringOut (serves1.mpr hserved)
  · obtain rfl | rfl | hother : n = 0 ∨ n = 1 ∨ 1 < n := by omega
    · rw [link0]
      exact link_ringOut_unserved (fun h => hnot ⟨by decide, serves0.mp h⟩) 0
    · rw [hsecond, link_ringOut_unserved (fun h => hnot ⟨by decide, serves1.mp h⟩), link1]
    · rw [hsecond, link_ringOut_ne _ (by omega), hfirst, link_ringOut_ne _ (by omega)]
      rfl

/-- What happens before and after a frame is handed to the ring does not show in it, where it leaves the links, the ring's record and
the registers that say which links serve. -/
theorem State.handsRing.between (h : t.handsRing u type l) (before : Frame R P s t) (after : Frame R' P' u v)
    (hR : Reg.lnkCtl ∉ R ∧ Reg.lnkSts ∉ R := by decide) (hP : Part.ring ∉ P ∧ Part.links ∉ P := by decide)
    (hP' : Part.ring ∉ P' ∧ Part.links ∉ P' := by decide) : s.handsRing v type l := by
  obtain ⟨hrseq, hserved, hother⟩ := h
  have ring0 : t.dev.ring = s.dev.ring := before.part .ring hP.1
  have ring1 : v.dev.ring = u.dev.ring := after.part .ring hP'.1
  have link0 (n : Nat) := before.link n hP.2
  have link1 (n : Nat) := after.link n hP'.2
  have serves (n : Nat) := before.ringServes n hR
  refine ⟨by rw [ring1, hrseq, ring0], fun n hn hs => ?_, fun n hn => ?_⟩
  · rw [link1, hserved n hn ((serves n).mpr hs), link0]
  · rw [link1, hother n fun ht => hn ⟨ht.1, (serves n).mp ht.2⟩, link0]

end Sys2Proof.Machine
end

section
/-! O30: the schedule keeper at the start of a frame (R161), and the announcements and shot notices that this device sends (R162, R299). -/
namespace Sys2Proof.Machine

variable {R : List Reg} {P : List Part} {s t : State} {n : Nat} {from' δ : Int} {x : RegField}

/-! A sticky flag, wherever its event is routed (R435). -/

/-- An event flag that is raised stands. -/
theorem flag_raise (s : State) {i e k : Nat} (hx : x.lo = x.hi ∧ x.hi < 32) (hreg : x.reg ∉ postRegs) :
    (s.raise x i e k).flag x i = true := by
  unfold State.raise
  split
  next hset => exact hset
  next => rw [((Frame.refl postRegs postParts _).post).flag _ _ hreg, flag_setFlag_same _ _ hx]

/-- The fields beside an event flag that is raised stay. -/
theorem fld_raise_apart (s : State) {y : RegField} {i e k : Nat} (hx : x.lo = x.hi ∧ x.hi < 32) (hreg : y.reg ∉ postRegs)
    (hy : y.lo ≤ y.hi) (h : x.hi < y.lo ∨ y.hi < x.lo) (j : Nat) : (s.raise x i e k).fld y j = s.fld y j := by
  unfold State.raise
  split
  next => rfl
  next =>
    rw [((Frame.refl postRegs postParts _).post).fld _ _ hreg]
    exact fld_setFld_apart ⟨hx.1.le, hx.2⟩ hy h j

/-! What a frame leaves beside flags and records. -/

theorem Frame.sfld (h : Frame R P s t) (x : RegField) (i : Nat) (hx : x.reg ∉ R := by decide) : t.sfld x i = s.sfld x i :=
  congrArg (signed _) (h.fld x i hx)

theorem Frame.port (h : Frame R P s t) (n : Nat) (hP : Part.rng ∉ P := by decide) : t.port n = s.port n := by
  unfold State.port; rw [h.rng hP]

theorem Frame.sched (h : Frame R P s t) (hP : Part.rng ∉ P := by decide) : t.dev.rng.sched = s.dev.rng.sched := by rw [h.rng hP]

/-! The ports' fire times slip (R161). -/

/-- A port whose fire times from `from'` on move by `δ`: at once, or from the next nominal time on. -/
def PortSt.slipFrom (p : PortSt) (from' δ : Int) : PortSt :=
  if from' ≤ p.tNom then { p with
    tNom := p.tNom + δ, prevNom := if from' ≤ p.prevNom then p.prevNom + δ else p.prevNom
    drawn := p.drawn.map fun x => { x with tNom := x.tNom + δ } }
  else { p with slip := p.slip + δ }

theorem slipFrom_later {p : PortSt} (h : from' ≤ p.tNom) : p.slipFrom from' δ = { p with
    tNom := p.tNom + δ, prevNom := if from' ≤ p.prevNom then p.prevNom + δ else p.prevNom
    drawn := p.drawn.map fun x => { x with tNom := x.tNom + δ } } := if_pos h

theorem slipFrom_sooner {p : PortSt} (h : p.tNom < from') : p.slipFrom from' δ = { p with slip := p.slip + δ } :=
  if_neg (not_le.mpr h)

/-- The turn of one port. -/
def State.slipPort (from' δ : Int) (s : State) (n : Nat) : State := s.setPort n ((s.port n).slipFrom from' δ)

theorem slipPorts_eq (s : State) (from' δ : Int) : s.slipPorts from' δ = (List.range 32).foldl (State.slipPort from' δ) s := by
  unfold State.slipPorts
  congr 1
  funext t n
  unfold State.slipPort PortSt.slipFrom
  dsimp only
  split <;> rfl

theorem port_slipPorts (s : State) (hn : n < 32) : (s.slipPorts from' δ).port n = (s.port n).slipFrom from' δ := by
  rw [slipPorts_eq]
  exact foldl_range_read (f := State.slipPort from' δ) (v := (State.port · n)) (g := (PortSt.slipFrom · from' δ)) hn 
    (fun t => State.port_setPort_same t _ n) (fun t _ hj => State.port_setPort_ne t _ hj) s

theorem sched_slipPorts (s : State) (from' δ : Int) : (s.slipPorts from' δ).dev.rng.sched = s.dev.rng.sched := by
  rw [slipPorts_eq]
  exact List.foldlRecOn (motive := fun t : State => t.dev.rng.sched = s.dev.rng.sched) _ _ rfl fun _ h _ _ => h

theorem Frame.slipPorts (h : Frame R P s t) (hP : Part.rng ∈ P := by decide) : Frame R P s (t.slipPorts from' δ) := by
  rw [slipPorts_eq]
  exact Frame.foldl _ h fun _ _ hu => hu.setPort hP

theorem Frame.setSched {y : SchedSt} (h : Frame R P s t) (hP : Part.rng ∈ P := by decide) : Frame R P s (t.setSched y) :=
  h.onRng (f := fun r => { r with sched := y }) hP

/-! The keeper at the start of a frame (R161). -/

/-- e, in 1/256 ns. -/
def State.keeperError (s : State) : Int := s.tag256 - 256 * s.frameTag (s.dev.rng.sched.frame + 1)

/-- The slip that e asks for, in ns. -/
def State.keeperSlip (s : State) : Int := if 256 ≤ s.keeperError then -1 else if s.keeperError ≤ -256 then 1 else 0

/-- The nominal start of the frame after the one that starts. -/
def State.keeperNext (s : State) : Int := s.dev.rng.sched.nextStart + s.fld F.rejSchedPeriodPeriod 0

/-- ERROR shows e, and the keeper is in its next frame. -/
def State.keeperShown (s : State) : State :=
  (s.setSfld F.rejSchedStsError 0 (clampI (-32768) 32767 s.keeperError)).setSched
    { s.dev.rng.sched with frame := s.dev.rng.sched.frame + 1, nextStart := s.keeperNext + s.keeperSlip }

/-- The ports slip. -/
def State.keeperMoved (s : State) : State := s.keeperShown.slipPorts s.keeperNext s.keeperSlip

/-- The slip is counted. -/
def State.keeperCounted (s : State) : State := s.keeperMoved.bump F.rejSchedSlipCntCount 0 1

/-- The bytes of a slip notice (R299). -/
def State.keeperNotice (s : State) : List Byte :=
  leBytes 8 (s.dev.rng.sched.frame + 1 + 1) ++ leBytes 1 (if s.keeperSlip = 1 then 0x01 else 0xFF)

/-- The frame starts, with its slip where e asks for one. -/
def State.keeperStarts (s : State) : State :=
  if s.keeperSlip = 0 then s.keeperShown else s.keeperCounted.ringSend 0x02 0 true s.keeperNotice

/-- ALARM sets where e exceeds TOL. -/
def State.keeperAlarms (s t : State) : State :=
  if s.fld F.rejSchedGuardTol 0 * 256 < s.keeperError.natAbs then t.raise F.rejSchedStsAlarm 0 4 0 else t

theorem frameStart_eq (h : s.sys.op = .run ∧ s.flag F.rejSchedStsRunning 0 = true) :
    s.frameStart = s.keeperAlarms s.keeperStarts := if_pos h

theorem frameStart_idle (h : ¬(s.sys.op = .run ∧ s.flag F.rejSchedStsRunning 0 = true)) : s.frameStart = s := if_neg h

theorem keeperShown_frame (s : State) : Frame [.rejSchedSts] [.rng] s s.keeperShown :=
  ((Frame.refl _ _ s).setSfld (by decide)).setSched

@[simp] theorem port_keeperShown (s : State) (n : Nat) : s.keeperShown.port n = s.port n := by rfl

theorem keeperMoved_frame (s : State) : Frame [.rejSchedSts] [.rng] s s.keeperMoved := (keeperShown_frame s).slipPorts

theorem keeperCounted_frame (s : State) : Frame [.rejSchedSts, .rejSchedSlipCnt] [.rng] s s.keeperCounted :=
  ((keeperMoved_frame s).mono (by decide) (by decide)).bump (by decide)

theorem keeperStarts_frame (s : State) : Frame [.rejSchedSts, .rejSchedSlipCnt] [.rng, .links, .out, .ring] s s.keeperStarts :=
  Frame.ite (fun _ => (keeperShown_frame s).mono (by decide) (by decide))
    (fun _ => ((keeperCounted_frame s).mono (by decide) (by decide)).ringSend)

theorem keeperStarts_still (h : s.keeperSlip = 0) : s.keeperStarts = s.keeperShown := if_pos h

theorem keeperStarts_moving (h : s.keeperSlip ≠ 0) : s.keeperStarts = s.keeperCounted.ringSend 0x02 0 true s.keeperNotice := if_neg h

/-- The notice of a slip leaves the registers and the ranging block. -/
theorem keeperStarts_notifies (h : s.keeperSlip ≠ 0) : Frame [] [.links, .out, .ring] s.keeperCounted s.keeperStarts := by
  rw [keeperStarts_moving h]
  exact (Frame.refl _ _ _).ringSend

/-- After the ports have slipped the slip is counted and its notice leaves. -/
theorem keeperStarts_after (h : s.keeperSlip ≠ 0) : Frame [.rejSchedSlipCnt] [.links, .out, .ring] s.keeperMoved s.keeperStarts :=
  ((Frame.refl _ _ _).bump (by decide)).trans (keeperStarts_notifies h) (by decide) (by decide)

theorem clampI_within {lo hi i : Int} (h : lo ≤ hi) : lo ≤ clampI lo hi i ∧ clampI lo hi i ≤ hi := by
  unfold clampI
  split
  · omega
  · split <;> omega

theorem keeperShown_error (s : State) : s.keeperShown.sfld F.rejSchedStsError 0 = clampI (-32768) 32767 s.keeperError := by
  obtain ⟨hlo, hhi⟩ := clampI_within (i := s.keeperError) (show (-32768 : Int) ≤ 32767 by decide)
  refine sfld_setSfld_same s (x := F.rejSchedStsError) 0 (by decide) ?_ ?_
  · show (-(2 ^ 16) : Int) ≤ _
    omega
  · show _ < (2 ^ 16 : Int)
    omega

theorem keeperStarts_error (s : State) : s.keeperStarts.sfld F.rejSchedStsError 0 = clampI (-32768) 32767 s.keeperError := by
  rw [← keeperShown_error]
  by_cases h : s.keeperSlip = 0
  · rw [keeperStarts_still h]
  · have slipped : Frame [] [.rng] s.keeperShown s.keeperMoved := (Frame.refl _ _ _).slipPorts
    rw [(keeperStarts_after h).sfld F.rejSchedStsError 0, slipped.sfld F.rejSchedStsError 0]

theorem keeperStarts_sched (s : State) : s.keeperStarts.dev.rng.sched =
    { s.dev.rng.sched with frame := s.dev.rng.sched.frame + 1, nextStart := s.keeperNext + s.keeperSlip } := by
  by_cases h : s.keeperSlip = 0
  · rw [keeperStarts_still h]
    rfl
  · rw [(keeperStarts_after h).sched, State.keeperMoved, sched_slipPorts]
    rfl

theorem keeperStarts_port (h : s.keeperSlip ≠ 0) (hn : n < 32) :
    s.keeperStarts.port n = (s.port n).slipFrom s.keeperNext s.keeperSlip := by
  rw [(keeperStarts_after h).port n, State.keeperMoved, port_slipPorts _ hn, port_keeperShown]

theorem keeperStarts_counts (h : s.keeperSlip ≠ 0) :
    s.keeperStarts.fld F.rejSchedSlipCntCount 0 = min (s.fld F.rejSchedSlipCntCount 0 + 1) 0xFFFFFFFF := by
  rw [(keeperStarts_notifies h).fld _ _ (by decide), ← (keeperMoved_frame s).fld F.rejSchedSlipCntCount 0 (by decide)]
  exact fld_bump_same _ _ _ (by decide)

theorem keeperStarts_hands (h : s.keeperSlip ≠ 0) : s.handsRing s.keeperStarts 0x02 s.keeperNotice := by
  rw [keeperStarts_moving h]
  exact (ringSend_hands s.keeperCounted _ _ _ _).between (keeperCounted_frame s) (Frame.refl [] [] _)

/-! The alarm. -/

theorem keeperAlarms_frame (s t : State) : Frame (.rejSchedSts :: postRegs) postParts t (s.keeperAlarms t) :=
  Frame.ite (fun _ => (Frame.refl _ _ t).raise (by decide)) (fun _ => Frame.refl _ _ t)

theorem keeperAlarms_unrouted (s : State) (ht : t.unrouted) : Frame [.rejSchedSts, .sysEvtSts] [] t (s.keeperAlarms t) :=
  Frame.ite (fun _ => (raise_unrouted (x := F.rejSchedStsAlarm) ht (by decide) (by decide)).1) (fun _ => Frame.refl _ _ t)

theorem keeperAlarms_error (s t : State) :
    (s.keeperAlarms t).sfld F.rejSchedStsError 0 = t.sfld F.rejSchedStsError 0 := by
  unfold State.keeperAlarms
  split
  · exact congrArg (signed _) (fld_raise_apart t (y := F.rejSchedStsError) (by decide) (by decide) (by decide) (by decide) 0)
  · rfl

theorem keeperAlarms_sets (t : State) (h : s.fld F.rejSchedGuardTol 0 * 256 < s.keeperError.natAbs) :
    (s.keeperAlarms t).flag F.rejSchedStsAlarm 0 = true := by
  unfold State.keeperAlarms
  rw [if_pos h]
  exact flag_raise t (by decide) (by decide)

/-! The frames that the schedule's timers send. -/

theorem announceTimer_eq (h : s.sys.op = .run) : s.announceTimer = s.ringSend 0x01 0 true (s.announcement false) := if_pos h

theorem announceTimer_idle (h : s.sys.op ≠ .run) : s.announceTimer = s := if_neg h

/-- The bytes of a shot notice (R299). -/
def shotNotice (b : List (Nat × Nat × Bool)) : List Byte :=
  leBytes 1 b.length ++ leBytes 3 0 ++ b.flatMap fun q => leBytes 1 (q.1 + 128 * b2n q.2.2) ++ leBytes 1 0 ++ leBytes 2 q.2.1

/-- The entries of a batch no longer wait. -/
def State.takeBatch (s : State) : State := s.setSched { s.dev.rng.sched with shots := s.dev.rng.sched.shots.drop 127 }

theorem sendShots_idle (h : s.dev.rng.sched.shots = []) : s.sendShots = s := by
  unfold State.sendShots
  simp only [h]

theorem sendShots_eq (h : s.dev.rng.sched.shots ≠ []) :
    s.sendShots = s.takeBatch.ringSend 0x03 0 true (shotNotice (s.dev.rng.sched.shots.take 127)) := by
  unfold State.sendShots
  dsimp only
  split
  next hnil => exact absurd hnil h
  next => rfl

/-- A frame that leaves on the ring touches no register, no memory and nothing of ranging. -/
theorem ringSend_keeps {s : State} {type dst : Nat} {b : Bool} {l : List Byte} (h : Frame [] P s t)
    (hm : Part.mem ∉ P := by decide) : keepsCore s (t.ringSend type dst b l) ∧ keepsRegs [] s (t.ringSend type dst b l)
      ∧ keepsBytes s (t.ringSend type dst b l) ∧ (t.ringSend type dst b l).dev.rng = t.dev.rng := by
  have sent : Frame [] [.links, .out, .ring] t (t.ringSend type dst b l) := (Frame.refl _ _ t).ringSend
  have whole : Frame [] (P ++ [.links, .out, .ring]) s (t.ringSend type dst b l) :=
    (h.mono (by simp) (by simp)).trans sent (by simp) (by simp)
  obtain ⟨hcore, hregs, hbytes⟩ := whole.keeps (by simpa using hm)
  exact ⟨hcore, hregs, hbytes, sent.part .rng (by decide)⟩

/-! The commands. -/

theorem exec_frameStart (h : s.frameStart = t) (hc : keepsCore s t) : exec .frameStart s = .next t :=
  congrArg Host.Outcome.next (inDev_eq h hc)

theorem exec_announcementSend (h : s.announceTimer = t) (hc : keepsCore s t) : exec .announcementSend s = .next t :=
  congrArg Host.Outcome.next (inDev_eq h hc)

theorem exec_shotBatchSend (h : s.sendShots = t) (hc : keepsCore s t) : exec .shotBatchSend s = .next t :=
  congrArg Host.Outcome.next (inDev_eq h hc)

/-- Settles O30: a frame starts by `State.keeperStarts`, which shows e, slips and notifies, and then by `State.keeperAlarms`. Wherever the
alarm's event is routed, it leaves ERROR, the slip count and the ranging block; where it is routed nowhere, the ring too. The other two
commands hand one frame to the ring. -/
theorem scheduleKept : Obligations.ScheduleKept := by
  intro n s
  dsimp only
  refine ⟨fun hoff => exec_frameStart (frameStart_idle hoff) (keepsCore_refl s), fun hon => ?_, fun hrun => ?_,
    fun hidle => exec_announcementSend (announceTimer_idle hidle) (keepsCore_refl s),
    fun hnone => exec_shotBatchSend (sendShots_idle hnone) (keepsCore_refl s), fun hshots => ?_⟩
  · have started := keeperStarts_frame s
    have alarmed := keeperAlarms_frame s s.keeperStarts
    have hcount := alarmed.fld F.rejSchedSlipCntCount 0 (by decide)
    have hcore : keepsCore s (s.keeperAlarms s.keeperStarts) := keepsCore_trans started.core alarmed.core
    have quietly (hs : s.unrouted) := keeperAlarms_unrouted s (started.unrouted hs)
    refine ⟨_, exec_frameStart (frameStart_eq hon) hcore, hcore, fun hs => ?_, (keeperAlarms_error s _).trans (keeperStarts_error s),
      alarmed.sched.trans (keeperStarts_sched s), keeperAlarms_sets _, fun (hstill : s.keeperSlip = 0) => ?_,
      fun (hslip : s.keeperSlip ≠ 0) => ?_⟩
    · have whole : Frame [.rejSchedSts, .rejSchedSlipCnt, .sysEvtSts] [.rng, .links, .out, .ring] s (s.keeperAlarms s.keeperStarts) :=
        (started.mono (by decide) (by decide)).trans (quietly hs) (by decide) (by decide)
      exact (whole.keeps (by decide)).2
    · rw [alarmed.rng, hcount, keeperStarts_still hstill]
      exact ⟨rfl, (keeperShown_frame s).fld _ _ (by decide)⟩
    · rw [hcount, alarmed.port n, keeperStarts_port hslip n.isLt]
      refine ⟨keeperStarts_counts hslip, fun (hlater : s.keeperNext ≤ _) => ?_,
        fun (hsooner : _ < s.keeperNext) => ?_, fun hs => ?_⟩
      · rw [slipFrom_later hlater]
        exact ⟨rfl, rfl, rfl⟩
      · rw [slipFrom_sooner hsooner]
        exact ⟨rfl, rfl, rfl⟩
      · exact (keeperStarts_hands hslip).between (Frame.refl [] [] s) (quietly hs)
  · obtain ⟨hcore, hregs, hbytes, -⟩ := ringSend_keeps (type := 0x01) (dst := 0) (b := true) (l := s.announcement false)
      (Frame.refl [] [] s)
    exact ⟨_, exec_announcementSend (announceTimer_eq hrun) hcore, hcore, hregs, hbytes, ringSend_hands _ _ _ _ _⟩
  · have taken : Frame [] [.rng] s s.takeBatch := (Frame.refl _ _ s).setSched
    obtain ⟨hcore, hregs, hbytes, hrng⟩ := ringSend_keeps (type := 0x03) (dst := 0) (b := true)
      (l := shotNotice (s.dev.rng.sched.shots.take 127)) taken
    have sent := ringSend_hands s.takeBatch 0x03 0 true (shotNotice (s.dev.rng.sched.shots.take 127))
    exact ⟨_, exec_shotBatchSend (sendShots_eq hshots) hcore, hcore, hregs, hbytes, congrArg RangingSt.sched hrng,
      sent.between taken (Frame.refl [] [] _)⟩

end Sys2Proof.Machine
end

section
/-! SUPPORT. The records of the scan-axis ports and of the loops, and what driving a loop's target touches (R166 to R170, R179, R185,
R194). -/
namespace Sys2Proof.Machine

variable {R R' : List Reg} {P P' : List Part} {s t u : State} {x : RegField} {i j n v : Nat}

/-! Putting a record touches no register, and no other kind of record. -/

theorem Frame.onLoop {f : LoopSt → LoopSt} (h : Frame R P s t) (hP : Part.loop ∈ P := by decide) :
    Frame R P s (t.onDev fun d => { d with loop := f d.loop }) :=
  h.onDev (fun _ => rfl) fun d p n => by cases p <;> first | rfl | exact absurd hP n

theorem Frame.setAxis {y : Axis} (h : Frame R P s t) (hP : Part.loop ∈ P := by decide) : Frame R P s (t.setAxis n y) :=
  h.onLoop (f := fun x => { x with axes := smPut {} x.axes n y }) hP

theorem Frame.setLoop {k : Loop} (h : Frame R P s t) (hP : Part.loop ∈ P := by decide) : Frame R P s (t.setLoop n k) :=
  h.onLoop (f := fun x => { x with loops := smPut {} x.loops n k }) hP

theorem Frame.setIll {y : IllSt} (h : Frame R P s t) (hP : Part.lin ∈ P := by decide) : Frame R P s (t.setIll n y) :=
  h.onLin (f := fun x => { x with ills := smPut {} x.ills n y }) hP

section reads
variable (s : State) (r : Reg) (x : RegField) (y : Axis) (k : Loop) (b : Bool) (e : Int) (n i v c : Nat)

@[simp] theorem State.axis_setAxis_same : (s.setAxis n y).axis n = y := smGet_put_same _ _ _ _
@[simp] theorem State.loop_setLoop_same : (s.setLoop n k).loop n = k := smGet_put_same _ _ _ _

@[simp] theorem State.axis_setReg : (s.setReg r i v).axis n = s.axis n := by rfl
@[simp] theorem State.axis_setFld : (s.setFld x i v).axis n = s.axis n := by rfl
@[simp] theorem State.axis_setFlag : (s.setFlag x i b).axis n = s.axis n := by rfl
@[simp] theorem State.axis_bump : (s.bump x i c).axis n = s.axis n := by rfl
@[simp] theorem State.loop_setReg : (s.setReg r i v).loop n = s.loop n := by rfl
@[simp] theorem State.loop_setSfld : (s.setSfld x i e).loop n = s.loop n := by rfl
@[simp] theorem State.loop_setFlag : (s.setFlag x i b).loop n = s.loop n := by rfl
@[simp] theorem State.fld_setAxis : (s.setAxis n y).fld x i = s.fld x i := by rfl
@[simp] theorem State.fld_setLoop : (s.setLoop n k).fld x i = s.fld x i := by rfl

end reads

/-- A state with the same record of the engine holds the same loops and ports. -/
theorem Frame.loop (h : Frame R P s t) (n : Nat) (hP : Part.loop ∉ P := by decide) : t.loop n = s.loop n := by
  have hloop : t.dev.loop = s.dev.loop := h.part .loop hP
  unfold State.loop
  rw [hloop]

theorem Frame.axis (h : Frame R P s t) (n : Nat) (hP : Part.loop ∉ P := by decide) : t.axis n = s.axis n := by
  have hloop : t.dev.loop = s.dev.loop := h.part .loop hP
  unfold State.axis
  rw [hloop]

/-! A frame in which the loops' records are the same, while those of the scan-axis ports may change. -/

/-- From `s` to `t` only `R` and `P` may differ, and no loop's record. -/
structure LoopFrame (R : List Reg) (P : List Part) (s t : State) : Prop extends Frame R P s t where
  loops : t.dev.loop.loops = s.dev.loop.loops

namespace LoopFrame

theorem refl (R : List Reg) (P : List Part) (s : State) : LoopFrame R P s s := ⟨Frame.refl R P s, rfl⟩

theorem trans (h : LoopFrame R P s t) (k : LoopFrame R' P' t u) (hR : R' ⊆ R := by decide) (hP : P' ⊆ P := by decide) :
    LoopFrame R P s u := ⟨h.toFrame.trans k.toFrame hR hP, k.loops.trans h.loops⟩

theorem loop (h : LoopFrame R P s t) (n : Nat) : t.loop n = s.loop n := by
  unfold State.loop
  rw [h.loops]

theorem ite {c : Prop} [Decidable c] {y z : State} (hy : c → LoopFrame R P s y) (hz : ¬c → LoopFrame R P s z) :
    LoopFrame R P s (if c then y else z) := by
  split
  · exact hy ‹_›
  · exact hz ‹_›

theorem foldl {α : Type} {f : State → α → State} (l : List α) (h : LoopFrame R P s t)
    (hf : ∀ u b, LoopFrame R P s u → LoopFrame R P s (f u b)) : LoopFrame R P s (l.foldl f t) := by
  induction l generalizing t with
  | nil => exact h
  | cons b l ih => exact ih (hf t b h)

theorem setReg {r : Reg} (h : LoopFrame R P s t) (hr : r ∈ R := by decide) : LoopFrame R P s (t.setReg r i v) :=
  ⟨h.toFrame.setReg hr, h.loops⟩

theorem setFlag {b : Bool} (h : LoopFrame R P s t) (hr : x.reg ∈ R := by decide) : LoopFrame R P s (t.setFlag x i b) := h.setReg hr

theorem setSfld {e : Int} (h : LoopFrame R P s t) (hr : x.reg ∈ R := by decide) : LoopFrame R P s (t.setSfld x i e) := h.setReg hr

theorem emit {o : Out} (h : LoopFrame R P s t) (hP : Part.out ∈ P := by decide) : LoopFrame R P s (t.emit o) :=
  ⟨h.toFrame.emit hP, h.loops⟩

theorem setAxis {y : Axis} (h : LoopFrame R P s t) (hP : Part.loop ∈ P := by decide) : LoopFrame R P s (t.setAxis n y) :=
  ⟨h.toFrame.setAxis hP, h.loops⟩

theorem setIll {y : IllSt} (h : LoopFrame R P s t) (hP : Part.lin ∈ P := by decide) : LoopFrame R P s (t.setIll n y) :=
  ⟨h.toFrame.setIll hP, h.loops⟩

theorem setBank {y : BankSt} (h : LoopFrame R P s t) (hP : Part.lin ∈ P := by decide) : LoopFrame R P s (t.setBank n y) :=
  ⟨h.toFrame.setBank hP, h.loops⟩

theorem setClus {y : ClusterSt} (h : LoopFrame R P s t) (hP : Part.rng ∈ P := by decide) : LoopFrame R P s (t.setClus n y) :=
  ⟨h.toFrame.setClus hP, h.loops⟩

end LoopFrame

/-! The drive outputs of a scan-axis port (R166 to R170). -/

theorem Frame.axisMode (h : Frame R P s t) (n : Nat) (hR : Reg.loopSaxCtl ∉ R := by decide) : t.axisMode n = s.axisMode n := by
  unfold State.axisMode
  rw [h.fld _ _ hR]

/-- What a change of a port's drive outputs can touch: of its registers STEP_LIM alone, and of its record neither the demand nor any
loop. -/
structure PortDriven (n : Nat) (s t : State) : Prop extends LoopFrame [.loopSaxSts] [.loop, .out] s t where
  below : ∀ y : RegField, y.lo ≤ y.hi → y.hi < 7 → ∀ j, t.fld y j = s.fld y j
  drive : (t.axis n).drive = (s.axis n).drive

namespace PortDriven

theorem refl (n : Nat) (s : State) : PortDriven n s s := ⟨LoopFrame.refl _ _ s, fun _ _ _ _ => rfl, rfl⟩

theorem emit {o : Out} (h : PortDriven n s t) : PortDriven n s (t.emit o) := ⟨h.toLoopFrame.emit, h.below, h.drive⟩

theorem setPins {w : Nat} (h : PortDriven n s t) : PortDriven n s (t.setAxis n { s.axis n with pins := w }) :=
  ⟨h.toLoopFrame.setAxis, h.below, by rw [State.axis_setAxis_same]⟩

theorem stepLim (h : PortDriven n s t) : PortDriven n s (t.setFlag F.loopSaxStsStepLim i true) :=
  ⟨h.toLoopFrame.setFlag, fun y hy hlt j =>
    (fld_setFld_apart (by decide) hy (Or.inr hlt) j).trans (h.below y hy hlt j), h.drive⟩

theorem foldl {α : Type} {f : State → α → State} (l : List α) (h : PortDriven n s t)
    (hf : ∀ u b, PortDriven n s u → PortDriven n s (f u b)) : PortDriven n s (l.foldl f t) := by
  induction l generalizing t with
  | nil => exact h
  | cons b l ih => exact ih (hf t b h)

theorem driveAux (h : PortDriven n s t) : PortDriven n s (t.driveAux i j) := h.emit

end PortDriven

/-- The new levels stand at the outputs; in MODE 4 the auxiliary channels are driven behind them. -/
theorem drivePort_eq (s : State) (n : Nat) : ∃ w, PortDriven n s w
    ∧ s.drivePort n = if s.axisMode n = 4 then (List.range 3).foldl (fun t j => t.driveAux n j) (w.emit (.pin 1 n (s.portPins n)))
      else w.emit (.pin 1 n (s.portPins n)) := by
  have limited (b : Bool) : PortDriven n s (if b then s.setFlag F.loopSaxStsStepLim n true else s) := by
    cases b with
    | false => exact PortDriven.refl n s
    | true => exact (PortDriven.refl n s).stepLim
  exact ⟨_, (((limited _).foldl _ fun _ _ hu => hu.emit).setPins), rfl⟩

theorem drivePort_driven (s : State) (n : Nat) : PortDriven n s (s.drivePort n) := by
  obtain ⟨w, hw, heq⟩ := drivePort_eq s n
  rw [heq]
  split
  · exact hw.emit.foldl _ fun _ _ hu => hu.driveAux
  · exact hw.emit

/-- The port's levels have left the device. -/
theorem drivePort_out (s : State) (n : Nat) : Out.pin 1 n (s.portPins n) ∈ (s.drivePort n).dev.out := by
  obtain ⟨w, -, heq⟩ := drivePort_eq s n
  have shown : Out.pin 1 n (s.portPins n) ∈ (w.emit (.pin 1 n (s.portPins n))).dev.out := List.mem_cons_self
  rw [heq]
  split
  · exact List.foldlRecOn (motive := fun t : State => Out.pin 1 n (s.portPins n) ∈ t.dev.out) _ _ shown
      fun _ hu _ _ => List.mem_cons_of_mem _ hu
  · exact shown

/-- A port's levels follow from its demand, its settings and the Hall state. -/
theorem PortDriven.portPins (h : PortDriven n s t) : t.portPins n = s.portPins n := by
  unfold State.portPins State.stepCap
  rw [h.drive, h.axisMode n, h.below F.loopSaxStsHall (by decide) (by decide),
    h.flag F.loopSaxCtlDirInv n (by decide), h.fld F.loopSaxPwmStepW n (by decide)]

/-! The targets of a loop (R170, R179, R194). -/

/-- The registers and the records that driving a loop's target can touch. -/
abbrev targetRegs : List Reg := [.loopSaxSts, .linIllSts, .linBankSts]
abbrev targetParts : List Part := [.loop, .lin, .out]

namespace LoopFrame

theorem drivePort (h : LoopFrame R P s t) (hR : Reg.loopSaxSts ∈ R) (hP : [Part.loop, .out] ⊆ P) : LoopFrame R P s (t.drivePort n) :=
  h.trans (drivePort_driven t n).toLoopFrame (by simpa using hR) hP

theorem sendDemand (h : LoopFrame R P s t) (hP : [Part.lin, .out] ⊆ P) : LoopFrame R P s (t.sendDemand n) :=
  ite (fun _ => h) fun _ => (h.setIll (hP (by decide))).emit (hP (by decide))

theorem coolPort (h : LoopFrame R P s t) (hR : Reg.linBankSts ∈ R) (hP : Part.lin ∈ P) : LoopFrame R P s (t.coolPort n) :=
  foldl _ h fun _ _ hu => (hu.setFlag hR).setBank hP

theorem setAux {q : Nat × Nat} (h : LoopFrame R P s t) (hP : [Part.loop, .out] ⊆ P) : LoopFrame R P s (t.setAux n q) :=
  ite (fun _ => (h.setAxis (hP (by decide))).emit (hP (by decide))) fun _ => h.setAxis (hP (by decide))

/-- A target takes a demand, or goes inactive: what can change is the port it names. -/
theorem setTarget {o : Option Int} (h : LoopFrame R P s t) (hR : targetRegs ⊆ R := by decide) (hP : targetParts ⊆ P := by decide) :
    LoopFrame R P s (t.setTarget n o) := by
  have hm : ∀ l : List Part, l ⊆ targetParts → l ⊆ P := fun l hl => List.Subset.trans hl hP
  unfold State.setTarget
  dsimp only
  split
  · exact (h.setAxis (hP (by decide))).drivePort (hR (by decide)) (hm _ (by decide))
  · have sent (y : IllSt) (i : Nat) : LoopFrame R P s ((t.setIll i y).sendDemand i) :=
      (h.setIll (hP (by decide))).sendDemand (hm _ (by decide))
    have cooled (y : IllSt) (i : Nat) : LoopFrame R P s (((t.setIll i y).sendDemand i).coolPort i) :=
      (sent y i).coolPort (hR (by decide)) (hP (by decide))
    split
    · exact ite (fun _ => (sent _ _).setFlag (hR (by decide))) fun _ => ite (fun _ => cooled _ _) fun _ => sent _ _
    · exact cooled _ _
  · split
    · exact h.setAux (hm _ (by decide))
    · exact h.setAux (hm _ (by decide))
  · exact h

end LoopFrame

end Sys2Proof.Machine
end

section
/-! SUPPORT. The inputs of a scan-axis port (R167, R171, R172): a sampled transition, the index, and a change of the Hall state. -/
namespace Sys2Proof.Machine

variable {R : List Reg} {P : List Part} {s t u : State} {n : Nat} {a b : Bool} {d : Int}

/-- A counter leaves the fields of the other registers. -/
theorem fld_bump_other {x y : RegField} {i c : Nat} (h : x.reg ≠ y.reg) (j : Nat) : (s.bump x i c).fld y j = s.fld y j :=
  fld_setReg_ne _ _ (Or.inl h)

/-- A flag leaves the fields of the other registers. -/
theorem fld_setFlag_other {x y : RegField} {i : Nat} (h : x.reg ≠ y.reg) (j : Nat) : (s.setFlag x i b).fld y j = s.fld y j :=
  fld_setReg_ne _ _ (Or.inl h)

/-! A sampled transition (R171). -/

theorem exec_encoderEdge {p : Fin 4} (h : s.encoderEdge p a b = t) (hc : keepsCore s t) : exec (.encoderEdge p a b) s = .next t :=
  congrArg Host.Outcome.next (inDev_eq h hc)

/-- The counts of a port that moves no carriage stay with the port. -/
theorem encoderEdge_apart (h : s.flag F.odoSrcKind 0 = false) : s.encoderEdge n a b = (s.encoder n a b).2 := by
  unfold State.encoderEdge
  simp [h]

theorem encoder_illegal (h : quadStep (s.axis n).a (s.axis n).b a b = none) : s.encoder n a b =
    (0, ((s.setAxis n { s.axis n with a := a, b := b }).setFlag F.loopSaxStsEncErr n true).bump F.loopSaxErrCntCount n 1) := by
  unfold State.encoder
  simp only [h]

theorem encoder_still (h : quadStep (s.axis n).a (s.axis n).b a b = some 0) : s.encoder n a b = (0, s) := by
  unfold State.encoder
  simp only [h]

/-- A legal transition moves the count by its step. -/
theorem encoder_legal (h : quadStep (s.axis n).a (s.axis n).b a b = some d) (hd : d ≠ 0) :
    ∃ y : Axis, y.a = a ∧ y.b = b ∧ Frame [.loopSaxSts, .loopSaxAz] []
      ((s.setAxis n y).setReg .loopSaxPos n (unsigned 32 ((s.reg .loopSaxPos n : Int) + d))) (s.encoder n a b).2 := by
  unfold State.encoder
  dsimp only
  split
  next hnone => rw [hnone] at h; cases h
  next hzero => rw [hzero] at h; cases h; exact absurd rfl hd
  next e he =>
    rw [he] at h
    cases h
    refine ⟨_, ?levelA, ?levelB, Frame.setFld (Frame.ite (fun _ => (Frame.refl _ _ _).setFlag (by decide)) fun _ => Frame.refl _ _ _)
      (by decide)⟩
    case levelA => rfl
    case levelB => rfl

theorem quadStep_unit (h : quadStep a b a' b' = some d) (hd : d ≠ 0) : d = 1 ∨ d = -1 := by
  unfold quadStep at h
  split at h <;> simp_all

/-- One count more or less, modulo the width of the counter. -/
theorem unsigned_step (p : Nat) (h : d = 1 ∨ d = -1) :
    unsigned 32 ((p : Int) + d) = if d = 1 then (p + 1) % 2 ^ 32 else (p + (2 ^ 32 - 1)) % 2 ^ 32 := by
  unfold unsigned
  rcases h with rfl | rfl
  · rw [if_pos rfl]; omega
  · rw [if_neg (by decide)]; omega

theorem encoderEdge_illegal {p : Fin 4} (hsrc : s.flag F.odoSrcKind 0 = false)
    (h : quadStep (s.axis p).a (s.axis p).b a b = none) :
    ∃ t, exec (.encoderEdge p a b) s = .next t ∧ keepsCore s t ∧ keepsBytes s t ∧ keepsRegs [.loopSaxSts, .loopSaxErrCnt] s t
      ∧ t.flag F.loopSaxStsEncErr p = true ∧ t.axis p = { s.axis p with a := a, b := b }
      ∧ t.fld F.loopSaxErrCntCount p = min (s.fld F.loopSaxErrCntCount p + 1) 0xFFFFFFFF := by
  set v := (s.setAxis p { s.axis p with a := a, b := b }).setFlag F.loopSaxStsEncErr p true with hv
  have marked : Frame [.loopSaxSts, .loopSaxErrCnt] [.loop] s v := ((Frame.refl _ _ s).setAxis).setFlag (by decide)
  have counted : Frame [.loopSaxSts, .loopSaxErrCnt] [.loop] s (v.bump F.loopSaxErrCntCount p 1) := marked.bump (by decide)
  obtain ⟨hcore, hregs, hbytes⟩ := counted.keeps (by decide)
  refine ⟨_, exec_encoderEdge (by rw [encoderEdge_apart hsrc, encoder_illegal h]) hcore, hcore, hbytes, hregs, ?_, ?_, ?_⟩
  · rw [flag_iff, fld_bump_other (by decide), hv, fld_setFlag_same _ _ (by decide)]
    rfl
  · rw [State.axis_bump, hv, State.axis_setFlag, State.axis_setAxis_same]
  · rw [fld_bump_same _ _ _ (by decide), hv, fld_setFlag_other (by decide), State.fld_setAxis]
    rfl

theorem encoderEdge_counts {p : Fin 4} (hsrc : s.flag F.odoSrcKind 0 = false)
    (h : quadStep (s.axis p).a (s.axis p).b a b = some d) (hd : d ≠ 0) :
    ∃ t, exec (.encoderEdge p a b) s = .next t ∧ keepsCore s t ∧ keepsBytes s t
      ∧ keepsRegs [.loopSaxPos, .loopSaxSts, .loopSaxAz, .loopSaxErrCnt] s t ∧ (t.axis p).a = a ∧ (t.axis p).b = b
      ∧ t.reg .loopSaxPos p = if d = 1 then (s.reg .loopSaxPos p + 1) % 2 ^ 32 else (s.reg .loopSaxPos p + (2 ^ 32 - 1)) % 2 ^ 32 := by
  obtain ⟨y, hya, hyb, shown⟩ := encoder_legal h hd
  have moved : Frame [.loopSaxPos, .loopSaxSts, .loopSaxAz, .loopSaxErrCnt] [.loop] s (s.encoder p a b).2 :=
    (((Frame.refl _ _ s).setAxis).setReg (by decide)).trans shown (by decide) (by decide)
  obtain ⟨hcore, hregs, hbytes⟩ := moved.keeps (by decide)
  have haxis : (s.encoder p a b).2.axis p = y := (shown.axis p).trans (by rw [State.axis_setReg, State.axis_setAxis_same])
  refine ⟨_, exec_encoderEdge (encoderEdge_apart hsrc) hcore, hcore, hbytes, hregs, by rw [haxis, hya], by rw [haxis, hyb], ?_⟩
  rw [shown.reg _ _ (by decide), reg_setReg_same, Nat.mod_eq_of_lt (unsigned_lt 32 _), unsigned_step _ (quadStep_unit h hd)]

/-! The index (R172). -/

/-- An index is judged against the expected place: half a turn has the most distance. -/
def State.indexJudged (s : State) (n : Nat) : State :=
  let cpr := s.fld F.loopSaxCprCpr n
  let p := ((s.axis n).rev % cpr).toNat
  if s.fld F.loopSaxCprIndexTol n < min p (cpr - p) then s.setFlag F.loopSaxStsIndexErr n true else s

/-- The port stands at the index. -/
def State.indexed (s : State) (n : Nat) : State :=
  ((s.indexJudged n).setAxis n { s.axis n with rev := 0 }).setFlag F.loopSaxAzIndexed n true

theorem encoderIndex_eq (s : State) (n : Nat) : s.encoderIndex n = (s.indexed n).showAz n := by rfl

theorem indexJudged_frame (s : State) (n : Nat) : Frame [.loopSaxSts] [] s (s.indexJudged n) :=
  Frame.ite (fun _ => (Frame.refl _ _ _).setFlag (by decide)) fun _ => Frame.refl _ _ _

theorem indexed_frame (s : State) (n : Nat) : Frame [.loopSaxSts, .loopSaxAz] [.loop] s (s.indexed n) :=
  (((indexJudged_frame s n).mono (by decide) (by decide)).setAxis).setFlag (by decide)

theorem indexed_flag (s : State) (n : Nat) : (s.indexed n).flag F.loopSaxAzIndexed n = true := flag_setFlag_same _ _ (by decide) _

theorem indexed_axis (s : State) (n : Nat) : (s.indexed n).axis n = { s.axis n with rev := 0 } := by
  unfold State.indexed
  rw [State.axis_setFlag, State.axis_setAxis_same]

/-- At the index the azimuth is 0, in the counter's format the counter. -/
theorem indexed_azCode (s : State) (n : Nat) :
    (s.indexed n).azCode n = if s.flag F.loopSaxCtlAzFmt n then s.reg .loopSaxPos n % 2 ^ 20 else 0 := by
  unfold State.azCode
  rw [indexed_flag, indexed_axis, (indexed_frame s n).flag _ _ (by decide), (indexed_frame s n).reg _ _ (by decide)]
  simp

theorem encoderIndex_shows (p : Fin 4) (s : State) :
    let cpr := s.fld F.loopSaxCprCpr p
    let off := ((s.axis p).rev % cpr).toNat
    ∃ t, exec (.encoderIndex p) s = .next t ∧ keepsCore s t ∧ keepsBytes s t ∧ keepsRegs [.loopSaxSts, .loopSaxAz] s t
      ∧ t.axis p = { s.axis p with rev := 0 } ∧ t.flag F.loopSaxAzIndexed p = true
      ∧ (s.fld F.loopSaxCprIndexTol p < min off (cpr - off) → t.flag F.loopSaxStsIndexErr p = true)
      ∧ t.fld F.loopSaxAzAz p = if s.flag F.loopSaxCtlAzFmt p then s.reg .loopSaxPos p % 2 ^ 20 else 0 := by
  intro cpr off
  have shown : Frame [.loopSaxSts, .loopSaxAz] [.loop] s (s.encoderIndex p) := by
    rw [encoderIndex_eq]
    exact (indexed_frame s p).setFld (by decide)
  obtain ⟨hcore, hregs, hbytes⟩ := shown.keeps (by decide)
  have late : Frame [.loopSaxAz] [.loop] (s.indexJudged p) (s.encoderIndex p) :=
    (((Frame.refl _ _ _).setAxis).setFlag (by decide)).setFld (by decide)
  refine ⟨_, congrArg Host.Outcome.next (inDev_eq rfl hcore), hcore, hbytes, hregs, ?_, ?_, fun hfar => ?_, ?_⟩
  · rw [encoderIndex_eq, State.showAz, State.axis_setFld, indexed_axis]
  · rw [encoderIndex_eq, State.showAz, State.flag, fld_setFld_apart (by decide) (by decide) (by decide)]
    exact indexed_flag s p
  · rw [late.flag _ _ (by decide)]
    unfold State.indexJudged
    rw [if_pos hfar]
    exact flag_setFlag_same _ _ (by decide) _
  · rw [encoderIndex_eq, State.showAz, fld_setFld_same _ _ _ (by decide), indexed_azCode]
    split
    · exact Nat.mod_mod _ _
    · rfl

/-! The Hall state (R167, R173). -/

/-- A change of the Hall state is shown and may move the commutation count; then it is judged, and the outputs follow. -/
theorem hallChange_eq (s : State) (n h : Nat) : ∃ w, Frame [] [.loop] (s.setFld F.loopSaxStsHall n h) w
    ∧ (w.axis n).drive = (s.axis n).drive
    ∧ s.hallChange n h = if (s.axis n).drive.isSome then (w.judgeHall n).drivePort n else w.judgeHall n := by
  unfold State.hallChange
  dsimp only
  have kept (c : Prop) [Decidable c] (w : State) (y : Axis) (hw : (w.axis n).drive = (s.axis n).drive)
      (hy : y.drive = (s.axis n).drive) : ((if c then w else w.setAxis n y).axis n).drive = (s.axis n).drive := by
    split
    · exact hw
    · rw [State.axis_setAxis_same, hy]
  refine ⟨_, ?_, ?_, rfl⟩
  · split
    · exact Frame.ite (fun _ => Frame.refl _ _ _) fun _ => (Frame.refl _ _ _).setAxis
    · exact Frame.refl _ _ _
  · split
    · exact kept _ _ _ rfl rfl
    · rfl

theorem judgeHall_frame (s : State) (n : Nat) : Frame [.loopSaxSts, .loopSaxErrCnt] [] s (s.judgeHall n) :=
  Frame.ite (fun _ => ((Frame.refl _ _ _).setFlag (by decide)).bump (by decide)) fun _ => Frame.refl _ _ _

theorem judgeHall_hall (s : State) (n : Nat) : (s.judgeHall n).fld F.loopSaxStsHall n = s.fld F.loopSaxStsHall n := by
  unfold State.judgeHall
  split
  · rw [fld_bump_other (by decide), State.setFlag, fld_setFld_apart (by decide) (by decide) (by decide)]
  · rfl

/-- In three-phase mode an invalid Hall state sets HALL_ERR and is counted. -/
theorem judgeHall_invalid (hmode : s.axisMode n = 1) (h : s.fld F.loopSaxStsHall n = 0 ∨ s.fld F.loopSaxStsHall n = 7) :
    (s.judgeHall n).flag F.loopSaxStsHallErr n = true
      ∧ (s.judgeHall n).fld F.loopSaxErrCntCount n = min (s.fld F.loopSaxErrCntCount n + 1) 0xFFFFFFFF := by
  unfold State.judgeHall
  rw [if_pos ⟨hmode, h⟩]
  constructor
  · rw [flag_iff, fld_bump_other (by decide), fld_setFlag_same _ _ (by decide)]
    rfl
  · rw [fld_bump_same _ _ _ (by decide), fld_setFlag_other (by decide)]
    rfl

/-- In three-phase mode an invalid Hall state leaves no gate on. -/
theorem portPins_invalid (hmode : s.axisMode n = 1) (h : s.fld F.loopSaxStsHall n = 0 ∨ s.fld F.loopSaxStsHall n = 7) :
    s.portPins n = 0 := by
  have hgates : hallGates (s.fld F.loopSaxStsHall n) = none := by
    rcases h with h | h <;> rw [h] <;> rfl
  unfold State.portPins
  cases (s.axis n).drive with
  | none => rfl
  | some u => simp [hmode, hgates]

/-- The outputs of a driven port follow what has been judged. -/
theorem followed_driven (s v : State) (n : Nat) : PortDriven n v (if (s.axis n).drive.isSome then v.drivePort n else v) := by
  split
  · exact drivePort_driven v n
  · exact PortDriven.refl n v

/-- A new Hall state is stored and judged; then a driven port follows it. -/
theorem hallChange_judged (s : State) (n : Nat) {h : Nat} (hh : h < 8) :
    ∃ w, Frame [.loopSaxSts, .loopSaxErrCnt] [.loop] s w ∧ w.fld F.loopSaxStsHall n = h
      ∧ (h = 0 ∨ h = 7 → s.axisMode n = 1 → w.flag F.loopSaxStsHallErr n = true
        ∧ w.fld F.loopSaxErrCntCount n = min (s.fld F.loopSaxErrCntCount n + 1) 0xFFFFFFFF ∧ w.portPins n = 0)
      ∧ PortDriven n w (s.hallChange n h)
      ∧ ((s.axis n).drive.isSome = true → Out.pin 1 n (w.portPins n) ∈ (s.hallChange n h).dev.out) := by
  obtain ⟨w, moved, hdrive, heq⟩ := hallChange_eq s n h
  have stored : Frame [.loopSaxSts] [] s (s.setFld F.loopSaxStsHall n h) := (Frame.refl _ _ _).setFld (by decide)
  have shown : Frame [.loopSaxSts] [.loop] s w := (stored.mono (by decide) (by decide)).trans moved (by decide) (by decide)
  have judged := judgeHall_frame w n
  have hhall : w.fld F.loopSaxStsHall n = h := by
    rw [moved.fld _ _ (by decide), fld_setFld_same _ _ _ (by decide)]
    exact Nat.mod_eq_of_lt hh
  refine ⟨w.judgeHall n, (shown.mono (by decide) (by decide)).trans judged (by decide) (by decide), (judgeHall_hall w n).trans hhall,
    fun hbad hthree => ?_, heq ▸ followed_driven s _ n, fun hon => ?_⟩
  · have hmode : w.axisMode n = 1 := (shown.axisMode n).trans hthree
    rw [← hhall] at hbad
    obtain ⟨herr, hcount⟩ := judgeHall_invalid hmode hbad
    refine ⟨herr, hcount.trans (by rw [shown.fld _ _ (by decide)]), portPins_invalid ((judged.axisMode n).trans hmode) ?_⟩
    rw [judgeHall_hall]
    exact hbad
  · rw [heq, if_pos hon]
    exact drivePort_out _ _

theorem hallChange_shows (p : Fin 4) (h : Fin 8) (s : State) :
    ∃ t, exec (.hallChange p h) s = .next t ∧ keepsCore s t ∧ keepsBytes s t ∧ keepsRegs [.loopSaxSts, .loopSaxErrCnt] s t
      ∧ t.fld F.loopSaxStsHall p = h.val
      ∧ ((h = 0 ∨ h = 7) → s.fld F.loopSaxCtlMode p = 1 → t.flag F.loopSaxStsHallErr p = true
        ∧ t.fld F.loopSaxErrCntCount p = min (s.fld F.loopSaxErrCntCount p + 1) 0xFFFFFFFF
        ∧ ((s.axis p).drive.isSome = true → Out.pin 1 p 0 ∈ t.dev.out))
      ∧ ((s.axis p).drive.isSome = true → Out.pin 1 p (t.portPins p) ∈ t.dev.out) := by
  obtain ⟨w, judged, hhall, hinvalid, driven, hout⟩ := hallChange_judged s p h.isLt
  have whole : Frame [.loopSaxSts, .loopSaxErrCnt] [.loop, .out] s (s.hallChange p h) :=
    (judged.mono (by decide) (by decide)).trans driven.toFrame (by decide) (by decide)
  obtain ⟨hcore, hregs, hbytes⟩ := whole.keeps (by decide)
  refine ⟨_, congrArg Host.Outcome.next (inDev_eq rfl hcore), hcore, hbytes, hregs, ?_, fun hbad hthree => ?_, fun hon => ?_⟩
  · rw [driven.below _ (by decide) (by decide), hhall]
  · have hmode : s.axisMode p = 1 := by
      unfold State.axisMode
      rw [hthree]
      rfl
    obtain ⟨herr, hcount, hoff⟩ := hinvalid (hbad.imp (congrArg Fin.val) (congrArg Fin.val)) hmode
    refine ⟨?_, ?_, fun hon => hoff ▸ hout hon⟩
    · rw [flag_iff] at herr ⊢
      rw [driven.below _ (by decide) (by decide), herr]
    · rw [driven.fld _ _ (by decide), hcount]
  · rw [driven.portPins]
    exact hout hon

/-- Settles O33: each command is the operation of its name, whose cases the hypotheses choose. -/
theorem axisInputs : Obligations.AxisInputs := by
  intro n a b h s
  exact ⟨fun hsrc => ⟨encoderEdge_illegal hsrc,
      fun hstill => exec_encoderEdge ((encoderEdge_apart hsrc).trans (congrArg Prod.snd (encoder_still hstill))) (keepsCore_refl s),
      fun d hlegal hd => encoderEdge_counts hsrc hlegal hd⟩,
    encoderIndex_shows n s, hallChange_shows n h s⟩

end Sys2Proof.Machine
end

section
/-! SUPPORT. What one sample instant of a loop can touch (R173 to R178, R181 to R185), whatever it regulates. -/
namespace Sys2Proof.Machine

variable {R R' : List Reg} {P P' : List Part} {s t u : State} {x : RegField} {k : Loop} {i n v : Nat} {fb w : Int}

/-- The registers that a sample instant of a loop can touch. -/
abbrev slotRegs : List Reg :=
  [.loopOut, .rcvClSts, .loopSaxSts, .linIllSts, .linBankSts, .loopSts, .loopX, .loopFb, .loopCtl, .loopSaxSpeed]

/-- The records that a sample instant of a loop can touch. -/
abbrev slotParts : List Part := [.freeCtr, .out, .rng, .loop, .lin]

/-- A stretch of a sample instant after which loop `n` runs, or not, as before, and holds the same latched feedback. -/
structure InSlot (n : Nat) (s t : State) : Prop extends Frame slotRegs slotParts s t where
  active : (t.loop n).active = (s.loop n).active
  latched : (t.loop n).latched = (s.loop n).latched

namespace InSlot

theorem refl (n : Nat) (s : State) : InSlot n s s := ⟨Frame.refl _ _ s, rfl, rfl⟩

theorem trans (h : InSlot n s t) (k : InSlot n t u) : InSlot n s u :=
  ⟨h.toFrame.trans k.toFrame (fun _ m => m) (fun _ m => m), k.active.trans h.active, k.latched.trans h.latched⟩

theorem ite {c : Prop} [Decidable c] {y z : State} (hy : InSlot n s y) (hz : InSlot n s z) : InSlot n s (if c then y else z) := by
  split
  · exact hy
  · exact hz

theorem setReg {r : Reg} (h : InSlot n s t) (hr : r ∈ slotRegs := by decide) : InSlot n s (t.setReg r i v) :=
  ⟨h.toFrame.setReg hr, h.active, h.latched⟩

theorem setFlag {b : Bool} (h : InSlot n s t) (hr : x.reg ∈ slotRegs := by decide) : InSlot n s (t.setFlag x i b) := h.setReg hr

theorem setSfld (h : InSlot n s t) (hr : x.reg ∈ slotRegs := by decide) : InSlot n s (t.setSfld x i w) := h.setReg hr

theorem draw (h : InSlot n s t) : InSlot n s t.draw.2 := ⟨h.toFrame.draw, h.active, h.latched⟩

theorem setLoop (h : InSlot n s t) (ha : k.active = (s.loop n).active := by rfl)
    (hl : k.latched = (s.loop n).latched := by rfl) : InSlot n s (t.setLoop n k) :=
  ⟨h.toFrame.setLoop, by rw [State.loop_setLoop_same, ha], by rw [State.loop_setLoop_same, hl]⟩

theorem fit48 (h : InSlot n s t) : InSlot n s (t.fit48 w).2 := by
  unfold State.fit48
  split
  · exact h
  · exact h.draw

theorem notchStep {c : Notch} {en : Bool} (h : InSlot n s t) : InSlot n s (c.step t en w).2.2 := by
  unfold Notch.step
  split
  · exact h.fit48.fit48.fit48
  · exact h

theorem takeNotches (s : State) : InSlot n s (s.takeNotches n) := by
  unfold State.takeNotches
  split
  · exact ((refl n s).setLoop).setFlag
  · exact refl n s

theorem loopTarget (s : State) : InSlot n s (s.loopTarget n).2 := by
  have seen (a b : Nat) : InSlot n s (s.setLoop n { s.loop n with tcSeen := a, tcStale := b }) := (refl n s).setLoop
  unfold State.loopTarget
  extract_lets sp i x k run lim s1
  split
  · split
    · split
      · exact (seen _ _).setFlag
      · exact seen _ _
    · exact (seen _ _).setFlag
  · exact refl n s

theorem rampTo (s : State) : InSlot n s (s.rampTo n w) := by
  unfold State.rampTo
  exact (((refl n s).setLoop).setSfld).setFlag

/-- The control law may draw the bits of results that do not fit, and ends in the loop's record and SAT. -/
theorem controlLaw (s : State) (resume : Bool) : InSlot n s (s.controlLaw n fb resume) := by
  unfold State.controlLaw
  extract_lets k lo hi e pe pv p ie i0 i1 w a b u i2 s1
  have integrated : InSlot n s ie.2 := (refl n s).fit48.fit48.fit48.fit48
  have resumed : InSlot n s i0.2 := by
    cases resume with
    | true => exact integrated.fit48
    | false => exact integrated
  have stored : InSlot n s s1 := resumed.fit48.notchStep.notchStep.setLoop
  exact ite stored.setFlag stored

/-- Whatever its feedback, a loop computes inside its sample instant. -/
theorem computeLoop (s : State) (f : Int × Bool × Bool) : InSlot n s (s.computeLoop n f) := by
  unfold State.computeLoop
  extract_lets s0 tg s1 k run lim s2
  have ramped : InSlot n s s1 := ((takeNotches s).trans (loopTarget s0)).trans (rampTo tg.2)
  have counted : InSlot n s s2 := ramped.setLoop (by exact ramped.active) (by exact ramped.latched)
  refine ite ?failed (ite ?stale (ite counted (counted.trans (controlLaw s2 k.held))))
  case failed => exact (counted.setLoop (by exact counted.active) (by exact counted.latched)).setFlag
  case stale => exact (counted.setLoop (by exact counted.active) (by exact counted.latched)).setFlag

end InSlot

/-! What comes before a loop computes. -/

theorem startLoop_frame (s : State) (n : Nat) : Frame [.loopSts] [.loop] s (s.startLoop n fb) :=
  Frame.ite (fun _ => Frame.refl _ _ _) fun _ => ((Frame.refl _ _ _).setLoop).setFlag (by decide)

/-- A loop that starts, or has started, runs from here on. -/
theorem startLoop_active (s : State) (n : Nat) : ((s.startLoop n fb).loop n).active = true := by
  unfold State.startLoop
  split
  next h => exact h
  next => rw [State.loop_setFlag, State.loop_setLoop_same]

theorem startLoop_latched (s : State) (n : Nat) : ((s.startLoop n fb).loop n).latched = (s.loop n).latched := by
  unfold State.startLoop
  split
  · rfl
  · rw [State.loop_setFlag, State.loop_setLoop_same]

/-- The ports form their speeds (R173). -/
theorem sampleAxes_frame (s : State) : LoopFrame [.loopSaxSpeed] [.loop] s s.sampleAxes :=
  LoopFrame.foldl _ (LoopFrame.refl _ _ s) fun _ _ hu => (hu.setAxis.setSfld).setAxis

/-- Clusters may blank on the step of an output (R77). -/
theorem LoopFrame.biasWatch (h : LoopFrame R P s t) (hR : Reg.rcvClSts ∈ R := by decide) (hP : Part.rng ∈ P := by decide) :
    LoopFrame R P s (t.biasWatch n w) :=
  foldl _ h fun _ _ hu => ite (fun _ => (hu.setClus hP).setFlag hR) fun _ => hu

/-- The registers and the records that an output can touch on its way to a target. -/
abbrev outputRegs : List Reg := [.loopOut, .rcvClSts, .loopSts] ++ targetRegs
abbrev outputParts : List Part := .rng :: targetParts

/-- An output is shown, watched and given to the target of loop `i`. -/
theorem applyOutput_frame (s : State) (n i : Nat) (w : Int) :
    LoopFrame outputRegs outputParts s ((s.applyOutput n w).setTarget i (some w)) :=
  ((LoopFrame.refl _ _ s).setSfld.biasWatch).setTarget

theorem applyGroup_frame (s : State) (lead : Nat) (l : List Nat) : Frame slotRegs slotParts s (s.applyGroup lead l) := by
  unfold State.applyGroup
  dsimp only
  split
  · exact Frame.refl _ _ s
  next w u _ =>
    refine Frame.foldl _ ((applyOutput_frame s w lead u).toFrame.mono (by decide) (by decide)) fun t m ht => ?_
    exact Frame.ite (fun _ => ht.setFlag (by decide)) fun _ => (ht.setFlag (by decide)).setLoop

/-- Feedback is read, and its place noted; LOOP_FB shows it. -/
theorem Frame.latchFb (h : Frame R P s t) (hR : Reg.loopFb ∈ R := by decide) (hP : Part.loop ∈ P := by decide) :
    Frame R P s (t.latchFb n).2 := by
  refine Frame.setSfld ?_ hR
  unfold State.feedback
  dsimp only
  split
  case h_4 => exact h.setLoop hP
  case h_5 => exact h.setLoop hP
  all_goals exact h

/-! The three courses of a sample instant (R175, R181). -/

/-- A loop that does not run does nothing. -/
theorem loopSlot_idle (h : s.loopRuns n = false) : s.loopSlot n = s := by
  unfold State.loopSlot
  simp [h]

/-- A member of a group without latched feedback waits. -/
theorem loopSlot_waits (hruns : s.loopRuns n = true)
    (hmember : (s.flag F.loopCtlGrpEn n && decide (s.fld F.loopCtlGrpLead n ≠ n)) = true)
    (hl : (s.loop n).latched = none) : s.loopSlot n = s.sampleAxes := by
  unfold State.loopSlot
  simp only [hruns, hmember, if_true, (sampleAxes_frame s).loop, hl]

/-- A member takes the feedback that its leader has latched. -/
def State.takeLatched (s : State) (n : Nat) : State :=
  s.sampleAxes.setLoop n { s.sampleAxes.loop n with latched := none }

theorem loopSlot_member {f : Int × Bool × Bool} (hruns : s.loopRuns n = true)
    (hmember : (s.flag F.loopCtlGrpEn n && decide (s.fld F.loopCtlGrpLead n ≠ n)) = true) (hl : (s.loop n).latched = some f) :
    s.loopSlot n = ((s.takeLatched n).startLoop n f.1).computeLoop n f := by
  unfold State.loopSlot State.takeLatched
  simp only [hruns, hmember, if_true, (sampleAxes_frame s).loop, hl]

/-- A loop applies its own waiting output. -/
def State.applyOwn (s : State) (n : Nat) : State :=
  match (s.loop n).active, (s.loop n).next with
  | true, some u => ((s.applyOutput n u).setTarget n (some u)).setFlag F.loopStsWinner n false
  | _, _ => s

theorem applyOwn_waiting (ha : (s.loop n).active = true) (hn : (s.loop n).next = some w) :
    s.applyOwn n = ((s.applyOutput n w).setTarget n (some w)).setFlag F.loopStsWinner n false := by
  unfold State.applyOwn
  rw [ha, hn]

theorem applyOwn_none (h : (s.loop n).active = false ∨ (s.loop n).next = none) : s.applyOwn n = s := by
  unfold State.applyOwn
  rcases h with h | h <;> rw [h]
  cases (s.loop n).active <;> rfl

theorem applyOwn_frame (s : State) (n : Nat) : LoopFrame outputRegs outputParts s (s.applyOwn n) := by
  unfold State.applyOwn
  split
  · exact (applyOutput_frame s n n _).setFlag
  · exact LoopFrame.refl _ _ s

/-- A loop in no group applies its output, latches its feedback and computes. -/
theorem loopSlot_alone (hruns : s.loopRuns n = true) (hgrp : s.flag F.loopCtlGrpEn n = false) :
    s.loopSlot n = (((s.sampleAxes.applyOwn n).latchFb n).2.startLoop n ((s.sampleAxes.applyOwn n).latchFb n).1.1).computeLoop n
      ((s.sampleAxes.applyOwn n).latchFb n).1 := by
  unfold State.loopSlot
  simp only [hruns, hgrp, if_true, Bool.false_and, Bool.false_eq_true, if_false, List.foldl_nil]
  rfl

/-- A loop that is no member of another's group latches its feedback and computes. -/
theorem loopSlot_leads (hruns : s.loopRuns n = true)
    (hmember : (s.flag F.loopCtlGrpEn n && decide (s.fld F.loopCtlGrpLead n ≠ n)) = false) :
    ∃ (u : State) (f : Int × Bool × Bool), Frame slotRegs slotParts s u ∧ s.loopSlot n = (u.startLoop n f.1).computeLoop n f := by
  have sampled : Frame slotRegs slotParts s s.sampleAxes := (sampleAxes_frame s).toFrame.mono (by decide) (by decide)
  cases hgrp : s.flag F.loopCtlGrpEn n with
  | false =>
    have applied : Frame slotRegs slotParts s (s.sampleAxes.applyOwn n) :=
      sampled.trans (applyOwn_frame s.sampleAxes n).toFrame (by decide) (by decide)
    exact ⟨_, _, applied.latchFb, loopSlot_alone hruns hgrp⟩
  | true =>
    rw [hgrp, Bool.true_and] at hmember
    unfold State.loopSlot
    simp only [hruns, hgrp, hmember, if_true, Bool.and_false, Bool.false_eq_true, if_false]
    refine ⟨_, _, Frame.latchFb (Frame.foldl _ ?applied fun t m ht => ?latched), rfl⟩
    case applied => exact sampled.trans (applyGroup_frame _ _ _) (fun _ h => h) fun _ h => h
    case latched => exact Frame.ite (fun _ => ht) fun _ => ht.latchFb.setLoop

/-- What a sample instant of a running loop leaves. -/
theorem loopSlot_frame (hruns : s.loopRuns n = true) : Frame slotRegs slotParts s (s.loopSlot n) := by
  have computed {u : State} (hu : Frame slotRegs slotParts s u) (f : Int × Bool × Bool) :
      Frame slotRegs slotParts s ((u.startLoop n f.1).computeLoop n f) :=
    (hu.trans (startLoop_frame u n) (by decide) (by decide)).trans (InSlot.computeLoop _ f).toFrame (fun _ h => h) fun _ h => h
  have sampled : Frame slotRegs slotParts s s.sampleAxes := (sampleAxes_frame s).toFrame.mono (by decide) (by decide)
  cases hmember : (s.flag F.loopCtlGrpEn n && decide (s.fld F.loopCtlGrpLead n ≠ n)) with
  | false =>
    obtain ⟨u, f, hu, heq⟩ := loopSlot_leads hruns hmember
    rw [heq]
    exact computed hu f
  | true =>
    cases hl : (s.loop n).latched with
    | none =>
      rw [loopSlot_waits hruns hmember hl]
      exact sampled
    | some f =>
      rw [loopSlot_member hruns hmember hl]
      exact computed sampled.setLoop f

end Sys2Proof.Machine
end

section
/-! SUPPORT. A loop that regulates an encoder position without ramp, compensation or notch (R176, R177, R185): what it shows, starts with
and computes. -/
namespace Sys2Proof.Machine

variable {s t : State} {x : RegField} {i n : Nat} {fb e p ie i1 w : Int}

/-! The control law where its results fit (R177). -/

/-- A result fits the 48 bits that the law carries. -/
abbrev Fits48 (v : Int) : Prop := -(2 ^ 47 : Int) ≤ v ∧ v < 2 ^ 47

/-- A result that fits stands as it is. -/
theorem fit48_fits (h : Fits48 w) : s.fit48 w = (w, s) := if_pos h

/-- A product with a value in 2^-32, taken back to its scale. -/
theorem divFloor_scale (a b : Int) : divFloor (a * (b * 2 ^ 32)) (2 ^ 32) = a * b := by
  unfold divFloor
  rw [← mul_assoc]
  exact Int.mul_fdiv_cancel _ (by norm_num)

/-- A product with a value in 2^-32, taken back by 40 places, keeps 8 of them. -/
theorem divFloor_rescale (a b : Int) : divFloor (a * (b * 2 ^ 32)) (2 ^ 40) = divFloor (a * b) (2 ^ 8) := by
  unfold divFloor
  rw [← mul_assoc, show ((2 ^ 40 : Nat) : Int) = ((2 ^ 8 : Nat) : Int) * 2 ^ 32 by norm_num,
    Int.fdiv_eq_ediv_of_nonneg _ (by norm_num), Int.fdiv_eq_ediv_of_nonneg _ (by norm_num)]
  exact Int.mul_ediv_mul_of_pos_left _ _ (by norm_num)

/-- What the control law leaves of a loop: its waiting output, its integrator, and SAT at a limit. -/
structure Regulated (s : State) (n : Nat) (e i0 i1 u : Int) (t : State) : Prop where
  frame : Frame [.loopSts] [.loop] s t
  active : (t.loop n).active = (s.loop n).active
  next : (t.loop n).next = some u
  integral : (t.loop n).i =
    if (u = s.sfld F.loopOutMaxOutMax n ∧ 0 < e) ∨ (u = s.sfld F.loopOutMinOutMin n ∧ e < 0) then i0 else i1
  sat : u = s.sfld F.loopOutMinOutMin n ∨ u = s.sfld F.loopOutMaxOutMax n → t.flag F.loopStsSat n = true

/-- A record that holds the output and the integrator, with SAT where the output stands at a limit. -/
theorem regulated_of_record {k : Loop} {i0 u : Int} (ha : k.active = (s.loop n).active) (hn : k.next = some u)
    (hi : k.i = if (u = s.sfld F.loopOutMaxOutMax n ∧ 0 < e) ∨ (u = s.sfld F.loopOutMinOutMin n ∧ e < 0) then i0 else i1) :
    Regulated s n e i0 i1 u (if u = s.sfld F.loopOutMinOutMin n ∨ u = s.sfld F.loopOutMaxOutMax n then
      (s.setLoop n k).setFlag F.loopStsSat n true else s.setLoop n k) := by
  have stored : Frame [.loopSts] [.loop] s (s.setLoop n k) := (Frame.refl _ _ s).setLoop
  split
  next hlim =>
    exact ⟨stored.setFlag (by decide), by rw [State.loop_setFlag, State.loop_setLoop_same, ha],
      by rw [State.loop_setFlag, State.loop_setLoop_same, hn], by rw [State.loop_setFlag, State.loop_setLoop_same, hi],
      fun _ => flag_setFlag_same _ _ (by decide) _⟩
  next hfree =>
    exact ⟨stored, by rw [State.loop_setLoop_same, ha], by rw [State.loop_setLoop_same, hn], by rw [State.loop_setLoop_same, hi],
      fun hlim => absurd hlim hfree⟩

/-- The error `e`, its proportional part `p` and its integral part `ie` make the output, where the results fit. -/
theorem controlLaw_plain (h0 : s.flag F.loopCtlNotch0En n = false) (h1 : s.flag F.loopCtlNotch1En n = false) (hv : (s.loop n).v = 0)
    (he : (s.loop n).x - fb * 2 ^ 32 = e * 2 ^ 32) (hp : s.sfld F.loopKpKp n * e = p)
    (hie : divFloor (s.sfld F.loopKiKi n * e) (2 ^ 8) = ie)
    (hi1 : clampI (s.sfld F.loopOutMinOutMin n * 2 ^ 16) (s.sfld F.loopOutMaxOutMax n * 2 ^ 16) ((s.loop n).i + ie) = i1)
    (fitsP : Fits48 p) (fitsI : Fits48 ie) (fitsW : Fits48 (p + i1)) :
    Regulated s n e (s.loop n).i i1
      (clampI (s.sfld F.loopOutMinOutMin n) (s.sfld F.loopOutMaxOutMax n) (divAway (p + i1) (2 ^ 16))) (s.controlLaw n fb false) := by
  have still : divFloor (s.sfld F.loopKfKf n * 0) (2 ^ 32) = 0 := by rw [mul_zero]; rfl
  have fits0 : Fits48 0 := ⟨by norm_num, by norm_num⟩
  have positive : 0 < e * 2 ^ 32 ↔ 0 < e := by omega
  have negative : e * 2 ^ 32 < 0 ↔ e < 0 := by omega
  unfold State.controlLaw
  simp only [he, hv, divFloor_scale, divFloor_rescale, hp, hie, still, fit48_fits fitsP, fit48_fits fits0, fit48_fits fitsI, add_zero,
    hi1, fit48_fits fitsW, h0, h1, Notch.step, Bool.false_eq_true, if_false, positive, negative]
  exact regulated_of_record rfl rfl rfl

/-! What comes before the control law. -/

theorem takeNotches_frame (s : State) (n : Nat) : Frame [.loopCtl] [.loop] s (s.takeNotches n) := by
  unfold State.takeNotches
  split
  · exact ((Frame.refl _ _ s).setLoop).setFlag (by decide)
  · exact Frame.refl _ _ s

/-- Taking the shadows clears COMMIT, and leaves the settings above it. -/
theorem takeNotches_above (s : State) (n : Nat) (hx : x.lo ≤ x.hi) (h : 7 < x.lo) (j : Nat) : (s.takeNotches n).fld x j = s.fld x j := by
  unfold State.takeNotches
  split
  · exact fld_setFld_apart (by decide) hx (Or.inl h) j
  · rfl

/-- Of the loop's record only the notches differ. -/
theorem takeNotches_loop (s : State) (n : Nat) : ∃ a b, (s.takeNotches n).loop n = { s.loop n with n0 := a, n1 := b } := by
  unfold State.takeNotches
  split
  · exact ⟨_, _, by rw [State.loop_setFlag, State.loop_setLoop_same]⟩
  · exact ⟨_, _, rfl⟩

theorem loopTarget_plain (h : s.flag F.loopCtlSpMode n = false) : s.loopTarget n = (s.sfld F.loopSpSp n * 2 ^ 32, s) := by
  unfold State.loopTarget
  simp [h]

theorem rampTo_frame (s : State) (n : Nat) (w : Int) : Frame [.loopX, .loopSts] [.loop] s (s.rampTo n w) := by
  unfold State.rampTo
  exact (((Frame.refl _ _ s).setLoop).setSfld (by decide)).setFlag (by decide)

/-- Without a ramp the value is the target, at rest. -/
theorem rampTo_none (h : s.fld F.loopCtlRampMode n = 0) :
    (s.rampTo n w).loop n = { s.loop n with x := w, v := 0, acc := 0, target := w, plan := none } := by
  unfold State.rampTo
  simp only [h, State.loop_setFlag, State.loop_setSfld, State.loop_setLoop_same, Option.isSome_none, Bool.false_eq_true, if_false]

/-- A loop on its way to its target, with the notches in use. -/
def State.aimed (s : State) (n : Nat) : State :=
  let tg := (s.takeNotches n).loopTarget n
  tg.2.rampTo n tg.1

/-- With new feedback from a sound source, and the integrator not held, the loop computes by the control law. -/
theorem computeLoop_fresh (h : ((s.aimed n).loop n).held = false) : s.computeLoop n (fb, true, false) =
    ((s.aimed n).setLoop n { (s.aimed n).loop n with stale := 0 }).controlLaw n fb false := by
  unfold State.aimed at h ⊢
  unfold State.computeLoop
  simp only [if_true, Bool.false_eq_true, if_false, Nat.le_zero, ne_eq, not_and_self_iff, State.loop_setLoop_same, h, false_and]

/-- A loop whose target is its set point, before the control law. -/
structure AtSetPoint (s : State) (n : Nat) (t : State) : Prop where
  frame : Frame [.loopCtl, .loopX, .loopSts] [.loop] s t
  above : ∀ y : RegField, y.reg = .loopCtl → y.lo ≤ y.hi → 7 < y.lo → t.fld y n = s.fld y n
  active : (t.loop n).active = (s.loop n).active
  integral : (t.loop n).i = (s.loop n).i
  value : (t.loop n).x = s.sfld F.loopSpSp n * 2 ^ 32
  rate : (t.loop n).v = 0

theorem computeLoop_plain (hmode : s.fld F.loopCtlRampMode n = 0) (hsp : s.flag F.loopCtlSpMode n = false)
    (hheld : (s.loop n).held = false) : ∃ t, AtSetPoint s n t ∧ s.computeLoop n (fb, true, false) = t.controlLaw n fb false := by
  obtain ⟨a, b, hnotches⟩ := takeNotches_loop s n
  have above {y : RegField} (hy : y.lo ≤ y.hi) (hlo : 7 < y.lo) : (s.takeNotches n).fld y n = s.fld y n :=
    takeNotches_above s n hy hlo n
  have f0 : Frame [.loopCtl, .loopX, .loopSts] [.loop] s (s.takeNotches n) := (takeNotches_frame s n).mono (by decide) (by decide)
  have haim : s.aimed n = (s.takeNotches n).rampTo n (s.sfld F.loopSpSp n * 2 ^ 32) := by
    unfold State.aimed
    rw [loopTarget_plain (by unfold State.flag; rw [above (by decide) (by decide)]; exact hsp), f0.sfld _ _]
  have f1 : Frame [.loopX, .loopSts] [.loop] (s.takeNotches n) (s.aimed n) := by
    rw [haim]
    exact rampTo_frame _ _ _
  have hrecord : (s.aimed n).loop n = { s.loop n with
      n0 := a, n1 := b, x := s.sfld F.loopSpSp n * 2 ^ 32, v := 0, acc := 0, target := s.sfld F.loopSpSp n * 2 ^ 32, plan := none } := by
    rw [haim, rampTo_none ((above (by decide) (by decide)).trans hmode), hnotches]
  refine ⟨_, ⟨(f0.trans f1 (by decide) (by decide)).setLoop, fun y hreg hy hlo => ?_, ?_, ?_, ?_, ?_⟩,
    computeLoop_fresh (by rw [hrecord]; exact hheld)⟩
  · rw [State.fld_setLoop, f1.fld _ _ (by rw [hreg]; decide), above hy hlo]
  all_goals rw [State.loop_setLoop_same, hrecord]

/-! The start of a loop, and its feedback (R176, R185). -/

/-- A loop that starts does so with an empty integrator. -/
theorem startLoop_record (s : State) (n : Nat) : ((s.startLoop n fb).loop n).held = (s.loop n).held
    ∧ ((s.startLoop n fb).loop n).i = if (s.loop n).active then (s.loop n).i else 0 := by
  unfold State.startLoop
  split
  next => exact ⟨rfl, rfl⟩
  next => rw [State.loop_setFlag, State.loop_setLoop_same]; exact ⟨rfl, rfl⟩

/-- An encoder position is new at each instant, and its source does not fail. -/
theorem latchFb_position (h : s.fld F.loopSrcFbKind n = 1) (hfb : s.sfld F.loopSaxPosPos (s.fld F.loopSrcFbIdx n % 4) = fb) :
    s.latchFb n = ((fb, true, false), s.setSfld F.loopFbFb n fb) := by
  unfold State.latchFb State.feedback
  simp only [h, hfb]

/-- LOOP_FB and LOOP_OUT show any signed word. -/
theorem sfld_word {r : Reg} (s : State) (i : Nat) (hlo : -2 ^ 31 ≤ w) (hhi : w < 2 ^ 31) :
    (s.setSfld ⟨r, 31, 0⟩ i w).sfld ⟨r, 31, 0⟩ i = w :=
  sfld_setSfld_same s i ⟨Nat.zero_le 31, Nat.lt_succ_self 31⟩ (by change -(2 ^ 32 : Int) ≤ _; omega) (by change _ < (2 ^ 32 : Int); omega)

theorem sfld_word_bounds {r : Reg} (s : State) (i : Nat) : -2 ^ 31 ≤ s.sfld ⟨r, 31, 0⟩ i ∧ s.sfld ⟨r, 31, 0⟩ i < 2 ^ 31 := by
  have h := signed_bounds 32 (s.fld ⟨r, 31, 0⟩ i)
  change -2 ^ 31 ≤ signed 32 _ ∧ signed 32 _ < 2 ^ 31
  omega

/-- The output that a loop applies is what LOOP_OUT shows. -/
theorem applyOwn_out (ha : (s.loop n).active = true) (hn : (s.loop n).next = some w) (hlo : -2 ^ 31 ≤ w) (hhi : w < 2 ^ 31) :
    (s.applyOwn n).sfld F.loopOutOut n = w := by
  have watched : LoopFrame (.rcvClSts :: .loopSts :: targetRegs) outputParts (s.setSfld F.loopOutOut n w) (s.applyOwn n) := by
    rw [applyOwn_waiting ha hn]
    exact ((LoopFrame.refl _ _ _).biasWatch.setTarget).setFlag
  rw [watched.sfld _ _]
  exact sfld_word s n hlo hhi

/-! The sample instant of the plain loop. -/

theorem applied_frame (s : State) (n : Nat) : LoopFrame (.loopSaxSpeed :: outputRegs) outputParts s (s.sampleAxes.applyOwn n) :=
  ((LoopFrame.refl _ _ s).trans (sampleAxes_frame s)).trans (applyOwn_frame _ n)

/-- The applied output leaves the position that is then latched. -/
theorem applied_latchFb (h : s.fld F.loopSrcFbKind n = 1) (hfb : s.sfld F.loopSaxPosPos (s.fld F.loopSrcFbIdx n % 4) = fb) :
    (s.sampleAxes.applyOwn n).latchFb n = ((fb, true, false), (s.sampleAxes.applyOwn n).setSfld F.loopFbFb n fb) :=
  have f := applied_frame s n
  latchFb_position (by rw [f.fld _ _ (by decide), h]) (by rw [f.sfld _ _, f.fld _ _ (by decide), hfb])

theorem latched_frame (s : State) (n : Nat) (fb : Int) : LoopFrame (.loopFb :: .loopSaxSpeed :: outputRegs) outputParts s
    ((s.sampleAxes.applyOwn n).setSfld F.loopFbFb n fb) :=
  ((LoopFrame.refl _ _ s).trans (applied_frame s n)).setSfld

/-- A loop that runs, in no group, regulating an encoder position without ramp, compensation or notch, its integrator not held. -/
structure PlainLoop (s : State) (n : Nat) : Prop where
  runs : s.loopRuns n = true
  alone : s.flag F.loopCtlGrpEn n = false
  ramp : s.fld F.loopCtlRampMode n = 0
  comp : s.flag F.loopCtlSpMode n = false
  notch0 : s.flag F.loopCtlNotch0En n = false
  notch1 : s.flag F.loopCtlNotch1En n = false
  kind : s.fld F.loopSrcFbKind n = 1
  held : (s.loop n).held = false

/-- A plain loop that has latched its feedback `fb`, right before the control law. -/
structure Primed (s : State) (n : Nat) (fb : Int) (t : State) : Prop where
  whole : Frame slotRegs slotParts s t
  since : Frame [.loopCtl, .loopX, .loopSts] [.loop] ((s.sampleAxes.applyOwn n).setSfld F.loopFbFb n fb) t
  notch0 : t.flag F.loopCtlNotch0En n = false
  notch1 : t.flag F.loopCtlNotch1En n = false
  active : (t.loop n).active = true
  integral : (t.loop n).i = if (s.loop n).active then (s.loop n).i else 0
  value : (t.loop n).x = s.sfld F.loopSpSp n * 2 ^ 32
  rate : (t.loop n).v = 0

theorem PlainLoop.primed (h : PlainLoop s n) (hfb : s.sfld F.loopSaxPosPos (s.fld F.loopSrcFbIdx n % 4) = fb) :
    ∃ t, Primed s n fb t ∧ s.loopSlot n = t.controlLaw n fb false := by
  have f2 := latched_frame s n fb
  set s2 := (s.sampleAxes.applyOwn n).setSfld F.loopFbFb n fb with hs2
  have started := startLoop_frame (fb := fb) s2 n
  have f3 : Frame (.loopFb :: .loopSaxSpeed :: outputRegs) outputParts s (s2.startLoop n fb) :=
    f2.toFrame.trans started (by decide) (by decide)
  obtain ⟨hheld, hi⟩ := startLoop_record (fb := fb) s2 n
  rw [f2.loop] at hheld hi
  obtain ⟨t, aim, hcompute⟩ := computeLoop_plain (fb := fb) (s := s2.startLoop n fb)
    ((f3.fld _ _ (by decide)).trans h.ramp) ((f3.flag _ _ (by decide)).trans h.comp) (hheld.trans h.held)
  have setting {y : RegField} (hy : y.reg = .loopCtl) (hle : y.lo = y.hi ∧ 7 < y.lo) : t.flag y n = s.flag y n := by
    unfold State.flag
    rw [aim.above y hy hle.1.le hle.2, f3.fld _ _ (by rw [hy]; decide)]
  refine ⟨t, ⟨(f3.mono (by decide) (by decide)).trans aim.frame (by decide) (by decide),
    (started.mono (by decide) (by decide)).trans aim.frame (by decide) (by decide), (setting rfl (by decide)).trans h.notch0,
    (setting rfl (by decide)).trans h.notch1, aim.active.trans (startLoop_active _ _), aim.integral.trans hi, ?_, aim.rate⟩, ?_⟩
  · rw [aim.value, f3.sfld _ _]
  · rw [loopSlot_alone h.runs h.alone, applied_latchFb h.kind hfb]
    exact hcompute

/-- The control law at the instant, in terms of the settings and the integrator before it. -/
theorem Primed.law (h : Primed s n fb t) {i0 : Int} (he : s.sfld F.loopSpSp n - fb = e)
    (hi0 : (if (s.loop n).active then (s.loop n).i else 0) = i0) (hp : s.sfld F.loopKpKp n * e = p)
    (hie : divFloor (s.sfld F.loopKiKi n * e) (2 ^ 8) = ie)
    (hi1 : clampI (s.sfld F.loopOutMinOutMin n * 2 ^ 16) (s.sfld F.loopOutMaxOutMax n * 2 ^ 16) (i0 + ie) = i1)
    (fitsP : Fits48 p) (fitsI : Fits48 ie) (fitsW : Fits48 (p + i1)) :
    Regulated t n e i0 i1 (clampI (s.sfld F.loopOutMinOutMin n) (s.sfld F.loopOutMaxOutMax n) (divAway (p + i1) (2 ^ 16)))
      (t.controlLaw n fb false) := by
  have hlo : t.sfld F.loopOutMinOutMin n = s.sfld F.loopOutMinOutMin n := h.whole.sfld _ _
  have hhi : t.sfld F.loopOutMaxOutMax n = s.sfld F.loopOutMaxOutMax n := h.whole.sfld _ _
  have hi : (t.loop n).i = i0 := h.integral.trans hi0
  rw [← hlo, ← hhi, ← hi]
  refine controlLaw_plain h.notch0 h.notch1 h.rate ?_ ?_ ?_ ?_ fitsP fitsI fitsW
  · rw [h.value, ← he]
    ring
  · rw [h.whole.sfld _ _, hp]
  · rw [h.whole.sfld _ _, hie]
  · rw [hlo, hhi, hi, hi1]

/-- LOOP_FB shows the feedback. -/
theorem latched_shows (hfb : s.sfld F.loopSaxPosPos i = fb) (u : State) : (u.setSfld F.loopFbFb n fb).sfld F.loopFbFb n = fb := by
  obtain ⟨hlo, hhi⟩ := sfld_word_bounds (r := .loopSaxPos) s i
  rw [← hfb]
  exact sfld_word u n hlo hhi

/-- The waiting output is applied, and LOOP_OUT shows it; a loop that starts applies none. -/
theorem applied_out (s : State) (n : Nat) :
    (∀ w, (s.loop n).active = true → (s.loop n).next = some w → -2 ^ 31 ≤ w → w < 2 ^ 31 →
      (s.sampleAxes.applyOwn n).sfld F.loopOutOut n = w)
    ∧ ((s.loop n).active = false ∨ (s.loop n).next = none → (s.sampleAxes.applyOwn n).reg .loopOut n = s.reg .loopOut n) := by
  have sampled := sampleAxes_frame s
  refine ⟨fun w ha hn hlo hhi => ?_, fun hnone => ?_⟩
  · exact applyOwn_out (by rw [sampled.loop, ha]) (by rw [sampled.loop, hn]) hlo hhi
  · rw [applyOwn_none (by rw [sampled.loop]; exact hnone), sampled.reg _ _ (by decide)]

end Sys2Proof.Machine
end

section
/-! SUPPORT. Writes of LOOP_SCHED and LOOP_CTL (R174, R178, R181, R185, R431): what stands in the way of one, what it stops, and what it
stores. -/
namespace Sys2Proof.Machine

variable {s t u : State} {m : Master} {r : Reg} {i a v : Nat} {n : Fin 32}

/-! The end of a loop (R185). -/

/-- What a loop that stops can touch. -/
abbrev stopRegs : List Reg := .loopSts :: targetRegs

theorem stopLoop_frame (s : State) (i : Nat) : Frame stopRegs targetParts s (s.stopLoop i) :=
  Frame.ite (fun _ => ((((LoopFrame.refl _ _ s).setTarget.toFrame.setLoop).setFlag (by decide)).setFlag (by decide)).setFlag (by decide))
    fun _ => Frame.refl _ _ s

theorem stopLoop_inactive (s : State) (i : Nat) : ((s.stopLoop i).loop i).active = false := by
  unfold State.stopLoop
  split
  next =>
    simp only [State.loop_setFlag, State.loop_setLoop_same]
    rfl
  next h => simpa using h

/-- What still runs on the old word of the schedule, or of the loop's control, may stop. -/
theorem beforeWrite_frame (hr : r = .loopSched ∨ r = .loopCtl) (s t : State) (i : Nat) :
    Frame stopRegs targetParts s (s.beforeWrite t r i) := by
  rcases hr with rfl | rfl
  · exact Frame.ite (fun _ => stopLoop_frame s i) fun _ => Frame.refl _ _ s
  · exact Frame.ite (fun _ => stopLoop_frame s i) fun _ => Frame.refl _ _ s

/-! The words. -/

theorem mergeWord_loopSched (i : Nat) {w v : Nat} (hw : w < 2 ^ 32) (hv : v < 2 ^ 32) : mergeWord .loopSched i w v = v := by
  change copyBits v (copyBits v w 31 16) 15 0 = v
  unfold copyBits putBits bitsOf
  omega

theorem mergeWord_loopCtl (i w v : Nat) : mergeWord .loopCtl i w v = copyBits v (copyBits v (copyBits v (copyBits v (copyBits v (copyBits v
    (copyBits v (copyBits v w 31 31) 30 29) 28 28) 27 27) 26 26) 25 25) 20 16) 15 8 := by rfl

/-- The written word takes EN from the value. -/
theorem en_mergeWord (i w v : Nat) : bitsOf (mergeWord .loopCtl i w v) 31 31 = bitsOf v 31 31 := by
  rw [mergeWord_loopCtl]
  unfold copyBits
  iterate 7 rw [bitsOf_putBits_above _ _ (by decide) (by decide)]
  rw [bitsOf_putBits_same _ _ le_rfl]
  exact Nat.mod_eq_of_lt (bitsOf_lt v 31 31)

/-- A schedule with the same divider and phase is the same word. -/
theorem loopSched_ext (hdiv : s.fld F.loopSchedDiv i = t.fld F.loopSchedDiv i)
    (hphase : s.fld F.loopSchedPhase i = t.fld F.loopSchedPhase i) :
    s.reg .loopSched i = t.reg .loopSched i := by
  have hs := reg_lt s .loopSched i
  have ht := reg_lt t .loopSched i
  change bitsOf (s.reg .loopSched i) 15 0 = bitsOf (t.reg .loopSched i) 15 0 at hdiv
  change bitsOf (s.reg .loopSched i) 31 16 = bitsOf (t.reg .loopSched i) 31 16 at hphase
  unfold bitsOf at hdiv hphase
  omega

/-- A schedule that changes stops its loop first. -/
theorem beforeWrite_loopSched (h : s.reg .loopSched i ≠ t.reg .loopSched i) : ((s.beforeWrite t .loopSched i).loop i).active = false := by
  have changed : (changes s t F.loopSchedDiv i || changes s t F.loopSchedPhase i) = true := by
    unfold changes
    by_contra hsame
    simp only [Bool.or_eq_true, decide_eq_true_eq, not_or, not_not] at hsame
    exact h (loopSched_ext hsame.1 hsame.2)
  change ((if (changes s t F.loopSchedDiv i || changes s t F.loopSchedPhase i) = true then s.stopLoop i else s).loop i).active = false
  rw [if_pos changed]
  exact stopLoop_inactive s i

/-- A loop that loses EN stops first. -/
theorem beforeWrite_loopCtl (hs : s.flag F.loopCtlEn i = true) (ht : t.flag F.loopCtlEn i = false) :
    ((s.beforeWrite t .loopCtl i).loop i).active = false := by
  have changed : changes s t F.loopCtlEn i = true := by
    unfold changes
    rw [decide_eq_true_eq]
    intro hsame
    rw [State.flag, hsame] at hs
    exact absurd (hs.symm.trans ht) (by decide)
  change ((if ((changes s t F.loopCtlEn i && !t.flag F.loopCtlEn i) || changes s t F.loopCtlGrpEn i
    || changes s t F.loopCtlGrpLead i) = true then s.stopLoop i else s).loop i).active = false
  rw [if_pos (by rw [changed, ht]; rfl)]
  exact stopLoop_inactive s i

/-! The path of a write. -/

theorem placed_loop (hr : r = .loopSched ∨ r = .loopCtl) (n : Fin 32) : Placed r n := by
  have h : ∀ n : Fin 32, Placed .loopSched n ∧ Placed .loopCtl n := by
    unfold Placed
    decide +kernel
  rcases hr with rfl | rfl
  · exact (h n).1
  · exact (h n).2

/-- A value that its own register takes comes to the rules of other chapters. -/
theorem writeReg_loop (hr : r = .loopSched ∨ r = .loopCtl) (hlock : s.setLocked r i = false) (hv : inRanges r v = true)
    (hval : (s.merged r i v none).valueOk r i = true) (hown : s.ownerStops (s.merged r i v none) r i = none) :
    s.writeReg m r i v a = s.applyChecked (s.merged r i v none) m r i v a := by
  have hheld : heldFor r = none := by rcases hr with rfl | rfl <;> decide +kernel
  have hlow : lowHalf r = none := by rcases hr with rfl | rfl <;> rfl
  have hcommand : s.commandReg m r i v a none = none := by rcases hr with rfl | rfl <;> rfl
  have hfixed : wordFixed r i = false := by rcases hr with rfl | rfl <;> rfl
  rw [writeReg_single hheld hlow]
  unfold State.applyWrite
  rw [hcommand]
  simp [hlock, hfixed, hv, hval, hown]

/-- A value that no rule refuses is stored, once what ran on the old one has stopped. -/
theorem applyChecked_loop (hr : r = .loopSched ∨ r = .loopCtl) (hx : m = .boot ∨ refusedBy s t r i v = none) :
    s.applyChecked t m r i v a = s.afterWrite ((s.beforeWrite t r i).setReg r i (t.reg r i)) r i v := by
  have hlow : lowHalf r = none := by rcases hr with rfl | rfl <;> rfl
  have hshade : r ≠ .linShade := by rcases hr with rfl | rfl <;> decide
  have hjudged : loadJudged r = true := by rcases hr with rfl | rfl <;> rfl
  have hpass : (if m = .boot ∧ loadJudged r = true then none else refusedBy s t r i v) = none := by
    rcases hx with rfl | hx
    · rw [if_pos ⟨rfl, hjudged⟩]
    · rw [hx, ite_self]
  unfold State.applyChecked
  simp only [hpass, hshade, hlow, if_false]

theorem merged_loop (hr : r = .loopSched ∨ r = .loopCtl) : (s.merged r i v none).reg r i = s.wordAfter r i v := by
  rw [merged_single (by rcases hr with rfl | rfl <;> rfl), reg_setReg_same]
  rfl

theorem afterWrite_loopSched : s.afterWrite t .loopSched i v = t.updateLoopAgg := by rfl

theorem afterWrite_loopCtl :
    s.afterWrite t .loopCtl i v = if bitOf v 7 then t.updateLoopAgg.setFlag F.loopCtlCommit i true else t.updateLoopAgg := by rfl

/-- The aggregate rate is shown in its own register. -/
theorem updateLoopAgg_frame (s : State) : Frame [.loopEngSts] [] s s.updateLoopAgg := (Frame.refl _ _ s).setFld (by decide)

/-! The writes that are taken. -/

/-- What a write of the schedule or of a loop's control can touch. -/
abbrev scheduleRegs : List Reg := .loopSched :: .loopCtl :: .loopEngSts :: stopRegs

/-- A loop as its new word is stored: what ran on the old one has stopped, and the aggregate rate follows. -/
def State.scheduled (s : State) (r : Reg) (i v : Nat) : State :=
  ((s.beforeWrite (s.merged r i v none) r i).setReg r i (s.wordAfter r i v)).updateLoopAgg

theorem scheduled_frame (hr : r = .loopSched ∨ r = .loopCtl) : Frame scheduleRegs targetParts s (s.scheduled r i v) :=
  ((((beforeWrite_frame hr s _ i).mono (by decide) (by decide)).setReg (by rcases hr with rfl | rfl <;> decide)).trans
    (updateLoopAgg_frame _) (by decide) (by decide))

theorem scheduled_reg (hr : r = .loopSched ∨ r = .loopCtl) : (s.scheduled r i v).reg r i = s.wordAfter r i v := by
  unfold State.scheduled
  rw [(updateLoopAgg_frame _).reg _ _ (by rcases hr with rfl | rfl <;> decide), reg_setReg_same]
  exact Nat.mod_mod _ _

theorem scheduled_loop (s : State) (r : Reg) (i v : Nat) :
    (s.scheduled r i v).loop i = (s.beforeWrite (s.merged r i v none) r i).loop i := by
  unfold State.scheduled
  rw [(updateLoopAgg_frame _).loop, State.loop_setReg]

theorem wordAfter_loopSched (s : State) (i : Nat) (w : BitVec 32) : s.wordAfter .loopSched i w.toNat = w.toNat := by
  unfold State.wordAfter
  rw [mergeWord_loopSched i (reg_lt _ _ _) w.isLt, Nat.mod_eq_of_lt w.isLt]

/-- A write of the schedule, or of a loop's control, by a master that reaches it does what the write of the register does. -/
theorem exec_scheduleWrite {w : BitVec 32} {sched : Bool} (hr : r = if sched then .loopSched else .loopCtl) (hreach : s.reaches m r n)
    (hw : s.writeReg m r n w.toNat (r.addr n) = t) (hc : keepsCore s t) : exec (.loopScheduleWrite m n sched w) s = .next t := by
  have hreg : r = .loopSched ∨ r = .loopCtl := by cases sched <;> simp [hr]
  refine congrArg Host.Outcome.next ?_
  rw [← hr]
  refine inCore_writeAt (placed_loop hreg n) hreach (by rcases hreg with rfl | rfl <;> decide) ?_ hc
  rw [Nat.mod_eq_of_lt w.isLt, hw]

/-- LOOP_SCHED is stored where its value may be and no rule of another chapter judges it, or all allow it. -/
theorem scheduleWrite_stored {w : BitVec 32} (hreach : s.reaches m .loopSched n) (hlock : s.setLocked .loopSched n = false)
    (hv : inRanges .loopSched w.toNat = true) (hval : (s.merged .loopSched n w.toNat none).valueOk .loopSched n = true)
    (hown : s.ownerStops (s.merged .loopSched n w.toNat none) .loopSched n = none)
    (hx : m = .boot ∨ refusedBy s (s.merged .loopSched n w.toNat none) .loopSched n w.toNat = none) :
    ∃ t, exec (.loopScheduleWrite m n true w) s = .next t ∧ keepsCore s t ∧ keepsBytes s t ∧ t.reg .loopSched n = w.toNat
      ∧ (w.toNat ≠ s.reg .loopSched n → (t.loop n).active = false) := by
  have stored : Frame scheduleRegs targetParts s (s.scheduled .loopSched n w.toNat) := scheduled_frame (.inl rfl)
  obtain ⟨hcore, -, hbytes⟩ := stored.keeps (by decide)
  refine ⟨_, exec_scheduleWrite (r := .loopSched) rfl hreach ?_ hcore, hcore, hbytes, ?_, fun hne => ?_⟩
  · rw [writeReg_loop (.inl rfl) hlock hv hval hown, applyChecked_loop (.inl rfl) hx, afterWrite_loopSched,
      merged_loop (.inl rfl)]
    rfl
  · rw [scheduled_reg (.inl rfl), wordAfter_loopSched]
  · rw [scheduled_loop]
    refine beforeWrite_loopSched ?_
    rw [merged_loop (.inl rfl), wordAfter_loopSched]
    exact hne.symm

/-- LOOP_CTL is stored where nothing refuses it; COMMIT sets where the value holds it. -/
theorem writeReg_loopCtl (h : s.takes .loopCtl i v) : s.writeReg m .loopCtl i v a =
    if bitOf v 7 then (s.scheduled .loopCtl i v).setFlag F.loopCtlCommit i true else s.scheduled .loopCtl i v := by
  obtain ⟨hlock, hv, hval, hown, hx⟩ := h
  rw [writeReg_loop (.inr rfl) hlock hv hval hown, applyChecked_loop (.inr rfl) (.inr hx), afterWrite_loopCtl, merged_loop (.inr rfl)]
  rfl

theorem controlWrite_stored {w : BitVec 32} (hreach : s.reaches m .loopCtl n) (h : s.takes .loopCtl n w.toNat)
    (hcommit : bitOf w.toNat 7 = false) :
    ∃ t, exec (.loopScheduleWrite m n false w) s = .next t ∧ keepsCore s t ∧ keepsBytes s t
      ∧ t.reg .loopCtl n = s.wordAfter .loopCtl n w.toNat
      ∧ (s.flag F.loopCtlEn n = true → bitOf w.toNat 31 = false → (t.loop n).active = false) := by
  have stored : Frame scheduleRegs targetParts s (s.scheduled .loopCtl n w.toNat) := scheduled_frame (.inr rfl)
  obtain ⟨hcore, -, hbytes⟩ := stored.keeps (by decide)
  refine ⟨_, exec_scheduleWrite (r := .loopCtl) rfl hreach ?_ hcore, hcore, hbytes, scheduled_reg (.inr rfl), fun hen hoff => ?_⟩
  · rw [writeReg_loopCtl h, if_neg (by rw [hcommit]; decide)]
  · rw [scheduled_loop]
    refine beforeWrite_loopCtl hen ?_
    change decide (bitsOf ((s.merged .loopCtl n w.toNat none).reg .loopCtl n) 31 31 = 1) = false
    rw [merged_loop (.inr rfl), State.wordAfter, bitsOf_mod_word _ (by decide) (by decide), en_mergeWord, ← bitOf_eq_bitsOf]
    exact hoff

/-- COMMIT stands once it is written (R178). -/
theorem notchCommit_stands {w : BitVec 32} (hreach : s.reaches m .loopCtl n) (h : s.takes .loopCtl n (withBit w.toNat 7)) :
    ∃ t, exec (.notchCommit m n w) s = .next t ∧ t.flag F.loopCtlCommit n = true ∧ keepsCore s t ∧ keepsBytes s t := by
  have hlt : withBit w.toNat 7 < 2 ^ 32 := Nat.or_lt_two_pow w.isLt (by decide)
  have hcommit : bitOf (withBit w.toNat 7) 7 = true := by
    change decide _ = true
    rw [← Nat.testBit_eq_decide_div_mod_eq, withBit, Nat.testBit_or, Nat.testBit_two_pow_self, Bool.or_true]
  have stored : Frame scheduleRegs targetParts s ((s.scheduled .loopCtl n (withBit w.toNat 7)).setFlag F.loopCtlCommit n true) :=
    (scheduled_frame (.inr rfl)).setFlag (by decide)
  obtain ⟨hcore, -, hbytes⟩ := stored.keeps (by decide)
  refine ⟨_, congrArg Host.Outcome.next (inCore_writeAt (placed_loop (.inr rfl) n) hreach (by decide) ?_ hcore),
    flag_setFlag_same _ _ (by decide) _, hcore, hbytes⟩
  rw [Nat.mod_eq_of_lt hlt, writeReg_loopCtl h, if_pos hcommit]

/-! The writes that the schedule refuses (R174, R181). -/

theorem refusedBy_loop (hr : r = .loopSched ∨ r = .loopCtl) (h : (t.phasesOk i && t.slotsClear && t.groupsOk) = false) :
    refusedBy s t r i v = some (4, s.setFlag F.loopEngStsSchedErr 0 true) := by
  have hbad : (!t.phasesOk i || !t.slotsClear || !t.groupsOk) = true := by
    rw [← Bool.not_and, ← Bool.not_and, h]
    rfl
  have hrefuse : refuseLoop s t r i = some (4, s.setFlag F.loopEngStsSchedErr 0 true) := by
    rcases hr with rfl | rfl <;> exact if_pos hbad
  have hranging : refuseRanging s t r i v = none := by rcases hr with rfl | rfl <;> rfl
  unfold refusedBy
  rw [hranging, hrefuse]
  rfl

/-- A schedule that breaks the phases, slots or groups is marked and counted. -/
theorem writeReg_loop_refused (hr : r = .loopSched ∨ r = .loopCtl) (hboot : m ≠ .boot) (hv : inRanges r v = true)
    (hval : (s.merged r i v none).valueOk r i = true)
    (h : ((s.merged r i v none).phasesOk i && (s.merged r i v none).slotsClear && (s.merged r i v none).groupsOk) = false) :
    s.writeReg m r i v a = (s.setFlag F.loopEngStsSchedErr 0 true).accErr m 4 a := by
  have hlock : s.setLocked r i = false := by rcases hr with rfl | rfl <;> rfl
  have hown : s.ownerStops (s.merged r i v none) r i = none := by rcases hr with rfl | rfl <;> rfl
  rw [writeReg_loop hr hlock hv hval hown]
  unfold State.applyChecked
  rw [if_neg (fun hb => hboot hb.1), refusedBy_loop hr h]

/-- Such a write leaves its register and its loop as they were. -/
theorem schedErr_shows (hr : r = .loopSched ∨ r = .loopCtl) (s : State) (m : Master) (a i : Nat) :
    let t := (s.setFlag F.loopEngStsSchedErr 0 true).accErr m 4 a
    t.flag F.loopEngStsSchedErr 0 = true ∧ t.reg r i = s.reg r i ∧ t.loop i = s.loop i ∧ s.countsError t ∧ keepsCore s t := by
  intro t
  have marked : Frame [.loopEngSts] [] s (s.setFlag F.loopEngStsSchedErr 0 true) := (Frame.refl _ _ s).setFlag (by decide)
  have counted : Frame errRegs postParts (s.setFlag F.loopEngStsSchedErr 0 true) t := (Frame.refl _ _ _).accErr
  refine ⟨?_, ?_, (counted.loop i).trans (State.loop_setFlag ..), ?_, keepsCore_trans marked.core counted.core⟩
  · rw [counted.flag _ _ (by decide)]
    exact flag_setFlag_same _ _ (by decide) _
  · rw [counted.reg _ _ (by rcases hr with rfl | rfl <;> decide), marked.reg _ _ (by rcases hr with rfl | rfl <;> decide)]
  · have hcount := accErr_counts (s.setFlag F.loopEngStsSchedErr 0 true) m 4 a
    unfold State.countsError at hcount ⊢
    rw [marked.fld _ _ (by decide)] at hcount
    exact hcount

theorem scheduleWrite_refused {w : BitVec 32} (sched : Bool) (hr : r = if sched then .loopSched else .loopCtl) (hreach : s.reaches m r n)
    (hboot : m ≠ .boot) (hv : inRanges r w.toNat = true) (hval : (s.merged r n w.toNat none).valueOk r n = true)
    (h : ((s.merged r n w.toNat none).phasesOk n && (s.merged r n w.toNat none).slotsClear
      && (s.merged r n w.toNat none).groupsOk) = false) :
    ∃ t, exec (.loopScheduleWrite m n sched w) s = .next t ∧ t.flag F.loopEngStsSchedErr 0 = true ∧ t.reg r n = s.reg r n
      ∧ t.loop n = s.loop n ∧ s.countsError t ∧ keepsCore s t := by
  have hreg : r = .loopSched ∨ r = .loopCtl := by cases sched <;> simp [hr]
  obtain ⟨herr, hkeep, hloop, hcount, hcore⟩ := schedErr_shows hreg s m (r.addr n) n
  exact ⟨_, exec_scheduleWrite hr hreach (writeReg_loop_refused hreg hboot hv hval h) hcore, herr, hkeep, hloop, hcount, hcore⟩

end Sys2Proof.Machine
end

section
/-! The statement of the loops (R174 to R178, R185), clause by clause. -/
namespace Sys2Proof.Machine

variable {s t : State} {n : Fin 32} {fb e i0 p ie i1 u : Int}

theorem exec_loopSlot (h : s.loopSlot n = t) (hc : keepsCore s t) : exec (.loopSlot n) s = .next t :=
  congrArg Host.Outcome.next (inDev_eq h hc)

/-- A sample instant of a running loop: one that leads itself runs on, a member waits for its feedback or computes with it (R175, R185). -/
theorem loopSlot_runs (hruns : s.loopRuns n = true) :
    let member := s.flag F.loopCtlGrpEn n && decide (s.fld F.loopCtlGrpLead n ≠ n.val)
    ∃ t, exec (.loopSlot n) s = .next t ∧ keepsCore s t ∧ keepsBytes s t
      ∧ (member = false → (t.loop n).active = true)
      ∧ (member = true → (s.loop n).latched = none → t.loop n = s.loop n ∧ keepsRegs [.loopSaxSpeed] s t)
      ∧ (member = true → (s.loop n).latched ≠ none → (t.loop n).active = true ∧ (t.loop n).latched = none) := by
  intro member
  obtain ⟨hcore, -, hbytes⟩ := (loopSlot_frame hruns).keeps (by decide)
  refine ⟨_, exec_loopSlot rfl hcore, hcore, hbytes, fun hmember => ?_, fun hmember hl => ?_, fun hmember hl => ?_⟩
  · obtain ⟨u, f, -, heq⟩ := loopSlot_leads hruns hmember
    rw [heq, (InSlot.computeLoop _ f).active, startLoop_active]
  · have sampled := sampleAxes_frame s
    rw [loopSlot_waits hruns hmember hl]
    exact ⟨sampled.loop n, sampled.reg⟩
  · obtain ⟨f, hf⟩ := Option.ne_none_iff_exists'.mp hl
    have computed := InSlot.computeLoop (n := n) ((s.takeLatched n).startLoop n f.1) f
    rw [loopSlot_member hruns hmember hf, computed.active, computed.latched, startLoop_active, startLoop_latched]
    exact ⟨rfl, by rw [State.takeLatched, State.loop_setLoop_same]⟩

/-- The sample instant of a plain loop: feedback `fb` and error `e` make the output `u`, and the waiting one is applied (R175 to R177). -/
theorem loopSlot_regulates (h : PlainLoop s n) (hfb : s.sfld F.loopSaxPosPos (s.fld F.loopSrcFbIdx n % 4) = fb)
    (he : s.sfld F.loopSpSp n - fb = e) (hi0 : (if (s.loop n).active then (s.loop n).i else 0) = i0) (hp : s.sfld F.loopKpKp n * e = p)
    (hie : divFloor (s.sfld F.loopKiKi n * e) (2 ^ 8) = ie)
    (hi1 : clampI (s.sfld F.loopOutMinOutMin n * 2 ^ 16) (s.sfld F.loopOutMaxOutMax n * 2 ^ 16) (i0 + ie) = i1)
    (hu : clampI (s.sfld F.loopOutMinOutMin n) (s.sfld F.loopOutMaxOutMax n) (divAway (p + i1) (2 ^ 16)) = u)
    (fitsP : Fits48 p) (fitsI : Fits48 ie) (fitsW : Fits48 (p + i1)) :
    ∃ t, exec (.loopSlot n) s = .next t ∧ keepsCore s t ∧ keepsBytes s t ∧ keepsRegs slotRegs s t
      ∧ (t.loop n).active = true ∧ (t.loop n).next = some u ∧ t.sfld F.loopFbFb n = fb
      ∧ (t.loop n).i = (if (u = s.sfld F.loopOutMaxOutMax n ∧ 0 < e) ∨ (u = s.sfld F.loopOutMinOutMin n ∧ e < 0) then i0 else i1)
      ∧ (u = s.sfld F.loopOutMinOutMin n ∨ u = s.sfld F.loopOutMaxOutMax n → t.flag F.loopStsSat n = true)
      ∧ (∀ w, (s.loop n).active = true → (s.loop n).next = some w → -2 ^ 31 ≤ w → w < 2 ^ 31 → t.sfld F.loopOutOut n = w)
      ∧ ((s.loop n).active = false ∨ (s.loop n).next = none → t.reg .loopOut n = s.reg .loopOut n) := by
  obtain ⟨w, primed, heq⟩ := h.primed hfb
  have law := primed.law he hi0 hp hie hi1 fitsP fitsI fitsW
  rw [hu, ← heq] at law
  obtain ⟨hcore, hregs, hbytes⟩ := (loopSlot_frame h.runs).keeps (by decide)
  obtain ⟨hout, hkept⟩ := applied_out s n
  have latched : Frame [.loopFb] [] (s.sampleAxes.applyOwn n) ((s.sampleAxes.applyOwn n).setSfld F.loopFbFb n fb) :=
    (Frame.refl _ _ _).setSfld (by decide)
  have later := primed.since.trans law.frame (by decide) (by decide)
  refine ⟨_, exec_loopSlot rfl hcore, hcore, hbytes, hregs, law.active.trans primed.active, law.next, ?_, ?_, fun hlim => law.sat ?_,
    fun w ha hn hlo hhi => ?_, fun hnone => ?_⟩
  · rw [later.sfld _ _]
    exact latched_shows hfb _
  · rw [law.integral, primed.whole.sfld _ _, primed.whole.sfld _ _]
  · rw [primed.whole.sfld _ _, primed.whole.sfld _ _]
    exact hlim
  · rw [later.sfld _ _, latched.sfld _ _]
    exact hout w ha hn hlo hhi
  · rw [later.reg _ _ (by decide), latched.reg _ _ (by decide)]
    exact hkept hnone

/-- Settles O32: a sample instant is taken apart into its stretches, of which the last is the control law; a write follows its path
through the rules of the schedule. -/
theorem loopSamples : Obligations.LoopSamples := by
  intro m n v s k fb e lo hi i0 p ie i1 fits u member
  refine ⟨fun hidle => exec_loopSlot (loopSlot_idle hidle) (keepsCore_refl s), loopSlot_runs,
    fun hruns hgrp hmode hsp h0 h1 hkind hheld =>
      loopSlot_regulates ⟨hruns, hgrp, hmode, hsp, h0, h1, hkind, hheld⟩ rfl rfl rfl rfl rfl rfl rfl,
    fun hreach ⟨hlock, hv, hval, hown, hx⟩ => scheduleWrite_stored hreach hlock hv hval hown (.inr hx), controlWrite_stored,
    fun sched hreach hboot hv hval h => scheduleWrite_refused sched rfl hreach hboot hv hval h,
    fun hreach hlock hv hval hown => ?_, notchCommit_stands⟩
  obtain ⟨t, hexec, hcore, hbytes, hreg, -⟩ := scheduleWrite_stored hreach hlock hv hval hown (.inl rfl)
  exact ⟨t, hexec, hcore, hbytes, hreg⟩

end Sys2Proof.Machine
end
